-- ==== Sys2Proof/Word.lean ====
section
/-! DEFINITION. The word types of the QZ8164 and the sparse table type; plainest arithmetic only. -/

namespace Sys2Proof

/-- One byte of a Casut packet, plate image, hopper record or frame (R11). -/
abbrev Byte := BitVec 8

/-- A 32-bit register or packet word. -/
abbrev Word := BitVec 32

/-- A sparse table: key and value pairs, keys strictly rising, no pair equal to the table's default
(the default is the argument of the operations in Machine/Ops.lean). -/
abbrev Map (α : Type) := List (Nat × α)

/-- ceil(a / b) for b > 0 (R71, R228 and elsewhere). -/
def ceilDiv (a b : Nat) : Nat := (a + b - 1) / b

end Sys2Proof
end

