-- ==== Sys2Proof/Syntax.lean ====
section
/-! DEFINITION. The commands of the block: one constructor per row of spec/opcode_table.json, in the table's order. -/

namespace Sys2Proof

/-- Command ports (Table 12.6): board, host, in-band, pair; codes 0 to 3 of the reply header. -/
inductive Port | board | host | inband | pair
  deriving DecidableEq, Repr

/-- The header fields of a Casut packet a sender chooses (Table 12.1), with the port it arrives on.
VERSION, OPCODE, PLEN and CRC are the transport's (Decode.lean). -/
structure Hdr where
  port : Port
  flags : BitVec 8
  tag : BitVec 16
  session : BitVec 32
  exec : BitVec 32
  deriving DecidableEq, Repr

/-- Parameters of TERM_ADD (Table 12.13): a slot entry, or the tree settings under local index 0xFF. -/
inductive TermArg
  | slot (flags rate : BitVec 8) (serial : BitVec 64) (a0 a1 a2 a3 : BitVec 16) (impr : BitVec 32) (wrap : BitVec 192)
  | settings (rtdMin : BitVec 32) (reach disc limit rogue bisect drift tAck : BitVec 8) (tDisc tPopup : BitVec 16)
  deriving DecidableEq, Repr

/-- Parameters of PROT_CFG (Table 12.14). -/
inductive ProtArg
  | tree (index mode home losBursts xtrig : BitVec 8) (skew : BitVec 16)
  | port (index spare utrig : BitVec 8)
  deriving DecidableEq, Repr

/-- The lease messages of Table 11.4. -/
inductive LeaseKind | idle | renew | grant | release | fenced | leave
  deriving DecidableEq, Repr

/-- A record of the state stream as STREAM carries it (Table 11.2). `command` holds a mirrored packet's bytes;
`e` of a lease message is E of a renewal or grant, X of a release or 0 for none, in the receiver's counter; an IDLE frame comes on LEASE_RX alone.
A REPAIR is a whole frame (`repair`) or the data bytes of codeword `cw` of the burst of a terminal's allocation (`repairCw`). A TERMINAL record is a slot's state
(`terminal`), a drift correction (`drift`) or a step of a tree's rogue procedure (`rogue`). -/
inductive Rec
  | ingress (lane : Nat) (flow : BitVec 16) (len : Nat) (point : BitVec 32)
  | repair (flow : BitVec 16) (point : BitVec 32) (data : List Byte)
  | repairCw (tree term alloc cw : Nat) (data : List Byte)
  | command (dseq : BitVec 32) (packet : List Byte)
  | terminal (g : Nat) (st : Nat) (eqd rtd : Nat) (wasActive : Bool) (tries : Nat)
  | time (dom : Bool) (st : Nat) (cb : Nat) (tau : Int) (r : Int) (mpd : Int) (asym : Int) (kb : Int) (sel : Bool) (k : Int)
  | burst (tree term alloc : Nat) (found : Bool) (offset : Int) (erasures : Nat) (bipOk : Bool)
  | delivered (flow : BitVec 16) (point : BitVec 32)
  | rogue (tree : Nat) (running : Bool) (quiet : Nat) (named : Option Nat) (cands withheld : List Nat) (suspect : Option Nat)
  | drift (g : Nat) (eqd : Nat)
  | defect (tree : Nat) (code : Nat) (declared : Bool)
  | digest (impr : BitVec 32) (value : BitVec 128)
  | lease (k : LeaseKind) (num : Nat) (epoch : BitVec 32) (e : Nat)
  /-- a gap marker (Table 13.10): first and last dropped number, low 64 bits of the sender's counter at the first drop -/
  | gap (first last : BitVec 32) (at_ : BitVec 64)
  deriving DecidableEq, Repr

/-- A stream record with the canonical stroke it names, in the receiver's counter (R333). -/
structure StreamRec where
  stroke : Nat
  body : Rec
  deriving DecidableEq, Repr

/-- What a receiver observes of one granted burst (R117 to R122): SD asserted in any sample, SD asserted in
every sample, line-bit positions within the search with the bits that stand there (offset from E in line bits; the bits from the most
significant one on, as many as the delimiter has at the rate), for each codeword the bits corrected (none: uncorrectable), the ONU-ID and RDI of the
FS header, the BIP result, the status reports by allocation index. -/
structure BurstObs where
  sdAny : Bool
  sdAll : Bool
  delims : List (Int × BitVec 160)
  cws : List (Option Nat)
  onu : Nat
  rdi : Bool
  bipOk : Bool
  reports : List (Nat × Nat)
  deriving DecidableEq, Repr

/-- One upstream XGEM frame or fragment (R164, R165, R186): Port-ID, key index, byte of the burst's data at which it begins, last-fragment flag,
payload as on the line (encrypted where the key index says so), whether a byte lay in an erased codeword; `idle` marks the idle Port-ID. -/
structure Xgem where
  portId : BitVec 16
  key : BitVec 2
  pos : Nat
  last : Bool
  data : List Byte
  erased : Bool
  idle : Bool := false
  deriving DecidableEq, Repr

/-- The integrity key under which the MIC of an upstream PLOAM message verifies (R139). -/
inductive MicKey
  | none_ | dflt
  | key (k : BitVec 128)
  deriving DecidableEq, Repr

/-- The place searched for a delimiter (R117, R150): its time in 1/40 mc and the bits that stand there, in the most significant places. -/
structure Delim where
  at_ : Nat
  seen : BitVec 160
  deriving DecidableEq, Repr

/-- How an upstream PLOAM message came: the key its MIC verifies under, and the delimiter of its PLOAM-only response (R147, R155); none: in the PLOAMu of
a plate burst (R102). -/
structure PloamVia where
  mic : MicKey
  delim : Option Delim := none
  deriving DecidableEq, Repr

/-- What makes an exchange valid (R313): whether it carries both time-stamps, and the master's clockIdentity. -/
structure ExSrc where
  stamps : Bool
  ident : BitVec 64
  deriving DecidableEq, Repr

/-- A message as received: its 48 bytes (R154) and how it came. -/
structure PloamBody where
  msg : List Byte
  via : PloamVia
  deriving DecidableEq, Repr

/-- Levels at a tree's SD ball, one per CK_SLOW cycle from a counter value on (R125). -/
structure SdRun where
  tree : Fin 64
  at_ : Nat
  levels : List Bool
  deriving DecidableEq, Repr

/-- What SD showed in the window of a rogue probe (R159): asserted for 64 mc in a row, and in any sample. -/
structure SdSeen where
  energy : Bool
  any : Bool
  deriving DecidableEq, Repr

/-- A candidate delimiter of a ranging or probe response (R148): its time A_d in 1/40 mc of the counter, the 40 bits that stand there, in the most
significant places; then the codeword's result, the ONU-ID of the FS header and the MIC of Registration. -/
structure RegResp where
  delim : Nat
  seen : BitVec 160
  cwOk : Bool
  onu : Nat
  mic : MicKey
  deriving DecidableEq, Repr

/-- What one decision tick measures of a reference (R281, Table 9.3): index, f_r in ppb, phase movement beyond the
prediction in units of 10 ns. -/
structure RefMeas where
  ref : Fin 16
  f : Int
  move : Nat
  deriving DecidableEq, Repr

/-- A BAR0 read (R395, R397): its address and its width in bytes. -/
structure BarRead where
  addr : Word
  width : Nat
  deriving DecidableEq, Repr

/-- Codewords completed at an uplink port since its last frame (R257): symbols corrected, none for an uncorrectable one; and how many of the newest
codewords reported, one reported before included, the frame overlaps. -/
structure FecRun where
  cws : List (Option Nat)
  overlap : Nat
  deriving DecidableEq, Repr

/-- What a start reads (Table 14.6, R437, R448): whether slot B's signature is good; the section of the save that fails its CRC, 0 for a format the
firmware cannot read, none for a good save; the byte VOUT_MODE reads. -/
structure StartObs where
  sigB : Bool
  bad : Option Nat := none
  voutMode : BitVec 8
  deriving DecidableEq, Repr

/-- Boundary-scan instructions (R465). -/
inductive Jtag | bypass | sample | preload | extest | clamp | highz | extestPulse | extestTrain
  deriving DecidableEq, Repr

/-- The commands: Casut packets, transports, register accesses with behaviour, pin and internal events. -/
inductive Instr
  -- Casut opcodes (Tables 12.10, 12.13, 12.14, 12.15)
  | nop (h : Hdr)
  | hello (h : Hdr) (offer : BitVec 64) (build : BitVec 32) (unit pflags revision : BitVec 8) (keychk : BitVec 24)
  | features (h : Hdr) (set : BitVec 8) (mask : BitVec 64)
  | fence (h : Hdr) (action : BitVec 8)
  | bye (h : Hdr)
  | regRd (h : Hdr) (addr : Word) (width : BitVec 8) (count : BitVec 16)
  | regWr (h : Hdr) (addr : Word) (width : BitVec 8) (count : BitVec 16) (data : List Byte)
  | regRmw (h : Hdr) (addr mask value : Word)
  | snapshot (h : Hdr)
  | plateOpen (h : Hdr) (bank : BitVec 8)
  | plateData (h : Hdr) (bank : BitVec 8) (off : Word) (data : List Byte)
  | plateProof (h : Hdr) (bank : BitVec 8)
  | plateTurn (h : Hdr) (bank : BitVec 8) (id : BitVec 128) (target : Word)
  | plateAbort (h : Hdr) (bank : BitVec 8)
  | plateInfo (h : Hdr) (bank : BitVec 8)
  | termAdd (h : Hdr) (tree slot : BitVec 8) (a : TermArg)
  | termRange (h : Hdr) (tree slot : BitVec 8)
  | termActivate (h : Hdr) (tree slot : BitVec 8)
  | termDisable (h : Hdr) (tree slot action : BitVec 8)
  | termKey (h : Hdr) (tree dom dir action : BitVec 8) (target : Word) (wrapped : BitVec 192)
  | ploamSend (h : Hdr) (tree slot type : BitVec 8) (content : List Byte)
  | termRate (h : Hdr) (tree slot rate : BitVec 8)
  | millSet (h : Hdr) (table : BitVec 8) (idx : Word) (d : List Word)
  | millGet (h : Hdr) (table : BitVec 8) (idx : Word)
  | tribSet (h : Hdr) (entry : List Byte)
  | tribGet (h : Hdr) (flow : BitVec 16)
  | screenSet (h : Hdr) (entry : List Byte)
  | screenGet (h : Hdr) (entry : List Byte)
  | genSet (h : Hdr) (flow : BitVec 16) (gen : BitVec 8)
  | genGet (h : Hdr) (flow : BitVec 16)
  | timeArm (h : Hdr) (dom : BitVec 8)
  | timeSet (h : Hdr) (dom : BitVec 8) (sec : BitVec 48) (ns : Word)
  | timeDisable (h : Hdr) (dom : BitVec 8)
  | timeSel (h : Hdr) (dom : BitVec 8)
  | acceptPathStep (h : Hdr) (dom : BitVec 8) (asym : Word)
  | timeConv (h : Hdr) (dom : BitVec 8) (count : BitVec 64)
  | todGet (h : Hdr) (tree : BitVec 8) (n : Word)
  | pairJoin (h : Hdr)
  | pairLeave (h : Hdr)
  | pairSwitch (h : Hdr)
  | pairVerdict (h : Hdr) (verdict : BitVec 8) (epoch : Word)
  | pairInfo (h : Hdr)
  | protCfg (h : Hdr) (a : ProtArg)
  | protSwitch (h : Hdr) (port : BitVec 8)
  | stream (h : Hdr) (recs : List StreamRec)
  | copy (h : Hdr) (tier section_ : BitVec 8) (off : Word) (data : List Byte)
  | pwrSet (h : Hdr) (dom state : BitVec 8)
  | pwrInfo (h : Hdr)
  | sagCfg (h : Hdr) (th : BitVec 8)
  | fwOpen (h : Hdr) (slot : BitVec 8)
  | fwData (h : Hdr) (slot : BitVec 8) (off : Word) (data : List Byte)
  | fwCommit (h : Hdr) (slot : BitVec 8)
  | fwInfo (h : Hdr)
  | reset (h : Hdr) (kind : BitVec 8)
  | logRead (h : Hdr) (off : Word) (len : BitVec 16)
  | i2cXfer (h : Hdr) (bus addr wlen rlen : BitVec 8) (wdata : List Byte)
  | kwkSet (h : Hdr) (key : BitVec 128)
  | cntRead (h : Hdr) (addr : Word) (count : BitVec 16)
  | defectGet (h : Hdr) (cls flags : BitVec 8) (index : BitVec 16)
  | defectCfg (h : Hdr) (kind sdExp sfExp : BitVec 8) (setT clrT : BitVec 16)
  | bwWindow (h : Hdr) (ms : Word)
  | hopRead (h : Hdr) (hop count : BitVec 16) (flags : BitVec 8)
  | hopMark (h : Hdr) (hop : BitVec 16)
  | hopRewind (h : Hdr) (hop : BitVec 16)
  | hopRelease (h : Hdr) (hop : BitVec 16) (seq : Word)
  | hopCfg (h : Hdr) (hop : BitVec 16) (owner : BitVec 8) (level : Word)
  -- transports and the interpreter's own steps
  /-- the bytes on SPI_MOSI after the kind byte 0x01 (Table 12.8) -/
  | writeTransaction (bytes : List Byte)
  /-- bytes clocked in the transaction, the kind byte 0x02 included -/
  | readTransaction (clocked : Nat)
  | statusTransaction
  | commandFetch (fetchOk : Bool) (len : BitVec 16) (bytes : List Byte)
  | replyWrite (cap : BitVec 16)
  | commandStart
  | timedExecution
  -- BAR0 accesses
  | registerWrite (addr : Word) (width : Nat) (value : BitVec 64)
  | bitAlias (addr : Word) (value : Word)
  | highHalfLatch (path : Option Port) (rd : BarRead)
  | sequenceClear (addr : Word) (value : Word)
  | lock (addr : Word) (value : Word)
  | treeCtl (tree : Fin 64) (target : BitVec 2)
  | treeTransition (tree : Fin 64)
  | mwRead
  | mwWrite
  | capture
  | selDom (dom : Bool)
  | snapCtlGo
  | owner (hop : Fin 2) (o : BitVec 2)
  | hwmClr (hop : BitVec 8)
  | ringReset
  | run (on : Bool)
  | cmdTail (tail : BitVec 10)
  | rplTail (tail : BitVec 10)
  | realign (out : Fin 6)
  | wtrClr
  | manualRef (r : BitVec 5)
  | ccfg (k : Fin 4) (value : Word)
  | mode (value : Word)
  | quadCfg (quad : Fin 8) (m : BitVec 2)
  | portEnable (lane : Fin 32) (on : Bool)
  | twinEn (lane : Fin 32) (on : Bool) (twinOf : BitVec 5)
  | gpioCfg (k : Fin 16) (value : Word)
  -- start-up, save, power, pins
  | porstNAssert
  | startUp (sigA : Bool) (obs : StartObs)
  | fwTrial (pass : Bool)
  | fwCommitted (slot : Bool) (good : Bool)
  | rootPllLoss
  | sagDetection (vhold : BitVec 16)
  | saveDone (torn : Bool) (cycles : Nat) (vhold : BitVec 16)
  /-- section of the save that fails its CRC; 0 for a format the firmware cannot read; none for a good save -/
  | warmRestart (badSection : Option Nat) (sigA sigB : Bool)
  /-- STATUS_WORD as read; none where the read fails its third time -/
  | pmbAlert (statusWord : Option (BitVec 16))
  | avsAdjust (below twice : Bool) (ack : Bool)
  | pmbusPoll (ack : Bool) (vout iout : BitVec 16)
  | avsRetry (ack : Bool)
  | pwrDone (dom : Fin 80)
  | fenceInAssert
  | fenceInDeassert
  | instructionLoad (i : Jtag)
  | trst
  -- plate engine
  | impressionBoundary
  | turnCutoff
  | turnLead
  | plateProved (bank : Bool)
  | mramCopy
  | plateEcc (word : Word)
  | frameCompose (tree : Fin 64)
  /-- queues whose next drawn frame holds an uncorrectable word (R234) -/
  | strokeBoundary (ecc : List Nat)
  | commit (lane : Fin 24) (seq : Word) (good : Bool)
  -- tree side
  | burstAnnounce (tree : Fin 64) (k : Nat) (tapEcc : Bool)
  | burstRx (tree : Fin 64) (k : Nat) (obs : BurstObs)
  | burstEnd (tree : Fin 64) (k : Nat)
  | bankRelease (tree : Fin 64) (k : Nat)
  | upstreamXgem (tree : Fin 64) (k : Nat) (x : Xgem)
  | fragTimeout (tree : Fin 64) (term : Fin 128) (portId : BitVec 16)
  | oog (run : SdRun)
  | discoveryWindow (tree : Fin 64)
  | rangingWindow (tree : Fin 64)
  | serialNumberOnu (tree : Fin 64) (serial : BitVec 64) (delim : Delim) (cwOk : Bool) (mic : MicKey)
  | registration (tree : Fin 64) (slot : Fin 128) (resp : Option RegResp)
  | acknowledgement (tree : Fin 64) (slot : Fin 128) (seq : BitVec 8) (body : PloamBody)
  | ploamIn (tree : Fin 64) (slot : Fin 128) (type : BitVec 8) (msg : List Byte) (via : PloamVia)
  | tDisc (tree : Fin 64) (slot : Fin 128)
  | tAck (tree : Fin 64) (slot : Fin 128) (seq : BitVec 8)
  | tPopup (tree : Fin 64) (slot : Fin 128)
  | tRedisable (tree : Fin 64) (slot : Fin 128)
  | tSnMute (serial : BitVec 64)
  | rogueTrigger (tree : Fin 64)
  /-- the ONU-ID of a burst that decoded, and what SD showed -/
  | rogueProbe (tree : Fin 64) (onu : Option Nat) (sd : SdSeen)
  | rogueClear (tree : Fin 64)
  | keyDrain (tree dom : Fin 64) (dir : Bool)
  | keyEcc (tree dom : Fin 64) (dir slot : Bool)
  -- tributaries
  | tribMap (flow : BitVec 16)
  | occurrenceDecision (flow : BitVec 16)
  | tbLof (flow : BitVec 16)
  -- uplinks
  /-- a received frame, and the codewords completed since the last one: symbols corrected, none for an uncorrectable one (R257) -/
  | uplinkFrameRx (lane : Fin 32) (bytes : List Byte) (fcsOk : Bool) (fec : FecRun)
  | pauseExpiry (lane : Fin 32)
  | frerReset (entry : List Byte)
  | esmcTimeout (lane : Fin 32)
  | esmcInfo (lane : Fin 32)
  | ulLos (lane : Fin 32)
  | ulLof (lane : Fin 32)
  | ulRdi (lane : Fin 32)
  | ulClear (lane : Fin 32)
  | rehash (lane : Fin 32)
  -- protection and pair
  | feederHandover
  | handoverHeld
  /-- kind of fault, and the tree or hopper it lies in -/
  | internalUncorrectable (kind : Fin 8) (tree : Fin 64)
  | renewal
  | renew (num : Nat) (epoch : Word) (e : Nat)
  | grant (num : Nat) (epoch : Word)
  | fencePoint
  | raisePoint
  | release (epoch : Word) (x : Option Nat)
  | fencedNotice (epoch : Word)
  | leave
  | sbLost
  | switchover
  | streamExecute
  | ingress (r : StreamRec)
  | repair (r : StreamRec)
  | commandRecord (r : StreamRec)
  | terminalRecord (r : StreamRec)
  | timeRecord (r : StreamRec)
  | burstRecord (r : StreamRec)
  | delivered (r : StreamRec)
  | defectRecord (r : StreamRec)
  | digestRecord (r : StreamRec)
  | digestTimeout
  | streamRewind
  | quickTier
  | slowTier
  | plLos
  | plLosClear
  -- timing
  | decisionTick (ms : List RefMeas) (phaseNs freqPpb : Int)
  | wtrExpiry (r : Fin 16)
  | dpllLock
  | refDefectClear (r : Fin 16) (code : BitVec 8)
  | refLosTimeout (r : Fin 16)
  | holdoverSample
  | holdoverRecord
  | tempRead (raw : Option (BitVec 16))
  | inputEdge (pps : Bool)
  | ptpSend (lane : Fin 32) (dom : Bool) (msg : BitVec 4) (seq : BitVec 16) (twoStep : Bool)
  | ptpExchange (dom : Bool) (src : ExSrc) (offset mpd : Int)
  | masterLost (dom : Bool) (announce : Bool)
  | bwWindowEnd
  | noRenew
  | remoteFault (lane : Fin 32) (on : Bool)
  | localFault (lane : Fin 32) (on : Bool)
  | outputPulse (out : Fin 6)
  | i2cDone (bus : Fin 8) (ok busy : Bool) (rdata : List Byte)
  deriving DecidableEq, Repr

end Sys2Proof
end

