-- ==== Sys2Proof/WellFormed.lean ====
section
/-! DEFINITION. Which command terms stand for a command: byte lists have the length the opcode's layout gives them. -/

namespace Sys2Proof

/-- REG_WR carries COUNT × WIDTH bytes of data within the 4,096 parameter bytes of a packet (Tables 12.1, 12.10). -/
def wfRegWr (width : BitVec 8) (count : BitVec 16) (data : List Byte) : Bool :=
  data.length = count.toNat * width.toNat && data.length ≤ 4088

/-- DATA of PLATE_DATA and FW_DATA fits a packet: at most 4,080 bytes, a multiple of 4 (R357, Table 12.10). -/
def wfChunk (data : List Byte) : Bool := data.length ≤ 4080 && data.length % 4 = 0

/-- I2C_XFER carries WLEN bytes padded to 4 (Table 12.14). -/
def wfI2c (wlen : BitVec 8) (wdata : List Byte) : Bool := wdata.length = (wlen.toNat + 3) / 4 * 4

/-- TERM_ADD carries the tree settings under local index 0xFF and a slot entry under every other (Table 12.13). -/
def wfTermAdd (slot : BitVec 8) : TermArg → Bool
  | .slot .. => slot ≠ 0xFF
  | .settings .. => slot = 0xFF

/-- A command term is well formed. -/
def Instr.wf : Instr → Bool
  | .regWr _ _ w c d => wfRegWr w c d
  | .plateData _ _ _ d => wfChunk d
  | .fwData _ _ _ d => wfChunk d
  | .copy _ _ _ _ d => wfChunk d
  | .termAdd _ _ l a => wfTermAdd l a
  | .ploamSend _ _ _ _ c => c.length = 36
  | .millSet _ _ _ d => d.length = 8
  | .tribSet _ e => e.length = 32
  | .screenSet _ e => e.length = 24
  | .screenGet _ e => e.length = 24
  | .frerReset e => e.length = 24
  | .i2cXfer _ _ _ wlen _ d => wfI2c wlen d
  | .ploamIn _ _ _ m _ => m.length = 48
  | .acknowledgement _ _ _ b => b.msg.length = 48
  | _ => true

end Sys2Proof
end

