-- ==== Sys2Proof/Decode.lean ====
section
/-! DEFINITION. Decoding: the table gives no row any bits, so no word spells a command; a Casut packet's bytes spell one
(R357, Tables 12.1, 12.10, 12.13 to 12.15). -/

namespace Sys2Proof

/-- The command a table word spells: none, because no row of spec/opcode_table.json carries bits. -/
def decodeTableWord (_nbits _w : Nat) : Option Instr := none

/-- v in n bytes, most significant first (R11). -/
def beBytes : Nat → Nat → List Byte
  | 0, _ => []
  | n + 1, v => BitVec.ofNat 8 (v / 256 ^ n) :: beBytes n (v % 256 ^ n)

/-- The number of a byte string, most significant first. -/
def beNat (l : List Byte) : Nat := l.foldl (fun a b => a * 256 + b.toNat) 0

/-- Bytes i to i + n − 1 of a string, zeros beyond its end. -/
def bytesAt (l : List Byte) (i n : Nat) : List Byte :=
  let m := (l.drop i).take n
  m ++ List.replicate (n - m.length) 0

/-- The big-endian number in bytes i to i + n − 1. -/
def natAt (l : List Byte) (i n : Nat) : Nat := beNat (bytesAt l i n)

/-- CRC-32C of one byte more, reflected polynomial 0x82F63B78. -/
def crcBits : Nat → BitVec 32 → BitVec 32
  | 0, c => c
  | n + 1, c => crcBits n (if c.getLsbD 0 then (c >>> 1) ^^^ 0x82F63B78 else c >>> 1)

/-- CRC-32C (Castagnoli) of a byte string, R357: preset and final inversion of all bits. -/
def crc32c (l : List Byte) : BitVec 32 := ~~~ l.foldl (fun c b => crcBits 8 (c ^^^ b.setWidth 32)) 0xFFFFFFFF

/-- The header of a packet received on a port (Table 12.1). -/
def pktHdr (port : Port) (l : List Byte) : Hdr :=
  { port := port, flags := BitVec.ofNat 8 (natAt l 1 1), tag := BitVec.ofNat 16 (natAt l 4 2),
    session := BitVec.ofNat 32 (natAt l 8 4), exec := BitVec.ofNat 32 (natAt l 12 4) }

def pktOpcode (l : List Byte) : Nat := natAt l 2 2
def pktPlen (l : List Byte) : Nat := natAt l 6 2

/-- Intake check 1: the CRC in bytes 16 + PLEN to 19 + PLEN is that of all bytes before it; a packet too short to hold it
fails (R357). -/
def pktCrcOk (l : List Byte) : Bool :=
  let n := 16 + pktPlen l
  decide (n + 4 ≤ l.length) && crc32c (l.take n) == BitVec.ofNat 32 (natAt l n 4)

/-- Byte offset of the first reserved parameter field with a non-zero byte (R13); 0 for none. Fields are (offset, bytes) in the
parameters. -/
def rsvBad (p : List Byte) : List (Nat × Nat) → Nat
  | [] => 0
  | (o, n) :: r => if natAt p o n ≠ 0 then 16 + o else rsvBad p r

/-- The command of an opcode whose parameters have length n and reserved fields rs: none with offset 6 (PLEN) where the
length is another; else the command and the offset of the first non-zero reserved field, 0 for none. -/
def opForm (p : List Byte) (n : Nat) (rs : List (Nat × Nat)) (c : Instr) : Option Instr × Nat :=
  if p.length = n then (some c, rsvBad p rs) else (none, 6)

/-- The command an opcode and its parameter bytes spell. -/
def decodeOp (h : Hdr) (op : Nat) (p : List Byte) : Option Instr × Nat :=
  let b := fun i => BitVec.ofNat 8 (natAt p i 1)
  let u := fun i => BitVec.ofNat 16 (natAt p i 2)
  let w := fun i => BitVec.ofNat 32 (natAt p i 4)
  let q := fun i => BitVec.ofNat 64 (natAt p i 8)
  let b4 := [(1, 3)]
  match op with
  | 0x0000 => opForm p 0 [] (.nop h)
  | 0x0001 => opForm p 20 [(15, 1), (19, 1)] (.hello h (q 0) (w 8) (b 12) (b 13) (b 14) (BitVec.ofNat 24 (natAt p 16 3)))
  | 0x0002 => opForm p 12 b4 (.features h (b 0) (q 4))
  | 0x0003 => opForm p 4 b4 (.fence h (b 0))
  | 0x0004 => opForm p 0 [] (.bye h)
  | 0x0100 => opForm p 8 [(5, 1)] (.regRd h (w 0) (b 4) (u 6))
  | 0x0101 => opForm p (8 + natAt p 4 1 * natAt p 6 2) [(5, 1)] (.regWr h (w 0) (b 4) (u 6) (p.drop 8))
  | 0x0102 => opForm p 12 [] (.regRmw h (w 0) (w 4) (w 8))
  | 0x0103 => opForm p 0 [] (.snapshot h)
  | 0x0200 => opForm p 4 b4 (.plateOpen h (b 0))
  | 0x0201 => opForm p (max 8 p.length) b4 (.plateData h (b 0) (w 4) (p.drop 8))
  | 0x0202 => opForm p 4 b4 (.plateProof h (b 0))
  | 0x0203 => opForm p 24 b4 (.plateTurn h (b 0) (BitVec.ofNat 128 (natAt p 4 16)) (w 20))
  | 0x0204 => opForm p 4 b4 (.plateAbort h (b 0))
  | 0x0205 => opForm p 4 b4 (.plateInfo h (b 0))
  | 0x0300 =>
    if b 1 = 0xFF then
      opForm p 20 [(2, 2), (15, 1)]
        (.termAdd h (b 0) (b 1) (.settings (w 4) (b 8) (b 9) (b 10) (b 11) (b 12) (b 13) (b 14) (u 16) (u 18)))
    else
      opForm p 48 [] (.termAdd h (b 0) (b 1)
        (.slot (b 2) (b 3) (q 4) (u 12) (u 14) (u 16) (u 18) (w 20) (BitVec.ofNat 192 (natAt p 24 24))))
  | 0x0301 => opForm p 4 [(2, 2)] (.termRange h (b 0) (b 1))
  | 0x0302 => opForm p 4 [(2, 2)] (.termActivate h (b 0) (b 1))
  | 0x0303 => opForm p 4 [(3, 1)] (.termDisable h (b 0) (b 1) (b 2))
  | 0x0304 => opForm p 32 [] (.termKey h (b 0) (b 1) (b 2) (b 3) (w 4) (BitVec.ofNat 192 (natAt p 8 24)))
  | 0x0305 => opForm p 40 [(3, 1)] (.ploamSend h (b 0) (b 1) (b 2) (p.drop 4))
  | 0x0306 => opForm p 4 [(3, 1)] (.termRate h (b 0) (b 1) (b 2))
  | 0x0400 => opForm p 40 b4 (.millSet h (b 0) (w 4) [w 8, w 12, w 16, w 20, w 24, w 28, w 32, w 36])
  | 0x0401 => opForm p 8 b4 (.millGet h (b 0) (w 4))
  | 0x0402 => opForm p 32 [] (.tribSet h p)
  | 0x0403 => opForm p 4 [(2, 2)] (.tribGet h (u 0))
  | 0x0404 => opForm p 24 [] (.screenSet h p)
  | 0x0405 => opForm p 24 [] (.screenGet h p)
  | 0x0406 => opForm p 4 [(3, 1)] (.genSet h (u 0) (b 2))
  | 0x0407 => opForm p 4 [(2, 2)] (.genGet h (u 0))
  | 0x0500 => opForm p 4 b4 (.timeArm h (b 0))
  | 0x0501 => opForm p 12 [(1, 1)] (.timeSet h (b 0) (BitVec.ofNat 48 (natAt p 2 6)) (w 8))
  | 0x0502 => opForm p 4 b4 (.timeDisable h (b 0))
  | 0x0503 => opForm p 4 b4 (.timeSel h (b 0))
  | 0x0504 => opForm p 8 b4 (.acceptPathStep h (b 0) (w 4))
  | 0x0505 => opForm p 12 b4 (.timeConv h (b 0) (q 4))
  | 0x0506 => opForm p 8 b4 (.todGet h (b 0) (w 4))
  | 0x0600 => opForm p 0 [] (.pairJoin h)
  | 0x0601 => opForm p 0 [] (.pairLeave h)
  | 0x0602 => opForm p 0 [] (.pairSwitch h)
  | 0x0603 => opForm p 8 b4 (.pairVerdict h (b 0) (w 4))
  | 0x0604 => opForm p 0 [] (.pairInfo h)
  | 0x0605 =>
    if b 0 = 0 then opForm p 12 [(2, 2), (10, 2)] (.protCfg h (.tree (b 1) (b 4) (b 5) (b 6) (b 7) (u 8)))
    else if b 0 = 1 then opForm p 12 [(2, 2), (6, 6)] (.protCfg h (.port (b 1) (b 4) (b 5)))
    else (none, 16)
  | 0x0606 => opForm p 4 b4 (.protSwitch h (b 0))
  | 0x06F0 => (some (.stream h []), 0)
  | 0x06F1 => opForm p (max 8 p.length) [(2, 2)] (.copy h (b 0) (b 1) (w 4) (p.drop 8))
  | 0x0700 => opForm p 4 [(2, 2)] (.pwrSet h (b 0) (b 1))
  | 0x0701 => opForm p 0 [] (.pwrInfo h)
  | 0x0702 => opForm p 4 b4 (.sagCfg h (b 0))
  | 0x0800 => opForm p 4 b4 (.fwOpen h (b 0))
  | 0x0801 => opForm p (max 8 p.length) b4 (.fwData h (b 0) (w 4) (p.drop 8))
  | 0x0802 => opForm p 4 b4 (.fwCommit h (b 0))
  | 0x0803 => opForm p 0 [] (.fwInfo h)
  | 0x0804 => opForm p 4 b4 (.reset h (b 0))
  | 0x0805 => opForm p 8 [(6, 2)] (.logRead h (w 0) (u 4))
  | 0x0806 => opForm p (4 + (natAt p 2 1 + 3) / 4 * 4) [] (.i2cXfer h (b 0) (b 1) (b 2) (b 3) (p.drop 4))
  | 0x0807 => opForm p 16 [] (.kwkSet h (BitVec.ofNat 128 (natAt p 0 16)))
  | 0x0900 => opForm p 8 [(6, 2)] (.cntRead h (w 0) (u 4))
  | 0x0901 => opForm p 4 [] (.defectGet h (b 0) (b 1) (u 2))
  | 0x0902 => opForm p 8 [(3, 1)] (.defectCfg h (b 0) (b 1) (b 2) (u 4) (u 6))
  | 0x0903 => opForm p 4 [] (.bwWindow h (w 0))
  | 0x0A00 => opForm p 8 [(5, 3)] (.hopRead h (u 0) (u 2) (b 4))
  | 0x0A01 => opForm p 4 [(2, 2)] (.hopMark h (u 0))
  | 0x0A02 => opForm p 4 [(2, 2)] (.hopRewind h (u 0))
  | 0x0A03 => opForm p 8 [(2, 2)] (.hopRelease h (u 0) (w 4))
  | 0x0A04 => opForm p 8 [(3, 1)] (.hopCfg h (u 0) (b 2) (w 4))
  | _ => (none, 0)

/-- The command of a packet and the offset of its first bad field, 0 for none. -/
def decodePacket (port : Port) (l : List Byte) : Option Instr × Nat :=
  decodeOp (pktHdr port l) (pktOpcode l) ((l.drop 16).take (pktPlen l))

/-! ### The encoder -/

/-- The header of a command that is a Casut opcode. -/
def hdrOf : Instr → Option Hdr
  | .nop h | .hello h _ _ _ _ _ _ | .features h _ _ | .fence h _ | .bye h | .regRd h _ _ _ | .regWr h _ _ _ _ | .regRmw h _ _ _
  | .snapshot h | .plateOpen h _ | .plateData h _ _ _ | .plateProof h _ | .plateTurn h _ _ _ | .plateAbort h _ | .plateInfo h _
  | .termAdd h _ _ _ | .termRange h _ _ | .termActivate h _ _ | .termDisable h _ _ _ | .termKey h _ _ _ _ _ _
  | .ploamSend h _ _ _ _ | .termRate h _ _ _ | .millSet h _ _ _ | .millGet h _ _ | .tribSet h _ | .tribGet h _
  | .screenSet h _ | .screenGet h _ | .genSet h _ _ | .genGet h _ | .timeArm h _ | .timeSet h _ _ _ | .timeDisable h _
  | .timeSel h _ | .acceptPathStep h _ _ | .timeConv h _ _ | .todGet h _ _ | .pairJoin h | .pairLeave h | .pairSwitch h
  | .pairVerdict h _ _ | .pairInfo h | .protCfg h _ | .protSwitch h _ | .stream h _ | .copy h _ _ _ _ | .pwrSet h _ _
  | .pwrInfo h | .sagCfg h _ | .fwOpen h _ | .fwData h _ _ _ | .fwCommit h _ | .fwInfo h | .reset h _ | .logRead h _ _
  | .i2cXfer h _ _ _ _ _ | .kwkSet h _ | .cntRead h _ _ | .defectGet h _ _ _ | .defectCfg h _ _ _ _ _ | .bwWindow h _
  | .hopRead h _ _ _ | .hopMark h _ | .hopRewind h _ | .hopRelease h _ _ | .hopCfg h _ _ _ => some h
  | _ => none

/-- The opcode of a command (Tables 12.10, 12.13 to 12.15). -/
def opcodeOf : Instr → Nat
  | .nop .. => 0x0000 | .hello .. => 0x0001 | .features .. => 0x0002 | .fence .. => 0x0003 | .bye .. => 0x0004
  | .regRd .. => 0x0100 | .regWr .. => 0x0101 | .regRmw .. => 0x0102 | .snapshot .. => 0x0103
  | .plateOpen .. => 0x0200 | .plateData .. => 0x0201 | .plateProof .. => 0x0202 | .plateTurn .. => 0x0203
  | .plateAbort .. => 0x0204 | .plateInfo .. => 0x0205
  | .termAdd .. => 0x0300 | .termRange .. => 0x0301 | .termActivate .. => 0x0302 | .termDisable .. => 0x0303
  | .termKey .. => 0x0304 | .ploamSend .. => 0x0305 | .termRate .. => 0x0306
  | .millSet .. => 0x0400 | .millGet .. => 0x0401 | .tribSet .. => 0x0402 | .tribGet .. => 0x0403
  | .screenSet .. => 0x0404 | .screenGet .. => 0x0405 | .genSet .. => 0x0406 | .genGet .. => 0x0407
  | .timeArm .. => 0x0500 | .timeSet .. => 0x0501 | .timeDisable .. => 0x0502 | .timeSel .. => 0x0503
  | .acceptPathStep .. => 0x0504 | .timeConv .. => 0x0505 | .todGet .. => 0x0506
  | .pairJoin .. => 0x0600 | .pairLeave .. => 0x0601 | .pairSwitch .. => 0x0602 | .pairVerdict .. => 0x0603
  | .pairInfo .. => 0x0604 | .protCfg .. => 0x0605 | .protSwitch .. => 0x0606 | .stream .. => 0x06F0 | .copy .. => 0x06F1
  | .pwrSet .. => 0x0700 | .pwrInfo .. => 0x0701 | .sagCfg .. => 0x0702
  | .fwOpen .. => 0x0800 | .fwData .. => 0x0801 | .fwCommit .. => 0x0802 | .fwInfo .. => 0x0803 | .reset .. => 0x0804
  | .logRead .. => 0x0805 | .i2cXfer .. => 0x0806 | .kwkSet .. => 0x0807
  | .cntRead .. => 0x0900 | .defectGet .. => 0x0901 | .defectCfg .. => 0x0902 | .bwWindow .. => 0x0903
  | .hopRead .. => 0x0A00 | .hopMark .. => 0x0A01 | .hopRewind .. => 0x0A02 | .hopRelease .. => 0x0A03 | .hopCfg .. => 0x0A04
  | _ => 0xFFFF

/-- A byte of a parameter. -/
def e8 (b : BitVec 8) : List Byte := [b]
def e16 (v : BitVec 16) : List Byte := beBytes 2 v.toNat
def e32 (v : BitVec 32) : List Byte := beBytes 4 v.toNat
def e64 (v : BitVec 64) : List Byte := beBytes 8 v.toNat
/-- n reserved bytes. -/
def rsv (n : Nat) : List Byte := List.replicate n 0

/-- The parameter bytes of a command that is a Casut opcode. -/
def paramBytes : Instr → List Byte
  | .hello _ o b u f r k => e64 o ++ e32 b ++ e8 u ++ e8 f ++ e8 r ++ rsv 1 ++ beBytes 3 k.toNat ++ rsv 1
  | .features _ s m => e8 s ++ rsv 3 ++ e64 m
  | .fence _ a => e8 a ++ rsv 3
  | .regRd _ a w c => e32 a ++ e8 w ++ rsv 1 ++ e16 c
  | .regWr _ a w c d => e32 a ++ e8 w ++ rsv 1 ++ e16 c ++ d
  | .regRmw _ a m v => e32 a ++ e32 m ++ e32 v
  | .plateOpen _ b | .plateProof _ b | .plateAbort _ b | .plateInfo _ b => e8 b ++ rsv 3
  | .plateData _ b o d => e8 b ++ rsv 3 ++ e32 o ++ d
  | .plateTurn _ b i t => e8 b ++ rsv 3 ++ beBytes 16 i.toNat ++ e32 t
  | .termAdd _ t s (.slot f r n a0 a1 a2 a3 i w) =>
    e8 t ++ e8 s ++ e8 f ++ e8 r ++ e64 n ++ e16 a0 ++ e16 a1 ++ e16 a2 ++ e16 a3 ++ e32 i ++ beBytes 24 w.toNat
  | .termAdd _ t s (.settings m r d l g b x a td tp) =>
    e8 t ++ e8 s ++ rsv 2 ++ e32 m ++ e8 r ++ e8 d ++ e8 l ++ e8 g ++ e8 b ++ e8 x ++ e8 a ++ rsv 1 ++ e16 td ++ e16 tp
  | .termRange _ t s | .termActivate _ t s => e8 t ++ e8 s ++ rsv 2
  | .termDisable _ t s a => e8 t ++ e8 s ++ e8 a ++ rsv 1
  | .termKey _ t d r a g w => e8 t ++ e8 d ++ e8 r ++ e8 a ++ e32 g ++ beBytes 24 w.toNat
  | .ploamSend _ t s y c => e8 t ++ e8 s ++ e8 y ++ rsv 1 ++ c
  | .termRate _ t s r => e8 t ++ e8 s ++ e8 r ++ rsv 1
  | .millSet _ t i d => e8 t ++ rsv 3 ++ e32 i ++ d.flatMap e32
  | .millGet _ t i => e8 t ++ rsv 3 ++ e32 i
  | .tribSet _ e | .screenSet _ e | .screenGet _ e => e
  | .tribGet _ f | .genGet _ f => e16 f ++ rsv 2
  | .genSet _ f g => e16 f ++ e8 g ++ rsv 1
  | .timeArm _ d | .timeDisable _ d | .timeSel _ d => e8 d ++ rsv 3
  | .timeSet _ d s n => e8 d ++ rsv 1 ++ beBytes 6 s.toNat ++ e32 n
  | .acceptPathStep _ d a => e8 d ++ rsv 3 ++ e32 a
  | .timeConv _ d c => e8 d ++ rsv 3 ++ e64 c
  | .todGet _ t n => e8 t ++ rsv 3 ++ e32 n
  | .pairVerdict _ v e => e8 v ++ rsv 3 ++ e32 e
  | .protCfg _ (.tree i m h l x k) => e8 0 ++ e8 i ++ rsv 2 ++ e8 m ++ e8 h ++ e8 l ++ e8 x ++ e16 k ++ rsv 2
  | .protCfg _ (.port i s u) => e8 1 ++ e8 i ++ rsv 2 ++ e8 s ++ e8 u ++ rsv 6
  | .protSwitch _ p => e8 p ++ rsv 3
  | .copy _ t s o d => e8 t ++ e8 s ++ rsv 2 ++ e32 o ++ d
  | .pwrSet _ d s => e8 d ++ e8 s ++ rsv 2
  | .sagCfg _ t => e8 t ++ rsv 3
  | .fwOpen _ s | .fwCommit _ s => e8 s ++ rsv 3
  | .fwData _ s o d => e8 s ++ rsv 3 ++ e32 o ++ d
  | .reset _ k => e8 k ++ rsv 3
  | .logRead _ o l => e32 o ++ e16 l ++ rsv 2
  | .i2cXfer _ b a w r d => e8 b ++ e8 a ++ e8 w ++ e8 r ++ d
  | .kwkSet _ k => beBytes 16 k.toNat
  | .cntRead _ a c => e32 a ++ e16 c ++ rsv 2
  | .defectGet _ c f i => e8 c ++ e8 f ++ e16 i
  | .defectCfg _ k s f a b => e8 k ++ e8 s ++ e8 f ++ rsv 1 ++ e16 a ++ e16 b
  | .bwWindow _ m => e32 m
  | .hopRead _ h c f => e16 h ++ e16 c ++ e8 f ++ rsv 3
  | .hopMark _ h | .hopRewind _ h => e16 h ++ rsv 2
  | .hopRelease _ h q => e16 h ++ rsv 2 ++ e32 q
  | .hopCfg _ h o l => e16 h ++ e8 o ++ rsv 1 ++ e32 l
  | _ => []

/-- The packet of a command (Table 12.1): VERSION 0x03, the header, the parameters, the CRC. -/
def encodePacket (i : Instr) : List Byte :=
  match hdrOf i with
  | none => []
  | some h =>
    let p := paramBytes i
    let b := e8 0x03 ++ e8 h.flags ++ beBytes 2 (opcodeOf i) ++ e16 h.tag ++ beBytes 2 p.length ++ e32 h.session ++ e32 h.exec ++ p
    b ++ e32 (crc32c b)

end Sys2Proof
end

