-- ==== Sys2Proof/Config.lean ====
section
/-! DEFINITION. What is fixed for a machine: contract 3.1 constants (Table 2.11), and the values the spec leaves
open, as opaque constants (free values: no proof sees what they are). -/

namespace Sys2Proof.Config

/-! Table 2.11, contract 3.1 (R76). -/
def FRAME : Nat := 155520
def IMPRESSION : Nat := 12441600
def STROKE : Nat := 80
def PRE_S : Nat := 199
def PRE_L : Nat := 797
def PRE_X : Nat := 1991
def DELIM : Nat := 4
def GUARD_MIN : Nat := 64
def DELIM_WIN : Nat := 20
def ANNOUNCE : Nat := 249
def PREWAKE : Nat := 150
def GATE : Nat := 50
def MIN_DARK : Nat := 80
def TAP_STALE : Nat := 62208000
def BANK_DRAIN : Nat := 1146
def T_DSP : Nat := 80
def T_UP_FRONT : Nat := 1206
def T_UP_BACK : Nat := 298
def T_DN_FRONT : Nat := 447
def T_RACE_TAIL : Nat := 66
def DS_COMMIT : Nat := 240
def RTT_PER_100M : Nat := 1219
def DISC_RESP : Nat := 3787
def RAND_SPAN : Nat := 6221
def QUIET_RANGE_MIN : Nat := 12442
def TURN_CUTOFF : Nat := 12442
def TURN_LEAD : Nat := 4000
def DS_BUILD : Nat := 2400
def LANE_MOVE_HOLD : Nat := 160
/-- PAIR_LAG of R333. -/
def PAIR_LAG : Nat := 2400

/-- Preamble of class S, L, X (code 0, 1, 2; Table 2.11). -/
def PRE (pclass : Nat) : Nat := if pclass = 0 then PRE_S else if pclass = 1 then PRE_L else PRE_X

/-- One codeword at rate code 0, 1, 2 (Table 2.11). -/
def CW (rate : Nat) : Nat := if rate = 0 then 432 else if rate = 1 then 864 else 1728

/-- Line bits per mill cycle at rate code 0, 1, 2 (Table 2.11). -/
def lineBits (rate : Nat) : Nat := if rate = 0 then 40 else if rate = 1 then 20 else 10

/-- Uplink bytes per stroke by MODE (Table 2.11). -/
def bytesPerStroke (mode : Nat) : Nat :=
  if mode = 0 then 803 else if mode = 1 then 1607 else if mode = 2 then 3215 else 6430

/-- The device's feature offer (R378). -/
def OFFER : BitVec 64 := 0x7FF

/-! Free values. Each is named in a log entry. -/

/-- A fresh open value, by the counter State.free. -/
opaque freshNat : Nat → Nat
/-- Initial counter block of an XGEM payload: direction (true up), superframe counter, position (G.9804.2; the chapter on tree ports gives what it is
formed from). -/
opaque counterBlock : Bool → Nat → Nat → BitVec 128
/-- The unit of StartTime and GrantSize at a rate code, less 1, in line bits (G.9804.2; R105 bounds it: a shift is at most 2 mc). -/
opaque grantUnit : Nat → Nat
/-- The unit of Ranging_Time, less 1, in 1/40 mc (G.9804.2, R145). -/
opaque rangingUnit : Nat
/-- Byte k of the PSBd of the frame with a superframe counter on a tree (R96). -/
opaque psbd : Nat → Nat → Nat → BitVec 8
/-- FS header of a frame with that many allocation structures and PLOAM messages (Table 3.2). -/
opaque fsHeader : Nat → Nat → BitVec 32
/-- An allocation structure's 8 bytes from its allocation ID, StartTime, GrantSize, profile index, PLOAMU and DBRU (G.9804.2, R98). -/
opaque allocStructure : Nat → Nat → Nat → Nat → Bool → Bool → BitVec 64
/-- Allocation IDs that G.9804.2 gives a serial-number grant, and the unassigned ID (R98). -/
opaque discoveryAlloc : Nat
opaque unassignedAlloc : Nat
/-- The first 40 bytes of a PLOAM message: ONU-ID, message type, sequence number, content (G.9804.2 lays them out). -/
opaque ploamLayout : Nat → Nat → Nat → List (BitVec 8) → BitVec 320
/-- The MIC of a PLOAM message under an integrity key: direction (true up), key, message (G.9804.2, R139). -/
opaque mic : Bool → BitVec 128 → BitVec 320 → BitVec 64
/-- The integrity key in force before any is provisioned (R139: the G.9804.2 default). -/
opaque defaultKey : BitVec 128
/-- XGEM header from PLI, key index, Port-ID, Options and the last-fragment flag (G.9804.2, R164). -/
opaque xgemHeader : Nat → Nat → Nat → Nat → Bool → BitVec 64
/-- The Port-ID of idle XGEM frames, byte k of the payload of one, and byte k of a piece too short for an XGEM header (G.9804.2, R101). -/
opaque idlePort : Nat
opaque idleByte : Nat → BitVec 8
opaque padByte : Nat → BitVec 8
/-- The scrambling byte at a position of the frame with a superframe counter (G.9804.3, R97). -/
opaque scramble : Nat → Nat → BitVec 8
/-- Byte k of the 336 parity bytes of a codeword's data (the LDPC code of G.9804.3, R97). -/
opaque parity : List (BitVec 8) → Nat → BitVec 8
/-- The CDR phase of a tap entry after a drift correction, in 1/40 mc (R153). -/
opaque cdrMove : BitVec 16 → Int → BitVec 16
/-- The firmware version a running image reports (HELLO reply; slot's VERSION field is R446). -/
opaque firmwareVersion : Nat → BitVec 32
/-- Fault log bytes (LOG_READ), by offset. -/
opaque faultLog : Nat → BitVec 8
/-- STATUS_WORD reports VOUT_UV_FAULT or OFF (R432 names the bits, not their places). -/
opaque statusUvOff : BitVec 16 → Bool
/-- The servo's frequency and phase correction from a measured offset (R311 gives only the bound on |R_p|). -/
opaque servoRate : Int → Nat → Int
/-- The DPLL's next steering from phase and frequency error (R28, R289 give range and slew only). -/
opaque loopSteer : Int → Int → Nat → Int
/-- What no record carries of the partner, by counter value: for n < 64 tree n is SERVING there; for 64 its plate, lanes and ports are as Table 6.4 asks
of a SAILS_ON unit; for 65 it is DEGRADED. -/
opaque partnerHas : Nat → Nat → Bool
/-- The equalised taps captured at a burst's end: FFE taps, DFE taps, gain, CDR phase, 408 bits (R110). -/
opaque learnedTaps : Nat → BitVec 408
/-- A cell of a weir or millpond frame lies in a half of the millpond: the half, the frame's flow and sequence point (which cells hold a frame is
internal). -/
opaque frameHalf : Nat → Nat → Nat → Bool
/-- The data bytes of a lost codeword that the SAILS_ON unit has decoded (R334). -/
opaque codewordBytes : Nat → List (BitVec 8)
/-- The bytes of section k of a save set, from what it holds (Table 14.3 gives the content, not its layout). -/
opaque saveSection : Nat → List Nat → List (BitVec 8)
/-- The level sampled at the ball of GPIO k, at a counter value, where something outside drives it (R460). -/
opaque gpioLevel : Nat → Nat → Bool
/-- The level a boundary cell drives, by the contents last shifted in and the cell (R465). -/
opaque cellLevel : Nat → Nat → Bool

end Sys2Proof.Config
end

