-- ==== Sys2Proof/Machine/State.lean ====
section
/-! DEFINITION. The state of one QZ8164 unit: plain data, every piece the spec names. A field's docstring gives its rule;
the reset value is the field's default. Times are values of the 96-bit time counter (Nat, R303). -/

namespace Sys2Proof.Machine

/-- No meaning of this model faults: the block answers a bad command with a status and an event (Table 12.4, 13.14).
The one constructor is raised by nobody; it is safe. -/
inductive Fault
  | never
  deriving DecidableEq, Repr

/-- Refusals. `notModelled` is raised by an arm of Dispatch.lean that has no meaning yet; it is safe. -/
inductive Refusal
  | notModelled (mnemonic : String)
  deriving DecidableEq, Repr

/-! ### Commands and hoppers -/

/-- A session on a port (R377): its ID and agreed set S. -/
structure Session where
  id : BitVec 32
  agreed : BitVec 64
  deriving DecidableEq, Repr

/-- A reply (Table 12.3) before its CRC; PLEN is the length of params, CREDITS is filled in when it is sent. -/
structure Reply where
  opcode : BitVec 16
  tag : BitVec 16
  status : BitVec 8
  port : Port
  /-- it holds a credit until it is sent (R365) -/
  credit : Bool
  dseq : BitVec 32
  params : List Byte
  deriving DecidableEq, Repr

/-- An accepted packet: its command, or the packet offset of a reserved or inconsistent field (R363). -/
structure Pkt where
  hdr : Hdr
  opcode : BitVec 16
  cmd : Option Instr
  badAt : BitVec 16
  dseq : BitVec 32
  /-- session ID the packet was accepted under -/
  sid : BitVec 32
  /-- acceptance order across ports (R366) -/
  ord : Nat
  /-- counter at acceptance (R368) -/
  at_ : Nat
  deriving DecidableEq, Repr

/-- A timed command waiting (R367): packet and execution time E. -/
structure Timed where
  pkt : Pkt
  at_ : Nat
  deriving DecidableEq, Repr

/-- One command port: session, queue, credits in use, replies held; refusal replies among them are those with DSEQ 0 (Table 12.6). -/
structure PortState where
  /-- session on the port (R377); reset none -/
  session : Option Session := none
  /-- accepted packets not started, oldest first (R362) -/
  queue : List Pkt := []
  /-- credits in use (R365) -/
  used : Nat := 0
  /-- replies held, oldest first (R383, R384) -/
  replies : List Reply := []
  deriving DecidableEq, Repr

/-- An item of a hopper: an entry, or a gap marker (Table 13.10). -/
inductive HItem
  | entry (seq : BitVec 32) (bytes : List Byte)
  | marker (first last : BitVec 32) (at_ : Nat) (isOpen : Bool)
  deriving DecidableEq, Repr

/-- A visible hopper (R412 to R417). -/
structure Hopper where
  /-- slots N (Table 13.9) -/
  slots : Nat
  /-- bytes of an entry (Table 13.9) -/
  width : Nat
  /-- held items, oldest first -/
  items : List HItem := []
  /-- WR, next number to be given -/
  wr : BitVec 32 := 0
  /-- RD, next number to be read -/
  rd : BitVec 32 := 0
  /-- MARK -/
  mark : BitVec 32 := 0
  /-- REL, oldest number not released -/
  rel : BitVec 32 := 0
  /-- OWNER: 0 board, 1 host, 2 in-band, 3 device (Table 13.12) -/
  owner : BitVec 2
  /-- LEVEL (R418) -/
  level : Nat
  /-- HWM: largest held count (Table 13.12) -/
  hwm : Nat := 0
  /-- the hopper's cycle of the last push, and the first number pushed in it: a READ of that cycle sees nothing from that number on (R416) -/
  pushed : Nat × Nat := (0, 0)
  deriving DecidableEq, Repr

/-- A command still executing whose reply waits for an outside event: TOD_GET of a future frame (R323), I2C_XFER (R390). -/
structure Waiting where
  pkt : Pkt
  deriving DecidableEq, Repr

/-- The Casut interpreter and its ports. -/
structure Cmd where
  /-- board port (R382) -/
  board : PortState := {}
  /-- host port (R384) -/
  host : PortState := {}
  /-- in-band port (R385) -/
  inband : PortState := {}
  /-- pair port (R386) -/
  pair : PortState := {}
  /-- timed commands waiting, in acceptance order (R367, at most 64) -/
  timed : List Timed := []
  /-- commands executing with their reply to come (R366) -/
  waiting : List Waiting := []
  /-- acceptance order counter (R366) -/
  ord : Nat := 0
  /-- replies to mirrored commands, held until the standby acknowledges (R24) -/
  ackWait : List Reply := []
  /-- last number given, device series; the series starts at 1 (R360) -/
  devLast : BitVec 32 := 0
  /-- last number given, local series; the series starts at 0x8000_0001 (R360) -/
  locLast : BitVec 32 := 0x80000000
  /-- last device-series number with effect (R44, R360) -/
  devEff : BitVec 32 := 0
  /-- last local-series number with effect -/
  locEff : BitVec 32 := 0
  /-- numbers of commands that take effect at an impression boundary, with that impression's number (R44, R56, R84, R127) -/
  effAt : List (BitVec 32 × BitVec 32) := []
  /-- LAST_DSEQ (Table 12.12) -/
  lastDseq : BitVec 32 := 0
  /-- device feature set D, 0 until fixed (R378) -/
  featD : BitVec 64 := 0
  /-- D is fixed (R378) -/
  featFixed : Bool := false
  /-- SPI_STATUS ABORTED (R382) -/
  spiAborted : Bool := false
  /-- SPI_STATUS NOT_TAKEN (R382) -/
  spiNotTaken : Bool := false
  /-- SPI_MISO bytes of the last WRITE, READ or STATUS transaction from byte 1 on (Table 12.8); reset empty -/
  spiOut : List Byte := []
  /-- the last reply descriptor completed (R384): bytes written, RLEN, TRUNC; reset none -/
  hostWrote : Option (List Byte × Nat × Bool) := none
  /-- RING_CTL RUN (R384) -/
  ringRun : Bool := false
  /-- CMD_HEAD -/
  cmdHead : Nat := 0
  /-- RPL_HEAD -/
  rplHead : Nat := 0
  /-- MSI-X vectors signalled and not yet taken by the outside (R419) -/
  msix : List Nat := []
  /-- where the replies of in-band packets go (R271, R385): DSEQ, first lane of the port, requester address, VLAN tags -/
  inbandTo : List (BitVec 32 × Nat × BitVec 48 × List Byte) := []
  /-- high-half latches: path (4 BAR0, else port), address, high half (R398) -/
  latches : List (Nat × Nat × BitVec 32) := []
  /-- what the last BAR0 read returned (R395, R397); reset none -/
  barRead : Option (BitVec 64) := none
  /-- first lane of the port that the in-band packet in reception came on (R423) -/
  inbandLane : Nat := 0
  deriving DecidableEq, Repr

/-! ### Plates -/

/-- BURST record (Table 2.5). -/
structure Burst where
  tree : Nat
  term : Nat
  alloc : Nat
  rate : Nat
  pclass : Nat
  period : Nat
  phase : Nat
  chain : Bool
  ploamu : Bool
  dbru : Bool
  start : Nat
  len : Nat
  deriving DecidableEq, Repr

/-- QUIET record (Table 2.6). -/
structure Quiet where
  tree : Nat
  purpose : Nat
  period : Nat
  phase : Nat
  start : Nat
  len : Nat
  reach : Nat
  deriving DecidableEq, Repr

/-- SLACKUP record (Table 2.7). -/
structure SlackUp where
  tree : Nat
  period : Nat
  phase : Nat
  start : Nat
  len : Nat
  shared : Bool
  dom : Nat
  deriving DecidableEq, Repr

/-- DOWN record (Table 2.8). -/
structure Down where
  tree : Nat
  period : Nat
  phase : Nat
  flow : Nat
  off : Nat
  len : Nat
  deriving DecidableEq, Repr

/-- FLOW record (Table 2.9). -/
structure Flow where
  id : Nat
  dom : Nat
  /-- DIR = 0: upstream -/
  up : Bool
  trib : Bool
  tree : Nat
  term : Nat
  alloc : Nat
  lane : Nat
  port : Nat
  maxFrame : Nat
  minFrame : Nat
  fpb : Nat
  bound : Nat
  label : Nat
  deriving DecidableEq, Repr

/-- MILLRACE entry (Table 2.10): kind 0 IDLE, 1 THROUGH, 2 FILL, 3 DRAW, 4 SPARE. -/
structure Cal where
  kind : Nat
  target : Nat
  flowix : Nat
  dom : Nat
  shared : Bool
  deriving DecidableEq, Repr

/-- EGRESS block (R73): entries are (kind, flowix), kind 0 IDLE, 1 THROUGH, 2 SLACK. -/
structure Egress where
  first : Nat
  mode : Nat
  ents : List (Nat × Nat)
  deriving DecidableEq, Repr

/-- DOMAIN record (R74). -/
structure Dom where
  dom : Nat
  resv : Nat
  cap : Nat
  deriving DecidableEq, Repr

/-- A plate as read from an image (R58 to R75). `millrace` is lane-major, 24 × 1,944 entries (R71). -/
structure Plate where
  format : Nat
  id : BitVec 128
  trees : Nat
  grade : Nat
  features : BitVec 64
  bursts : List Burst
  quiets : List Quiet
  slackups : List SlackUp
  downs : List Down
  flows : List Flow
  millrace : List Cal
  egress : List Egress
  doms : List Dom
  deriving DecidableEq, Repr

/-- Bank states (Table 2.2), in the code order of R388. -/
inductive BankSt | empty | loading | proving | proven | turning | engaged
  deriving DecidableEq, Repr

/-- One plate bank (R52). -/
structure Bank where
  /-- state; reset EMPTY (R52) -/
  st : BankSt := .empty
  /-- loading or proving port and session (R53) -/
  owner : Option (Port × BitVec 32) := none
  /-- agreed set of the session that opened the bank (R53) -/
  feats : BitVec 64 := 0
  /-- image bytes; a byte not listed reads 0 (R54) -/
  image : Map Byte := []
  /-- what the proof derived (PROVEN, TURNING, ENGAGED) -/
  plate : Option Plate := none
  /-- refusal code of the last proof (Table 2.13, PLATE_INFO) -/
  refusal : Nat := 0
  /-- section type of the refusal -/
  refSection : Nat := 0
  /-- record index of the refusal -/
  refRecord : Nat := 0
  deriving DecidableEq, Repr

/-- A scheduled turn: bank, target impression number, counter value of B, first turn, identity of the plate that turns (R84 to R88, R31, R33). -/
structure Turn where
  bank : Bool
  target : BitVec 32
  at_ : Nat
  first : Bool
  id : BitVec 128
  deriving DecidableEq, Repr

/-- The plate engine and its banks. -/
structure PlateSt where
  /-- bank 0 -/
  bank0 : Bank := {}
  /-- bank 1 -/
  bank1 : Bank := {}
  /-- scheduled turn (R84) -/
  turn : Option Turn := none
  /-- boundary at which a disengage takes effect (R56) -/
  disengage : Option Nat := none
  /-- plate copy in the MRAM configuration area, with its image (R57) -/
  mram : Option (Plate × Map Byte) := none
  /-- bank whose image is being copied to MRAM (R57) -/
  mramBusy : Option Bool := none
  /-- bank being re-proved from the MRAM copy after a warm restart (R57) -/
  restore : Option Bool := none
  /-- the engine repeats the last fully read impression (R32) -/
  eccRepeat : Bool := false
  /-- flows whose first frame is held for a lane move, with the old lane (R21) -/
  laneHold : List (Nat × Nat) := []
  /-- flow table of the plate that granted bursts still in decode (R89) -/
  prev : Option Plate := none
  deriving DecidableEq, Repr

/-! ### Trees and terminals -/

/-- A frame in the mill: flow, domain, length, sequence point, chaff flag (R334), content; the queue it was classified to (R240, Table 7.7);
first lane of the uplink port that received it (R177); at or below the point delivered when the sails were taken, so suppressed at its commit point
(R41, R344); on a standby, the content of a REPAIR record (R334). -/
structure Frame where
  flow : Nat
  dom : Nat
  len : Nat
  point : BitVec 32
  chaff : Bool
  data : List Byte
  queue : Nat := 0
  port : Option Nat := none
  gone : Bool := false
  repair : Bool := false
  /-- of a frame of a burst: terminal, START of the burst, first and last codeword (R333) -/
  src : Option (Nat × Nat × Nat × Nat) := none
  /-- of a standby's copy: start of the impression whose plate classified it, 0 where that was the plate before (R89) -/
  cls : Nat := 0
  deriving DecidableEq, Repr

/-- Tree port states (Table 3.1). -/
inductive TreeSt | off | dark | lit | serving
  deriving DecidableEq, Repr

/-- Tree settings (Table 4.2). -/
structure TreeSet where
  rtdMin : Nat := 43000
  reach : Nat := 200
  discEn : Bool := false
  discLimit : Nat := 16
  rogueTrig : Nat := 4
  rogueBisect : Bool := true
  driftStep : Nat := 20
  tDisc : Nat := 1000
  tAck : Nat := 4
  tPopup : Nat := 30
  deriving DecidableEq, Repr

/-- PLOAM messages the device sends (Table 4.5); `host` carries TYPE. -/
inductive PKind
  | burstProfile (i : Nat) (change : Bool) | assignOnu | rangingTime (drift : Bool) | deactivate | disableSn (enable : Bool)
  | requestReg | assignAlloc (i : Nat) | protection | systemProfile | channelProfile | host (type : Nat)
  deriving DecidableEq, Repr

/-- A queued downstream PLOAM message: addressee (none: broadcast), kind, sequence number, content of a host message,
rate of a burst profile or EQD of a Ranging_Time, integrity key of its MIC, chosen when it is composed (R139). `change` marks a profile of a rate
change (R108). -/
structure PMsg where
  slot : Option Nat
  kind : PKind
  seq : BitVec 8
  value : Nat
  content : List Byte
  mic : MicKey := .dflt
  deriving DecidableEq, Repr

/-- A device message awaiting acknowledgement (R143): the message, resends made, impressions at its last sending. -/
structure Await where
  msg : PMsg
  resends : Nat
  since : Nat
  deriving DecidableEq, Repr

/-- A set of equaliser taps (R110): 24 FFE and 8 DFE taps of 12 bits, gain, CDR phase. -/
structure Taps where
  ffe : BitVec 288 := 0
  dfe : BitVec 96 := 0
  gain : BitVec 8 := 0
  cdr : BitVec 16 := 0
  deriving DecidableEq, Repr

/-- Whom an allocation structure of the bandwidth map grants (R98). -/
inductive MapUse
  | alloc (id : Nat) | discovery | unassigned
  deriving DecidableEq, Repr

/-- An allocation structure: its allocation, rate, profile index (R107), first data bit and data length in mc of the frame (R105), PLOAMU, DBRU. -/
structure MapEntry where
  use : MapUse
  rate : Nat
  profile : Nat
  data : Nat
  len : Nat
  ploamu : Bool
  dbru : Bool
  deriving DecidableEq, Repr

/-- What composition has fixed of a downstream frame (R96, R98, R99): its start, superframe counter, bandwidth map and PLOAM messages. -/
structure Comp where
  at_ : Nat
  superframe : Nat
  map : List MapEntry
  /-- structures beyond R98's one for each window: further PLOAM-only slots granted in it (R155, log 87) -/
  extra : Nat := 0
  /-- PLOAM messages of the frame (R99) -/
  msgs : List PMsg
  deriving DecidableEq, Repr

/-- An XGEM frame or fragment placed in the frame on the line (R131, R164): composable byte of its header, Port-ID, key index, last fragment,
payload as sent; or `idle` bytes of idle XGEM frame there in its stead (R101). -/
structure Placed where
  pos : Nat
  portId : Nat := 0
  key : Nat := 0
  last : Bool := true
  data : List Byte := []
  idle : Nat := 0
  deriving DecidableEq, Repr

/-- A burst granted in the frame being received (R64, R98): what the bandwidth map gave, and what the receiver has found. -/
structure Grant where
  term : Nat
  rate : Nat
  pclass : Nat
  /-- START in the counter, FEEDER_SKEW added on the unit that is not HOME (R205) -/
  start : Nat
  len : Nat
  /-- allocations of the burst's records with their DBRU -/
  allocs : List (Nat × Bool)
  ploamu : Bool
  dynamic : Bool
  /-- X of the burst: XGEM bytes it may carry (R104); those delineated so far -/
  xgem : Nat := 0
  used : Nat := 0
  /-- start of its frame, START without FEEDER_SKEW, and the superframe counter sent in the frame -/
  base : Nat := 0
  plateStart : Nat := 0
  superframe : Nat := 0
  /-- codeword in which each record's allocation begins, by allocation index (R102) -/
  firstCw : List (Nat × Nat) := []
  /-- bytes of each flow admitted of its allowance in this occurrence (R70) -/
  fpb : List (Nat × Nat) := []
  /-- its one PLOAMu has been taken (R102) -/
  ploamTaken : Bool := false
  /-- BURST_ANNOUNCE has come for it (R104, R111) -/
  announced : Bool := false
  /-- taps fresh or usable at the announcement (R111, R114) -/
  fresh : Bool := false
  /-- winning delimiter offset in line bits (R117) -/
  found : Option Int := none
  /-- first data bit, in line bits from the start of its frame (R105, R117) -/
  dataAt : Option Int := none
  received : Bool := false
  decoded : Nat := 0
  corrected : Nat := 0
  uncorr : Nat := 0
  sdAny : Bool := false
  bipOk : Bool := true
  /-- codewords erased in this unit's decode (R121), and in the partner's as its BURST record says (R333); none: no record yet -/
  erased : List Nat := []
  partnerErased : Option (List Nat) := none
  /-- codewords of the burst whose data bytes a REPAIR record has brought to the standby (R334), with those bytes -/
  repaired : List (Nat × List Byte) := []
  deriving DecidableEq, Repr

/-- A window in progress on a tree (R146, R147, R150): purpose, start and length, packed slots, band ranging. -/
structure Window where
  purpose : Nat
  start : Nat
  len : Nat
  /-- terminals of the packed slots, slot k first; true: probe, false: PLOAM-only -/
  packed : List (Nat × Bool)
  /-- terminal of a band ranging with its S and its band in 1/40 mc -/
  band : Option (Nat × Nat × Nat × Nat)
  deriving DecidableEq, Repr

/-- The rogue procedure of a tree (R159, R160). -/
structure Rogue where
  running : Bool := false
  /-- consecutive impressions without a trigger -/
  quiet : Nat := 0
  /-- ONU-ID named by the previous occurrence -/
  named : Option Nat := none
  /-- bisection candidates; empty: no bisection -/
  cands : List Nat := []
  /-- terminals withheld in the frame of the next occurrence, the start of that frame, and an OOG event in it or SD in its windows -/
  withheld : List Nat := []
  heldAt : Option Nat := none
  heard : Bool := false
  /-- start of the first rogue probe window of that frame, end of the last -/
  heldSpan : Nat × Nat := (0, 0)
  /-- suspect disabled in this procedure, the impression count then, and triggers in one of the two impressions after it (R160) -/
  suspect : Option Nat := none
  disabledAt : Nat := 0
  again : Bool := false
  deriving DecidableEq, Repr

/-- A partial upstream frame (R186). -/
structure Frag where
  term : Nat
  portId : Nat
  since : Nat
  data : List Byte
  deriving DecidableEq, Repr

/-- One tree port with its PLOAM engine, ranging engine and protection entry. -/
structure Tree where
  /-- state (R91); reset OFF -/
  st : TreeSt := .off
  /-- MOVING: a transition is in progress to this state, decided at this counter value (R91, R92) -/
  moving : Option (TreeSt × Nat) := none
  /-- SD_NOW (Table 3.8) -/
  sdNow : Bool := false
  /-- transmitter output valid from this counter value (R95, R209) -/
  txValid : Nat := 0
  /-- tree settings (Table 4.2) -/
  set : TreeSet := {}
  /-- tree settings that apply at the next impression boundary (R140) -/
  setNext : Option TreeSet := none
  /-- host messages queued, at most 64 (R156) -/
  hostMsgs : List PMsg := []
  /-- device messages queued (R154) -/
  msgs : List PMsg := []
  /-- messages of the frame last composed (R96, R99) -/
  sent : List PMsg := []
  /-- the frame last composed, and the frame on the line (R96 to R100) -/
  lineNext : Option Comp := none
  lineNow : Option Comp := none
  /-- start of the frame on the line at the TX balls: FEEDER_SKEW earlier on the unit that is not HOME (R205) -/
  lineAt : Int := 0
  /-- what the tailrace has placed in the frame on the line (R131, R164) -/
  placed : List Placed := []
  /-- quiet windows and upstream slack windows of the frames last composed, as [start, end) (R124, R125) -/
  quietSpans : List (Nat × Nat) := []
  slackSpans : List (Nat × Nat) := []
  /-- ends of the responses found in the window in progress (R124) -/
  respEnds : List Nat := []
  /-- SD: samples in a row asserted outside the mask, deasserted samples in a row, an event counted and not re-armed (R125) -/
  sdRun : Nat := 0
  sdLow : Nat := 0
  sdHeld : Bool := false
  /-- tap sets (Table of R110): live, shadow with the START at which it becomes live, write-back; none: default taps -/
  live : Option Taps := none
  shadow : Option (Nat × Option Taps) := none
  writeBack : Option Taps := none
  /-- next PLOAM sequence number; the numbers last given to host messages (Table 4.5) -/
  ploamSeq : BitVec 8 := 0
  hostSeqs : List (BitVec 8) := []
  /-- grants of the frame last composed and of the one before it, each in StartTime order (R98) -/
  grants : List Grant := []
  /-- number of the frame last composed, 0 to 79, and its start -/
  frame : Nat := 0
  frameAt : Nat := 0
  /-- superframe counter of the frame last composed, and output times of the last 64 frames sent (R323) -/
  superframe : Nat := 0
  sentTimes : List (Nat × Int) := []
  /-- window in progress; the discovery and ranging windows of the frames composed that have not opened yet -/
  window : Option Window := none
  plans : List Window := []
  /-- band-ranging queue in order of joining (R147) -/
  bandQ : List Nat := []
  /-- PLOAM-only slots owed, one for each message sent that awaits acknowledgement: slot and sequence number, in sending order (R155) -/
  slotsDue : List (Nat × BitVec 8) := []
  /-- POPUP terminals in order of entry (R147) -/
  popupQ : List Nat := []
  /-- discovery responses accepted in this impression (R151) -/
  discCount : Nat := 0
  /-- serials processed in this discovery occurrence (R150) -/
  discSeen : List (BitVec 64) := []
  /-- rogue procedure -/
  rogue : Rogue := {}
  /-- OOG and ID-mismatch events of this impression (R159) -/
  oogImpr : Nat := 0
  idMisImpr : Nat := 0
  /-- counter value of the last OOG event (R159) -/
  oogAt : Option Nat := none
  /-- TREE_HELD reported since the tree was last SERVING (R94) -/
  heldTold : Bool := false
  /-- TR_LOS count (R198), TR_LOF run (Table 6.1), boundaries since TR_LOS (R199) -/
  losCount : Nat := 0
  lofRun : Nat := 0
  losBounds : Nat := 0
  /-- terminals with a found delimiter in this frame; SD seen in it (Table 6.1) -/
  foundTerms : List Nat := []
  sdFrame : Bool := false
  /-- partial upstream frames (R186) -/
  frags : List Frag := []
  /-- the frame whose rest begins the next PON frame, with the bytes already sent; bytes that the rest takes there (R185) -/
  carryOf : Option (Frame × Nat) := none
  carry : Nat := 0
  /-- first composable byte of the frame in progress not yet decided (R185, R101); start of that frame -/
  compPos : Nat := 0
  compAt : Nat := 0
  /-- PROT_CFG tree entry (Table 6.5) -/
  protTypeB : Bool := false
  home : Nat := 0
  skew : Int := 0
  /-- FEEDER_SKEW as PROT_CFG wrote it (Table 11.3) -/
  skewCfg : Int := 0
  skewLocked : Bool := false
  losBursts : Nat := 4
  xtrig : BitVec 4 := 0b1011
  /-- MODE, HOME, FEEDER_SKEW, LOS_BURSTS and XTRIG that apply from the next impression boundary (R197) -/
  protNext : Option (Bool × Nat × Int × Nat × BitVec 4) := none
  /-- the partner's declared defects on the tree (R207, DEFECT records) -/
  partnerDefects : List Nat := []
  /-- stroke in which the partner declared TR_LOS; 0: not declared (Table 6.7) -/
  partnerLosAt : Nat := 0
  /-- the same at the end of the last granted burst in which SD was seen asserted (R207) -/
  partnerAtSd : List Nat := []
  /-- delimiter offsets of the partner and of this unit since the last boundary: sum in 1/40 mc, and count (R206) -/
  partnerDlm : Int × Nat := (0, 0)
  ownDlm : Int × Nat := (0, 0)
  /-- this tree triggered the handover that made this unit SAILS_ON, and its defect stays declared on the FEATHERED unit (R210) -/
  triggered : Bool := false
  deriving DecidableEq, Repr

/-- Terminal states (Table 4.1), codes 0 to 6. -/
inductive TermSt | unseen | discovered | ranged | active | popup | disabled | rogue
  deriving DecidableEq, Repr

/-- A terminal slot (Table 4.1) with its timers and defect runs. -/
structure Term where
  /-- SERIAL; 0: slot free -/
  serial : BitVec 64 := 0
  /-- RATE -/
  rate : Nat := 0
  /-- ALLOC0 to ALLOC3 -/
  allocs : List Nat := [0, 0, 0, 0]
  /-- AUTO -/
  auto : Bool := false
  /-- PKEY_WRAP -/
  pkey : Option (BitVec 192) := none
  /-- PKEY_IMPR (Table 4.8), and its boundary has come: the carried key is in use (R139) -/
  pkeyImpr : BitVec 32 := 0
  pkeyOn : Bool := false
  /-- STATE -/
  st : TermSt := .unseen
  /-- EQD, 1/40 mc; last acknowledged EQD -/
  eqd : Nat := 0
  eqdAck : Nat := 0
  /-- RTD, 1/40 mc -/
  rtd : Nat := 0
  /-- RTD holds Rc of a discovery response (R147) -/
  rcHeld : Bool := false
  /-- WAS_ACTIVE -/
  wasActive : Bool := false
  /-- TRIES -/
  tries : Nat := 0
  /-- impressions since the running timer of the state started (T_DISC, T_POPUP, T_REDISABLE) -/
  timer : Nat := 0
  /-- messages awaiting acknowledgement -/
  awaits : List Await := []
  /-- activation: Ranging_Time acknowledged; messages of R474 still to be acknowledged; stopped by ACT_FAIL -/
  rangeAcked : Bool := false
  actLeft : List PKind := []
  actFailed : Bool := false
  /-- TERM_ACTIVATE, AUTO or WAS_ACTIVE asks for activation (Table 4.3) -/
  actAsked : Bool := false
  /-- Assign_Alloc-ID messages of the activation have been sent -/
  allocsSent : Bool := false
  /-- ACTIVE at the next impression boundary, with the cause of the change -/
  activeDue : Option Nat := none
  /-- rate that profiles have been sent for and that is not yet acknowledged (R108) -/
  rateNext : Option Nat := none
  /-- DLM_COUNT and DLM_OFFSET_SUM at the last drift evaluation (R152) -/
  dlmN : Nat := 0
  dlmS : Int := 0
  /-- TAPS_STALE reported in this impression (R114) -/
  staleTold : Bool := false
  /-- the terminal's previous granted burst had its delimiter found, and its end (R113, R198) -/
  prevFound : Bool := false
  prevEnd : Nat := 0
  /-- dark-burst run, no-delimiter run with SD seen, found run, RDI run, RDI-clear run, quiet drift evaluations (Table 6.1) -/
  losRun : Nat := 0
  lobRun : Nat := 0
  lobSd : Bool := false
  foundRun : Nat := 0
  rdiRun : Nat := 0
  rdiClr : Nat := 0
  driftOk : Nat := 0
  deriving DecidableEq, Repr

/-- A tap memory entry (R110): taps, rate tag, VALID, STAMP. -/
structure Tap where
  taps : Taps := {}
  rate : BitVec 2 := 0
  valid : Bool := false
  stamp : BitVec 64 := 0
  deriving DecidableEq, Repr

/-- Key slot states (Table 3.6). -/
inductive KeySt | empty | staged | current | draining
  deriving DecidableEq, Repr

/-- The two key slots of one tree, domain and direction, ENCRYPT, and a pending switch or clear (R126, R127). -/
structure KeySet where
  encrypt : Bool := false
  st0 : KeySt := .empty
  st1 : KeySt := .empty
  key0 : BitVec 192 := 0
  key1 : BitVec 192 := 0
  /-- pending requests: true switch, false clear; boundary impression; a clear or an error has emptied a STAGED slot since (R128) -/
  pends : List (Bool × BitVec 32 × Bool) := []
  /-- impression count at the last switch boundary -/
  switchedAt : Nat := 0
  deriving DecidableEq, Repr

/-! ### Mill -/

/-- Sluice and quantum parameters (Table 7.5 D1 to D3). -/
structure NodeCfg where
  quantum : Nat := 0x2600
  sluEn : Bool := false
  rate : Nat := 0
  burst : Nat := 0x2600
  deriving DecidableEq, Repr

/-- Queue entry configuration (Table 7.5). -/
structure QCfg where
  enable : Bool := false
  dom : Nat := 0
  port : Nat := 0
  qlimit : Nat := 0x26
  node : NodeCfg := {}
  deriving DecidableEq, Repr

/-- Allocation entry (Table 7.6, table 4) with its report state. -/
structure ACfg where
  dynEn : Bool := false
  dom : Nat := 0
  poll : Nat := 0
  node : NodeCfg := {}
  reported : Nat := 0
  granted : Nat := 0
  /-- impression count at its last burst with DBRU = 1 (R248); listed or not, from reset on -/
  polledAt : Nat := 0
  /-- counter value of the last report, and the need it replaced (Table 7.7) -/
  reportAt : Option Nat := none
  needOld : Nat := 0
  deriving DecidableEq, Repr

/-- Slack flow entry (Table 7.6, table 5). -/
structure SFlow where
  valid : Bool := false
  dir : Bool := false
  tree : Nat := 0
  term : Nat := 0
  queue : Nat := 0
  suspended : Bool := false
  deriving DecidableEq, Repr

/-- Service state of a node (R237, R244): deficit, open, cursor child, tokens in 1/15,552 byte. -/
structure NodeSt where
  deficit : Nat := 0
  isOpen : Bool := false
  cursor : Nat := 0
  tokens : Int := 0
  deriving DecidableEq, Repr

/-- One headrace lane: weir FIFOs, hopper, commit point (R36 to R40, R228). -/
structure Lane where
  /-- weir frames in order of arrival (a domain's FIFO is its subsequence) -/
  weir : List Frame := []
  /-- domain last served by a SHARED fill (R229); the spec gives none before the first: 63, so that the first one starts at domain 0 (DESIGN CHOICE,
  log 144) -/
  lastDom : Nat := 63
  /-- entries from the mark on: lane sequence number, frame, through-flow (R36, R37) -/
  hopper : List (BitVec 32 × Frame × Bool) := []
  /-- next lane sequence number -/
  nextSeq : BitVec 32 := 0
  /-- last lane sequence number committed -/
  committed : BitVec 32 := 0xFFFFFFFF
  /-- sequence number that failed and has not yet committed on replay (R39, R40) -/
  failed : Option (BitVec 32) := none
  /-- a replay runs until this sequence number has passed (R39) -/
  replayTo : Option (BitVec 32) := none
  /-- retired onto spare strokes (R40) -/
  retired : Bool := false
  /-- words left of the through frame part-way across, by FLOW_ID (R226, R227) -/
  parts : Map Nat := []
  /-- words of a slack frame still to move in the fill run, in the draw run (R227, R245) -/
  fillWords : Nat := 0
  drawWords : Nat := 0
  /-- domain and words of the frame whose draw goes on in the run's next strokes (R232) -/
  drawing : Nat × Nat := (0, 0)
  /-- FILL_NOFIT reported in this impression (R230) -/
  fillTold : Bool := false
  /-- HWM of the lane hopper (Table 13.12) -/
  hwm : Nat := 0
  deriving DecidableEq, Repr

/-- An effect that lands at a stroke boundary (R22, R243). -/
inductive Landing
  /-- the entry's command has started: its own checks, effect and reply come at the boundary (Table 12.16); a timed one ends in CMD_DONE -/
  | cmd (timed : Bool)
  /-- a BAR0 write of w bytes at an address, without the bits no of it (R374) -/
  | bar (a w : Nat) (v : BitVec 64) (no : Word)
  /-- a BAR0 read that came after a write still waiting (R395) -/
  | barRead (a w : Nat)
  /-- lock bits of a register set from class 0 (R403) -/
  | lock (a : Nat) (v : Word)
  /-- a wrapped key for a slot of a key set (R127, R133) -/
  | keyLoad (i : Nat) (slot : Bool) (wrapped : BitVec 192)
  | raise_
  /-- a later epoch was seen (R340) -/
  | feather (epoch : BitVec 32)
  | liftFence
  | linkFence
  /-- contact has begun (Table 11.1, R331): the partner's sails, PREFER, fence under the higher epoch, and epoch -/
  | contact (sails prefer fenced : Bool) (epoch : BitVec 32)
  /-- the cut C of a quick tier (R347) -/
  | cut
  /-- all sections of a quick tier are held, and the standby takes them (R22, R347) -/
  | sections
  /-- a fence empties the mill of a unit that has released (R22, R42) -/
  | fenced
  /-- LARGE_QUEUES has left the feature set: queues 4 to 15 are disabled (R236) -/
  | largeOff
  | reset (cold : Bool)
  deriving DecidableEq, Repr

/-- An effect posted to the plate engine (R22, R23, R27): counter value of its posting, acceptance order, and its command. -/
structure Posted where
  eff : Landing
  at_ : Nat
  ord : Nat
  pkt : Option Pkt := none
  deriving DecidableEq, Repr

/-- The mill. -/
structure Mill where
  /-- queue entries by Q (Table 7.5) -/
  queues : Map QCfg := []
  /-- terminal entries by 3g + e' -/
  terms : Map NodeCfg := []
  /-- domain entries by 64P + d -/
  doms : Map NodeCfg := []
  /-- port entries by P -/
  ports : Map NodeCfg := []
  /-- allocation entries by 4g + index -/
  allocs : Map ACfg := []
  /-- slack flows by FLOW_ID -/
  sflows : Map SFlow := []
  /-- service state by node number (Machine/Mill.lean: leaf, terminal, domain, port) -/
  nodes : Map NodeSt := []
  /-- frames of each queue in the millpond, oldest first -/
  pond : Map (List Frame) := []
  /-- USED_d (R232) -/
  used : Map Nat := []
  /-- retired cells (R234) -/
  retiredCells : List Nat := []
  /-- flumes by DRAW target (R245, R246) -/
  flumes : Map (List Frame) := []
  /-- headrace buffers of through-flows by FLOW_ID -/
  through : Map (List Frame) := []
  /-- tailrace frames of through-flows by FLOW_ID, handed off and not yet sent -/
  tail : Map (List Frame) := []
  /-- bytes of its allowance a downstream flow has used in the occurrence, by FLOW_ID (R70) -/
  usedFpb : Map Nat := []
  /-- per-flow sequence points given, and delivered (R41, R334) -/
  points : Map (BitVec 32) := []
  deliveredPts : Map (Option (BitVec 32)) := []
  /-- FLOW_OVERSIZE reported in this impression, per flow (R189) -/
  oversizeTold : List Nat := []
  /-- EGRESS_NOFIT reported in this impression, per port (R187) -/
  egressTold : List Nat := []
  /-- lanes by number (Table 1.1) -/
  lanes : Map Lane := []
  /-- MW_CMD ERR (Table 7.4) -/
  mwErr : Nat := 0
  /-- GEN by FLOW_ID: next sequence number of flows with GEN = 1 (R269) -/
  gens : Map (Option (BitVec 16)) := []
  /-- effects waiting for the next stroke boundary, oldest first -/
  landing : List Posted := []
  deriving DecidableEq, Repr

/-! ### Tributaries -/

/-- Tributary entry (Table 5.3). -/
structure TCfg where
  enable : Bool := false
  kindPacket : Bool := false
  upFail : Bool := false
  retEn : Bool := false
  vtags : Nat := 0
  k : Nat := 1
  payLen : Nat := 66
  retFlow : Nat := 0
  da : BitVec 48 := 0
  sa : BitVec 48 := 0
  tag0 : BitVec 32 := 0
  tag1 : BitVec 32 := 0
  roeFlow : Nat := 0
  deriving DecidableEq, Repr

/-- An alignment candidate (R180): next expected stream byte, words seen, misses, frames' start of the current frame. -/
structure Cand where
  start : Nat
  seen : Nat
  deriving DecidableEq, Repr

/-- One tributary: entry, mapper and deframer. -/
structure Trib where
  /-- entry in force (Table 5.3) -/
  cfg : TCfg := {}
  /-- an entry is written -/
  present : Bool := false
  /-- accepted entries, each with the counter value of its acceptance, oldest first (R171) -/
  next : List (TCfg × Nat) := []
  /-- held under R173, first failing row reported -/
  held : Bool := false
  /-- store: payloads due in order; none is a missing place (R175) -/
  store : List (Option (List Byte)) := []
  /-- expected sequence number E once set (R175) -/
  expect : Option (BitVec 32) := none
  /-- next downstream FCNT (R174) -/
  fcnt : BitVec 16 := 0
  /-- next upstream orderInfo (R183) -/
  order : BitVec 32 := 0
  /-- frames of the flow delivered in the open occurrence (R179) -/
  occ : List (List Byte) := []
  /-- stream bytes kept, and the stream number of the first kept byte (R179) -/
  streamAt : Nat := 0
  bytes : List Byte := []
  /-- stream bytes scanned for new candidates -/
  scanned : Nat := 0
  /-- deframer state: 0 HUNT, 1 PRESYNC, 2 SYNC (Table 5.5) -/
  align : Nat := 0
  cands : List Cand := []
  /-- chosen alignment: start of its current frame; shadows; end of the ambiguity test (R181) -/
  chosen : Nat := 0
  shadows : List Nat := []
  ambUntil : Nat := 0
  misses : Nat := 0
  /-- conditions of R182: AIS, RDI, SLM -/
  ais : Bool := false
  rdi : Bool := false
  slm : Bool := false
  /-- label and FCNT of the last CRC-passing frame -/
  lastLabel : Nat := 0
  lastFcnt : Option (BitVec 16) := none
  /-- defect integrations: consecutive frames with and without AIS, RDI, SLM; out-of-frame and in-frame since -/
  aisRun : Nat := 0
  aisClr : Nat := 0
  rdiRun : Nat := 0
  rdiClr : Nat := 0
  slmRun : Nat := 0
  slmClr : Nat := 0
  oofSince : Option Nat := none
  oofDecisions : Nat := 0
  syncSince : Option Nat := none
  /-- outputs emitted toward the uplink at the last decision (R183) -/
  out : List (List Byte) := []
  /-- first lanes of the ports that have fed the flow since its entry took effect (R177) -/
  fedBy : List Nat := []
  /-- RDI to be sent in the last two frames composed since the entry took effect, each with the frame's start, newest first (Table 5.8) -/
  rdiSend : List (Nat × Bool) := []
  /-- the tributary XGEM payload mapped at the last TRIB_MAP, until the composer reaches its slot; slot time of that occurrence (R174) -/
  mapped : List Byte := []
  mapAt : Nat := 0
  deriving DecidableEq, Repr

/-! ### Uplinks -/

/-- One screen (Table 8.4) with its recovery state (R266). -/
structure Screen where
  kind : Nat
  recEn : Bool
  histLen : Nat
  vidO : Nat
  vidI : Nat
  ident : BitVec 48
  flow : Nat
  resetMs : Nat
  /-- RECOV; none: reset -/
  recov : Option (BitVec 16) := none
  /-- marked sequence distances below RECOV -/
  marked : List Nat := []
  /-- counter value of the last frame passed -/
  lastPass : Nat := 0
  /-- FRER_RESET reported in this impression (R267) -/
  told : Bool := false
  /-- last tagged frame passed: counter value, port, number, and the numbers counted lost before it (Table 8.6) -/
  lastRx : Option (Nat × Nat × BitVec 16 × Nat) := none
  deriving DecidableEq, Repr

/-- One uplink port (by first lane): what its receiver sees and its timers. -/
structure UPort where
  /-- PCS aligned with every lane good -/
  aligned : Bool := false
  /-- RF_RX, LF_RX, RF_TX of PORT_STATUS (Table 8.10) -/
  rfRx : Bool := false
  lfRx : Bool := false
  rfTx : Bool := false
  /-- paused until this counter value (R261); 0: not paused -/
  pausedTo : Nat := 0
  /-- rehashed onto a spare (R214) -/
  rehashed : Bool := false
  /-- counter value at which the port last was out of alignment or received a fault, as far as events tell (R276) -/
  faultAt : Nat := 0
  /-- counter value at which the triggers last became clear (R215) -/
  clearAt : Nat := 0
  /-- counter value at which a trigger was last declared, until its rehash is decided (R214); 0: none -/
  trigAt : Nat := 0
  /-- counter value from which a PROT_SWITCH reverts the port (R215); 0: none -/
  revertAt : Nat := 0
  /-- PROT_CFG port entry (Table 6.5) -/
  spare : Option Nat := none
  utrig : Bool := false
  /-- SPARE and UTRIG that apply from the next impression boundary (R197) -/
  protNext : Option (Option Nat × Bool) := none
  /-- device frames waiting: PTP, ESMC, in-band reply with its destination and VLAN tags (R271) -/
  devPtp : Option (List Byte) := none
  devEsmc : Option (List Byte) := none
  devReply : Option (Reply × BitVec 48 × List Byte) := none
  /-- ESMC: last received quality level and time of the last information PDU (R275) -/
  esmcQl : Option (BitVec 4) := none
  esmcAt : Nat := 0
  /-- quality level last sent (R275, R300) -/
  esmcSent : BitVec 4 := 15
  /-- length of the slack frame being sent and bytes left (R187) -/
  txLeft : Nat := 0
  /-- the frame the MAC last began, as sent; of a through or slack frame still going out, its flow and the point delivered before it (R344) -/
  txFrame : List Byte := []
  txOf : Option (Nat × Option (BitVec 32)) := none
  /-- messageType and sequenceId of the PTP frame last received, and its receive time-stamp at the balls (R272) -/
  ptpRx : Option (Nat × Nat × Nat) := none
  /-- the codeword last completed was uncorrectable (R257) -/
  lastBad : Bool := false
  deriving DecidableEq, Repr

/-! ### Timing -/

/-- DPLL states (Table 9.4), codes 0 to 3. -/
inductive Dpll | freerun | acquiring | locked | holdover
  deriving DecidableEq, Repr

/-- One reference (Table 9.1). -/
structure Ref where
  /-- RF_FREQ set by R287 -/
  freqTie : Bool := false
  /-- f_r, ppb, at the last tick (R281) -/
  f : Int := 0
  /-- quality level in use (Table 9.6 QL_NOW) -/
  ql : BitVec 4 := 15
  /-- wait-to-restore running until this counter value (R285); 0: not running -/
  wtr : Nat := 0
  /-- counter values at which the clear conditions of RF_FREQ and RF_PHASE last failed (Table 9.3) -/
  freqBadAt : Nat := 0
  phaseBadAt : Nat := 0
  /-- RF_LOS clear run: well spaced edge intervals (indices 4, 5), ticks without a condition of R274 (8 to 15) -/
  good : Nat := 0
  /-- counter value of its last edge, and of the last clear of a defect -/
  edgeAt : Option Nat := none
  clearedAt : Option Nat := none
  /-- the last qualification judged (REF_STATUS QUAL) -/
  qual : Bool := false
  /-- since a warm restart not yet qualified: its timer is 2 s free of defects, not WTR_S (R295) -/
  restarting : Bool := false
  deriving DecidableEq, Repr

/-- One pulse output (Table 9.8). -/
structure Pulse where
  /-- anchored grid (SRC 0, 1): counter value of the next edge; none until anchored -/
  grid : Option Nat := none
  /-- waits for an input edge to anchor (R297) -/
  wantAnchor : Bool := false
  /-- mill cycles the grid still has to move (R297 MODE 1) -/
  slew : Int := 0
  stepHeld : Bool := false
  lastDelta : Int := 0
  /-- last edge of the grid passed, emitted or squelched -/
  lastEdge : Nat := 0
  /-- leading edge of the last pulse emitted (R298) -/
  pulseAt : Option Nat := none
  /-- input edge captured and not yet available, its counter value (R297) -/
  due : Option Nat := none
  /-- REALIGN has been written and the output has not anchored since (Table 9.8) -/
  realign : Bool := false
  deriving DecidableEq, Repr

/-- One clock output (Table 9.8): DEN in force, SYNCED, waits for the next PPS_OUT edge, counter value of the divider's last reset (R299). -/
structure ClkOut where
  den : Nat := 0x1E600
  synced : Bool := false
  wantSync : Bool := false
  resetAt : Nat := 0
  deriving DecidableEq, Repr

/-- The holdover learning record in MRAM (R291, R292): coefficients in register units, their validity, MODEL_VALID, T0 and the time of the fit. -/
structure HoldRec where
  a : Int := 0
  b : Int := 0
  g : Int := 0
  aValid : Bool := false
  bValid : Bool := false
  gValid : Bool := false
  modelValid : Bool := false
  t0 : Int := 0
  fittedAt : Nat := 0
  deriving DecidableEq, Repr

/-- The timing unit. -/
structure Timing where
  /-- references by index -/
  refs : Map Ref := []
  /-- current selection (R286) -/
  cur : Option Nat := none
  /-- DPLL state; reset FREERUN (Table 14.6) -/
  dpll : Dpll := .freerun
  /-- following the partner's root (R290) -/
  following : Bool := false
  /-- counter value of the next decision tick (R281) -/
  tickNext : Nat := 0
  /-- WTR_CLR written since the last tick (R285) -/
  wtrClr : Bool := false
  /-- MANUAL_REF has been written and not yet taken (R286) -/
  manNew : Bool := false
  /-- steering, 1/16 ppb (R28) -/
  steer : Int := 0
  /-- counter value since which every tick in ACQUIRING lay within the lock limits (Table 9.4) -/
  lockFrom : Option Nat := none
  /-- seconds of LOCKED history (R288) -/
  history : Nat := 0
  /-- steering at the whole seconds, newest first (HOLD_AVG_S) -/
  steers : List Int := []
  /-- holdover learning window: steering (1/16 ppb), temperature (1/256 °C), second; newest first (R292) -/
  samples : List (Int × Int × Nat) := []
  /-- coefficients A, B, G in register units, and their validity (R291, R292) -/
  a : Int := 0
  b : Int := 0
  g : Int := 0
  modelValid : Bool := false
  aValid : Bool := false
  bValid : Bool := false
  gValid : Bool := false
  /-- T0 and TEMP_NOW, 1/256 °C -/
  t0 : Int := 0
  tempNow : Int := 0
  /-- consecutive failed board reads (R293) -/
  tempFails : Nat := 0
  /-- f_start, T_s and t_s of the holdover in progress (R291) -/
  fStart : Int := 0
  tStart : Int := 0
  sStart : Nat := 0
  /-- counter value of the last fit -/
  fittedAt : Nat := 0
  /-- holdover learning record in MRAM (R292) -/
  record : HoldRec := {}
  /-- the record in MRAM is later than that of the last save set (R301) -/
  recordLater : Bool := true
  /-- pulse outputs by o -/
  pulses : Map Pulse := []
  /-- clock outputs by k -/
  clks : Map ClkOut := []
  deriving DecidableEq, Repr

/-- Time domain states (Table 10.1), codes 0 to 4. -/
inductive DomSt | unset | stepArmed | tracking | bridging | hold
  deriving DecidableEq, Repr

/-- A master heard on a port (R313): lane, the data set of its last Announce, its port identity, when it came. -/
structure Foreign where
  lane : Nat
  gmClass : Nat
  accuracy : Nat
  variance : Nat
  prio2 : Nat
  gm : Nat
  steps : Nat
  sender : Nat
  at_ : Nat
  deriving DecidableEq, Repr

/-- One time domain (R306 to R316). τ in 2^−16 ns, R in 2^−40, path delays and offsets in 1/16 ns. -/
structure TDom where
  st : DomSt := .unset
  cb : Nat := 0
  tau : Int := 0
  r : Int := 0
  /-- counter value from which each kept parameter set was in force: (from, C_b, τ_b, R, UNSET); newest first (R319) -/
  past : List (Nat × Nat × Int × Int × Bool) := []
  /-- from which counter value the domain had which rate, and whether it was TRACKING; newest first (R316) -/
  rates : List (Nat × Int × Bool) := []
  /-- consecutive valid exchanges, counter value of the last of them, the master's clockIdentity in it (R313) -/
  valids : Nat := 0
  validAt : Nat := 0
  masterId : Option (BitVec 64) := none
  /-- offset of an exchange the servo uses at the next stroke boundary; PATH_STEP and a master loss to be judged there (R310, R325) -/
  due : Option Int := none
  pathDue : Bool := false
  lostDue : Bool := false
  /-- exchanges to be skipped, their Delay_Req's time-stamp lost (R322) -/
  skip : Nat := 0
  /-- PATH_STEP declared (R314), hold entered on it, hold entered on a master loss -/
  pathStep : Bool := false
  holdPath : Bool := false
  /-- master not lost -/
  masterOk : Bool := false
  /-- first lane of the slave port; masters heard within three Announce intervals; counter value of the chosen master's last Announce (R313) -/
  slave : Nat := 0
  announceAt : Nat := 0
  foreign : List Foreign := []
  /-- MPD_REF, last 16 unsuspect path delays, suspects in a row -/
  mpd : Int := 0
  mpds : List Int := []
  suspects : Nat := 0
  /-- exchanges in a row near MPD_REF while BRIDGING -/
  near : Nat := 0
  /-- delayAsymmetry, last measured offset -/
  asym : Int := 0
  offset : Int := 0
  /-- K_b of R315 -/
  kb : Int := 0
  /-- JUMP_REFUSED reported in this excursion (R311) -/
  jumpTold : Bool := false
  deriving DecidableEq, Repr

/-- The time counter's readers. -/
structure TimeSt where
  /-- time domain A -/
  domA : TDom := {}
  /-- time domain B -/
  domB : TDom := {}
  /-- SEL_DOM (false A) -/
  sel : Bool := false
  /-- the selection that moves at the stroke boundary, after a step of a domain there (R317, R325) -/
  selNext : Option Bool := none
  /-- K of R317 at the moment kAt, 2^−16 ns -/
  k : Int := 0
  kAt : Nat := 0
  /-- BREAKS (R304) -/
  breaks : Nat := 0
  /-- root PLL out of lock since the last restart (R304) -/
  lost : Bool := false
  /-- capture registers: counter, τ_A, τ_B, output τ (R308) -/
  capCnt : Nat := 0
  capA : Int := 0
  capB : Int := 0
  capOut : Int := 0
  /-- messages awaiting a transmit time-stamp: lane, domain, type, sequence (R322) -/
  awaiting : List (Nat × Bool × Nat × Nat) := []
  /-- Syncs whose time-stamp the engine has taken, with its counter value; Follow_Up is still to come (R273, R322) -/
  stamped : List ((Nat × Bool × Nat) × Nat) := []
  deriving DecidableEq, Repr

/-! ### Pair -/

/-- Pair states (Table 11.1), codes 0 to 3. -/
inductive PairSt | solo | joining | eligible | inStep
  deriving DecidableEq, Repr

/-- The pair and its lease. -/
structure Pair where
  /-- pair state; reset JOINING (R327) -/
  st : PairSt := .joining
  /-- SAILS_ON; reset FEATHERED -/
  sails : Bool := false
  /-- contact (R328) -/
  contact : Bool := false
  /-- partner's UNIT, PREFER and SAILS_ON as learnt at HELLO -/
  partnerPrefer : Bool := false
  partnerSails : Bool := false
  /-- fenced by the lease (R339), by FENCE (R380), by FENCE_IN_N (R462), by boundary scan (R465) -/
  fencedLease : Bool := false
  fencedCmd : Bool := false
  fencedPin : Bool := false
  fencedScan : Bool := false
  /-- last epoch under which this unit fenced (Table 11.1); reset none -/
  fenceEpoch : Option (BitVec 32) := none
  /-- DETACHED (Table 11.1) -/
  detached : Bool := false
  /-- a fence has taken this unit of a pair out of it: its release or LEAVE, and no contact since that decided roles (R339, R380) -/
  released : Bool := false
  /-- LEASE_EPOCH (R340) -/
  epoch : BitVec 32 := 0
  /-- e_a or e_s, counter value; a partner has granted under the epoch (R330, R338) -/
  expiry : Nat := 0
  granted : Bool := false
  /-- renewal number last sent or received; GRANT of it returned; first renewal of the contact sent -/
  num : Nat := 0
  grantBack : Bool := false
  renewing : Bool := false
  /-- last RENEW received; last valid sideband frame -/
  renewAt : Nat := 0
  sbGood : Bool := false
  sbAt : Nat := 0
  /-- verdict SAIL accepted (R342) -/
  sailVerdict : Bool := false
  /-- LEASE_PATHS_LOST and WITNESS_ASK reported for this silence -/
  lostTold : Bool := false
  /-- TIER: 0 none, 1 quick, 2 slow; TIER_DONE bytes; quick-tier sections held -/
  tier : Nat := 0
  tierDone : Nat := 0
  sections : List Nat := []
  /-- bytes received of each section being copied (R347, R348), by 16 tier + section -/
  copied : Map (List Byte) := []
  /-- the cut C of the quick tier in progress or last made, on this unit's counter (R347); reset none -/
  cutAt : Option Nat := none
  /-- the standby has taken all sections of the quick tier (R347) -/
  taken : Bool := false
  /-- sections the SAILS_ON unit sends, as they stood at C, each closed by its CRC-32C, by 16 tier + section (R347, R348) -/
  sending : Map (List Byte) := []
  /-- the quick-tier copy has completed; the next digest decides (Table 11.1) -/
  quickDone : Bool := false
  /-- last raise was a cold takeover; DEGRADED holds -/
  cold : Bool := false
  degraded : Bool := false
  /-- LAST_CAUSE (Table 11.13): FORM, CAUSE, TREE -/
  causeForm : Nat := 0
  causeCode : Nat := 0
  causeTree : Nat := 0
  /-- pending switchover: stroke boundary X, form and cause (R209, R343) -/
  handover : Option (Nat × Nat × Nat × Nat) := none
  /-- impression count of the last handover; triggers held till 10 impressions after it, by tree and code (R207) -/
  lastHandover : Option Nat := none
  heldTriggers : List (Nat × Nat) := []
  /-- triggers refused under the fourth condition of R207 and reported, by tree and code -/
  refused : List (Nat × Nat) := []
  /-- triggers to be judged at the next stroke boundary: tree, code (0xFF internal), counter value of the declaration (R207, R216, Table 6.7) -/
  trigs : List (Nat × Nat × Nat) := []
  /-- stroke in which the pending switchover was ordered (Tables 6.7, 11.8) -/
  orderedAt : Nat := 0
  /-- PAIR_SKEW, 1/16 mc, and Δ_C (R331) -/
  skew : Int := 0
  deltaC : Int := 0
  /-- state stream received and not yet executed, in order; last stroke acknowledged -/
  lag : List StreamRec := []
  /-- a standby's own copies of frames, and repairs, that INGRESS records enter; point 0 where only the flow is known (R333, R334) -/
  copies : List Frame := []
  lastAck : Nat := 0
  /-- state stream sent and not acknowledged (R335); WR and HWM of its hopper (Table 13.12) -/
  sent : List StreamRec := []
  streamWr : BitVec 32 := 0
  streamHwm : Nat := 0
  /-- drops at the stream's hopper not yet reported by HOPPER_DROP, each with the first number its marker covers (R414) -/
  streamDrop : List (BitVec 32) := []
  /-- REL and MARK of the state stream's hopper (R335, R347) -/
  streamRel : BitVec 32 := 0
  streamMark : BitVec 32 := 0
  /-- bytes of REPAIR records sent in the present tier, and its start (R334) -/
  repaired : Nat := 0
  tierAt : Nat := 0
  /-- digests of the last boundary: own, partner's, boundary number (R336) -/
  digestOwn : Option (BitVec 32 × BitVec 128) := none
  digestPartner : Option (BitVec 32 × BitVec 128) := none
  digestAt : Nat := 0
  /-- boundary and its number of which the standby still owes its digest, PAIR_LAG later (R336) -/
  digestDue : Option (Nat × BitVec 32) := none
  /-- resyncs: counter values of the last ones; RESYNC_LIMIT reported (R351) -/
  resyncs : List Nat := []
  resyncLimit : Bool := false
  /-- lease frame last queued on LEASE_TX: kind, epoch -/
  leaseTx : Option (LeaseKind × BitVec 32) := none
  /-- its 64-bit frame (Table 11.4) -/
  leaseWord : BitVec 64 := 0
  /-- lease frames on LEASE_TX and to come, each with the counter value at which it begins; IDLE frames between (R337) -/
  leaseOut : List (Nat × BitVec 64) := []
  deriving DecidableEq, Repr

/-- One estimator object: codewords uncorrectable and decoded since its windows were last emptied, and those counts at recent slot boundaries,
newest first (R201). -/
structure Estim where
  u : Nat := 0
  n : Nat := 0
  slots : List (Nat × Nat) := []
  deriving DecidableEq, Repr

/-- Estimator settings (Table 6.3), with the setting that applies from the next boundary (R197). -/
structure EstCfg where
  sdExp : Nat := 8
  sfExp : Nat := 5
  setT : Nat := 25
  clrT : Nat := 100
  deriving DecidableEq, Repr

/-! ### Power, save, firmware, pins -/

/-- Power domain states (R427), codes 0 to 2. -/
inductive PwrSt | off | ramping | on
  deriving DecidableEq, Repr

/-- Firmware slot states (Table 14.7), codes 0 to 5. -/
inductive FwSt | empty | writing | valid | pending | active | failed
  deriving DecidableEq, Repr

/-- A firmware slot: state and the bytes written. -/
structure FwSlot where
  st : FwSt := .empty
  image : Map Byte := []
  deriving DecidableEq, Repr

/-- A counter: value, WRAP and PRESET since the last copy (R405). -/
structure Cnt where
  v : BitVec 64 := 0
  wrap : Bool := false
  preset : Bool := false
  deriving DecidableEq, Repr

/-- The save set (Table 14.3). -/
structure Save where
  /-- save format (R448) -/
  format : Nat := 1
  /-- save number, cause of the SAG, agreed feature set D, last numbers of the two series and of their effects (R360, R437, Table 14.3) -/
  num : BitVec 32
  cause : Nat
  featD : BitVec 64
  devLast : BitVec 32
  locLast : BitVec 32
  devEff : BitVec 32
  locEff : BitVec 32
  /-- counter, impression number and mill cycle at D -/
  at_ : Nat
  impr : BitVec 32
  imprMc : Nat
  /-- identity and bank of the ENGAGED plate -/
  plateId : BitVec 128
  bank : Option Bool
  epoch : BitVec 32
  pairCfg : Word
  prot : Nat
  terms : Map Term
  keys : Map KeySet
  domA : TDom
  domB : TDom
  sel : Bool
  k : Int
  kAt : Nat
  dpll : Dpll
  steer : Int
  /-- holdover learning record (R292) -/
  model : HoldRec
  /-- next and last-released numbers of event, PLOAM_IN, time-stamp hoppers -/
  hoppers : List (BitVec 32 × BitVec 32)
  counters : Map Cnt
  deriving DecidableEq, Repr

/-- The MRAM configuration area (R57, R193, R252, R278, R437, R442): registers, provisioning, tributary, mill, screen and port entries. -/
structure Prov where
  regs : Map Word := []
  terms : Map Term := []
  trees : Map Tree := []
  queues : Map QCfg := []
  termNodes : Map NodeCfg := []
  doms : Map NodeCfg := []
  portNodes : Map NodeCfg := []
  allocs : Map ACfg := []
  sflows : Map SFlow := []
  gens : List Nat := []
  tribs : Map TCfg := []
  screens : List Screen := []
  ports : Map UPort := []
  est : EstCfg × EstCfg × EstCfg := ({}, {}, {})
  deriving DecidableEq, Repr

/-- A copy of the save pointer (R438): area named, save number, CONSUMED. -/
structure SavePtr where
  area : Bool
  num : BitVec 32
  consumed : Bool
  deriving DecidableEq, Repr

/-- What a start in progress leads to: a start after PORST_N, after RESET KIND 1, or a warm restart (R443, R445, R440). -/
inductive Boot
  | por | cold | warm
  deriving DecidableEq, Repr

/-- Where the device is in its start, save and restart sequences. -/
inductive Phase
  | porst            -- PORST_N low
  | booting          -- PORST_N risen, firmware not yet running (Table 14.6)
  | running
  | saving           -- from D to the end of the save (R435 to R438)
  | saved            -- save complete or nothing saved: domains in reset until P (R436, R440)
  deriving DecidableEq, Repr

/-- The PMU, the save engine, firmware and pins. -/
structure Power where
  /-- phase; State.reset is the machine after reset, running (DESIGN CHOICE, log 4) -/
  phase : Phase := .running
  /-- power domains by number; domains 78 and 79 read on, others off at reset (R430) -/
  doms : Map PwrSt := []
  /-- AVS STATE (Table 14.9), VDD_CMD in mV -/
  avs : Nat := 0
  vddCmd : Nat := 800
  /-- readings: VOUT mV, IOUT 0.1 A; mismatches in a row (R432) -/
  vout : Nat := 0
  iout : Nat := 0
  vddBad : Nat := 0
  /-- cause of the save in progress (event SAG data) and counter value of D -/
  cause : Nat := 0
  sagAt : Nat := 0
  vholdD : Nat := 0
  vholdEnd : Nat := 0
  /-- counter freeze (R48) and the snapshot taken at D -/
  saveTime : Nat := 0
  /-- save areas 0 and 1 (R438); none: holds no whole save set -/
  area0 : Option Save := none
  area1 : Option Save := none
  /-- copies 0 and 1 of the save pointer (R438); none: never written -/
  ptr0 : Option SavePtr := none
  ptr1 : Option SavePtr := none
  /-- LAST_TORN, RESTORED (R438, Table 14.9) -/
  lastTorn : Bool := false
  restored : Bool := false
  /-- the save set being written -/
  pendingSave : Option Save := none
  /-- domains that were on at D -/
  onAtD : List Nat := []
  /-- RESTART CAUSE and WARM_COUNT (Table 13.6) -/
  restartCause : Nat := 0
  warmCount : Nat := 0
  /-- firmware slots A and B; running slot (false A); trial in progress; rescue mode (R446 to R449) -/
  fwA : FwSlot := { st := .active }
  fwB : FwSlot := {}
  fwRun : Bool := false
  fwTrial : Bool := false
  /-- what the start in progress leads to, and whether the other slot verifies (R448) -/
  boot : Boot := .por
  bootSig : Bool := false
  /-- slots whose trial failed in this boot: FW_TRIAL_FAILED is the first event of the firmware that runs (R448) -/
  trialFailed : List Bool := []
  /-- PMU counters that saves have advanced since counters last ran: they count when firmware next runs (R48, R438) -/
  owed : List Nat := []
  /-- configuration area as it stood at the last D or PORST_N (R437) -/
  config : Prov := {}
  fwVerify : Option Bool := none
  rescue : Bool := false
  /-- key-wrapping key (R129) -/
  kwk : Option (BitVec 128) := none
  /-- boundary-scan instruction loaded (R465) -/
  jtag : Jtag := .bypass
  /-- FENCE_IN_N asserted at its ball (R462) -/
  fenceIn : Bool := false
  /-- last sampled GPIO levels, before POL -/
  gpioIn : BitVec 16 := 0
  /-- what boundary scan has shifted into the cells, as an index of open contents (R465) -/
  cells : Nat := 0
  /-- VOUT_MODE as read at start-up, the VOUT_COMMAND word last written, the PMBus messages of the last transaction (R431, R432) -/
  voutMode : BitVec 8 := 0x17
  voutCmd : Option (BitVec 16) := none
  pmbOut : List (List Byte) := []
  /-- events of the PMU while no firmware runs, pushed when it does: code and data (R432, R434) -/
  late : List (Nat × List Byte) := []
  /-- the warm restart to come may restore from the save the pointer names (R436, R438) -/
  useSave : Bool := true
  /-- what the start in progress reads of that save: its first section that fails, 0 for a format not known (R442, R448) -/
  bad : Option Nat := none
  /-- serials muted by T_SN_MUTE, with the impression count at their report (Table 4.4) -/
  muted : List (BitVec 64 × Nat) := []
  deriving DecidableEq, Repr

/-- Defects and protection. -/
structure Defects where
  /-- declared defects: keys by object class, index and code (Machine/Defects.lean) -/
  on : Map Bool := []
  /-- history bits, same keys (R197) -/
  hist : Map Bool := []
  /-- estimator windows by object key -/
  est : Map Estim := []
  cfgTree : EstCfg := {}
  cfgTerm : EstCfg := {}
  cfgPort : EstCfg := {}
  next : List (Nat × EstCfg) := []
  /-- protection status: 0 PROTECTED, 1 UNPROTECTED, 2 DEGRADED (R204) -/
  prot : Nat := 1
  deriving DecidableEq, Repr

/-- Fused at manufacture (R5): trees 64, 48 or 32; speed grade -5 (true) or -2. -/
structure Fuse where
  trees : Nat := 64
  /-- start voltage, mV (Table 14.6) -/
  startMv : Nat := 800
  /-- speed grade -5, not -2 -/
  speed5 : Bool := true
  deriving DecidableEq, Repr

/-- Datapath state as sampled at the last stroke boundary (R25). -/
structure Seen where
  mill : Mill := {}
  trees : Map Tree := []
  ports : Map UPort := []
  tribs : Map Trib := []
  cnt : Map Cnt := []
  deriving DecidableEq, Repr

/-- The unit. -/
structure State where
  /-- commands waiting, first in first out -/
  pending : List Instr := []
  /-- MODEL'S OWN: index of the next free value (Config.freshNat); DESIGN CHOICE 0 -/
  free : Nat := 0
  /-- fused part (R5); DESIGN CHOICE QZ8164-5 -/
  fuse : Fuse := {}
  /-- time counter, 96 bits (R303); reset 0 -/
  now : Nat := 0
  /-- next stroke boundary whose work is not done; reset 0 -/
  strokeNext : Nat := 0
  /-- next impression boundary, and the number of the impression in progress (R31) -/
  imprNext : Nat := 12441600
  imprNum : BitVec 32 := 0
  /-- start of the impression in progress -/
  imprAt : Nat := 0
  /-- impression boundaries since reset (counts timers of R143) -/
  imprCount : Nat := 0
  /-- IMPR_PHASE latch: the last boundary differed by more than 80 mc (R31) -/
  phaseOff : Bool := false
  /-- software-written register bits by BAR0 address, sparse against the reset values (Machine/Regs.lean) -/
  regs : Map Word := []
  /-- counters by live or extended address (R405, Table 13.5) -/
  cnt : Map Cnt := []
  /-- holding slots by live or extended address (R406) -/
  hold : Map Cnt := []
  /-- the counters as they stood at the start of the present mill cycle (R404, R405) -/
  cyc : Map Cnt := []
  /-- every counter has restarted from 0 since the last copy (R48) -/
  cntWrap : Bool := false
  /-- counters that have not restarted with the others: those a slow tier had copied (R48, R349) -/
  cntKeep : List Nat := []
  /-- holding slots not listed: 0 read 0; 1 read 0 with WRAP; 2 those outside the save set do (R48, R437) -/
  holdWrap : Nat := 0
  /-- holding slots not listed that read 0 without WRAP all the same (R48, R349) -/
  holdKeep : List Nat := []
  /-- SNAP_NUM and SNAP_AT (Table 13.7) -/
  snapNum : BitVec 32 := 0
  snapAt : BitVec 64 := 0
  /-- the last copy cycle (R405); reset none -/
  snapCycle : Option Nat := none
  /-- bandwidth windows: W in force, BW_STATUS, BW_AT, rates by register address, sources at the last end, 2^64 for one preset since (R408, R409) -/
  bwMs : Nat := 1000
  bwStatus : BitVec 32 := 0
  bwAt : Nat := 0
  rates : Map Word := []
  bwSrc : Map Nat := []
  /-- a new W has taken effect off its grid, and no window of it has begun (R408) -/
  bwPart : Bool := false
  /-- counter value at which the present window began (R408) -/
  bwFrom : Nat := 0
  /-- every source has restarted since the last window's end (R409) -/
  bwAll : Bool := false
  /-- Casut interpreter -/
  cmd : Cmd := {}
  /-- event hopper (hopper 0) -/
  evt : Hopper := { slots := 4096, width := 32, owner := 1, level := 0xC00 }
  /-- counter value of the last push into hopper 0, and entries pushed in that cycle (R420); reset (0, 0) -/
  evtRun : Nat × Nat := (0, 0)
  /-- PLOAM_IN hopper (hopper 1) -/
  ploamIn : Hopper := { slots := 1024, width := 64, owner := 1, level := 0x300 }
  /-- transmit time-stamp hoppers by quad (0x10 + g) -/
  tsHops : Map Hopper := []
  plates : PlateSt := {}
  /-- tree ports by n -/
  trees : Map Tree := []
  /-- terminal slots by global index 128 n + t -/
  terms : Map Term := []
  /-- tap memory by global terminal index (R109) -/
  taps : Map Tap := []
  /-- key sets by 128 n + 2 d + direction (0 down, 1 up) -/
  keys : Map KeySet := []
  mill : Mill := {}
  /-- tributaries by FLOW_ID -/
  tribs : Map Trib := []
  /-- screens, at most 65,536 keys (R263) -/
  screens : List Screen := []
  /-- uplink ports by first lane -/
  ports : Map UPort := []
  defects : Defects := {}
  timing : Timing := {}
  time : TimeSt := {}
  pair : Pair := {}
  power : Power := {}
  /-- what register reads of datapath state return (R25); reset as the state itself -/
  seen : Seen := {}
  deriving DecidableEq, Repr

/-- The machine right after reset (R52, R303, R327, R430, Table 14.6): every field at its default. -/
def State.reset : State := {}

end Sys2Proof.Machine
end

