-- ==== Sys2Proof/Machine/Ops.lean ====
section
/-! DEFINITION. Named operations on the state: sparse tables, big-endian bytes, sequence-number arithmetic, counters,
hopper operations, free values. -/

namespace Sys2Proof.Machine

/-! ### Sparse tables -/

/-- The entry at key k; d where none is listed. -/
def mget {α : Type} (d : α) : Map α → Nat → α
  | [], _ => d
  | (k', v) :: m, k => if k' = k then v else mget d m k

/-- The table with v listed at key k, keys rising. -/
def mins {α : Type} : Map α → Nat → α → Map α
  | [], k, v => [(k, v)]
  | (k', w) :: m, k, v => if k < k' then (k, v) :: (k', w) :: m else if k = k' then (k, v) :: m else (k', w) :: mins m k v

/-- The table with v at key k, in canonical form: keys strictly rising, no entry equal to d. -/
def mput {α : Type} [DecidableEq α] (d : α) (m : Map α) (k : Nat) (v : α) : Map α :=
  if v = d then m.filter (fun e => !decide (e.1 = k)) else mins m k v

/-- The table with f applied at key k. -/
def mupd {α : Type} [DecidableEq α] (d : α) (m : Map α) (k : Nat) (f : α → α) : Map α := mput d m k (f (mget d m k))

/-- Canonical form above a bound. -/
def mwfFrom {α : Type} [DecidableEq α] (d : α) : Nat → Map α → Bool
  | _, [] => true
  | lo, (k, v) :: m => decide (lo ≤ k) && decide (v ≠ d) && mwfFrom d (k + 1) m

/-- Canonical form: keys strictly rising, no entry equal to the default. -/
def mwf {α : Type} [DecidableEq α] (d : α) (m : Map α) : Bool := mwfFrom d 0 m

/-- f applied to every listed entry, in canonical form. -/
def mmap {α : Type} [DecidableEq α] (d : α) (f : Nat → α → α) : Map α → Map α
  | [] => []
  | (k, v) :: m => let w := f k v; if w = d then mmap d f m else (k, w) :: mmap d f m

/-! ### Integers and fields -/

/-- v modulo 2^w: two's complement of an integer in w bits. -/
def twos (w : Nat) (i : Int) : Nat := (i % (2 ^ w : Nat)).toNat

/-- The integer of a w-bit two's complement number. -/
def sgn (w : Nat) (v : Nat) : Int := if v < 2 ^ (w - 1) then (v : Int) else (v : Int) - (2 ^ w : Nat)

/-- i held within lo to hi. -/
def clampI (lo hi i : Int) : Int := if i < lo then lo else if hi < i then hi else i

/-- Bytes padded with zeros to a multiple of 4 (parameters and replies). -/
def pad4 (l : List Byte) : List Byte := l ++ List.replicate ((4 - l.length % 4) % 4) 0

/-- Bits hi..lo of a number. -/
def fld (v hi lo : Nat) : Nat := (v / 2 ^ lo) % 2 ^ (hi + 1 - lo)

/-! ### Sequence numbers: 32 bits, compared modulo 2^32 within a span below 2^31 -/

/-- a is at or before b. -/
def seqLe (a b : BitVec 32) : Bool := (b - a).toNat < 2 ^ 31

/-- a is before b. -/
def seqLt (a b : BitVec 32) : Bool := a ≠ b && seqLe a b

/-! ### Tables of the state -/

def tree (s : State) (n : Nat) : Tree := mget {} s.trees n
def setTree (n : Nat) (t : Tree) (s : State) : State := { s with trees := mput {} s.trees n t }
def updTree (n : Nat) (f : Tree → Tree) (s : State) : State := setTree n (f (tree s n)) s

def term (s : State) (g : Nat) : Term := mget {} s.terms g
def setTerm (g : Nat) (t : Term) (s : State) : State := { s with terms := mput {} s.terms g t }
def updTerm (g : Nat) (f : Term → Term) (s : State) : State := setTerm g (f (term s g)) s

def uport (s : State) (p : Nat) : UPort := mget {} s.ports p
def setPort (p : Nat) (u : UPort) (s : State) : State := { s with ports := mput {} s.ports p u }
def updPort (p : Nat) (f : UPort → UPort) (s : State) : State := setPort p (f (uport s p)) s

def trib (s : State) (f : Nat) : Trib := mget {} s.tribs f
def setTrib (f : Nat) (t : Trib) (s : State) : State := { s with tribs := mput {} s.tribs f t }

def lane (s : State) (k : Nat) : Lane := mget {} s.mill.lanes k
def setLane (k : Nat) (l : Lane) (s : State) : State := { s with mill := { s.mill with lanes := mput {} s.mill.lanes k l } }

/-- Key-set index of tree n, domain d, direction (true: up). -/
def keyIx (n d : Nat) (up : Bool) : Nat := 128 * n + 2 * d + up.toNat
def keySet (s : State) (i : Nat) : KeySet := mget {} s.keys i
def setKey (i : Nat) (k : KeySet) (s : State) : State := { s with keys := mput {} s.keys i k }

def bank (s : State) (b : Bool) : Bank := if b then s.plates.bank1 else s.plates.bank0
def setBank (b : Bool) (x : Bank) (s : State) : State :=
  { s with plates := if b then { s.plates with bank1 := x } else { s.plates with bank0 := x } }

def tdom (s : State) (b : Bool) : TDom := if b then s.time.domB else s.time.domA
def setTdom (b : Bool) (d : TDom) (s : State) : State :=
  { s with time := if b then { s.time with domB := d } else { s.time with domA := d } }

def refOf (s : State) (r : Nat) : Ref := mget {} s.timing.refs r
def setRef (r : Nat) (x : Ref) (s : State) : State := { s with timing := { s.timing with refs := mput {} s.timing.refs r x } }

/-- A port's number in replies and events (Table 12.3). -/
def portNo : Port → Nat
  | .board => 0 | .host => 1 | .inband => 2 | .pair => 3

def portSt (s : State) : Port → PortState
  | .board => s.cmd.board | .host => s.cmd.host | .inband => s.cmd.inband | .pair => s.cmd.pair

def setPortSt (p : Port) (x : PortState) (s : State) : State :=
  match p with
  | .board => { s with cmd := { s.cmd with board := x } }
  | .host => { s with cmd := { s.cmd with host := x } }
  | .inband => { s with cmd := { s.cmd with inband := x } }
  | .pair => { s with cmd := { s.cmd with pair := x } }

/-! ### Free values -/

/-- The next free value and the state that has used it (Config.freshNat). -/
def fresh (s : State) : Nat × State := (Config.freshNat s.free, { s with free := s.free + 1 })

/-! ### Time -/

/-- One idle mill cycle: the 96-bit time counter advances by exactly one (R303). -/
def tick (s : State) : State := { s with now := (s.now + 1) % 2 ^ 96, cyc := s.cnt }

/-- The counter carried forward to t, never backward (R303); a new cycle finds the event counters as they stand (R404). -/
def advance (t : Nat) (s : State) : State := { s with now := max s.now t, cyc := if s.now < t then s.cnt else s.cyc }

/-! ### Features (R378, Table 12.9) -/

/-- Bit i of the device feature set D. -/
def featOn (s : State) (i : Nat) : Bool := s.cmd.featD.getLsbD i

/-! ### Part (R2 to R5) -/

/-- Tree n exists on this part (R3). -/
def treeOk (s : State) (n : Nat) : Bool := n < s.fuse.trees

/-! ### Effects posted to the plate engine (R22, R23, R27) -/

/-- An effect as posted now, after every command accepted so far. -/
def posted (x : Landing) (s : State) : Posted := { eff := x, at_ := s.now, ord := s.cmd.ord }

/-- An effect waits for its stroke boundary (R22). -/
def post (x : Landing) (s : State) : State := { s with mill := { s.mill with landing := s.mill.landing ++ [posted x s] } }

/-- The state as register reads of the datapath see it: sampled at the last stroke boundary (R25). -/
def sampled (s : State) : State := { s with mill := s.seen.mill, trees := s.seen.trees, ports := s.seen.ports, tribs := s.seen.tribs }

/-- The sample of a stroke boundary. -/
def takeSample (s : State) : State := { s with seen := { mill := s.mill, trees := s.trees, ports := s.ports, tribs := s.tribs, cnt := s.cnt } }

/-! ### Counters (R136, R279, R326, R356, Table 13.5, Table 13.8, R451, Table 13.12) -/

/-- Tree n, block offset off. -/
def cTree (n off : Nat) : Nat := 0x00800000 + n * 0x10000 + off
/-- Terminal of global index g, offset off of its 0x40 bytes. -/
def cTerm (g off : Nat) : Nat := cTree (g / 128) (0x1000 + g % 128 * 0x40 + off)
/-- Uplink port of first lane p. -/
def cPort (p off : Nat) : Nat := 0x00400000 + p / 4 * 0x10000 + 0x1000 + p % 4 * 0x100 + off
/-- Counter block, tree n, i-th counter of Table 13.8. -/
def cbTree (n i : Nat) : Nat := 0x00082000 + n * 0x100 + 8 * i
def cbDom (d i : Nat) : Nat := 0x00086000 + d * 0x80 + 8 * i
def cbLane (k i : Nat) : Nat := 0x00088000 + k * 0x20 + 8 * i
def cbDraw (t i : Nat) : Nat := 0x00088400 + t * 0x10 + 8 * i
def cbEgress (p i : Nat) : Nat := 0x00088C00 + p * 0x10 + 8 * i
def cbRx (n : Nat) : Nat := 0x00088E00 + n * 8
def cbDev (i : Nat) : Nat := 0x00089000 + 8 * i
def cbSlack (n i : Nat) : Nat := 0x00089100 + n * 0x10 + 8 * i
def cTime (off : Nat) : Nat := 0x00030000 + off
def cPair (off : Nat) : Nat := 0x00050000 + off
def cHop (h off : Nat) : Nat := 0x00070000 + h * 0x40 + off
def cPmu (off : Nat) : Nat := 0x00010000 + off
/-- Extended space, queue Q. -/
def xQueue (q i : Nat) : Nat := 0x80000000 + q * 0x20 + 8 * i
/-- Extended space, flow F. -/
def xFlow (f i : Nat) : Nat := 0x81000000 + f * 0x80 + 8 * i

/-- Counters are frozen from D until the warm restart (R48). -/
def frozen (s : State) : Bool := s.power.phase ≠ .running

/-- Counter at address a. -/
def cntOf (s : State) (a : Nat) : Cnt := mget {} s.cnt a

/-- Counter a counts datapath events: those of the counter blocks, uplinks and trees, and of the lane hoppers. -/
def cntPath (a : Nat) : Bool := 0x80000 ≤ a || (cHop 0x30 0 ≤ a && a < 0x80000)

/-- Counter a as a register read returns it: of the datapath, as it stood at the last stroke boundary (R25). -/
def cntSeen (s : State) (a : Nat) : Cnt := if cntPath a then mget {} s.seen.cnt a else cntOf s a

/-- A counter advanced by n: wraps from 2^64 − 1 to 0, never saturates (R405). -/
def cntAdd (n : Nat) (c : Cnt) : Cnt :=
  { c with v := c.v + BitVec.ofNat 64 n, wrap := c.wrap || decide (2 ^ 64 ≤ c.v.toNat + n) }

/-- The signed counter DLM_OFFSET_SUM: wrapping means passing the signed limit (R405, R119). -/
def cntAddS (i : Int) (c : Cnt) : Cnt :=
  let t := c.v.toInt + i
  { c with v := BitVec.ofInt 64 t, wrap := c.wrap || decide (t < -(2 ^ 63 : Int) ∨ (2 ^ 63 : Int) ≤ t) }

/-- Counter a advances by n, unless counters are frozen (R48). -/
def bump (a n : Nat) (s : State) : State := if frozen s then s else { s with cnt := mupd {} s.cnt a (cntAdd n) }

/-- Counter a gives back n of its counts. -/
def unbump (a n : Nat) (s : State) : State :=
  if frozen s then s else { s with cnt := mupd {} s.cnt a (fun x => { x with v := x.v - BitVec.ofNat 64 n }) }

/-- Signed counter a moves by i. -/
def bumpS (a : Nat) (i : Int) (s : State) : State := if frozen s then s else { s with cnt := mupd {} s.cnt a (cntAddS i) }

/-- a is a byte counter that a rate register is derived from (Table 13.7). -/
def bwSource (a : Nat) : Bool :=
  (0x82000 ≤ a && a < 0x86000 && a % 0x100 ≤ 8) || (0x400000 ≤ a && a < 0x480000 && (a % 0x100 = 8 || a % 0x100 = 0x78))

/-- A counter restarts from 0: its next copy carries WRAP (R48, R93, R405). -/
def cntRestart (a : Nat) (s : State) : State :=
  { s with
    cnt := mput {} s.cnt a { v := 0, wrap := true }
    bwSrc := if bwSource a then mput 0 s.bwSrc a (2 ^ 64) else s.bwSrc }

/-- The save set holds counter a: tree blocks below the terminal counters, uplink blocks, and the blocks of unit-wide counters (Table 14.3). -/
def cntSaved (a : Nat) : Bool := a < 0x80000000 && !(0x800000 ≤ a && a < 0xC00000 && 0x1000 ≤ a % 0x10000)

/-- The holding slot of counter a (R406). -/
def holdOf (s : State) (a : Nat) : Cnt :=
  if s.hold.any (fun e => e.1 = a) then mget {} s.hold a
  else { v := 0, wrap := !s.holdKeep.contains a && (s.holdWrap = 1 || (s.holdWrap = 2 && !cntSaved a)) }

/-! ### Hoppers (R412 to R417) -/

/-- Position of an item: its number, or a marker's first number. -/
def itemPos : HItem → BitVec 32
  | .entry q _ => q
  | .marker f _ _ _ => f

/-- The item is an open marker (R414). -/
def itemOpen : HItem → Bool
  | .marker _ _ _ o => o
  | _ => false

/-- The newest marker sealed (R414). -/
def sealLast : List HItem → List HItem
  | [] => []
  | [.marker f l t _] => [.marker f l t false]
  | x :: y :: r => x :: sealLast (y :: r)
  | [x] => [x]

/-- A marker is open. -/
def hopOpen (h : Hopper) : Bool := h.items.any itemOpen

/-- Entries and sealed markers readable from RD (R413). -/
def readables (h : Hopper) : List HItem := h.items.filter (fun i => !itemOpen i && seqLe h.rd (itemPos i))

/-- READABLE of HSTAT. -/
def hopReadable (h : Hopper) : Nat := (readables h).length

/-- The dropped number recorded in the open marker, or in a new one (R414). -/
def markDrop (q : BitVec 32) (now : Nat) : List HItem → List HItem
  | [] => [.marker q q now true]
  | [.marker f _ t true] => [.marker f q t true]
  | x :: r => x :: markDrop q now r

/-- The cycle of the hoppers' clock, CK_CTL, that a mill cycle lies in (R421). -/
def hopCycle (now : Nat) : Nat := now / 3

/-- Entries and sealed markers that a READ finds: none pushed in its own cycle, for there is no bypass (R416). -/
def shown (now : Nat) (h : Hopper) : List HItem :=
  (readables h).filter (fun i => !(h.pushed.1 = hopCycle now && seqLe (BitVec.ofNat 32 h.pushed.2) (itemPos i)))

/-- The hopper's cycle and first number of its last pushes, after one of number q (R416). -/
def pushMark (now : Nat) (q : BitVec 32) (h : Hopper) : Nat × Nat :=
  if h.pushed.1 = hopCycle now ∧ h.items ≠ [] then h.pushed else (hopCycle now, q.toNat)

/-- The hopper accepts a push: at most N − 2 slots held before it (R414). -/
def hopRoom (h : Hopper) : Bool := h.items.length + 2 ≤ h.slots

/-- Push (R414): the entry takes number WR when there is room; otherwise the number is recorded as dropped. -/
def hopPush (now : Nat) (mk : BitVec 32 → List Byte) (h : Hopper) : Hopper :=
  let its := if hopRoom h then sealLast h.items ++ [.entry h.wr (mk h.wr)] else markDrop h.wr now h.items
  { h with items := its, wr := h.wr + 1, hwm := max h.hwm its.length, pushed := if hopRoom h then pushMark now h.wr h else h.pushed }

/-- The number after an item. -/
def itemNext : HItem → BitVec 32
  | .entry q _ => q + 1
  | .marker _ l _ _ => l + 1

/-- READ (R413): up to n readable items in order, RD past them unless peeking. -/
def hopRead (now : Nat) (h : Hopper) (n : Nat) (peek : Bool) : List HItem × Hopper :=
  let l := (shown now h).take n
  (l, if peek then h else { h with rd := (l.getLast?.map itemNext).getD h.rd })

/-- RELEASE through q (R413): every entry at or before q and every marker whose last number is. -/
def hopRelease (h : Hopper) (q : BitVec 32) : Hopper :=
  if seqLt q h.rel then h
  else { h with items := h.items.filter (fun i => seqLe (q + 1) (itemNext i - 1)), rel := q + 1 }

/-- A new owner reads every unreleased entry (R417). -/
def hopOwn (o : BitVec 2) (h : Hopper) : Hopper :=
  if o = h.owner then h else { h with owner := o, rd := h.rel, mark := h.rel }

/-- Gap marker bytes in an entry of w bytes (Table 13.10). -/
def markerBytes (w : Nat) (f l : BitVec 32) (t : Nat) : List Byte :=
  beBytes 4 f.toNat ++ beBytes 4 0xFFFFFFFF ++ beBytes 4 ((l - f).toNat + 1) ++ beBytes 4 l.toNat ++ beBytes 8 (t % 2 ^ 64)
    ++ List.replicate (w - 24) 0

/-- An entry with an uncorrectable word at number q: a marker of COUNT 1 takes its place (R421). -/
def hopLose (now : Nat) (q : BitVec 32) (h : Hopper) : Hopper :=
  { h with items := h.items.map (fun i => match i with
      | .entry k b => if k = q then .marker q q now false else .entry k b
      | m => m) }

/-- The positions of a hopper do not agree (R421): one marker covers what it held, and the consumer's positions stand at it. -/
def hopMismatch (now : Nat) (h : Hopper) : Hopper :=
  { h with items := if h.rel = h.wr then [] else [.marker h.rel (h.wr - 1) now false], rd := h.rel, mark := h.rel }

/-- An item as read. -/
def itemBytes (w : Nat) : HItem → List Byte
  | .entry _ b => b
  | .marker f l t _ => markerBytes w f l t

/-- The hopper restarted at its saved next number behind one marker from the last released plus one (R46);
no marker where no number lies between. -/
def hopRestart (now : Nat) (next rel : BitVec 32) (h : Hopper) : Hopper :=
  { h with items := (if rel = next then [] else [.marker rel (next - 1) now false]), wr := next, rd := rel, mark := rel, rel := rel,
           hwm := if rel = next then 0 else 1 }

/-- Default transmit time-stamp hopper: 64 slots of 32 bytes, owned by the device (Table 13.9). -/
def tsHop0 : Hopper := { slots := 64, width := 32, owner := 3, level := 0 }

def tsHop (s : State) (g : Nat) : Hopper := mget tsHop0 s.tsHops g

/-- Visible hopper of number h: 0, 1 or 0x10 + g (R412). -/
def hopOf (s : State) (h : Nat) : Option Hopper :=
  if h = 0 then some s.evt else if h = 1 then some s.ploamIn
  else if 0x10 ≤ h ∧ h < 0x18 then some (tsHop s (h - 0x10)) else none

def setHop (h : Nat) (x : Hopper) (s : State) : State :=
  if h = 0 then { s with evt := x } else if h = 1 then { s with ploamIn := x }
  else if 0x10 ≤ h ∧ h < 0x18 then { s with tsHops := mput tsHop0 s.tsHops (h - 0x10) x } else s

/-! ### The save pointer (R438) -/

/-- The pointer as the device reads it: of the two copies the one with the higher save number. -/
def Power.ptr (p : Power) : Option SavePtr :=
  match p.ptr0, p.ptr1 with
  | some a, some b => if a.num.toNat < b.num.toNat then some b else some a
  | some a, none => some a
  | none, b => b

/-- The save set the pointer names. -/
def Power.save (p : Power) : Option Save := p.ptr.bind (fun x => if x.area then p.area1 else p.area0)
/-- CONSUMED, AREA and number of the save; a pointer never written names no save. -/
def Power.consumed (p : Power) : Bool := match p.ptr with | some x => x.consumed | none => true
def Power.area (p : Power) : Bool := match p.ptr with | some x => x.area | none => false
def Power.saveNum (p : Power) : BitVec 32 := match p.ptr with | some x => x.num | none => 0

/-- The save is marked CONSUMED: both copies of the pointer are written again (R442). -/
def Power.consume (p : Power) : Power :=
  { p with ptr0 := p.ptr0.map (fun x => { x with consumed := true }), ptr1 := p.ptr1.map (fun x => { x with consumed := true }) }

/-- The 32 bytes of a pointer copy, closed by their CRC-32C (R438; their places are the model's, log 154). -/
def SavePtr.bytes (x : SavePtr) : List Byte :=
  let b := beBytes 1 x.area.toNat ++ beBytes 4 x.num.toNat ++ beBytes 1 x.consumed.toNat ++ List.replicate 22 0
  b ++ beBytes 4 (crc32c b).toNat

end Sys2Proof.Machine
end

