-- ==== Sys2Proof/Machine/Regs.lean ====
section
/-! DEFINITION. The register space: which addresses hold registers, the access code of every field as a mask, reset
values, the stored bits, counters and holding slots (R394 to R411, R426, and each block's own tables). -/

namespace Sys2Proof.Machine

/-- Masks of one 32-bit register: RW, LK, WS and SC bits (EVT_SEQ not among them), and the reset value of its stored bits. -/
structure RegInfo where
  rw : Word := 0
  lk : Word := 0
  ws : Word := 0
  sc : Word := 0
  rst : Word := 0
  deriving DecidableEq, Repr

def roReg : RegInfo := {}

/-- Global block (Table 13.6). -/
def globalInfo (o : Nat) : Option RegInfo :=
  match o with
  | 0x00 | 0x04 | 0x08 | 0x0C | 0x10 | 0x14 | 0x18 | 0x1C => some roReg
  | 0x20 => some { lk := 0xFF }
  | 0x24 => some { sc := 0x7F }
  | 0x28 => some { rw := 0xF, rst := 7 }
  | 0x2C => some { rw := 0xFFFFFFFF }
  | _ => none

/-- PMU block (Table 14.9). -/
def pmuInfo (o : Nat) : Option RegInfo :=
  match o with
  | 0x00 | 0x04 | 0x08 | 0x14 | 0x18 | 0x24 | 0x28 | 0x2C | 0x30 => some roReg
  | 0x10 => some { rw := 0xFFFF8000, rst := 0xE07F8000 }
  | 0x20 => some { rw := 0xFF, rst := 0xE6 }
  | 0x40 => some { sc := 0x7F }
  | _ => none

/-- Reference registers (Table 9.6). -/
def refInfo (o : Nat) : Option RegInfo :=
  let r := o / 0x10
  if r = 6 ∨ r = 7 ∨ 15 < r then none
  else match o % 0x10 with
    | 0x0 => some { rw := 0xFF800000, rst := 0x7F800000 }
    | 0x4 => some { rw := if r ≤ 3 then 0x3FFFFFFF else 0, rst := if r ≤ 3 then 0x00989680 else if r ≤ 5 then 1 else 0x09502F90 }
    | 0x8 => some roReg
    | 0xC => some { sc := 0x1F }
    | _ => none

/-- Timing block (Tables 9.6 to 9.8). -/
def timingInfo (o : Nat) : Option RegInfo :=
  if o < 0x100 then refInfo o
  else if o < 0x200 then
    match o with
    | 0x100 => some { rw := 0xFF7803FF, ws := 0x00800000, rst := 0xFD30012C }
    | 0x104 => some { rw := 0xFFFFFFFF, rst := 0x0C81CC64 }
    | 0x108 => some { rw := 0xFFFFFFFF, rst := 0x05043205 }
    | 0x10C | 0x120 | 0x124 | 0x128 | 0x12C => some roReg
    | 0x110 => some { sc := 0x1F }
    | 0x114 => some { rw := 0xFFFFE000 }
    | 0x118 => some { rw := 0x3FFFF, rst := 0x3C18 }
    | _ => none
  else if o < 0x260 then
    match o % 0x10 with
    | 0x0 => some { rw := 0xFF000000, ws := 0x00800000 }
    | 0x4 => some { rw := 0xFFFFFFFF }
    | 0x8 => some { rw := 0x00FFFFFF, rst := 0x0001E600 }
    | 0xC => some roReg
    | _ => none
  else if 0x300 ≤ o ∧ o < 0x340 then
    match o % 0x10 with
    | 0x0 => some { rw := 0xFCFFFFFF, rst := 0x7D }
    | 0x4 => some { rw := 0xFFFFFFFF, rst := 0x0001E600 }
    | 0x8 => some roReg
    | _ => none
  else none

/-- Time block (Tables 10.4, 10.5). -/
def timeInfo (o : Nat) : Option RegInfo :=
  if 0x1000 ≤ o ∧ o < 0x1100 then (if o % 4 = 0 then some { rw := 0xFFFF } else none)
  else match o with
    | 0x00 => some { rw := 0xA, ws := 1, rst := 8 }
    | 0x04 | 0x10 | 0x14 | 0x18 | 0x20 | 0x24 | 0x28 | 0x2C | 0x30 => some roReg
    | 0x100 => some { rw := 0xFFFF3FFF, rst := 0x603203E8 }
    | 0x200 => some { rw := 0xFFFF3FFF, rst := 0x643203E8 }
    | 0x104 | 0x108 | 0x10C | 0x110 | 0x114 | 0x118 | 0x11C | 0x120 | 0x124 => some roReg
    | 0x204 | 0x208 | 0x20C | 0x210 | 0x214 | 0x218 | 0x21C | 0x220 | 0x224 => some roReg
    | _ => none

/-- Pair block (Tables 11.9 to 11.11). -/
def pairInfoR (o : Nat) : Option RegInfo :=
  match o with
  | 0x00 => some { rw := 0xFC000000, rst := 0x04000000 }
  | 0x04 | 0x08 | 0x0C | 0x10 | 0x14 | 0x18 => some roReg
  | 0x20 => some { sc := 0x7F }
  | _ => none

/-- Command-port block (Table 12.12). -/
def cpInfo (o : Nat) : Option RegInfo :=
  match o with
  | 0x00 | 0x04 => some { rw := 0x7FF, lk := 0x80000000, rst := 0x7FF }
  | 0x08 => some { rw := 0xFFFF, rst := 0x88B5 }
  | 0x10 | 0x30 => some { rw := 0xFFFFFFF0 }
  | 0x14 | 0x34 => some { rw := 0xFFFFFFFF }
  | 0x18 | 0x38 => some { rw := 0xF, rst := 4 }
  | 0x1C | 0x3C => some { rw := 0x3FF }
  | 0x20 | 0x40 | 0x50 | 0x54 => some roReg
  | 0x48 => some { rw := 1, ws := 2 }
  | 0x58 => some { sc := 0x1F }
  | _ => none

/-- Hopper numbers of Table 13.9. -/
def hopListed (h : Nat) : Bool := h ≤ 1 || (0x10 ≤ h && h < 0x18) || h = 0x20 || (0x30 ≤ h && h < 0x48)

/-- Hopper block (Table 13.12). -/
def hopInfo (o : Nat) : Option RegInfo :=
  let h := o / 0x40
  if !hopListed h then none
  else match o % 0x40 with
    | 0x00 => some { rw := if h ≤ 1 then 0xC00FFFFF else 0, ws := 0x20000000 }
    | 0x04 | 0x08 | 0x0C | 0x10 | 0x14 | 0x18 => some roReg
    | 0x1C => some { sc := 0x1F }
    | _ => none

/-- Counter block control and rates (Table 13.7). -/
def cbInfo (o : Nat) : Option RegInfo :=
  if 0x1000 ≤ o ∧ o < 0x1200 then (if o % 0x10 = 0 ∨ o % 0x10 = 4 then some roReg else none)
  else if 0x1200 ≤ o ∧ o < 0x1600 then (if o % 0x10 = 0 ∨ o % 0x10 = 4 then some roReg else none)
  else match o with
    | 0x00 => some { ws := 1 }
    | 0x04 | 0x08 | 0x0C | 0x14 | 0x18 | 0x1C => some roReg
    | 0x10 => some { rw := 0x3FFF, rst := 0x3E8 }
    | _ => none

/-- Pin block (Table 15.6). -/
def pinInfo (o : Nat) : Option RegInfo :=
  if o < 0x40 ∧ o % 4 = 0 then
    some { rw := 0xFF000000,
           rst := if o = 0 then 0x24000000 else if o = 4 then 0x34000000 else if o = 8 then 0x48000000 else 0x04000000 }
  else none

/-- Mill window (Tables 7.3, 7.4). -/
def mwInfo (o : Nat) : Option RegInfo :=
  match o with
  | 0x00 => some { rw := 0xE003FFFF }
  | 0x04 => some { rw := 2, ws := 1 }
  | 0x10 | 0x14 | 0x18 | 0x1C | 0x20 | 0x24 | 0x28 | 0x2C => some { rw := 0xFFFFFFFF }
  | _ => none

/-- Quad block of quad g (Tables 8.7 to 8.11). -/
def quadInfo (g o : Nat) : Option RegInfo :=
  if o = 0 then some { rw := 3 }
  else if 0x10 ≤ o ∧ o < 0x90 then
    match (o - 0x10) % 0x20 with
    | 0x00 => some { rw := 0xFFE03FFF, rst := 0x2580 }
    | 0x04 => some { rw := 0x3FF, rst := 0xA }
    | 0x08 => some { rw := 0xFFFF }
    | 0x0C => some { rw := 0xFFFFFFFF }
    | 0x10 => some { rw := 0xFFFFFFFF }
    | 0x14 => some roReg
    | _ => none
  else if g = 0 ∧ 0x100 ≤ o ∧ o < 0x120 ∧ o % 4 = 0 then some { rw := 0x9F }
  else none

/-- Tree block (Tables 3.7 to 3.11). -/
def treeInfo (o : Nat) : Option RegInfo :=
  match o with
  | 0x00 => some { rw := 3 }
  | 0x04 => some roReg
  | 0x08 => some { sc := 0x1F }
  | 0x0C => some { rw := 0x03FFFFFF, rst := 0x00282810 }
  | 0x10 => some { rw := 0x00FFFFFF, rst := 0x0003060C }
  | _ => none

/-- The 32-bit register, or half of a declared 64-bit register other than a counter, at BAR0 address a (Table 13.1). -/
def regInfo (a : Nat) : Option RegInfo :=
  let o := a % 0x10000
  if a % 4 ≠ 0 then none
  else if a < 0x10000 then globalInfo o
  else if a < 0x20000 then pmuInfo o
  else if a < 0x30000 then timingInfo o
  else if a < 0x40000 then timeInfo o
  else if a < 0x50000 then none
  else if a < 0x60000 then pairInfoR o
  else if a < 0x70000 then cpInfo o
  else if a < 0x80000 then hopInfo o
  else if a < 0x90000 then cbInfo o
  else if a < 0xA0000 then pinInfo o
  else if 0x100000 ≤ a ∧ a < 0x110000 then mwInfo o
  else if 0x400000 ≤ a ∧ a < 0x480000 then quadInfo ((a - 0x400000) / 0x10000) o
  else if 0x800000 ≤ a ∧ a < 0xC00000 then treeInfo o
  else none

/-- a lies in the bit-alias region (R394, R400). -/
def isAlias (a : Nat) : Bool := 0x20000000 ≤ a && a < 0x40000000

/-- The register that an address names: in the alias region, the one whose bit it is (R400). -/
def regBase (a : Nat) : Nat := if isAlias a then (a - 0x20000000) / 128 * 4 else a

/-- The bit that an alias address names. -/
def aliasBit (a : Nat) : Nat := a % 128 / 4

/-- Reset value of the stored bits at a. -/
def regRst (a : Nat) : Word := ((regInfo a).map RegInfo.rst).getD 0

/-- Bits of a software-written register that live in a field of State of their own, not in the stored bits: OWNER and
LEVEL of HCFG, SEL_DOM of TIME_CTL, RUN of RING_CTL. -/
def regMirror (a : Nat) : Word :=
  if a = 0x70000 ∨ a = 0x70040 then 0xC00FFFFF else if a = 0x30000 then 2 else if a = 0x60048 then 1 else 0

/-- Stored bits of the register at a; the table keeps their difference from the reset value, so an untouched register is
not listed. -/
def regRaw (s : State) (a : Nat) : Word := mget 0 s.regs a ^^^ regRst a

/-- Stored bits of the register at a replaced. -/
def setRaw (a : Nat) (w : Word) (s : State) : State := { s with regs := mput 0 s.regs a (w ^^^ regRst a) }

/-- Bits hi..lo of a register's stored value. -/
def regFld (s : State) (a hi lo : Nat) : Nat := fld (regRaw s a).toNat hi lo

/-- Bit b of a register's stored value. -/
def regBit (s : State) (a b : Nat) : Bool := (regRaw s a).getLsbD b

/-! ### Addresses of registers used by the rules -/

def aGLB_EVT : Nat := 0x24
def aINT_CFG : Nat := 0x28
def aLOCKS : Nat := 0x20
def aPMU_EVT : Nat := 0x10040
def aSAG_CFG : Nat := 0x10020
def aAVS_CFG : Nat := 0x10010
def aREF_CFG (r : Nat) : Nat := 0x20000 + r * 0x10
def aREF_FREQ (r : Nat) : Nat := 0x20004 + r * 0x10
def aREF_HIST (r : Nat) : Nat := 0x2000C + r * 0x10
def aSEL_CFG : Nat := 0x20100
def aMON_CFG : Nat := 0x20104
def aDPLL_CFG : Nat := 0x20108
def aDPLL_HIST : Nat := 0x20110
def aHOLD_CFG : Nat := 0x20114
def aHOLD_CFG2 : Nat := 0x20118
def aPCFG (o : Nat) : Nat := 0x20200 + o * 0x10
def aPOFFSET (o : Nat) : Nat := 0x20204 + o * 0x10
def aPWIDTH (o : Nat) : Nat := 0x20208 + o * 0x10
def aCCFG (k : Nat) : Nat := 0x20300 + k * 0x10
def aCDEN (k : Nat) : Nat := 0x20304 + k * 0x10
def aTIME_CTL : Nat := 0x30000
def aDOM_CFG (b : Bool) : Nat := if b then 0x30200 else 0x30100
def aDOM_STATUS (b : Bool) : Nat := if b then 0x30204 else 0x30104
def aPAIR_CFG : Nat := 0x50000
def aPAIR_EVT : Nat := 0x50020
def aPRIV_HOST : Nat := 0x60000
def aPRIV_INBAND : Nat := 0x60004
def aINBAND_CFG : Nat := 0x60008
def aCMD_SIZE : Nat := 0x60018
def aCMD_TAIL : Nat := 0x6001C
def aRPL_SIZE : Nat := 0x60038
def aRPL_TAIL : Nat := 0x6003C
def aRING_CTL : Nat := 0x60048
def aCP_EVT : Nat := 0x60058
def aHCFG (h : Nat) : Nat := 0x70000 + h * 0x40
def aHEVT (h : Nat) : Nat := 0x7001C + h * 0x40
def aBW_CFG : Nat := 0x80010
def aGPIO (k : Nat) : Nat := 0x90000 + k * 4
def aMW_SEL : Nat := 0x100000
def aMW_CMD : Nat := 0x100004
def aMW_DATA (i : Nat) : Nat := 0x100010 + 4 * i
def aQUAD (g : Nat) : Nat := 0x400000 + g * 0x10000
/-- PORT_CFG of the port whose first lane is p; the other port registers follow it. -/
def aPORT (p : Nat) : Nat := 0x400010 + p / 4 * 0x10000 + p % 4 * 0x20
def aRCLK (i : Nat) : Nat := 0x400100 + i * 4
def aTREE (n : Nat) : Nat := 0x800000 + n * 0x10000

/-- MODE of quad g (Table 8.7). -/
def quadMode (s : State) (g : Nat) : Nat := regFld s (aQUAD g) 1 0

/-- The other quad of the pair of quad g. -/
def pairQuad (g : Nat) : Nat := if g % 2 = 0 then g + 1 else g - 1

/-- Lane p is the first lane of a port its quad forms (Table 8.1); a pair of quads of which only one has MODE 3 forms none (R254). -/
def firstLane (s : State) (p : Nat) : Bool :=
  let other := decide (quadMode s (pairQuad (p / 4)) = 3)
  match quadMode s (p / 4) with
  | 0 => !other
  | 1 => !other && decide (p % 2 = 0)
  | 2 => !other && decide (p % 4 = 0)
  | _ => other && decide (p % 8 = 0)

/-- Lanes of the port of first lane p. -/
def portLanes (s : State) (p : Nat) : Nat :=
  match quadMode s (p / 4) with
  | 0 => 1 | 1 => 2 | 2 => 4 | _ => 8

/-- The first lane of the port that lane l belongs to; a lane of no port stands for itself, and is no first lane. -/
def portOf (s : State) (l : Nat) : Nat :=
  match quadMode s (l / 4) with
  | 0 => l | 1 => l / 2 * 2 | 2 => l / 4 * 4
  | _ => if quadMode s (pairQuad (l / 4)) = 3 then l / 8 * 8 else l

/-- The register at a exists now: blocks of absent trees and registers of lanes that are no first lane read 0 and ignore
writes (R3, R279). -/
def regHere (s : State) (a : Nat) : Bool :=
  if 0x800000 ≤ a ∧ a < 0xC00000 then treeOk s ((a - 0x800000) / 0x10000)
  else if 0x400000 ≤ a ∧ a < 0x480000 then
    let g := (a - 0x400000) / 0x10000
    let o := a % 0x10000
    if 0x10 ≤ o ∧ o < 0x90 then firstLane s (4 * g + (o - 0x10) / 0x20)
    else if 0x1000 ≤ o ∧ o < 0x1400 then firstLane s (4 * g + (o - 0x1000) / 0x100)
    else true
  else true

/-- A tree's register block in OFF reads 0 and ignores writes, except TREE_CTL and TREE_STATE (R93). -/
def treeHere (s : State) (a : Nat) : Bool :=
  !(0x800000 ≤ a && a < 0xC00000) || a % 0x10000 < 8 || (tree s ((a - 0x800000) / 0x10000)).st ≠ .off

/-- The register block of an uplink quad whose domain is off reads 0 and ignores writes, except QUAD_CFG (R430). -/
def quadHere (s : State) (a : Nat) : Bool :=
  !(0x400000 ≤ a && a < 0x480000) || a % 0x10000 = 0 || mget .off s.power.doms (64 + (a - 0x400000) / 0x10000) = .on

/-! ### Counters -/

def cntBlockOk (o : Nat) : Bool :=
  if 0x2000 ≤ o ∧ o < 0x6000 then o % 0x100 / 8 < 15
  else if 0x6000 ≤ o ∧ o < 0x8000 then o % 0x80 / 8 < 9
  else (0x8000 ≤ o && o < 0x8300) || (0x8400 ≤ o && o < 0x8A00) || (0x8C00 ≤ o && o < 0x9018) || (0x9100 ≤ o && o < 0x9500)

/-- a is the address of a live counter or of a counter of the extended space (R405, Table 13.5). -/
def isCounter (s : State) (a : Nat) : Bool :=
  let o := a % 0x10000
  if a % 8 ≠ 0 then false
  else if 0x10000 ≤ a ∧ a < 0x20000 then 0x100 ≤ o && o ≤ 0x128
  else if 0x30000 ≤ a ∧ a < 0x40000 then o = 0x40 || o = 0x48 || o = 0x140 || o = 0x240
  else if 0x50000 ≤ a ∧ a < 0x60000 then 0x100 ≤ o && o ≤ 0x158
  else if 0x70000 ≤ a ∧ a < 0x80000 then hopListed (o / 0x40) && (o % 0x40 = 0x20 || o % 0x40 = 0x28 || o % 0x40 = 0x30)
  else if 0x80000 ≤ a ∧ a < 0x90000 then cntBlockOk o
  else if 0x400000 ≤ a ∧ a < 0x480000 then 0x1000 ≤ o && o < 0x1400 && o % 0x100 ≤ 0xB0 && regHere s a
  else if 0x800000 ≤ a ∧ a < 0xC00000 then
    ((0x100 ≤ o && o ≤ 0x168) || (0x1000 ≤ o && o < 0x3000 && o % 0x40 ≤ 0x30)) && regHere s a
  else if 0x80000000 ≤ a ∧ a < 0x80800000 then true
  else if 0x81000000 ≤ a ∧ a < 0x81800000 then a % 0x80 < 0x70
  else false

/-- The live counter whose holding slot covers address h, with the byte within the slot (Table 13.4). -/
def holdSlot (h : Nat) : Option (Nat × Nat) :=
  let at_ := fun (base live : Nat) => some (live + (h - base) / 16 * 8, (h - base) % 16)
  if 0xC00000 ≤ h ∧ h < 0xD80000 then
    let n := (h - 0xC00000) / 0x6000
    at_ (0xC00000 + n * 0x6000) (0x800000 + n * 0x10000)
  else if 0xD80000 ≤ h ∧ h < 0xD84000 then
    let g := (h - 0xD80000) / 0x800
    at_ (0xD80000 + g * 0x800) (0x401000 + g * 0x10000)
  else if 0xD90000 ≤ h ∧ h < 0xDA0000 then at_ 0xD90000 0x82000
  else if 0xDA0000 ≤ h ∧ h < 0xDA1000 then at_ 0xDA0000 0x30000
  else if 0xDA1000 ≤ h ∧ h < 0xDA2000 then at_ 0xDA1000 0x50000
  else if 0xDA2000 ≤ h ∧ h < 0xDA6000 then at_ 0xDA2000 0x70000
  else if 0xDB0200 ≤ h ∧ h < 0xDB2000 then at_ 0xDB0000 0x10000
  else none

/-- Address of the low half of a declared 64-bit register (R399). -/
def is64 (s : State) (a : Nat) : Bool :=
  a = 0x8 || a = 0x10 || a = 0x80008 || a = 0x80018 || isCounter s a ||
    (match holdSlot a with
     | some (c, 0) => isCounter s c
     | _ => false)

end Sys2Proof.Machine
end

