-- ==== Sys2Proof/Machine/Flags.lean ====
section
/-! DEFINITION. Sequence-cleared status (R401, R402), the event hopper and event records (R401, R414, R418 to R425). -/

namespace Sys2Proof.Machine

/-- MSI-X vector v signalled (R384, R418, R419). -/
def sigMsix (v : Nat) (s : State) : State := { s with cmd := { s.cmd with msix := s.cmd.msix ++ [v] } }

/-- VEC_EN of MSI-X vector v, 1 to 3 (Table 13.6). -/
def vecOn (s : State) (v : Nat) : Bool := regBit s aINT_CFG (v - 1)

/-- A hardware event on a register with SC fields: the bits are set and EVT_SEQ advances by 1 modulo 256 (R401). An event of
GLB_EVT also signals MSI-X vector 3 where enabled (R419). A register of a tree in OFF or of a quad that is off keeps nothing (R93, R427, R430). -/
def scEvent (a : Nat) (bits : Word) (s : State) : State :=
  if !treeHere s a || !quadHere s a then s else
  let w := regRaw s a
  let seq := ((w >>> 8) + 1) &&& 0xFF
  let s := setRaw a ((w &&& 0xFFFF00FF) ||| (seq <<< 8) ||| bits) s
  if a = aGLB_EVT ∧ vecOn s 3 then sigMsix 3 s else s

/-- A software write of value v to a register with SC bits sc: every SC bit written as 1 clears when the EVT_SEQ written equals
the register's, and none otherwise; EVT_SEQ is never written (R402). -/
def scWrite (old v sc : Word) : Word := if (old >>> 8) &&& 0xFF = (v >>> 8) &&& 0xFF then old &&& ~~~(v &&& sc) else old

/-- The level interrupt of hopper h, when its readable count goes from r0 to r1 (R418). -/
def hopLevel (h : Nat) (x : Hopper) (r0 r1 : Nat) (s : State) : State :=
  if x.level ≠ 0 ∧ r0 < x.level ∧ x.level ≤ r1 then
    let s := scEvent (aHEVT h) 1 s
    if x.owner = 1 ∧ h ≤ 1 ∧ vecOn s (h + 1) then sigMsix (h + 1) s else s
  else s

/-- An entry moved on by one number, in the sequence number it carries too. -/
def itemShift : HItem → HItem
  | .entry q b => .entry (q + 1) (beBytes 4 (q + 1).toNat ++ b.drop 4)
  | i => i

/-- The entry takes its place behind the k last entries that are of the same cycle by SOURCE (bytes 12 and 13), those already read kept (R420). -/
def evtInsert (mk : BitVec 32 → List Byte) (src k : Nat) (h : Hopper) : List HItem :=
  let l := sealLast h.items
  let n := l.length - k
  let lo := (l.drop n).takeWhile (fun i => match i with
    | .entry q b => decide (natAt b 12 2 ≤ src) || !seqLe h.rd q
    | _ => true)
  let hi := (l.drop n).drop lo.length
  let q := (hi.head?.map itemPos).getD h.wr
  l.take n ++ lo ++ [.entry q (mk q)] ++ hi.map itemShift

/-- A push into the event hopper (R414), events of one cycle in increasing order of source (R420); its drops push no event of their own (R401). -/
def evtPush (src : Nat) (mk : BitVec 32 → List Byte) (s : State) : State :=
  let h := s.evt
  let k := if s.evtRun.1 = s.now then s.evtRun.2 else 0
  if hopRoom h then
    let l := evtInsert mk src k h
    let h' := { h with items := l, wr := h.wr + 1, hwm := max h.hwm l.length, pushed := pushMark s.now h.wr h }
    hopLevel 0 h (hopReadable h) (hopReadable h') { s with evt := h', evtRun := (s.now, k + 1) }
  else
    scEvent aGLB_EVT 8 (scEvent (aHEVT 0) 2 (bump (cHop 0 0x20) 1 { s with evt := hopPush s.now mk h, evtRun := (s.now, 0) }))

/-- Events that firmware may stamp, having no datapath source (R320): those of start-up, save and restart, of the supplies and the board sensor, and
of the firmware slots. The rule names none of them; whether it stamps one is a free value (log 56). -/
def fwStamped (code : Nat) : Bool :=
  [0x0001, 0x0103, 0x0602, 0x0702, 0x0901, 0x0902, 0x0903, 0x0904, 0x0905, 0x0906, 0x0907, 0x0909, 0x090A, 0x090B].contains code

/-- Registers with SC fields and the bits an event sets in them (R425). -/
def scTargets (code idx : Nat) (d : List Byte) : List (Nat × Word) :=
  let prev := natAt d 1 1
  match code with
  | 0x0001 => [(aGLB_EVT, 0x40)]
  | 0x0004 => [(aCP_EVT, 4)]
  | 0x0005 => [(aGLB_EVT, 2)]
  | 0x0006 => [(aGLB_EVT, 4)]
  | 0x0007 => [(aCP_EVT, 2)]
  | 0x0008 => [(aCP_EVT, 1)]
  | 0x0009 => [(aCP_EVT, 0x10)]
  | 0x000A => [(aCP_EVT, 8)]
  | 0x000C => [(aGLB_EVT, 0x20)]
  | 0x0010 => [(aGLB_EVT, 8), (aHEVT idx, 2)]
  | 0x0011 => [(aGLB_EVT, 0x10), (aHEVT idx, 0x10)]
  | 0x0012 => [(aHEVT idx, 8)]
  | 0x010B => [(aTREE idx + 8, 2)]
  | 0x020D => [(aTREE (idx / 128) + 8, 4)]
  | 0x020E => [(aTREE (idx / 128) + 8, 8)]
  | 0x020F => [(aTREE idx + 8, 1)]
  | 0x0210 => [(aTREE idx + 8, 0x10)]
  | 0x0502 => [(aGLB_EVT, 1)]
  | 0x0600 => (aDPLL_HIST, 0x10) :: (if prev = 31 ∨ prev = 6 then [] else [(aREF_HIST prev, 0x10)])
  | 0x0601 => [(aDPLL_HIST, 1 <<< prev)]
  | 0x0802 => [(aPAIR_EVT, 1)]
  | 0x0803 => [(aPAIR_EVT, 8)]
  | 0x0804 => [(aPAIR_EVT, 0x40)]
  | 0x0807 => [(aPAIR_EVT, 0x20)]
  | 0x0809 => [(aPAIR_EVT, 2)]
  | 0x080A => [(aPAIR_EVT, 4)]
  | 0x0900 => [(aPMU_EVT, 1)]
  | 0x0901 => [(aPMU_EVT, 2)]
  | 0x0902 => [(aPMU_EVT, 4)]
  | 0x0904 => [(aPMU_EVT, 0x40)]
  | 0x0905 => [(aPMU_EVT, 8)]
  | 0x0906 => [(aPMU_EVT, 0x20)]
  | 0x0907 => [(aPMU_EVT, 0x10)]
  | _ => []

/-- An event record (Table 13.13): sequence number, time, source, code, data bytes 0 to 3 and 4 to 15. -/
def evtRecord (q : BitVec 32) (time cls code b0 b1 idx : Nat) (fw : Bool) (d : List Byte) : List Byte :=
  beBytes 4 q.toNat ++ beBytes 8 (time % 2 ^ 64) ++ beBytes 2 (fw.toNat * 0x8000 + cls * 0x100) ++ beBytes 2 code
    ++ [BitVec.ofNat 8 b0, BitVec.ofNat 8 b1] ++ beBytes 2 idx ++ bytesAt d 0 12

/-- The SC bits of an event, then its record (R401). -/
def evtRaw (code cls b0 b1 idx : Nat) (d : List Byte) (targets : List (Nat × Word)) (s : State) : State :=
  let s := targets.foldl (fun s t => scEvent t.1 t.2 s) s
  if fwStamped code then
    let (v, s) := fresh s
    let fw := decide (v % 2 = 1)
    evtPush (fw.toNat * 0x8000 + cls * 0x100)
      (fun q => evtRecord q (if fw then s.now + v / 2 % 4977 - 2488 else s.now) cls code b0 b1 idx fw d) s
  else evtPush (cls * 0x100) (fun q => evtRecord q s.now cls code b0 b1 idx false d) s

/-- Event `code` on object idx of class cls; d is data bytes 4 to 15 (Table 13.14). -/
def event (code cls idx : Nat) (d : List Byte) (s : State) : State :=
  evtRaw code cls 0 0 (if cls = 0 then 0 else idx) d (scTargets code idx d) s

/-- SC bits of a declared defect (R425): REF_HIST for class 0x06, PAIR_EVT DIGEST and PATH for PL_DIGEST and PL_LOS. -/
def defTargets (cls idx code : Nat) : List (Nat × Word) :=
  if cls = 6 then [(aREF_HIST idx, 1 <<< (code - 0x50))]
  else if code = 0x41 then [(aPAIR_EVT, 0x10)]
  else if code = 0x40 then [(aPAIR_EVT, 1)]
  else []

/-- DEFECT_SET or DEFECT_CLEAR (R196). -/
def defEvent (set : Bool) (cls idx code cause : Nat) (s : State) : State :=
  evtRaw (if set then 0x0500 else 0x0501) cls code cause idx [] (if set then defTargets cls idx code else []) s

/-- A push into PLOAM_IN or a transmit time-stamp hopper h: a drop is counted and reported as HOPPER_DROP, carrying the first number
the open marker covers (R401, R414, Table 13.14). -/
def hopPushN (h : Nat) (mk : BitVec 32 → List Byte) (s : State) : State :=
  match hopOf s h with
  | none => s
  | some x =>
    let x' := hopPush s.now mk x
    let s' := setHop h x' s
    if hopRoom x then hopLevel h x (hopReadable x) (hopReadable x') s'
    else
      let first := ((x'.items.getLast?).map itemPos).getD x.wr
      event 0x0010 0x0C h (beBytes 4 first.toNat) (bump (cHop h 0x20) 1 s')


/-- The two copies of hopper h's positions differ (R421), where they are held: without NATIVE_ECC_HOPPER. -/
def hopReset (h : Nat) (s : State) : State :=
  match hopOf s h with
  | some x => if featOn s 0 then s else event 0x0011 0x0C h (beBytes 4 x.rel.toNat ++ beBytes 4 x.wr.toNat) (setHop h (hopMismatch s.now x) s)
  | none => s

/-- A corrected word in hopper h (R421): ECC_CORR counts and HEVT ECC_CORR is set with NATIVE_ECC_HOPPER agreed; RS_CORRECTED counts it always
(Table 13.8). -/
def hopCorrected (h : Nat) (s : State) : State :=
  let s := bump (cbDev 1) 1 s
  if featOn s 0 ∧ (hopOf s h).isSome then scEvent (aHEVT h) 4 (bump (cHop h 0x28) 1 s) else s

/-- ECC_UNCORR on store number `store`, word index w (Table 13.14), and RS_UNCORR (Table 13.8). -/
def eccEvent (store w : Nat) (s : State) : State :=
  event 0x000C 0 0 (beBytes 1 store ++ [0, 0, 0] ++ beBytes 4 w) (bump (cbDev 2) 1 s)

/-- The entry at RD of hopper h has an uncorrectable word (R421): a marker takes its place, reported by HOPPER_ECC and by ECC_UNCORR of store 4
(Table 13.14); the word index is that of its slot. -/
def hopEcc (h : Nat) (s : State) : State :=
  match hopOf s h with
  | some x =>
    if x.items.any (fun i => match i with | .entry q _ => decide (q = x.rd) | _ => false) then
      eccEvent 4 (x.rd.toNat % x.slots) (event 0x0012 0x0C h (beBytes 4 x.rd.toNat) (bump (cHop h 0x30) 1 (setHop h (hopLose s.now x.rd x) s)))
    else s
  | none => s

end Sys2Proof.Machine
end

