-- ==== Sys2Proof/Machine/Operands.lean ====
section
/-! DEFINITION. Operand forms of the commands: what each opcode admits, who may send it, and the small conditions on the unit
that many commands test (R354, R369, R370, R375, Tables 12.7, 12.10, 12.13 to 12.15). -/

namespace Sys2Proof.Machine

/-! ### Command flags (Table 12.2) -/

def ordered (h : Hdr) : Bool := h.flags.getLsbD 7
def asap (h : Hdr) : Bool := h.flags.getLsbD 6
def mirrorFlag (h : Hdr) : Bool := h.flags.getLsbD 5
def freeFlag (h : Hdr) : Bool := h.flags.getLsbD 4

/-- Opcodes listed (Tables 12.10, 12.13 to 12.15). -/
def opKnown (op : Nat) : Bool :=
  op ≤ 4 || (0x100 ≤ op && op ≤ 0x103) || (0x200 ≤ op && op ≤ 0x205) || (0x300 ≤ op && op ≤ 0x306) || (0x400 ≤ op && op ≤ 0x407)
    || (0x500 ≤ op && op ≤ 0x506) || (0x600 ≤ op && op ≤ 0x606) || op = 0x6F0 || op = 0x6F1 || (0x700 ≤ op && op ≤ 0x702)
    || (0x800 ≤ op && op ≤ 0x807) || (0x900 ≤ op && op ≤ 0x903) || (0xA00 ≤ op && op ≤ 0xA04)

/-- Column T: the opcode admits timed execution and ASAP (R370). -/
def opTimed (op : Nat) : Bool :=
  [0x101, 0x102, 0x103, 0x300, 0x301, 0x302, 0x303, 0x305, 0x400, 0x404, 0x406, 0x500, 0x501, 0x502, 0x503, 0x606, 0x700, 0x902].contains op

/-- ASAP is admitted: column T, PLATE_TURN and TERM_KEY (R370). -/
def opAsap (op : Nat) : Bool := opTimed op || op = 0x203 || op = 0x304

/-- Commands whose checks, effect and reply come at a stroke boundary: register writes, every _SET but TRIB_SET, TERM_ but TERM_KEY, TIME_ but
TIME_CONV, ACCEPT_PATH_STEP, DEFECT_CFG, PROT_CFG and PROT_SWITCH (Table 12.16). -/
def opStroke (op : Nat) : Bool :=
  [0x101, 0x102, 0x300, 0x301, 0x302, 0x303, 0x306, 0x400, 0x404, 0x406, 0x500, 0x501, 0x502, 0x503, 0x504, 0x605, 0x606, 0x700, 0x807,
   0x902].contains op

/-- Shared registers: all but the pair, timing and time blocks and the PMU block (the unit's own power policy) (R354), the hopper block, the
counters and their holding copies (R396; log 14). -/
def sharedReg (x : Nat) : Bool :=
  let a := regBase x
  !((0x10000 ≤ a && a < 0x40000) || (0x50000 ≤ a && a < 0x60000) || (0x70000 ≤ a && a < 0x80000) || (0x81000 ≤ a && a < 0x90000)
    || (0xC00000 ≤ a && a < 0x1000000)
    || (0x400000 ≤ a && a < 0x480000 && 0x1000 ≤ a % 0x10000) || (0x800000 ≤ a && a < 0xC00000 && 0x100 ≤ a % 0x10000) || 0x80000000 ≤ a)

/-- The first of n registers of w bytes from a that is shared, and how many from it on are: what of a REG_WR is mirrored (R354, R396). -/
def sharedRun (a w n : Nat) : Nat × Nat :=
  let l := (List.range n).map (fun i => sharedReg (a + i * w))
  let lo := (l.takeWhile (fun b => !b)).length
  (lo, ((l.drop lo).takeWhile id).length)

/-- The command as it is mirrored: a REG_WR without the registers that are not shared (R396). -/
def mirrorOf : Instr → Instr
  | .regWr h a w n d =>
    let r := sharedRun a.toNat w.toNat n.toNat
    .regWr h (a + BitVec.ofNat 32 (r.1 * w.toNat)) w (BitVec.ofNat 16 r.2) ((d.drop (r.1 * w.toNat)).take (r.2 * w.toNat))
  | c => c

/-- Column M: the opcode is mirrored when accepted; REG_WR and REG_RMW only for shared registers (R354, R396). -/
def opMirrored (op : Nat) (c : Option Instr) : Bool :=
  [0x200, 0x201, 0x202, 0x203, 0x204, 0x300, 0x301, 0x302, 0x303, 0x304, 0x305, 0x306, 0x400, 0x402, 0x404, 0x406, 0x902].contains op
    || (match c with
        | some (.regWr _ a w n _) => decide ((sharedRun a.toNat w.toNat n.toNat).2 ≠ 0)
        | some (.regRmw _ a _ _) => sharedReg a.toNat
        | _ => false)

/-- Table 12.7: the class of the port may use the opcode. -/
def classOk (p : Port) (op : Nat) : Bool :=
  match p with
  | .board => op ≠ 0x6F0 && op ≠ 0x6F1
  | .host => op ≠ 0x6F0 && op ≠ 0x6F1 && op ≠ 0x807
  | .inband =>
    [0, 1, 2, 4, 0x100, 0x103, 0x205, 0x401, 0x403, 0x405, 0x407, 0x505, 0x506, 0x604, 0x701, 0x803, 0x805, 0x900, 0x901,
     0xA00, 0xA01, 0xA02, 0xA03].contains op
  | .pair => [0, 1, 4, 0x6F0, 0x6F1].contains op

/-- FEATURES with SET is of classes 0 and 1 (Table 12.7, R379). -/
def setOk (p : Port) (c : Option Instr) : Bool :=
  match c with
  | some (.features _ set _) => set = 0 || p = .board || p = .host
  | _ => true

/-- The port's privilege map enables the opcode's group (R375). -/
def mapOk (s : State) (p : Port) (op : Nat) : Bool :=
  match p with
  | .host => regBit s aPRIV_HOST (op / 256)
  | .inband => regBit s aPRIV_INBAND (op / 256)
  | _ => true

/-! ### The unit (R329, R354, R360, R380, R462, R465) -/

/-- MODE of PAIR_CFG. -/
def pairMode (s : State) : Nat := regFld s aPAIR_CFG 31 30

/-- The unit is fenced: by the lease, by FENCE, by FENCE_IN_N or by a boundary-scan instruction. -/
def isFenced (s : State) : Bool := s.pair.fencedLease || s.pair.fencedCmd || s.pair.fencedPin || s.pair.fencedScan

/-- The standby: the FEATHERED unit of a pair in JOINING, ELIGIBLE or IN_STEP, neither fenced nor detached (R329); a unit is of a
pair while MODE is 2 (log 13). -/
def isStandby (s : State) : Bool :=
  pairMode s = 2 && s.pair.st ≠ .solo && !s.pair.sails && !isFenced s && !s.pair.detached

/-- The unit's transmitters may emit: SAILS_ON, not fenced, not in a save (R95, R380, R435). -/
def emitting (s : State) : Bool := s.pair.sails && !isFenced s && s.power.phase = .running

/-- It numbers accepted packets in the local series: a standby with contact (R360). -/
def localSeries (s : State) : Bool := s.pair.contact && !s.pair.sails && s.pair.st ≠ .solo

/-- Commands a standby executes from its own ports (R354). -/
def standbyOk (s : State) (op : Nat) (c : Option Instr) : Bool :=
  let g := op / 256
  g = 0 || op = 0x100 || op = 0x103 || g = 5 || g = 6 || g = 9 || g = 0xA || (op = 0x807 && !s.pair.contact)
    || (match c with
        | some (.regWr _ a w n _) => (List.range (max 1 n.toNat)).all (fun i =>
            let b := regBase (a.toNat + i * w.toNat)
            (0x20000 ≤ b && b < 0x40000) || (0x50000 ≤ b && b < 0x60000))
        | _ => false)

/-! ### Ports (Table 12.6) -/

def creditsOf : Port → Nat
  | .board => 8 | .host => 128 | .inband => 32 | .pair => 64

/-- Refusal replies a port holds (Table 12.6). -/
def refusalSpace : Nat := 4

/-- Free credits of a port (CREDITS). -/
def freeCredits (s : State) (p : Port) : Nat := creditsOf p - (portSt s p).used

/-- Refusal replies held by a port: those under DSEQ 0 (R360, Table 12.6). -/
def refusalsHeld (s : State) (p : Port) : Nat := ((portSt s p).replies.filter (fun r => r.dseq = 0)).length

/-! ### Boundaries -/

/-- Boundary and number of a first turn that is scheduled: it places the grid anew (R31). -/
def firstAt (s : State) : Option (Nat × BitVec 32) :=
  match s.plates.turn with
  | some t => if t.first then some (t.at_, t.target) else none
  | none => none

/-- The next impression boundary: of the grid in force, or that of a first turn that ends the impression in progress early (R31). -/
def nextBoundary (s : State) : Nat :=
  match firstAt s with
  | some (b, _) => min b s.imprNext
  | none => s.imprNext

/-- The first boundary at or after counter value t of a grid that starts anew at every impression boundary (strokes and PON frames, R31). -/
def gridUp (s : State) (step t : Nat) : Nat :=
  let b := nextBoundary s
  if t ≤ b then min (s.imprAt + ceilDiv (t - s.imprAt) step * step) b else b + ceilDiv (t - b) step * step

/-- The first stroke boundary at or after counter value t: strokes run from the start of the impression in progress (Table 0.5). -/
def strokeAt (s : State) (t : Nat) : Nat := gridUp s Config.STROKE t

/-- The first PON frame boundary at or after counter value t (R31). -/
def frameStart (s : State) (t : Nat) : Nat := gridUp s Config.FRAME t

/-- The first boundary at or after counter value t of the grid in force, whatever turn is scheduled. -/
def oldBoundaryAt (s : State) (t : Nat) : Nat :=
  if t ≤ s.imprNext then s.imprNext else s.imprNext + ceilDiv (t - s.imprNext) Config.IMPRESSION * Config.IMPRESSION

/-- The number of the impression that begins at boundary b of the grid in force. -/
def oldBoundaryNum (s : State) (b : Nat) : BitVec 32 := s.imprNum + 1 + BitVec.ofNat 32 ((b - s.imprNext) / Config.IMPRESSION)

/-- The first impression boundary at or after counter value t: a first turn that is scheduled places the grid anew (R31). -/
def boundaryAt (s : State) (t : Nat) : Nat :=
  match firstAt s with
  | some (b, _) => if t ≤ b then min (oldBoundaryAt s t) b else b + ceilDiv (t - b) Config.IMPRESSION * Config.IMPRESSION
  | none => oldBoundaryAt s t

/-- The number of the impression that begins at boundary b (R31). -/
def boundaryNum (s : State) (b : Nat) : BitVec 32 :=
  match firstAt s with
  | some (f, n) => if f ≤ b then n + BitVec.ofNat 32 ((b - f) / Config.IMPRESSION) else oldBoundaryNum s b
  | none => oldBoundaryNum s b

/-! ### What a command comes to -/

/-- Status, reply parameters and state of a command that has run. -/
structure Res where
  status : Nat
  params : List Byte
  s : State

/-- An opcode's own checks and effect: the packet offset of the first parameter out of range (0: none), then the rest. -/
structure Op where
  bad : State → Nat
  run : State → Res

/-- The outcome of an event of a unit: its effect while the device runs, none in a save or in reset (R435, R440). -/
def live (s t : State) : Host.Outcome State Fault Refusal := .next (if s.power.phase = .running then t else s)

/-- An event of the timing unit, of the always-on domain: it runs through a save and the reset after it (R19, R440). While the control complex is in
reset its event hopper and ports hold nothing. -/
def liveTiming (s t : State) : Host.Outcome State Fault Refusal :=
  .next (match s.power.phase with
    | .porst => s
    | .running | .saving => t
    | .saved | .booting => { t with evt := s.evt, evtRun := s.evtRun, cmd := s.cmd })

/-- LK_BARWR discards BAR0 writes (Table 13.6). -/
def barLocked (s : State) : Bool := regBit s aLOCKS 5

/-- A BAR0 write event of host software at register a: none while the device does not run or is in rescue mode; under LK_BARWR discarded and
reported BAR_LOCKED (R403). -/
def liveBar (a : Nat) (s t : State) : Host.Outcome State Fault Refusal :=
  .next (if s.power.phase ≠ .running ∨ s.power.rescue then s
    else if barLocked s then event 0x0006 0x0B 1 (beBytes 4 a) s
    else t)

/-- Status of a command whose reply waits for an outside event (TOD_GET of a future frame, I2C_XFER). -/
def stWait : Nat := 0x100

def resOk (p : List Byte) (s : State) : Res := { status := 0, params := p, s := s }
def resAcc (p : List Byte) (s : State) : Res := { status := 1, params := p, s := s }
def resBad (off : Nat) (s : State) : Res := { status := 4, params := beBytes 2 off ++ rsv 2, s := s }
def resBadCause (off cause : Nat) (s : State) : Res := { status := 4, params := beBytes 2 off ++ rsv 2 ++ beBytes 4 cause, s := s }
def resWidth (a : Nat) (s : State) : Res := { status := 5, params := beBytes 4 a, s := s }
def resAlign (a : Nat) (s : State) : Res := { status := 6, params := beBytes 4 a, s := s }
def resLocked (a : Nat) (s : State) : Res := { status := 7, params := beBytes 4 a, s := s }
def resLate (now earliest : Nat) (s : State) : Res := { status := 8, params := beBytes 4 now ++ beBytes 4 earliest, s := s }
def resConflict (kind ix : Nat) (s : State) : Res := { status := 9, params := beBytes 2 kind ++ beBytes 2 ix, s := s }
def resBusy (s : State) : Res := { status := 0x0A, params := [], s := s }
def resNotNeg (bit : Nat) (s : State) : Res := { status := 0x0C, params := beBytes 1 bit ++ rsv 3, s := s }
def resRejected (code : Nat) (s : State) : Res := { status := 0x0D, params := beBytes 2 code ++ rsv 2, s := s }
def resStale (s : State) : Res := { status := 0x0E, params := [], s := s }
def resPriv (p : Port) (op : Nat) (s : State) : Res :=
  { status := 3, params := beBytes 1 (portNo p) ++ beBytes 1 (op / 256) ++ rsv 2, s := s }
def resWait (s : State) : Res := { status := stWait, params := [], s := s }

/-- The offset of the first failing test of a list of (packet offset, test that must hold). -/
def firstBad : List (Nat × Bool) → Nat
  | [] => 0
  | (o, ok) :: r => if ok then firstBad r else o

/-- Codes of key slot states in a digest and a save. -/
def keyCode : KeySt → Nat
  | .empty => 0 | .staged => 1 | .current => 2 | .draining => 3

end Sys2Proof.Machine
end

