-- ==== Sys2Proof/Machine/Intake.lean ====
section
/-! DEFINITION. Intake, acceptance, numbering, credits, execution time and replies: what every Casut command goes through
(R357 to R373, R377). -/

namespace Sys2Proof.Machine

/-! ### Replies -/

/-- A reply queued on its port (R383, R384). The pair link takes a reply at once (log 12): the last one is kept, and its credit returns. -/
def postReply (r : Reply) (s : State) : State :=
  let p := portSt s r.port
  match r.port with
  | .pair => setPortSt .pair { p with replies := [{ r with credit := false }], used := if r.credit then p.used - 1 else p.used } s
  | _ => setPortSt r.port { p with replies := p.replies ++ [r] } s

/-- One credit of a port freed (R365). -/
def freeCredit (p : Port) (s : State) : State := setPortSt p { portSt s p with used := (portSt s p).used - 1 } s

/-- The bytes of a reply as sent (Table 12.3): CREDITS counts what is free once it is sent. -/
def replyBytes (s : State) (r : Reply) : List Byte :=
  let b := e8 0x03 ++ e8 0x80 ++ e16 r.opcode ++ e16 r.tag ++ beBytes 2 r.params.length ++ e8 r.status
    ++ beBytes 1 (portNo r.port) ++ beBytes 2 (freeCredits s r.port + r.credit.toNat) ++ e32 r.dseq ++ r.params
  b ++ e32 (crc32c b)

/-! ### Intake (R362, Table 12.5) -/

/-- A refusal at intake: DSEQ 0, no credit (R360, R365). With the refusal space full the board's packet is not taken, the host's
fetch and the pair's sender hold, the in-band frame is discarded (Table 12.6). -/
def refuseIntake (p : Port) (op : Nat) (tag : BitVec 16) (st : Nat) (det : List Byte) (s : State) : State :=
  if refusalSpace ≤ refusalsHeld s p ∧ p ≠ .pair then
    match p with
    | .board => { s with cmd := { s.cmd with spiNotTaken := true } }
    | .inband => event 0x000A 4 s.cmd.inbandLane [] (bump (cbDev 0) 1 s)
    | _ => s
  else
    let s := if st = 0x0B then event 0x0007 0x0B (portNo p) (beBytes 2 (portSt s p).used) s else s
    postReply { opcode := BitVec.ofNat 16 op, tag := tag, status := BitVec.ofNat 8 st, port := p, credit := false, dseq := 0, params := det } s

/-- Intake checks 2 (flags) to 10: status and detail of the first that fails. -/
def intake (h : Hdr) (op : Nat) (c : Option Instr) (s : State) : Option (Nat × List Byte) :=
  let p := portSt s h.port
  if h.flags &&& 0x2F ≠ 0 then some (4, beBytes 2 1 ++ rsv 2)
  else if s.power.phase ≠ .running then some (0x11, [])
  else if s.power.rescue ∧ !([0, 1, 0x800, 0x801, 0x802, 0x803, 0x804].contains op) then some (0x0A, [])
  else if freeCredits s h.port = 0 then some (0x0B, beBytes 2 p.used ++ rsv 2)
  else if p.session = none ∧ op ≠ 0 ∧ op ≠ 1 ∧ op ≠ 3 then some (0x0C, [0xFF] ++ rsv 3)
  else if op ≠ 3 ∧ h.session ≠ (p.session.map Session.id).getD 0 then some (4, beBytes 2 8 ++ rsv 2)
  else if !opKnown op then some (2, [])
  else if !(classOk h.port op && setOk h.port c && mapOk s h.port op) then some (3, beBytes 1 (portNo h.port) ++ beBytes 1 (op / 256) ++ rsv 2)
  else if op / 256 = 6 ∧ op ≠ 0x604 ∧ ((p.session.map Session.agreed).getD 0).getLsbD 5 = false then some (0x0C, [5] ++ rsv 3)
  else if isStandby s && !standbyOk s op c then some (0x0F, [])
  else none

/-! ### Acceptance (R360, R362, R365) -/

/-- The number after q in the device series. -/
def devNext (q : BitVec 32) : BitVec 32 := if q = 0x7FFFFFFF then 1 else q + 1
/-- The number after q in the local series. -/
def locNext (q : BitVec 32) : BitVec 32 := if q = 0xFFFFFFFF then 0x80000001 else q + 1

/-- An accepted packet: it holds a credit and takes its DSEQ. -/
def accept (h : Hdr) (op : Nat) (c : Option Instr) (badAt : Nat) (s : State) : Pkt × State :=
  let loc := localSeries s
  let q := if loc then locNext s.cmd.locLast else devNext s.cmd.devLast
  let p := portSt s h.port
  let k : Pkt := { hdr := h, opcode := BitVec.ofNat 16 op, cmd := c, badAt := BitVec.ofNat 16 badAt, dseq := q,
                   sid := (p.session.map Session.id).getD 0, ord := s.cmd.ord, at_ := s.now }
  let s := setPortSt h.port { p with used := p.used + 1 } s
  (k, { s with cmd := { s.cmd with devLast := if loc then s.cmd.devLast else q, locLast := if loc then q else s.cmd.locLast,
                                   lastDseq := q, ord := s.cmd.ord + 1 } })

/-! ### The pair's mirror (R24, R354) -/

/-- Bytes a record takes in the stream's hopper: 8, and the content it carries (R335; log 99); a gap marker is laid out as Table 13.10 (R415). -/
def recBytes : Rec → Nat
  | .repair _ _ d => 8 + d.length
  | .repairCw _ _ _ _ d => 8 + d.length
  | .command _ p => 8 + p.length
  | .gap .. => 24
  | _ => 8

/-- The state stream's hopper of 4 MiB has room for the record (R335, Table 13.9). -/
def streamRoom (q : List StreamRec) (r : StreamRec) : Bool := decide ((q.map (fun x => recBytes x.body)).sum + recBytes r.body ≤ 4194304)

/-- The first number that the open marker of the stream's hopper covers (R414). -/
def streamOpen : List StreamRec → Option (BitVec 32)
  | [] => none
  | [⟨_, .gap f _ _⟩] => some f
  | _ :: r => streamOpen r

/-- Number n recorded as dropped behind the records held, in the open marker or a new one (R414). -/
def streamLost (now : Nat) (n : BitVec 32) (r : StreamRec) : List StreamRec → List StreamRec
  | [] => [{ r with body := .gap n n (BitVec.ofNat 64 now) }]
  | [⟨t, .gap f _ a⟩] => [⟨t, .gap f n a⟩]
  | x :: q => x :: streamLost now n r q

/-- A record pushed into the state stream's hopper: without room it is dropped, counted, and recorded in the gap marker behind the newest record held
(R335, R414); HOPPER_DROP is reported at the next stroke boundary. -/
def sendRec (s : State) (r : StreamRec) : State :=
  let q := s.pair.sent
  let n := s.pair.streamWr
  if streamRoom q r then
    { s with pair := { s.pair with sent := q ++ [r], streamWr := n + 1, streamHwm := max s.pair.streamHwm (q.length + 1) } }
  else
    let l := streamLost s.now n r q
    bump (cHop 0x20 0x20) 1 { s with pair := { s.pair with
      sent := l, streamWr := n + 1, streamHwm := max s.pair.streamHwm l.length,
      streamDrop := s.pair.streamDrop ++ [(streamOpen q).getD n] } }

/-- Records appended to the state stream's hopper (R335). -/
def sendRecs (l : List StreamRec) (s : State) : State := l.foldl sendRec s

/-- A record that names stroke t pushed into the state stream by the SAILS_ON unit of a pair with contact (R333). -/
def streamAt (t : Nat) (b : Rec) (s : State) : State :=
  if s.pair.contact && s.pair.sails && s.pair.st ≠ .solo then sendRecs [{ stroke := t, body := b }] s else s

/-- A record that names the first stroke boundary at or after the present. -/
def streamPush (b : Rec) (s : State) : State := streamAt (strokeAt s s.now) b s

/-- A BAR0 write of v to a shared register, mirrored as a REG_WR (R354); it has no number of its own. -/
def mirrorBar (a : Nat) (v : Word) (s : State) : State :=
  if sharedReg a then
    streamPush (.command 0 (encodePacket (.regWr { port := .board, flags := 0, tag := 0, session := 0, exec := 0 } (BitVec.ofNat 32 a) 4 1
      (e32 v)))) s
  else s

/-! ### Completion -/

/-- Number q of a series lies after number r of it: the 31 bits below the series bit, compared modulo 2^31. -/
def numAfter (r q : BitVec 32) : Bool := decide (((q - r).toNat) % 2 ^ 31 < 2 ^ 30)

/-- A numbered command has taken its effect: the last number of its series with effect (R44, R360). -/
def markEff (q : BitVec 32) (s : State) : State :=
  if q.getLsbD 31 then (if numAfter s.cmd.locEff q then { s with cmd := { s.cmd with locEff := q } } else s)
  else if s.cmd.devEff = 0 ∨ numAfter s.cmd.devEff q then { s with cmd := { s.cmd with devEff := q } } else s

/-- The effect named as command k's. -/
def Posted.of (k : Pkt) (x : Posted) : Posted := { x with ord := k.ord, pkt := some k }

/-- The impression at whose boundary a command that has run takes its effect: a key switch or clear (R127), a turn (R84), a disengage (R56). -/
def effectBoundary (s : State) : Instr → Option (BitVec 32)
  | .termKey _ tr dom dir a _ _ =>
    if a = 0 then none else ((keySet s (keyIx tr.toNat dom.toNat (dir = 1))).pends.getLast?).map (fun x => x.2.1)
  | .plateTurn .. => s.plates.turn.map Turn.target
  | .plateAbort .. => s.plates.disengage.map (boundaryNum s)
  | _ => none

/-- A command has run on a state that held n posted effects: its number has taken effect, or does so at its impression boundary, or when the effects it
posted land (R22, R44). -/
def tookEffect (n : Nat) (k : Pkt) (s : State) : State :=
  if s.mill.landing.length ≤ n then
    match k.cmd.bind (effectBoundary s) with
    | some b => { s with cmd := { s.cmd with effAt := s.cmd.effAt ++ [(k.dseq, b)] } }
    | none => markEff k.dseq s
  else { s with mill := { s.mill with landing := s.mill.landing.take n ++ (s.mill.landing.drop n).map (Posted.of k) } }

/-- The reply of an accepted command (R359); none for FREE with OK or ACCEPTED, which frees the credit. A reply to a mirrored command
of an IN_STEP SAILS_ON unit waits for the standby's acknowledgement (R24). -/
def finish (k : Pkt) (held : Bool) (st : Nat) (params : List Byte) (s : State) : State :=
  if freeFlag k.hdr ∧ st ≤ 1 then (if held then freeCredit k.hdr.port s else s)
  else
    let r : Reply := { opcode := k.opcode, tag := k.hdr.tag, status := BitVec.ofNat 8 st, port := k.hdr.port, credit := held,
                       dseq := k.dseq, params := params }
    if opMirrored k.opcode.toNat k.cmd && decide (st ≤ 1) && s.pair.st = .inStep && s.pair.sails then
      { s with cmd := { s.cmd with ackWait := s.cmd.ackWait ++ [r] } }
    else postReply r s

/-- A packet with MIRROR set (Table 12.2). -/
def mirrorBytes (l : List Byte) : List Byte :=
  let b := (l.take 1) ++ (((l.drop 1).take 1).map (· ||| 0x20)) ++ ((l.drop 2).take (l.length - 6))
  b ++ e32 (crc32c b)

/-- The COMMAND record of a mirrored command, under its device-series number, with the stroke t of its effect (R354, R371, Table 11.2). -/
def mirror (t : Nat) (k : Pkt) (s : State) : State :=
  match k.cmd with
  | some c => if opMirrored k.opcode.toNat k.cmd then streamAt t (.command k.dseq (mirrorBytes (encodePacket (mirrorOf c)))) s else s
  | none => s

/-- A mirrored command that takes effect now: its record goes ahead of what the effect itself sends. -/
def told (k : Pkt) (s : State) : State := mirror (strokeAt s s.now) k s

/-- A command's own checks and effect, mirrored where none of the checks refuses it: a refused command changes no shared state (R354, R363). -/
def Op.does (o : Op) (k : Pkt) (s : State) : Res := if (o.run s).status ≤ 1 then o.run (told k s) else o.run s

/-- A command that has run from a state with n posted effects: its reply, or the wait for one (R366). -/
def complete (n : Nat) (k : Pkt) (r : Res) : State :=
  if r.status = stWait then { r.s with cmd := { r.s.cmd with waiting := r.s.cmd.waiting ++ [{ pkt := k }] } }
  else finish k true r.status r.params (if r.status ≤ 1 then tookEffect n k r.s else r.s)

/-- Smaller of two offsets, 0 counting as none. -/
def offMin (a b : Nat) : Nat := if a = 0 then b else if b = 0 then a else min a b

/-! ### Execution time (R368 to R370) -/

/-- The execution time of a timed command accepted at a: none where R368 refuses it LATE. -/
def execAt (s : State) (h : Hdr) (a : Nat) : Option Nat :=
  let d := (h.exec.toNat + 2 ^ 32 - a % 2 ^ 32) % 2 ^ 32
  let late := d < 2488 || 2 ^ 31 ≤ d
  if h.exec = 0 ∨ (late ∧ asap h) then some (boundaryAt s (a + 2488)) else if late then none else some (a + d)

/-- A timed command enters the wait, mirrored with the stroke of its execution time: reply ACCEPTED with EXEC_AT, its credit returned; the 65th is
refused BUSY (R367, R371), and one whose port may not touch what it writes PRIVILEGE (R376; log 14). -/
def enterWait (k : Pkt) (o : Op) (e : Nat) (s : State) : State :=
  if 64 ≤ s.cmd.timed.length then finish k true 0x0A [] s
  else if (o.run s).status = 3 then finish k true 3 (o.run s).params s
  else
    let s := mirror (strokeAt s e) k s
    let s := freeCredit k.hdr.port { s with cmd := { s.cmd with timed := s.cmd.timed ++ [{ pkt := k, at_ := e }] } }
    finish k false 1 (beBytes 8 e) s

/-- A started command waits for the stroke boundary of its effect: the first 6 mc ahead for an immediate one (R22, R27), the one it executes at
for a timed one. -/
def postCmd (timed : Bool) (k : Pkt) (s : State) : State :=
  { s with mill := { s.mill with landing := s.mill.landing ++
      [{ eff := .cmd timed, at_ := if timed then 0 else s.now, ord := k.ord, pkt := some k }] } }

/-- An effect that copies the counters: GO of SNAP_CTL, or a SNAPSHOT (R405). -/
def isCopy (x : Posted) : Bool :=
  match x.eff, x.pkt.bind Pkt.cmd with
  | .bar a 4 v _, _ => regBase a = 0x80000 && (a = 0x80000 || aliasBit a = 0) && v.getLsbD 0
  | .cmd _, some (.regWr _ a w n d) =>
    a.toNat ≤ 0x80000 && 0x80000 < a.toNat + 4 * n.toNat && w = 4 && natAt d (0x80000 - a.toNat) 4 % 2 = 1
  | .cmd _, some (.regRmw _ a m v) => a = 0x80000 && (m &&& v).getLsbD 0
  | .cmd _, some (.snapshot _) => true
  | _, _ => false

/-- A copy of the counters is pending (R405, Table 13.7). -/
def copyPending (s : State) : Bool := s.mill.landing.any isCopy

/-- The command's checks, effect and reply come at the next stroke boundary: one that changes the datapath (R22), and SNAPSHOT while a copy is
pending, with which it is merged (R405). -/
def awaitsStroke (op : Nat) (s : State) : Bool := opStroke op || (op = 0x103 && copyPending s)

/-- An accepted command starts: EXEC and ASAP admitted, execution time, parameter ranges, then its own checks and effect
(R363, R368, R370). -/
def start (k : Pkt) (o : Op) (s : State) : State :=
  let h := k.hdr
  let op := k.opcode.toNat
  let bad := offMin (o.bad s) k.badAt.toNat
  if asap h ∧ !opAsap op then finish k true 4 (beBytes 2 1 ++ rsv 2) s
  else if h.exec ≠ 0 ∧ !opTimed op then finish k true 4 (beBytes 2 (offMin 12 bad) ++ rsv 2) s
  else if opTimed op ∧ (h.exec ≠ 0 ∨ asap h) then
    match execAt s h k.at_ with
    | none => finish k true 8 (beBytes 4 (k.at_ % 2 ^ 32) ++ beBytes 4 ((k.at_ + 2488) % 2 ^ 32)) s
    | some e => if bad ≠ 0 then finish k true 4 (beBytes 2 bad ++ rsv 2) s else enterWait k o e s
  else if bad ≠ 0 then finish k true 4 (beBytes 2 bad ++ rsv 2) s
  else if awaitsStroke op s then postCmd false k s
  else complete s.mill.landing.length k (o.does k s)

/-! ### Order (R43, R366, R372, R373) -/

/-- Accepted packets not started, of all ports. -/
def allQueued (s : State) : List Pkt := s.cmd.board.queue ++ s.cmd.host.queue ++ s.cmd.inband.queue ++ s.cmd.pair.queue

/-- Commands accepted that have not yet taken their effect: queued, timed, waiting for an outside event, or with an effect still to land. -/
def underWay (s : State) : List Pkt :=
  allQueued s ++ s.cmd.timed.map Timed.pkt ++ s.cmd.waiting.map Waiting.pkt ++ s.mill.landing.filterMap Posted.pkt

/-- Commands that execute: those whose reply waits for an outside event, and those whose effect waits for its stroke boundary (R366). -/
def executing (s : State) : Nat :=
  s.cmd.waiting.length + s.mill.landing.countP (fun x => x.eff = .cmd false)

/-- An older ORDERED command of the packet's port has not yet taken its effect (R43, R373). -/
def blocked (s : State) (k : Pkt) : Bool :=
  (underWay s).any
    (fun x => x.hdr.port = k.hdr.port && ordered x.hdr && x.ord < k.ord)

/-- The oldest queued packet that may start, in acceptance order across ports (R366). -/
def oldestStartable (s : State) : Option Pkt :=
  ((allQueued s).filter (fun k => !blocked s k)).foldl
    (fun b k => match b with
      | none => some k
      | some x => if k.ord < x.ord then some k else some x) none

/-- The packet queued on its port. -/
def enqueue (k : Pkt) (s : State) : State :=
  setPortSt k.hdr.port { portSt s k.hdr.port with queue := (portSt s k.hdr.port).queue ++ [k] } s

/-- The device does not yet accept packets on a port: PORST_N is low or the firmware is not running (Table 14.6); in rescue mode only the board
port accepts (R449). -/
def notReady (p : Port) (s : State) : Bool := s.power.phase = .porst || s.power.phase = .booting || (s.power.rescue && p ≠ .board)

/-- A command packet complete at its port (R362), its command read or its first bad field known: refused at intake, or accepted; accepted, it
starts when a place among the 16 is free and nothing older may start before it, and otherwise waits in its port's queue (R366). -/
def deliver (h : Hdr) (op : Nat) (c : Option Instr) (badAt : Nat) (o : Op) (s : State) : State :=
  if notReady h.port s then s else
  match intake h op c s with
  | some (st, det) => refuseIntake h.port op h.tag st det s
  | none =>
    let (k, s) := accept h op c badAt s
    if executing s < 16 ∧ oldestStartable s = none ∧ !blocked s k then start k o s else enqueue k s

/-- FENCE is passed by intake directly to the fence path, past every queue; it admits no EXEC, ASAP or ORDERED (R380, R381). Its effect takes hold at
the next stroke boundary, and its reply follows it (R22). -/
def deliverFence (h : Hdr) (op : Nat) (c : Option Instr) (badAt : Nat) (o : Op) (s : State) : State :=
  if notReady h.port s then s else
  match intake h op c s with
  | some (st, det) => refuseIntake h.port op h.tag st det s
  | none =>
    let (k, s) := accept h op c badAt s
    let bad := offMin (o.bad s) badAt
    if asap h || ordered h then finish k true 4 (beBytes 2 1 ++ rsv 2) s
    else if h.exec ≠ 0 then finish k true 4 (beBytes 2 (offMin 12 bad) ++ rsv 2) s
    else if bad ≠ 0 then finish k true 4 (beBytes 2 bad ++ rsv 2) s
    else postCmd false k s

/-- The packet of a command, complete at its port. -/
def submit (c : Instr) (o : Op) (s : State) : State :=
  match hdrOf c with
  | none => s
  | some h => deliver h (opcodeOf c) (some c) 0 o s

/-- The meaning of an opcode's command. -/
def command (c : Instr) (o : Op) (s : State) : Host.Outcome State Fault Refusal := .next (submit c o s)

end Sys2Proof.Machine
end

