-- ==== Sys2Proof/Machine/Defects.lean ====
section
/-! DEFINITION. Defects: declaration, clearing, masking (R194 to R200, Tables 6.1, 6.2, 9.3), the degrade estimator (R201, R202),
the protection status (R204), the feeder trigger (R207, R209). -/

namespace Sys2Proof.Machine

/-! ### The engaged plate -/

/-- The engaged plate, if a bank is ENGAGED. -/
def engaged (s : State) : Option Plate :=
  if s.plates.bank0.st = .engaged then s.plates.bank0.plate
  else if s.plates.bank1.st = .engaged then s.plates.bank1.plate else none

/-- FLOW record of FLOW_ID f in a plate. -/
def flowIn (p : Plate) (f : Nat) : Option Flow := p.flows.find? (fun x => x.id = f)

/-- FLOW record of FLOW_ID f in the engaged plate. -/
def flowOf (s : State) (f : Nat) : Option Flow := (engaged s).bind (flowIn · f)

/-! ### Defect codes -/

def TR_LOS : Nat := 0x01
def TR_LOF : Nat := 0x02
def TR_SD : Nat := 0x03
def TR_SF : Nat := 0x04
def TR_ROGUE : Nat := 0x05
def TM_LOS : Nat := 0x10
def TM_LOB : Nat := 0x11
def TM_RDI : Nat := 0x12
def TM_SD : Nat := 0x13
def TM_SF : Nat := 0x14
def TM_DRIFT : Nat := 0x15
def TB_LOF : Nat := 0x20
def TB_AIS : Nat := 0x21
def TB_RDI : Nat := 0x22
def TB_SLM : Nat := 0x23
def TB_AMB : Nat := 0x24
def UL_LOS : Nat := 0x30
def UL_LOF : Nat := 0x31
def UL_RDI : Nat := 0x32
def UL_SD : Nat := 0x33
def PL_LOS : Nat := 0x40
def PL_DIGEST : Nat := 0x41
def RF_LOS : Nat := 0x50
def RF_FREQ : Nat := 0x51
def RF_PHASE : Nat := 0x52
def RF_TIE : Nat := 0x53

/-- Key of a defect: object class, index, code. -/
def defKey (cls idx code : Nat) : Nat := (cls * 0x10000 + idx) * 0x100 + code

/-- The defect is declared. -/
def declared (s : State) (cls idx code : Nat) : Bool := mget false s.defects.on (defKey cls idx code)

/-- Defects of each class in code order (R197, DEFECT_GET). -/
def classCodes (cls : Nat) : List Nat :=
  match cls with
  | 1 => [1, 2, 3, 4, 5]
  | 2 => [0x10, 0x11, 0x12, 0x13, 0x14, 0x15]
  | 3 => [0x20, 0x21, 0x22, 0x23, 0x24]
  | 4 => [0x30, 0x31, 0x32, 0x33]
  | 5 => [0x40, 0x41]
  | 6 => [0x50, 0x51, 0x52, 0x53]
  | _ => []

/-- A tributary's defects are masked while its terminal has TM_LOS or its tree TR_LOS, for an upstream flow (R200). -/
def tribMasked (s : State) (f : Nat) : Bool :=
  match flowOf s f with
  | some x => x.up && (declared s 2 (128 * x.tree + x.term) TM_LOS || declared s 1 x.tree TR_LOS)
  | none => false

/-- The defect is masked (R195, R199, R200, "Masked by" of Tables 6.1, 6.2, 9.3). -/
def masked (s : State) (cls idx code : Nat) : Bool :=
  match cls with
  | 1 => (code = TR_LOF || code = TR_SD || code = TR_SF) && declared s 1 idx TR_LOS
  | 2 =>
    let los := declared s 1 (idx / 128) TR_LOS
    if code = TM_LOS then los && (tree s (idx / 128)).losBounds < 10 else los || declared s 2 idx TM_LOS
  | 3 =>
    tribMasked s idx || (code ≠ TB_LOF && declared s 3 idx TB_LOF)
      || ((code = TB_RDI || code = TB_SLM) && declared s 3 idx TB_AIS)
  | 4 => (code ≠ UL_LOS && declared s 4 idx UL_LOS) || ((code = UL_RDI || code = UL_SD) && declared s 4 idx UL_LOF)
  | 5 => code = PL_DIGEST && declared s 5 0 PL_LOS
  | 6 => code ≠ RF_LOS && declared s 6 idx RF_LOS
  | _ => false

/-- The port of first lane p is configured: ENABLE set and formed (R254). -/
def portOn (s : State) (p : Nat) : Bool := firstLane s p && regBit s (aPORT p) 31

/-- The object is in service: its defects are evaluated (R194). -/
def inService (s : State) (cls idx : Nat) : Bool :=
  match cls with
  | 1 => (tree s idx).st = .lit || (tree s idx).st = .serving
  | 2 => (term s idx).st = .active || (term s idx).st = .popup
  | 3 => (flowOf s idx).any (·.trib) && !(trib s idx).held
  | 4 => portOn s idx
  | 5 => pairMode s = 2
  | _ => true

/-- A standby with contact tells the SAILS_ON unit a state of its tree defects (Table 11.2, DEFECT). -/
def tellDefect (cls n code : Nat) (on : Bool) (s : State) : State :=
  if cls = 1 && isStandby s && s.pair.contact then sendRecs [{ stroke := strokeAt s s.now, body := .defect n code on }] s else s

/-- Estimator windows of the objects a filter names empty. -/
def estEmpty (f : Nat → Bool) (s : State) : State :=
  { s with defects := { s.defects with est := s.defects.est.filter (fun e => !f e.1) } }

/-- Set integrations of a terminal's defects start afresh. -/
def termAfresh (t : Term) : Term := { t with losRun := 0, lobRun := 0, lobSd := false, rdiRun := 0 }

/-- Set integrations of a tributary's defects start afresh: TB_LOF's too where its terminal or tree masked it. -/
def tribAfresh (lof : Bool) (t : Trib) : Trib :=
  { t with aisRun := 0, rdiRun := 0, slmRun := 0, oofSince := if lof then none else t.oofSince, oofDecisions := if lof then 0 else t.oofDecisions }

/-- Upstream tributaries whose terminal satisfies f start afresh. -/
def tribsAfresh (f : Nat → Bool) (s : State) : State :=
  { s with tribs := mmap {} (fun i t => if (flowOf s i).any (fun x => x.up && f (128 * x.tree + x.term)) then tribAfresh true t else t) s.tribs }

/-- A mask has lifted: the set integration of what it masked starts afresh (R195, R200). -/
def estLift (cls idx code : Nat) (s : State) : State :=
  if cls = 1 ∧ code = TR_LOS then
    let s := { s with terms := mmap {} (fun g t => if g / 128 = idx then termAfresh t else t) s.terms }
    tribsAfresh (fun g => g / 128 = idx) (updTree idx (fun t => { t with lofRun := 0 })
      (estEmpty (fun k => k = 0x10000 + idx || (k / 0x10000 = 2 && k % 0x10000 / 128 = idx)) s))
  else if cls = 2 ∧ code = TM_LOS then
    tribsAfresh (· = idx) (updTerm idx (fun t => { t with lobRun := 0, lobSd := false, rdiRun := 0 }) (estEmpty (fun k => k = cls * 0x10000 + idx) s))
  else if cls = 3 ∧ code = TB_LOF then setTrib idx (tribAfresh false (trib s idx)) s
  else if cls = 3 ∧ code = TB_AIS then setTrib idx { trib s idx with rdiRun := 0, slmRun := 0 } s
  else if cls = 4 ∧ (code = UL_LOS ∨ code = UL_LOF) then estEmpty (fun k => k = cls * 0x10000 + idx) s
  else s

/-- Clear with a cause (R196): 0 by the clear rule, 1 masked, 2 object left service. -/
def defClear (cls idx code cause : Nat) (s : State) : State :=
  if declared s cls idx code then
    let s := { s with defects := { s.defects with on := mput false s.defects.on (defKey cls idx code) false } }
    tellDefect cls idx code false (defEvent false cls idx code cause (estLift cls idx code s))
  else s

/-- Every declared defect that has become masked is cleared with cause 1 (R195). -/
def sweepMasked (s : State) : State :=
  s.defects.on.foldl (fun s e =>
    let code := e.1 % 0x100
    let idx := e.1 / 0x100 % 0x10000
    let cls := e.1 / 0x1000000
    if masked s cls idx code then defClear cls idx code 1 s else s) s

/-- A defect of the object may be declared now: it is in service, and the defect is neither declared nor masked (R194, R195). -/
def declarable (s : State) (cls idx code : Nat) : Bool := inService s cls idx && !declared s cls idx code && !masked s cls idx code

/-- Declaration (R194, R196, R197): state, history bit, event; then the defects it masks are cleared. -/
def defSet (cls idx code : Nat) (s : State) : State :=
  if !declarable s cls idx code then s
  else
    let k := defKey cls idx code
    let s := { s with defects := { s.defects with on := mput false s.defects.on k true, hist := mput false s.defects.hist k true } }
    sweepMasked (tellDefect cls idx code true (defEvent true cls idx code 0 s))

/-- Every declared defect of an object cleared with cause 2: it leaves service (R194). -/
def defLeave (cls idx : Nat) (s : State) : State := (classCodes cls).foldl (fun s c => defClear cls idx c 2 s) s

/-- Every declared defect whose object has left service cleared with cause 2 (R194). -/
def sweepLeft (s : State) : State :=
  s.defects.on.foldl (fun s e =>
    let idx := e.1 / 0x100 % 0x10000
    let cls := e.1 / 0x1000000
    if inService s cls idx then s else defClear cls idx (e.1 % 0x100) 2 s) s

/-! ### Ports -/

/-- UP of PORT_STATUS (Table 8.10): aligned, no fault received, every defect clear. -/
def portUp (s : State) (p : Nat) : Bool :=
  let u := uport s p
  portOn s p && u.aligned && !u.rfRx && !u.lfRx && (classCodes 4).all (fun c => !declared s 4 p c)

/-- A trigger of R214 is declared on the port: UL_LOS, UL_LOF, UL_RDI, and UL_SD where UTRIG enables it. -/
def portTrig (s : State) (p : Nat) : Bool :=
  declared s 4 p UL_LOS || declared s 4 p UL_LOF || declared s 4 p UL_RDI || ((uport s p).utrig && declared s 4 p UL_SD)

/-- The spare q serves some rehashed port (R215). -/
def spareUsed (s : State) (q : Nat) : Bool := (List.range 32).any (fun p => (uport s p).rehashed && (uport s p).spare = some q)

/-! ### Protection status (R204, Table 6.4) -/

/-- TR_LOS, TR_LOF or TR_SF in a list (R204, R207). -/
def hardIn (l : List Nat) : Bool := l.any (fun c => c = TR_LOS || c = TR_LOF || c = TR_SF)

/-- Ports named by an upstream through-flow of the engaged plate. -/
def throughPorts (s : State) : List Nat :=
  ((engaged s).map (fun p => ((p.flows.filter (fun f => f.up)).map (·.port)).eraseDups)).getD []

/-- Some mill lane is retired. -/
def anyRetired (s : State) : Bool := (List.range 24).any (fun k => (lane s k).retired)

/-- Tree n has TR_LOS, TR_LOF or TR_SF declared on the FEATHERED unit: on this one, or on the partner as its DEFECT records say. -/
def featheredHard (s : State) (n : Nat) : Bool :=
  if s.pair.sails then hardIn (tree s n).partnerDefects else [TR_LOS, TR_LOF, TR_SF].any (fun c => declared s 1 n c)

/-- Plate, lanes and ports of this unit as Table 6.4 asks of the SAILS_ON unit: a plate is engaged (R56). -/
def soundHere (s : State) : Bool :=
  (engaged s).isSome && !s.plates.eccRepeat && !anyRetired s
    && (throughPorts s).all (fun p => match (uport s p).spare with
        | some q => portUp s q && !spareUsed s q
        | none => false)

/-- The conditions of PROTECTED, judged on the SAILS_ON unit's. No record carries the partner's tree states, plate, lanes and ports: free values of the
moment (log 90). -/
def isProtected (s : State) : Bool :=
  s.pair.st = .inStep && !isFenced s && !declared s 5 0 PL_LOS && s.pair.sbGood
    && (if s.pair.sails then soundHere s else Config.partnerHas s.now 64)
    && (List.range 64).all (fun n =>
      let serves := decide ((tree s n).st = .serving)
      let (on, off) := if s.pair.sails then (serves, Config.partnerHas s.now n) else (Config.partnerHas s.now n, serves)
      !on || (off && !featheredHard s n))

/-- DEGRADED on the SAILS_ON unit: on this one, or on the partner of a standby with contact, which no record tells (log 90). -/
def pairDegraded (s : State) : Bool :=
  if s.pair.sails then s.pair.degraded else isStandby s && s.pair.contact && Config.partnerHas s.now 65

/-- Protection status code, of the pair: 0 PROTECTED, 1 UNPROTECTED, 2 DEGRADED. -/
def protNow (s : State) : Nat := if pairDegraded s then 2 else if isProtected s then 0 else 1

/-- The status reported, judged at a stroke boundary, with the event PROT_STATUS at a change (R204). -/
def protStroke (s : State) : State :=
  let p := protNow s
  if p = s.defects.prot then s
  else event 0x0502 0 0 (beBytes 1 s.defects.prot ++ beBytes 1 p) { s with defects := { s.defects with prot := p } }

/-! ### Feeder handover (R205 to R210, R216) -/

/-- The trigger codes of a tree of the settings (Table 6.5): TR_LOS always, the rest by XTRIG. -/
def trigCodes (t : Tree) : List Nat :=
  [TR_LOS] ++ (if t.xtrig.getLsbD 0 then [TR_LOF] else []) ++ (if t.xtrig.getLsbD 1 then [TR_SF] else [])
    ++ (if t.xtrig.getLsbD 2 then [TR_SD] else [])

/-- Defect code c, where `on` are the declared defects, triggers by the settings of a tree: TR_SD and TR_SF only on a tree without a hard defect
(R203, Table 6.5). -/
def trigBy (t : Tree) (on : Nat → Bool) (c : Nat) : Bool :=
  on c && (trigCodes t).contains c && !((c = TR_SD || c = TR_SF) && (on TR_LOS || on TR_LOF))

/-- A trigger defect is declared on tree n of this unit. -/
def treeTrig (s : State) (n : Nat) : Bool := (classCodes 1).any (trigBy (tree s n) (declared s 1 n))

/-- A trigger defect is declared on the tree of the partner. -/
def partnerTrig (t : Tree) : Bool := (classCodes 1).any (trigBy t (t.partnerDefects.contains ·))

/-- X of R209: the first stroke boundary at least 1,244 mc after t at which X mod 155,520 ≤ 93,312, in pair time. -/
def handoverX (s : State) (t : Nat) : Nat :=
  let x := strokeAt s (t + 1244)
  let m := (x - s.imprAt) % Config.FRAME
  if m ≤ 93312 then x else x + (Config.FRAME - m)

/-- The fifth condition of R207: no handover in the last 10 impressions. -/
def handoverFree (s : State) : Bool :=
  match s.pair.lastHandover with
  | none => true
  | some i => i + 10 ≤ s.imprCount

/-- One bit of the lease frame's CRC-8, x^8 + x^2 + x + 1 (Table 11.4). -/
def crc8Bit (c : BitVec 8) (b : Bool) : BitVec 8 := if xor (c.getLsbD 7) b then (c <<< (1 : Nat)) ^^^ 0x07 else c <<< (1 : Nat)

/-- CRC-8 of 48 bits, most significant first, from 0. -/
def crc8 (v : BitVec 48) : BitVec 8 := (List.range 48).foldl (fun c i => crc8Bit c (v.getLsbD (47 - i))) 0

/-- TYPE of a lease message (Table 11.4). -/
def leaseType : LeaseKind → BitVec 4
  | .idle => 0 | .renew => 1 | .grant => 2 | .release => 3 | .fenced => 4 | .leave => 5

/-- The 64-bit lease frame (Table 11.4): SYNC, TYPE, NUM, EPOCH 7:0, IMPR 7:0, MC, CRC. -/
def leaseFrame (t : BitVec 4) (num : Nat) (epoch : BitVec 32) (impr : BitVec 8) (mc : BitVec 24) : BitVec 64 :=
  let body : BitVec 48 := t ++ BitVec.ofNat 4 num ++ epoch.setWidth 8 ++ impr ++ mc
  (0x5A : BitVec 8) ++ body ++ crc8 body

/-- Impression number and mill cycle of counter value e on this unit's grid. -/
def imprOf (s : State) (e : Nat) : BitVec 32 × Nat :=
  let d : Int := (e : Int) - s.imprAt
  (s.imprNum + BitVec.ofInt 32 (d / Config.IMPRESSION), (d % Config.IMPRESSION).toNat)

/-- The frame of a lease message: a release without X names none; the rest without a time have 0 (log 100). -/
def leaseWordOf (k : LeaseKind) (num e : Nat) (s : State) : BitVec 64 :=
  let x := imprOf s e
  if e = 0 then leaseFrame (leaseType k) num s.pair.epoch 0 (if k = .release then 0xFFFFFF else 0)
  else leaseFrame (leaseType k) num s.pair.epoch (x.1.setWidth 8) (BitVec.ofNat 24 x.2)

/-- A frame on LEASE_TX lasts 8,192 mc (R337). -/
def leaseLen : Nat := 8192

/-- Counter value at which a message that becomes due now begins on LEASE_TX: frames run back to back, IDLE frames after the last one; RELEASE, FENCED
and LEAVE pre-empt an IDLE frame in progress, the others wait for its end (R337). -/
def leaseStart (k : LeaseKind) (s : State) : Nat :=
  let b := ((s.pair.leaseOut.getLast?).map (fun x => x.1 + leaseLen)).getD 0
  if s.now ≤ b then b
  else if k = .release ∨ k = .fenced ∨ k = .leave then s.now
  else b + ceilDiv (s.now - b) leaseLen * leaseLen

/-- The frame on LEASE_TX at present: a message's, or IDLE; low in reset (R337). -/
def leaseNow (s : State) : BitVec 64 :=
  if s.power.phase = .porst then 0
  else match s.pair.leaseOut.find? (fun x => x.1 ≤ s.now && s.now < x.1 + leaseLen) with
    | some x => x.2
    | none => leaseFrame (leaseType .idle) 0 s.pair.epoch 0 0

/-- A lease message sent on both paths: LEASE_TX, whose last frames are kept, and the state stream (R337). `e` is E of a renewal or grant, X of a
release, 0 for none. -/
def leaseSend (k : LeaseKind) (num e : Nat) (s : State) : State :=
  let l := s.pair.leaseOut
  let s := { s with pair := { s.pair with leaseTx := some (k, s.pair.epoch), leaseWord := leaseWordOf k num e s,
                                          leaseOut := l.drop (l.length - 3) ++ [(leaseStart k s, leaseWordOf k num e s)] } }
  if s.pair.contact then sendRecs [{ stroke := strokeAt s s.now, body := .lease k num s.pair.epoch e }] s else s

/-- DELIVERED for every flow (R343). -/
def pushDelivered (s : State) : State :=
  if s.pair.contact then
    sendRecs (s.mill.deliveredPts.map (fun e => { stroke := strokeAt s s.now, body := .delivered (BitVec.ofNat 16 e.1) (e.2.getD 0) })) s
  else s

/-- A frame's sequence point is delivered (R41); between a release and its X the report goes on with every frame (log 96). -/
def delivers (f : Nat) (q : BitVec 32) (s : State) : State :=
  let s := { s with mill := { s.mill with deliveredPts := mput none s.mill.deliveredPts f (some q) } }
  if s.pair.sails && s.pair.contact && s.pair.handover.isSome then
    sendRecs [{ stroke := strokeAt s s.now, body := .delivered (BitVec.ofNat 16 f) q }] s
  else s

/-- The PAIR_SWITCH commands whose replies wait for X, oldest first. -/
def switchWaits (s : State) : List Pkt := (s.cmd.waiting.filter (fun w => w.pkt.opcode = 0x602)).map Waiting.pkt

/-- No PAIR_SWITCH waits any longer. -/
def switchTake (s : State) : State :=
  { s with cmd := { s.cmd with waiting := s.cmd.waiting.filter (fun w => w.pkt.opcode ≠ 0x602) } }

/-- A pending PAIR_SWITCH or feeder handover ends without its X; an unsent PAIR_SWITCH reply returns BUSY (R393). -/
def dropHandover (s : State) : State :=
  let ks := switchWaits s
  ks.foldl (fun s k => finish k true 0x0A [] s) (switchTake { s with pair := { s.pair with handover := none } })

/-- A release with X reckoned from counter value t, of a trigger's declaration or an accepted PAIR_SWITCH: DELIVERED for every flow, then RELEASE; the
unit feathers at X (R209, R343). -/
def releaseAt (form cause tr t : Nat) (s : State) : State :=
  let x := handoverX s t
  leaseSend .release 0 x (pushDelivered { s with pair := { s.pair with handover := some (x, form, cause, tr), orderedAt := strokeAt s t } })

/-- The third condition of R207: the partner had no hard defect of the tree when this unit last saw SD asserted in a granted burst; TR_LOS of both
units in one stroke fails it too (Table 6.7). -/
def partnerGood (t : Tree) (st c : Nat) : Bool := !hardIn t.partnerAtSd && !(c = TR_LOS && st ≠ 0 && t.partnerLosAt = st)

/-- A trigger on tree n with code c (0xFF: internal, R216), declared at counter value d, judged under R207 and R210: a feeder handover is ordered,
refused (HANDOVER_REFUSED, once while it stands), held (HANDOVER_HELD) or does not arise. A PAIR_SWITCH of the same stroke gives way to it
(Table 11.8). -/
def feederTrigger (n c d : Nat) (s : State) : State :=
  let t := tree s n
  let only := (List.range 64).any (fun m => (tree s m).protTypeB && partnerTrig (tree s m) && !treeTrig s m)
  let pend := s.pair.handover.any (fun y => !(y.2.1 = 5 && s.pair.orderedAt = strokeAt s d))
  if !(t.protTypeB && s.pair.sails && s.pair.st = .inStep && !declared s 5 0 PL_LOS) || t.triggered || pend
      || !partnerGood t (strokeAt s d) c then s
  else if only then
    if s.pair.refused.contains (n, c) then s
    else event 0x0213 1 n [0] { s with pair := { s.pair with refused := if c = 0xFF then s.pair.refused else s.pair.refused ++ [(n, c)] } }
  else if !handoverFree s then
    if s.pair.heldTriggers.contains (n, c) then s
    else event 0x0214 1 n [] { s with pair := { s.pair with heldTriggers := s.pair.heldTriggers ++ [(n, c)] } }
  else releaseAt 6 c n d (dropHandover s)

/-- A trigger awaits its judgement at the next stroke boundary, where R207 judges every tree of the stroke at once (Table 6.7). -/
def askTrigger (n c : Nat) (s : State) : State := { s with pair := { s.pair with trigs := s.pair.trigs ++ [(n, c, s.now)] } }

/-- The trigger stands: an internal fault, or a trigger defect still declared. -/
def trigStands (s : State) (n c : Nat) : Bool := c = 0xFF || trigBy (tree s n) (declared s 1 n) c

/-- The trigger defects that stand declared on TYPE_B trees of a SAILS_ON unit IN_STEP, but for those held; X is reckoned from now, since a condition
of R207 failed before (log 91). -/
def standing (s : State) : List (Nat × Nat × Nat) :=
  if s.pair.sails && decide (s.pair.st = .inStep) then
    (List.range 64).flatMap (fun n =>
      ((classCodes 1).filter (fun c => (tree s n).protTypeB && trigBy (tree s n) (declared s 1 n) c && !s.pair.heldTriggers.contains (n, c))).map
        (fun c => (n, c, s.now)))
  else []

/-- The triggers of the stroke are judged: those declared in it, then every other that stands, since R207 asks only that its conditions hold. -/
def judgeTriggers (s : State) : State :=
  let q := s.pair.trigs
  (q ++ (standing s).filter (fun x => q.all (fun y => (y.1, y.2.1) ≠ (x.1, x.2.1)))).foldl
    (fun s x => if trigStands s x.1 x.2.1 then feederTrigger x.1 x.2.1 x.2.2 s else s)
    { s with pair := { s.pair with trigs := [], refused := s.pair.refused.filter (fun x => trigStands s x.1 x.2) } }

/-- Declaration of a tree defect, with the trigger it may be (R207). -/
def treeDefect (n code : Nat) (s : State) : State :=
  if !declarable s 1 n code then s
  else
    let s := if code = TR_LOS then updTree n (fun t => { t with losBounds := 0 }) s else s
    let s := defSet 1 n code s
    if trigBy (tree s n) (declared s 1 n) code then askTrigger n code s else s

/-! ### The degrade estimator (R201, R202) -/

/-- Estimator key of an object. -/
def estKey (cls idx : Nat) : Nat := cls * 0x10000 + idx

/-- u uncorrectable of n decoded codewords of an object: what its counters CW_UNCORR and CW_DECODED, or its port's, have advanced by (R201). -/
def estAdd (cls idx u n : Nat) (s : State) : State :=
  { s with defects := { s.defects with est := mupd {} s.defects.est (estKey cls idx) (fun x => { x with u := x.u + u, n := x.n + n }) } }

/-- Data bits of a codeword: 14,592 for a tree or terminal, 5,140 for an uplink (R202). -/
def cwBits (cls : Nat) : Nat := if cls = 4 then 5140 else 14592

/-- Window of n slots over the counts kept, newest first: U and N, or none while not filled. -/
def estWindow (l : List (Nat × Nat)) (n : Nat) : Option (Nat × Nat) :=
  match l.head?, l[n]? with
  | some a, some b => some (a.1 - b.1, a.2 - b.2)
  | _, _ => none

/-- A window long enough to judge threshold 10^−e: at least 10 / TH data bits (R202). -/
def estJudges (cls n e : Nat) : Bool := 10 * 10 ^ e ≤ n * cwBits cls

/-- SD or SF (`code`, exponent e) of one object at a slot boundary (R202). -/
def estOne (cls idx code e : Nat) (cfg : EstCfg) (l : List (Nat × Nat)) (s : State) : State :=
  if declared s cls idx code then
    match estWindow l cfg.clrT with
    | some (u, n) =>
      -- estimate u/(10 n) ≤ 10^−e / 10
      if estJudges cls n e && u * 10 ^ e ≤ n then defClear cls idx code 0 s else s
    | none => s
  else
    match estWindow l cfg.setT with
    | some (u, n) =>
      if estJudges cls n e && 10 * n < u * 10 ^ e then (if cls = 1 then treeDefect idx code s else defSet cls idx code s) else s
    | none => s

/-- An estimator slot boundary of one object in service: its counts are kept and SD and SF judged (R201). -/
def estSlot (cls idx sd sf : Nat) (cfg : EstCfg) (s : State) : State :=
  let e := mget {} s.defects.est (estKey cls idx)
  let l := ((e.u, e.n) :: e.slots).take 601
  let s := { s with defects := { s.defects with est := mput {} s.defects.est (estKey cls idx) { e with slots := l } } }
  let s := estOne cls idx sd cfg.sdExp cfg l s
  if cls = 4 then s else estOne cls idx sf cfg.sfExp cfg l s

/-- An estimator object leaves service or restarts: its windows empty (R197, R202). -/
def estDrop (cls idx : Nat) (s : State) : State :=
  { s with defects := { s.defects with est := mput {} s.defects.est (estKey cls idx) {} } }

end Sys2Proof.Machine
end

