-- ==== Sys2Proof/Machine/Wire.lean ====
section
/-! DEFINITION. Ethernet frames on the wire: FCS, VLAN tags, R-TAG, EtherType; CRC-16 of tributary frames (R164, R167, R260, R262, R265, R269). -/

namespace Sys2Proof.Machine

/-- One bit step, n times, of the reflected CRC-32 of IEEE 802.3. -/
def fcsBits : Nat → BitVec 32 → BitVec 32
  | 0, c => c
  | n + 1, c => fcsBits n (if c.getLsbD 0 then (c >>> 1) ^^^ 0xEDB88320 else c >>> 1)

/-- The four FCS bytes of a frame's other bytes, as sent. -/
def fcsOf (l : List Byte) : List Byte :=
  (beBytes 4 (~~~ l.foldl (fun c b => fcsBits 8 (c ^^^ b.setWidth 32)) 0xFFFFFFFF).toNat).reverse

/-- A frame with the FCS of the content before it. -/
def withFcs (l : List Byte) : List Byte := l ++ fcsOf l

/-- The bytes before the FCS. -/
def body (l : List Byte) : List Byte := l.take (l.length - 4)

/-- Bytes of VLAN tags after the addresses: first TPID 0x88A8 or 0x8100, second 0x8100 (R262). -/
def tagsLen (l : List Byte) : Nat :=
  if natAt l 12 2 = 0x88A8 ∨ natAt l 12 2 = 0x8100 then (if natAt l 16 2 = 0x8100 then 8 else 4) else 0

/-- VID of the first and second tag, 0 where absent (R262). -/
def vidO (l : List Byte) : Nat := if tagsLen l = 0 then 0 else natAt l 14 2 % 4096
def vidI (l : List Byte) : Nat := if tagsLen l = 8 then natAt l 18 2 % 4096 else 0

/-- Sequence number of the R-TAG that follows the VLAN tags (R265). -/
def rtagOf (l : List Byte) : Option (BitVec 16) :=
  let o := 12 + tagsLen l
  if natAt l o 2 = 0xF1C1 then some (BitVec.ofNat 16 (natAt l (o + 4) 2)) else none

/-- The EtherType after up to two VLAN tags and any R-TAG, and where it stands (R260). -/
def etherAt (l : List Byte) : Nat := 12 + tagsLen l + (if (rtagOf l).isSome then 6 else 0)
def etherType (l : List Byte) : Nat := natAt l (etherAt l) 2

/-- The frame without its R-TAG, its FCS recomputed (R265). -/
def dropRtag (l : List Byte) : List Byte :=
  if (rtagOf l).isSome then
    let o := 12 + tagsLen l
    withFcs (l.take o ++ (body l).drop (o + 6))
  else l

/-- The frame with an R-TAG after its VLAN tags, its FCS recomputed (R269). -/
def addRtag (l : List Byte) (q : BitVec 16) : List Byte :=
  let o := 12 + tagsLen l
  withFcs (l.take o ++ beBytes 2 0xF1C1 ++ rsv 2 ++ beBytes 2 q.toNat ++ (body l).drop o)

/-- One bit step, n times, of x^16 + x^12 + x^5 + 1, most significant bit first (R167). -/
def crc16Bits : Nat → BitVec 16 → BitVec 16
  | 0, c => c
  | n + 1, c => crc16Bits n (if c.getLsbD 15 then (c <<< 1) ^^^ 0x1021 else c <<< 1)

/-- CRC-16 of R167. -/
def crc16 (l : List Byte) : BitVec 16 := l.foldl (fun (c : BitVec 16) (b : Byte) => crc16Bits 8 (c ^^^ (b.setWidth 16 <<< (8 : Nat)))) 0xFFFF

end Sys2Proof.Machine
end

