-- ==== Sys2Proof/Machine/PairCore.lean ====
section
/-! DEFINITION. Sails and the lease: feathering, raising, releasing, fencing (R209, R217, R329, R339, R340, R343 to R346, R380). -/

namespace Sys2Proof.Machine

/-- Frames held in the mill: weirs, lane hoppers, flow buffers, millpond and flumes. -/
def millFrames (s : State) : Nat :=
  let m := s.mill
  (m.lanes.map (fun e => e.2.weir.length + e.2.hopper.length)).sum + (m.through.map (fun e => e.2.length)).sum
    + (m.tail.map (fun e => e.2.length)).sum + (m.pond.map (fun e => e.2.length)).sum + (m.flumes.map (fun e => e.2.length)).sum

/-- Frames of a tree's bursts received in part: bursts begun and not yet through the decoder, and partial frames. -/
def treeFrames (now : Nat) (t : Tree) : Nat :=
  t.frags.length + t.grants.countP (fun g => g.start < now && decide (now < g.start + g.len + Config.BANK_DRAIN))

/-- Frames and bursts received that are not in the mill: a standby's copies, what trees have received in part, occurrences still open. -/
def recvFrames (s : State) : Nat :=
  s.pair.copies.length + (s.trees.map (fun e => treeFrames s.now e.2)).sum + (s.tribs.map (fun e => e.2.occ.length)).sum

/-- They are discarded. -/
def loseReceived (s : State) : State :=
  { s with pair := { s.pair with copies := [] },
           trees := mmap {} (fun _ (t : Tree) => { t with frags := [], grants := t.grants.filter (fun g => decide (s.now ≤ g.start)) }) s.trees,
           tribs := mmap {} (fun _ (t : Trib) => { t with occ := [] }) s.tribs }

/-- Every frame of the mill lost: empty queues have no deficit and no open visit (R244), and every number given out counts as committed, so that the
lanes go on (R38). -/
def loseFrames (s : State) : State :=
  { s with mill := { s.mill with
      through := [], tail := [], pond := [], used := [], flumes := [],
      nodes := mmap {} (fun _ (x : NodeSt) => { x with deficit := 0, isOpen := false }) s.mill.nodes,
      lanes := mmap {} (fun _ l =>
        { l with weir := [], hopper := [], parts := [], fillWords := 0, drawWords := 0, drawing := (0, 0), committed := l.nextSeq - 1,
                 failed := none, replayTo := none }) s.mill.lanes } }

/-- Every burst and frame received so far discarded, chaff included, and the millpond emptied, counted in SWITCH_FLUSH (R344). -/
def flushMill (s : State) : State := loseReceived (loseFrames (bump (cPair 0x150) (millFrames s + recvFrames s) s))

/-- Replies that wait for the standby's acknowledgement go out: it has come (R24, R335), or the unit is IN_STEP and SAILS_ON no longer (R24). -/
def freeReplies (s : State) : State :=
  s.cmd.ackWait.foldl (fun s r => postReply r s) { s with cmd := { s.cmd with ackWait := [] } }

/-- LAST_CAUSE and the event SWITCHOVER (R353, Table 11.13). -/
def switchEvent (form cause tr : Nat) (s : State) : State :=
  let s := { s with pair := { s.pair with causeForm := form, causeCode := cause, causeTree := tr } }
  event 0x0809 5 0 (beBytes 1 form ++ beBytes 1 cause ++ beBytes 2 tr ++ beBytes 8 (s.now % 2 ^ 64)) (bump (cPair 0x100) 1 s)

/-- What is on the wire of a frame cut with n bytes to come: the bytes sent, then an FCS that is not theirs; the spec gives no other bytes (log 115). -/
def cutBytes (n : Nat) (l : List Byte) : List Byte :=
  let b := l.take (l.length - max n 4)
  b ++ (fcsOf b).map (~~~ ·)

/-- Frames in progress on the uplinks end with an invalid FCS at a feathering and count neither as delivered (R344) nor as sent. -/
def cutFrames (s : State) : State :=
  (List.range 32).foldl (fun s p =>
    let u := uport s p
    match u.txOf with
    | some (f, q) =>
      let s := unbump (cPort p 0x70) 1 (unbump (cPort p 0x78) u.txFrame.length s)
      updPort p (fun u => { u with txLeft := 0, txOf := none, txFrame := cutBytes u.txLeft u.txFrame }) { s with mill := { s.mill with
        deliveredPts := mput none s.mill.deliveredPts f q } }
    | none => s) s

/-- The unit feathers: its transmitters are squelched and its uplinks stop emission other than ESMC and PTP (R34, R339);
its frames in progress end (R344). -/
def feather (s : State) : State :=
  let s := cutFrames s
  freeReplies { s with pair := { s.pair with sails := false, sailVerdict := false, renewing := false, degraded := false } }

/-- A SAILS_ON unit of a pair releases its lease at once, without X (R217): DELIVERED for every flow, RELEASE, feathered; what its mill holds is lost
(R42) at the next stroke boundary (R22); the pair becomes SOLO and the partner takes the sails (Table 11.1). A SOLO unit only feathers. -/
def releaseLease (cause : Nat) (s : State) : State :=
  let s := dropHandover s
  if s.pair.st = .solo then feather s
  else
    let s := leaseSend .release 0 0 (pushDelivered (cutFrames s))
    let s := post .fenced (feather s)
    switchEvent 1 cause 0 { s with
      pair := { s.pair with st := .solo, tier := 0, granted := false, expiry := 0, partnerSails := s.pair.contact, released := true } }

/-- A standby sends LEAVE: the pair becomes SOLO and the unit is detached (Table 11.1). -/
def leavePair (s : State) : State :=
  let s := leaseSend .leave 0 0 s
  { s with pair := { s.pair with st := .solo, detached := true, tier := 0, granted := false, lag := [] } }

/-- What a unit does before a cause stops it (R339): a SAILS_ON unit releases its lease, a standby sends LEAVE. -/
def stopUnit (cause : Nat) (s : State) : State :=
  if s.pair.sails then releaseLease cause s else if isStandby s then leavePair s else s

/-- The unit fences (R339, R380, R462, R465): `cause` of the event FENCED, `rel` of the release. -/
def fenceEvent (cause : Nat) (s : State) : State := event 0x080A 5 0 (beBytes 1 cause) (bump (cPair 0x108) 1 s)

/-- Transmitters give valid output 62,208 mc from now (R209, R380). -/
def txFrom (s : State) : State := { s with trees := mmap {} (fun _ t => { t with txValid := s.now + 62208 }) s.trees }

/-- Raising sails (R340, R346): the next epoch, no lease held; the DPLL takes its own selection at the next tick (R290). -/
def raiseSails (s : State) : State :=
  txFrom { s with
    pair := { s.pair with sails := true, epoch := s.pair.epoch + 1, granted := false, expiry := 0, detached := false,
                          fencedLease := false, lostTold := false, renewing := false, handover := none, partnerSails := false,
                          released := false } }

/-- A frame at or below the last point delivered of its flow (R41). -/
def wasDelivered (s : State) (x : Frame) : Bool :=
  (mget none s.mill.deliveredPts x.flow).any (fun q => seqLe x.point q)

/-- Cells of a frame in a weir or the millpond (R228, R232). -/
def cellsOf (len : Nat) : Nat := ceilDiv (len + 16) 256

/-- A section of a state copy is complete and verified: its last four bytes are the CRC-32C of the rest (R348). -/
def sectionDone (l : List Byte) : Bool :=
  decide (4 < l.length) && crc32c (l.take (l.length - 4)) = BitVec.ofNat 32 (natAt l (l.length - 4) 4)


/-- A gap marker over one identifier of each transmit time-stamp hopper covers the switch (Table 1.6 OP-5, R47; log 75). -/
def tsGap (s : State) : State :=
  (List.range 8).foldl (fun s g =>
    let h := tsHop s g
    setHop (0x10 + g) { h with items := sealLast h.items ++ [.marker h.wr h.wr s.now false], wr := h.wr + 1,
                               hwm := max h.hwm (h.items.length + 1) } s) s

/-- Mirrored timed commands wait at a switchover: SWITCH_CMD with the highest number that has taken effect here (R393). -/
def switchCmd (s : State) : State :=
  if s.cmd.timed = [] then s else event 0x0003 0 0 (beBytes 4 s.cmd.devEff.toNat) s

/-- DEFECT records of every tree defect declared (Table 11.2). -/
def treeDefects (s : State) : List StreamRec :=
  (List.range 64).flatMap (fun n => ((classCodes 1).filter (declared s 1 n)).map (fun c => { stroke := strokeAt s s.now, body := .defect n c true }))

/-- The old unit at X of a PAIR_SWITCH or feeder handover, whose release went out with X: it feathers, stays in contact and becomes the standby (R345). -/
def giveSails (form cause tr : Nat) (s : State) : State :=
  let s := feather (pushDelivered (cutFrames s))
  let ks := switchWaits s
  let s := switchTake s
  let s := { s with
    trees := mmap {} (fun _ (t : Tree) => { t with triggered := false }) s.trees,
    pair := { s.pair with handover := none, granted := false, expiry := 0, partnerSails := true, renewAt := s.now, lostTold := false, copies := [],
                          refused := [], heldTriggers := [], lastHandover := if form = 6 then some s.imprCount else s.pair.lastHandover } }
  let s := switchEvent form cause tr s
  let s := if s.pair.contact then sendRecs (treeDefects s) s else s
  ks.foldl (fun s k => finish k true 0 (beBytes 8 (s.now % 2 ^ 64)) (markEff k.dseq s)) s

/-- A port as it starts and as it is left: its PROT_CFG settings only. -/
def portFresh (u : UPort) : UPort := { ({} : UPort) with spare := u.spare, utrig := u.utrig, protNext := u.protNext }

/-- The port's waiting in-band reply goes with it, and its credit is free again (R365). -/
def dropReply (p : Nat) (s : State) : State :=
  if ((uport s p).devReply).any (fun x => x.1.credit) then freeCredit .inband s else s

/-- The port leaves service (R194): its defects clear, its windows empty, a pause and a rehash end. -/
def portLeaves (p : Nat) (s : State) : State := updPort p portFresh (estDrop 4 p (defLeave 4 p (dropReply p s)))

/-- The port comes into service. -/
def portStarts (p : Nat) (s : State) : State := updPort p (fun u => { portFresh u with clearAt := s.now }) (dropReply p s)

/-- Ports that are formed no longer, or anew, after a change of MODE or ENABLE: they leave service and come into it. -/
def portsFollow (was : List Nat) (s : State) : State :=
  (List.range 32).foldl (fun s p =>
    if was.contains p && !portOn s p then portLeaves p s else if !was.contains p && portOn s p then portStarts p s else s) s

/-- First lanes of the ports in service. -/
def portsOn (s : State) : List Nat := (List.range 32).filter (portOn s)

/-- Register a belongs to the port or tree entries of a copy: QUAD_CFG and the port registers, TREE_CTL and the tree's other settings. -/
def copyReg (a : Nat) : Bool :=
  (0x400000 ≤ a && a < 0x480000 && a % 0x10000 < 0x90) || (0x800000 ≤ a && a < 0xC00000 && a % 0x10000 < 0x100 && a % 0x10000 ≠ 8)

/-- A bank emptied, its outcome kept for PLATE_INFO; a proof of the MRAM copy that ran in it is given up (R57). -/
def emptyBank (b : Bool) (s : State) : State :=
  let x := bank s b
  let s := if s.plates.restore = some b then { s with plates := { s.plates with restore := none } } else s
  setBank b { refusal := x.refusal, refSection := x.refSection, refRecord := x.refRecord } s

/-- Protection settings of a tree taken from another. -/
def treeProt (t x : Tree) : Tree :=
  { t with protTypeB := x.protTypeB, home := x.home, skew := x.skew, skewCfg := x.skewCfg, skewLocked := x.skewLocked, losBursts := x.losBursts, xtrig := x.xtrig,
           protNext := none }

/-- What a section covers, emptied (R349). -/
def emptySec (s : State) (k : Nat) : State :=
  match k with
  | 1 => { s with
      trees := mmap {} (fun _ (t : Tree) => treeProt t {}) s.trees,
      ports := mmap {} (fun _ (u : UPort) => { u with spare := none, utrig := false, protNext := none }) s.ports,
      time := { s.time with domA := {}, domB := {}, sel := false, k := 0, kAt := 0 } }
  | 2 =>
    let s := s.terms.foldl (fun s e => estDrop 2 e.1 (defLeave 2 e.1 s)) s
    { s with terms := [], trees := mmap {} (fun _ (t : Tree) => { t with popupQ := [], bandQ := [] }) s.trees }
  | 3 => { s with keys := [] }
  | 4 => let s := emptyBank true (emptyBank false s); sweepLeft { s with plates := { s.plates with turn := none } }
  | 5 => sweepLeft (portsFollow (portsOn s) { s with
      regs := s.regs.filter (fun e => !copyReg e.1),
      mill := { s.mill with queues := [], terms := [], doms := [], ports := [], allocs := [], sflows := [], gens := [] },
      screens := [], tribs := [], trees := mmap {} (fun _ (t : Tree) => { t with set := {}, setNext := none }) s.trees })
  | _ => let s := loseFrames s
    { s with mill := { s.mill with nodes := [], points := [], usedFpb := [] },
             tribs := mmap {} (fun _ (t : Trib) => ({ cfg := t.cfg, present := t.present, held := t.held, next := t.next } : Trib)) s.tribs }

/-- The sections of the quick tier. -/
def quickSecs : List Nat := [1, 2, 3, 4, 5, 6]

/-- Every counter counts from 0 (R348): those the slow tier will carry are all of them. Their next holding copy carries WRAP (R48, R405). -/
def countFromZero (s : State) : State := { s with cnt := [], cyc := [], cntWrap := true, cntKeep := [], bwAll := true }

/-- The cut of a quick tier waits for the next stroke boundary (R347). -/
def postCut (s : State) : State :=
  { s with mill := { s.mill with landing := s.mill.landing.filter (fun x => x.eff ≠ .cut) ++ [{ posted .cut s with at_ := 0 }] } }

/-- A quick tier begins at the next stroke boundary, its cut C: the pair is JOINING (R347). -/
def startQuick (s : State) : State :=
  postCut { s with pair := { s.pair with st := .joining, tier := 0, tierDone := 0, sections := [], copied := [], quickDone := false, detached := false,
                                         released := false, taken := false, cutAt := none, sending := [] } }

/-- The standby falls out of step (R351): event with its cause, the pair JOINING, what was copied discarded on the standby, and a new quick tier at the
next cut; the fourth resync within 4,478,976,000,000 mc leaves it so (RESYNC_LIMIT). On the SAILS_ON unit the same records the pair's state. A slow
tier that fails so leaves counters that have restarted from 0 (R48). -/
def outOfStep (cause : Nat) (s : State) : State :=
  if s.pair.st = .inStep ∨ s.pair.st = .eligible ∨ (s.pair.st = .joining ∧ (s.pair.tier ≠ 0 ∨ s.pair.cutAt.isSome)) then
    let s := freeReplies s
    let recent := (s.pair.resyncs.filter (fun t => s.now < t + 4478976000000)) ++ [s.now]
    let lim := decide (4 ≤ recent.length)
    let s := event 0x0807 5 0 (beBytes 1 cause) (bump (cPair 0x128) 1 s)
    let s := if s.pair.sails then s
      else quickSecs.foldl emptySec (if s.pair.tier = 2 then countFromZero s else s)
    let s := startQuick { s with pair := { s.pair with lag := [], copies := [], digestDue := none, resyncs := recent, resyncLimit := lim } }
    let s := if lim ∨ !s.pair.contact then { s with mill := { s.mill with landing := s.mill.landing.filter (fun x => x.eff ≠ .cut) } } else s
    if lim then event 0x0808 5 0 [] s else s
  else s

end Sys2Proof.Machine
end

