-- ==== Sys2Proof/Machine/PowerCore.lean ====
section
/-! DEFINITION. Power domains as other families use them (R427, R429, Table 14.1). -/

namespace Sys2Proof.Machine

/-- State of a power domain; 78 and 79 are on while the device runs (Table 14.1). -/
def pwrOf (s : State) (d : Nat) : PwrSt := if d = 78 ∨ d = 79 then .on else mget .off s.power.doms d

def pwrOn (s : State) (d : Nat) : Bool := pwrOf s d = .on

def setPwr (d : Nat) (x : PwrSt) (s : State) : State :=
  if d = 78 ∨ d = 79 then s else { s with power := { s.power with doms := mput .off s.power.doms d x } }

/-- A domain that is off starts to ramp (R428, R429); PWR_DONE brings it on. -/
def pwrUp (d : Nat) (s : State) : State := if pwrOf s d = .off then setPwr d .ramping s else s

/-- Live counters of domain d (Table 14.1): those of a tree block, of a quad's ports, of a lane group's lanes and their hoppers. -/
def domCounters (d : Nat) : List Nat :=
  if d < 64 then
    (List.range 14).map (fun i => cTree d (0x100 + 8 * i))
      ++ (List.range 128).flatMap (fun t => (List.range 7).map (fun i => cTerm (128 * d + t) (8 * i)))
  else if d < 72 then (List.range 4).flatMap (fun j => (List.range 23).map (fun i => cPort (4 * (d - 64) + j) (8 * i)))
    ++ [0x20, 0x28, 0x30].map (cHop (0x10 + (d - 64)))
  else if d < 76 then (List.range 6).flatMap (fun j => (List.range 4).map (fun i => cbLane (6 * (d - 72) + j) i)
      ++ [0x20, 0x28, 0x30].map (cHop (0x30 + 6 * (d - 72) + j)))
  else []

/-- Counters of domain d restart from 0 (R93, R427). -/
def domRestart (d : Nat) (s : State) : State := (domCounters d).foldl (fun s a => cntRestart a s) s

/-- A domain comes on: its counters restart (R427), and PWR_DONE names it (R428, Table 14.9). -/
def domOn (d : Nat) (s : State) : State :=
  if pwrOf s d = .on then s else event 0x0904 0x0D d [] (domRestart d (setPwr d .on s))

/-- A domain goes off: its counters hold nothing (R427). -/
def domOff (d : Nat) (s : State) : State :=
  (domCounters d).foldl (fun s a => { s with cnt := mput {} s.cnt a {} }) (setPwr d .off s)

/-- Mill lane group that carries tree n (Table 1.2). -/
def treeGroup (n : Nat) : Nat := if n < 12 then 0 else if n < 24 then 1 else if n < 40 then 2 else 3

/-- Groups on whose lanes a calendar has a non-IDLE entry (R429). -/
def calGroups (cals : List Cal) : List Nat :=
  (List.range 4).filter (fun g => (List.range 6).any (fun j => ((cals.drop ((6 * g + j) * 1944)).take 1944).any (fun c => c.kind ≠ 0)))

end Sys2Proof.Machine
end

