-- ==== Sys2Proof/Machine/Proof.lean ====
section
/-! DEFINITION. The plate image (R58 to R75) and the proof (R77 to R83, Tables 2.12, 2.13). A failure is (section type, record index). -/

namespace Sys2Proof.Machine

open Config

/-! ### Reading an image -/

/-- Bytes o to o + n − 1 of an image; bytes never written read as zero (R54). -/
def imgBytes (m : Map Byte) (o n : Nat) : List Byte := (List.range n).map (fun i => mget 0 m (o + i))

def imgNat (m : Map Byte) (o n : Nat) : Nat := beNat (imgBytes m o n)

/-- Period of a code (Table 2.1); 0 for a reserved code. -/
def periodOf (c : Nat) : Nat :=
  match c with
  | 0 => 1 | 1 => 2 | 2 => 4 | 3 => 5 | 4 => 8 | 5 => 10 | 6 => 16 | 7 => 20 | 8 => 40 | 9 => 80 | _ => 0

/-- A BURST record (Table 2.5). -/
def readBurst (v : Nat) : Burst :=
  { tree := fld v 127 122, term := fld v 121 115, alloc := fld v 114 113, rate := fld v 112 111, pclass := fld v 110 109,
    period := periodOf (fld v 108 105), phase := fld v 104 98, chain := fld v 97 97 = 1, ploamu := fld v 96 96 = 1,
    dbru := fld v 95 95 = 1, start := fld v 94 77, len := fld v 76 59 }

/-- A QUIET record (Table 2.6). -/
def readQuiet (v : Nat) : Quiet :=
  { tree := fld v 127 122, purpose := fld v 121 120, period := periodOf (fld v 119 116), phase := fld v 115 109,
    start := fld v 108 91, len := fld v 90 72, reach := fld v 71 64 }

/-- A SLACKUP record (Table 2.7). -/
def readSlack (v : Nat) : SlackUp :=
  { tree := fld v 127 122, period := periodOf (fld v 121 118), phase := fld v 117 111, start := fld v 110 93, len := fld v 92 75,
    shared := fld v 74 74 = 1, dom := fld v 73 68 }

/-- A DOWN record (Table 2.8). -/
def readDown (v : Nat) : Down :=
  { tree := fld v 127 122, period := periodOf (fld v 121 118), phase := fld v 117 111, flow := fld v 110 95, off := fld v 94 75,
    len := fld v 74 55 }

/-- A FLOW record (Table 2.9). -/
def readFlow (v : Nat) : Flow :=
  { id := fld v 127 112, dom := fld v 111 106, up := fld v 105 105 = 0, trib := fld v 104 104 = 1, tree := fld v 103 98,
    term := fld v 97 91, alloc := fld v 90 89, lane := fld v 88 84, port := fld v 83 79, maxFrame := fld v 78 65,
    minFrame := fld v 64 51, fpb := fld v 50 31, bound := fld v 30 11, label := fld v 10 3 }

/-- A MILLRACE entry (Table 2.10). -/
def readCal (v : Nat) : Cal :=
  { kind := fld v 31 29, target := fld v 28 22, flowix := fld v 21 8, dom := fld v 7 2, shared := fld v 1 1 = 1 }

/-- An EGRESS block (R73). -/
def readEgress (b : List Byte) : Egress :=
  { first := natAt b 0 1 % 32, mode := natAt b 1 1 % 4,
    ents := (List.range 1944).map (fun i => let e := natAt b (16 + 2 * i) 2; (e / 0x4000, e % 0x4000)) }

/-- A DOMAIN record (R74). -/
def readDom (v : Nat) : Dom := { dom := fld v 127 122, resv := fld v 121 102, cap := fld v 101 82 }

/-- Record size of a section type (Table 2.4); 0 for no type. -/
def recSize (t : Nat) : Nat :=
  if t = 6 then 4 else if t = 7 then 3904 else if 1 ≤ t ∧ t ≤ 8 then 16 else 0

/-- A section-table entry in use: type, reserved bytes, offset, length, count. -/
structure Sec where
  type : Nat
  rsv : Nat
  off : Nat
  len : Nat
  count : Nat

/-- An image as the proof reads it. -/
structure Img where
  magic : Nat
  format : Nat
  contract : Nat
  id : Nat
  len : Nat
  nsec : Nat
  trees : Nat
  grade : Nat
  feats : Nat
  hdrRsv : Bool
  crcOk : Bool
  secs : List Sec
  spareEnt : List Nat
  /-- a reserved byte of an unused table entry is not zero -/
  spareRsv : Bool
  bursts : List (Nat × Burst)
  quiets : List (Nat × Quiet)
  slackups : List (Nat × SlackUp)
  downs : List (Nat × Down)
  flows : List (Nat × Flow)
  cals : List (Nat × Cal)
  egress : List (List Byte × Egress)
  doms : List (Nat × Dom)

def secAt (m : Map Byte) (i : Nat) : Sec :=
  let o := 256 + 16 * i
  { type := imgNat m o 1, rsv := imgNat m (o + 1) 3, off := imgNat m (o + 4) 4, len := imgNat m (o + 8) 4, count := imgNat m (o + 12) 4 }

/-- The section of a type whose table entry names records inside the image (R59). The records of a section whose table entry breaks R59 are not read: the
spec states no reading for RESERVED and FEATURE, which precede SECTIONS (DESIGN CHOICE, log 73). -/
def secOf (secs : List Sec) (len t : Nat) : Option Sec :=
  secs.find? (fun x => x.type = t && x.len = x.count * recSize t && 512 ≤ x.off && x.off + x.len ≤ len - 16)

/-- The records of a section as numbers. -/
def secRecs (m : Map Byte) (secs : List Sec) (len t : Nat) : List Nat :=
  match secOf secs len t with
  | none => []
  | some x => (List.range x.count).map (fun i => imgNat m (x.off + i * recSize t) (recSize t))

def readImg (m : Map Byte) : Img :=
  let len := imgNat m 24 4
  let n := imgNat m 28 1
  let secs := (List.range (min n 16)).map (secAt m)
  let r := fun t => secRecs m secs len t
  { magic := imgNat m 0 4, format := imgNat m 4 1, contract := imgNat m 6 2, id := imgNat m 8 16, len := len, nsec := n,
    trees := imgNat m 29 1, grade := imgNat m 30 1, feats := imgNat m 32 8,
    hdrRsv := imgNat m 5 1 = 0 && imgNat m 31 1 = 0 && imgNat m 44 212 = 0 && imgNat m (len - 16) 12 = 0,
    crcOk := crc32c (imgBytes m 0 (len - 4)) = BitVec.ofNat 32 (imgNat m (len - 4) 4),
    secs := secs, spareEnt := (List.range 16).filter (fun i => min n 16 ≤ i && imgNat m (256 + 16 * i) 16 ≠ 0),
    spareRsv := (List.range 16).any (fun i => decide (min n 16 ≤ i) && (secAt m i).rsv != 0),
    bursts := (r 1).map (fun v => (v, readBurst v)), quiets := (r 2).map (fun v => (v, readQuiet v)),
    slackups := (r 3).map (fun v => (v, readSlack v)), downs := (r 4).map (fun v => (v, readDown v)),
    flows := (r 5).map (fun v => (v, readFlow v)), cals := (r 6).map (fun v => (v, readCal v)),
    egress := (match secOf secs len 7 with
      | none => []
      | some x => (List.range x.count).map (fun i => let b := imgBytes m (x.off + i * 3904) 3904; (b, readEgress b))),
    doms := (r 8).map (fun v => (v, readDom v)) }

/-- The domains a plate states: its records; in format 2 domain 0 holds every cell but the 4,096 withheld (R75). -/
def domsOf (g : Img) : List Dom :=
  if g.format = 2 then [{ dom := 0, resv := 520192, cap := 520192 }] else g.doms.map (·.2)

/-- The plate of an image. -/
def plateOf (g : Img) : Plate :=
  { format := g.format, id := BitVec.ofNat 128 g.id, trees := g.trees, grade := g.grade, features := BitVec.ofNat 64 g.feats,
    bursts := g.bursts.map (·.2), quiets := g.quiets.map (·.2), slackups := g.slackups.map (·.2), downs := g.downs.map (·.2),
    flows := g.flows.map (·.2), millrace := g.cals.map (·.2), egress := g.egress.map (·.2), doms := domsOf g }

/-! ### Small tools -/

/-- Elements with their index. -/
def indexed {α : Type} (l : List α) : List (Nat × α) := (List.range l.length).zip l

/-- Insertion by a key. -/
def insBy {α : Type} (k : α → Nat) (x : α) : List α → List α
  | [] => [x]
  | y :: r => if k x < k y then x :: y :: r else y :: insBy k x r

/-- Stable sort by a key. -/
def sortBy {α : Type} (k : α → Nat) (l : List α) : List α := l.foldl (fun a x => insBy k x a) []

/-- A record with a period and phase occurs in frame f (R50). -/
def occursIn (period phase f : Nat) : Bool := f % period = phase

/-- Frames of an impression in which a record occurs. -/
def framesOf (period phase : Nat) : List Nat := (List.range 80).filter (occursIn period phase)

/-- A burst: its non-chained record's index, that record, its end (the end of its last chained record), its records (R63). -/
structure BurstG where
  ix : Nat
  head : Burst
  end_ : Nat
  recs : List Burst

/-- Bursts of a plate, in record order: a chained record joins the burst before it. -/
def groupBursts (l : List Burst) : List BurstG :=
  ((indexed l).foldl (fun (a : List BurstG) e =>
    if e.2.chain then
      match a with
      | g :: r => { g with end_ := e.2.start + e.2.len, recs := g.recs ++ [e.2] } :: r
      | [] => [{ ix := e.1, head := e.2, end_ := e.2.start + e.2.len, recs := [e.2] }]
    else { ix := e.1, head := e.2, end_ := e.2.start + e.2.len, recs := [e.2] } :: a) []).reverse

/-- An interval of the impression with its section type and record index. -/
structure Span where
  sec : Nat
  ix : Nat
  s : Nat
  e : Nat

/-- Occurrences of the bursts of tree n over the impression, by start. -/
def burstSpans (gs : List BurstG) (n : Nat) : List Span :=
  sortBy (·.s) ((gs.filter (fun g => g.head.tree = n)).flatMap (fun g =>
    (framesOf g.head.period g.head.phase).map (fun f => { sec := 1, ix := g.ix, s := f * FRAME + g.head.start, e := f * FRAME + g.end_ })))

def quietSpans (qs : List Quiet) (n : Nat) : List Span :=
  (indexed qs).flatMap (fun q => if q.2.tree = n then
    (framesOf q.2.period q.2.phase).map (fun f => { sec := 2, ix := q.1, s := f * FRAME + q.2.start, e := f * FRAME + q.2.start + q.2.len })
    else [])

def slackSpans (qs : List SlackUp) (n : Nat) : List Span :=
  (indexed qs).flatMap (fun q => if q.2.tree = n then
    (framesOf q.2.period q.2.phase).map (fun f => { sec := 3, ix := q.1, s := f * FRAME + q.2.start, e := f * FRAME + q.2.start + q.2.len })
    else [])

/-- Cyclic distance from a to b over the impression. -/
def cyc (a b : Nat) : Nat := (b + IMPRESSION - a % IMPRESSION) % IMPRESSION

/-- b starts after a and comes within g of a's end, or overlaps it (cyclically). -/
def tooNear (g : Nat) (a b : Span) : Bool := cyc a.s b.s < (a.e - a.s) + g

/-- Rank of a section type in R78's order: type 0 before every section, then by section offset. -/
def secRank (g : Img) (t : Nat) : Nat := if t = 0 then 0 else ((secOf g.secs g.len t).map Sec.off).getD (2 ^ 32)

/-- Failures among the pairs of two interval lists: the one that starts later, taken cyclically; of two that start together, the record that comes
last in the image (R78). -/
def nearFails (im : Img) (g : Nat) (as bs : List Span) : List (Nat × Nat) :=
  as.flatMap (fun a => bs.flatMap (fun b =>
    if a.sec = b.sec ∧ a.ix = b.ix ∧ a.s = b.s then []
    else if cyc a.s b.s = 0 then
      (if secRank im a.sec < secRank im b.sec ∨ (a.sec = b.sec ∧ a.ix < b.ix) then [(b.sec, b.ix)] else [(a.sec, a.ix)])
    else if tooNear g a b then [(b.sec, b.ix)] else if tooNear g b a then [(a.sec, a.ix)] else []))

/-- Size in bytes of the bandwidth map of tree n in frame f (R68). -/
def mapBytes (p : Plate) (n f : Nat) : Nat :=
  8 * ((p.bursts.filter (fun b => b.tree = n && occursIn b.period b.phase f)).length
    + (p.quiets.filter (fun q => q.tree = n && occursIn q.period q.phase f)).length
    + ((p.slackups.filter (fun q => q.tree = n && occursIn q.period q.phase f)).map (fun q => ceilDiv q.len 635)).sum)

/-- Mill cycle of the impression at which composable byte b of frame f of tree n leaves (R68). -/
def txAt (p : Plate) (n f b : Nat) : Nat := f * FRAME + (1280 + mapBytes p n f + b) * 9 / 38

/-- Words of 64 bytes a frame occupies on the millrace (R71). -/
def wordsOf (len : Nat) : Nat := ceilDiv (len + 16) 64

/-- The lane of a tree (Table 1.2). -/
def treeLane (n : Nat) : Nat := if n < 32 then n / 2 else 16 + (n - 32) / 4

/-- Mill lane group of a lane (Table 1.1). -/
def laneGroup (k : Nat) : Nat := k / 6

/-- A run of an egress calendar: kind, flow index, first stroke, length. -/
structure Run where
  kind : Nat
  fix : Nat
  s : Nat
  n : Nat

/-- Maximal runs of the strokes of an egress block (R73). -/
def runsOf (ents : List (Nat × Nat)) : List Run :=
  ((indexed ents).foldl (fun (a : List Run) e =>
    match a with
    | r :: rest =>
      if r.kind = e.2.1 ∧ (e.2.1 ≠ 1 ∨ r.fix = e.2.2) then { r with n := r.n + 1 } :: rest
      else { kind := e.2.1, fix := e.2.2, s := e.1, n := 1 } :: r :: rest
    | [] => [{ kind := e.2.1, fix := e.2.2, s := e.1, n := 1 }]) []).reverse

/-! ### The checks, in table order -/

/-- A failure list reduced to the one reported: type 0 before every section, then the lowest section offset, then the lowest index (R78). -/
def pickFail (g : Img) (l : List (Nat × Nat)) : Option (Nat × Nat) :=
  let rank := fun (x : Nat × Nat) => secRank g x.1
  l.foldl (fun a x =>
    match a with
    | none => some x
    | some y => if rank x < rank y ∨ (rank x = rank y ∧ x.2 < y.2) then some x else some y) none

/-- Failures of a test over the records of section t. -/
def recFails {α : Type} (t : Nat) (l : List α) (bad : α → Bool) : List (Nat × Nat) :=
  (indexed l).flatMap (fun e => if bad e.2 then [(t, e.1)] else [])

/-- Reserved fields and values (RESERVED, R78). Bits 7:5 of byte 0 and 7:2 of byte 1 of an EGRESS block, which R73 leaves unnamed, count as reserved
(DESIGN CHOICE, log 129). -/
def ckReserved (g : Img) : List (Nat × Nat) :=
  (if g.hdrRsv && g.secs.all (fun x => x.rsv = 0) && !g.spareRsv then [] else [(0, 0)])
    ++ recFails 1 g.bursts (fun x => fld x.1 58 0 ≠ 0 || x.2.rate = 3 || x.2.pclass = 3 || x.2.period = 0)
    ++ recFails 2 g.quiets (fun x => fld x.1 63 0 ≠ 0 || x.2.purpose = 3 || x.2.period = 0)
    ++ recFails 3 g.slackups (fun x => fld x.1 67 0 ≠ 0 || x.2.period = 0)
    ++ recFails 4 g.downs (fun x => fld x.1 54 0 ≠ 0 || x.2.period = 0)
    ++ recFails 5 g.flows (fun x => fld x.1 2 0 ≠ 0 || (0x08 ≤ x.2.label && x.2.label ≤ 0xEF))
    ++ recFails 6 g.cals (fun x => x.1 % 2 = 1 || 5 ≤ x.2.kind || 96 ≤ x.2.target)
    ++ recFails 7 g.egress (fun x => 32 ≤ natAt x.1 0 1 || 4 ≤ natAt x.1 1 1 || natAt x.1 2 14 ≠ 0 || x.2.ents.any (fun e => e.1 = 3))
    ++ recFails 8 g.doms (fun x => fld x.1 81 0 ≠ 0)

/-- Domain above 15 without DOMAINS_64, a class S burst without TAP_MEMORY, a FEATURES bit not agreed. -/
def ckFeature (g : Img) (fs : BitVec 64) : List (Nat × Nat) :=
  let hi := fun (d : Nat) => 15 < d && !fs.getLsbD 3
  (if BitVec.ofNat 64 g.feats &&& ~~~fs ≠ 0 then [(0, 0)] else [])
    ++ recFails 1 g.bursts (fun x => !x.2.chain && x.2.pclass = 0 && !fs.getLsbD 6)
    ++ recFails 3 g.slackups (fun x => hi x.2.dom) ++ recFails 5 g.flows (fun x => hi x.2.dom)
    ++ recFails 6 g.cals (fun x => hi x.2.dom) ++ recFails 8 g.doms (fun x => hi x.2.dom)

/-- R59 and R61: the first table entry at fault, or 16 for a missing required section (R78). -/
def ckSections (g : Img) : List (Nat × Nat) :=
  let es := indexed g.secs
  let bad := es.filter (fun e =>
    recSize e.2.type = 0 || e.2.off % 16 ≠ 0 || e.2.off < 512 || g.len - 16 < e.2.off + e.2.len || e.2.len ≠ e.2.count * recSize e.2.type
      || (e.2.type = 6 && e.2.count ≠ 46656) || (e.2.type = 8 && g.format = 2)
      || es.any (fun d => d.1 < e.1 && (d.2.type = e.2.type || e.2.off ≤ d.2.off || e.2.off < d.2.off + d.2.len)))
  let miss := !g.secs.any (fun x => x.type = 6) || (g.format = 3 && !g.secs.any (fun x => x.type = 8))
  bad.map (fun e => (0, e.1)) ++ g.spareEnt.map (fun i => (0, i))
    ++ (if miss then [(0, 16)] else [])

/-- Records beyond a limit per key: the first one (Table 2.12). -/
def overLimit {α : Type} (t : Nat) (l : List α) (k : α → Nat) (lim : Nat) : List (Nat × Nat) :=
  (indexed l).flatMap (fun e => if lim ≤ ((l.take e.1).filter (fun y => k y = k e.2)).length then [(t, e.1)] else [])

def ckCount (g : Img) : List (Nat × Nat) :=
  overLimit 1 g.bursts (·.2.tree) 4096 ++ overLimit 2 g.quiets (·.2.tree) 8 ++ overLimit 3 g.slackups (·.2.tree) 64
    ++ overLimit 4 g.downs (·.2.tree) 2048 ++ overLimit 5 g.flows (fun _ => 0) 16384
    ++ overLimit 5 g.flows (fun x => 128 * x.2.tree + x.2.term) 64 ++ overLimit 7 g.egress (fun _ => 0) 32

/-- Adjacent records out of order by a key, or with equal keys where `strict`. -/
def outOfOrder {α : Type} (t : Nat) (l : List α) (k : α → Nat) (strict : Bool) : List (Nat × Nat) :=
  (indexed (l.zip (l.drop 1))).flatMap (fun e =>
    if k e.2.2 < k e.2.1 ∨ (strict ∧ k e.2.2 = k e.2.1) then [(t, e.1 + 1)] else [])

def ckOrder (g : Img) : List (Nat × Nat) :=
  outOfOrder 1 g.bursts (fun x => ((x.2.tree * 2 ^ 18 + x.2.start) * 128 + x.2.period) * 128 + x.2.phase) false
    ++ outOfOrder 2 g.quiets (fun x => x.2.tree * 2 ^ 18 + x.2.start) false
    ++ outOfOrder 3 g.slackups (fun x => x.2.tree * 2 ^ 18 + x.2.start) false
    ++ outOfOrder 4 g.downs (fun x => ((x.2.tree * 2 ^ 20 + x.2.off) * 128 + x.2.period) * 128 + x.2.phase) false
    ++ outOfOrder 5 g.flows (·.2.id) true ++ outOfOrder 7 g.egress (·.2.first) false ++ outOfOrder 8 g.doms (·.2.dom) true

/-- Field ranges (ENCODING). In format 2 SHARED is 1 in every entry of the MILLRACE section, of whatever kind (R75, Table 2.10; log 104). -/
def ckEncoding (g : Img) : List (Nat × Nat) :=
  let t := fun (n : Nat) => g.trees ≤ n
  let f2 := decide (g.format = 2)
  let noBlk := fun (l : Nat) => !(g.egress.any (fun e => e.2.first = l))
  let nf := g.flows.length
  (if 1 < g.grade ∨ g.trees = 0 ∨ 16 < g.nsec then [(0, 0)] else [])
    ++ recFails 1 g.bursts (fun x => x.2.period ≤ x.2.phase || t x.2.tree || (x.2.rate = 0 && g.grade = 0) || FRAME ≤ x.2.start
        || (f2 && x.2.chain))
    ++ recFails 2 g.quiets (fun x => x.2.period ≤ x.2.phase || t x.2.tree || FRAME ≤ x.2.start || x.2.len = 0 || 311040 < x.2.len
        || 200 < x.2.reach)
    ++ recFails 3 g.slackups (fun x => x.2.period ≤ x.2.phase || t x.2.tree || FRAME ≤ x.2.start || (x.2.shared && x.2.dom ≠ 0)
        || (f2 && (!x.2.shared || x.2.dom ≠ 0)))
    ++ recFails 4 g.downs (fun x => x.2.period ≤ x.2.phase || t x.2.tree)
    ++ recFails 5 g.flows (fun x => t x.2.tree || 23 < x.2.lane || (x.2.up && noBlk x.2.port) || (!x.2.up && x.2.port ≠ 0)
        || (!x.2.up && x.2.alloc ≠ 0) || x.2.maxFrame < 64 || 9600 < x.2.maxFrame || x.2.minFrame < 64 || x.2.maxFrame < x.2.minFrame
        || x.2.bound = 0 || (!x.2.trib && x.2.label ≠ 0) || (x.2.trib && (x.2.label = 0 || x.2.label = 0xFF)) || (f2 && x.2.dom ≠ 0))
    ++ recFails 6 g.cals (fun x =>
        let c := x.2
        ((c.kind = 1 || c.kind = 3) && (if c.target < 64 then t c.target else noBlk (c.target - 64)))
          || (c.kind ≠ 1 && c.kind ≠ 3 && c.target ≠ 0) || (c.kind = 1 && nf ≤ c.flowix) || (c.kind ≠ 1 && c.flowix ≠ 0)
          || (!((c.kind = 2 || c.kind = 3) && !c.shared) && c.dom ≠ 0) || (f2 && !c.shared))
    ++ recFails 7 g.egress (fun x => x.2.ents.any (fun e => (e.1 = 1 && nf ≤ e.2) || (e.1 ≠ 1 && e.2 ≠ 0)))

def ckBurstShape (b : Burst) : Bool :=
  let body := if b.chain then b.len else b.len - (PRE b.pclass + DELIM)
  let cw := CW b.rate
  (!b.chain && b.len < PRE b.pclass + DELIM + cw) || body % cw ≠ 0 || body < cw

/-- Consecutive pairs of a cyclic list. -/
def cycPairs {α : Type} (k : Nat) (l : List α) : List (α × α) := if l.length < k + 1 then [] else l.zip (l.drop k ++ l.take k)

def ckGuard (g : Img) (gs : List BurstG) : List (Nat × Nat) :=
  (List.range 64).flatMap (fun n => nearFails g GUARD_MIN (burstSpans gs n) (burstSpans gs n))

def ckBank (gs : List BurstG) : List (Nat × Nat) :=
  (List.range 64).flatMap (fun n =>
    (cycPairs 2 (burstSpans gs n)).flatMap (fun p => if tooNear BANK_DRAIN p.1 p.2 then [(1, p.2.ix)] else []))

/-- R63: a chained record follows its burst in every named field. -/
def ckChain (l : List Burst) : List (Nat × Nat) :=
  (indexed l).flatMap (fun e =>
    if !e.2.chain then []
    else
      match (if e.1 = 0 then none else l[e.1 - 1]?) with
      | none => [(1, e.1)]
      | some b =>
        if b.tree = e.2.tree ∧ b.term = e.2.term ∧ b.rate = e.2.rate ∧ b.period = e.2.period ∧ b.phase = e.2.phase
            ∧ e.2.start = b.start + b.len ∧ e.2.pclass = 0 then [] else [(1, e.1)])

/-- First burst of a terminal in the impression. -/
def firstBurst (gs : List BurstG) (n t : Nat) : Option BurstG :=
  ((sortBy (fun (x : Nat × BurstG) => x.1) ((gs.filter (fun g => g.head.tree = n && g.head.term = t)).map
    (fun g => (g.head.phase * FRAME + g.head.start, g)))).head?).map (·.2)

/-- TAPS names a terminal's class S bursts where all its bursts are of class S, or its first burst of the impression is: the lowest-indexed of them is
reported, as no rule says which record TAPS names (DESIGN CHOICE, log 74). -/
def ckTaps (gs : List BurstG) : List (Nat × Nat) :=
  gs.flatMap (fun g =>
    if g.head.pclass ≠ 0 then []
    else
      let mine := gs.filter (fun x => x.head.tree = g.head.tree && x.head.term = g.head.term)
      let lone := !mine.any (fun x => x.head.pclass ≠ 0)
      let sFirst := (firstBurst gs g.head.tree g.head.term).any (fun x => x.head.pclass = 0)
      if lone || sFirst then [(1, g.ix)] else [])

def ckRateMix (l : List Burst) : List (Nat × Nat) :=
  (indexed l).flatMap (fun e =>
    if (l.take e.1).any (fun b => b.tree = e.2.tree && b.term = e.2.term && b.rate ≠ e.2.rate) then [(1, e.1)] else [])

/-- Least length of a quiet window (R80). -/
def quietMin (q : Quiet) : Nat := if q.purpose = 0 then q.reach * RTT_PER_100M + DISC_RESP + RAND_SPAN else QUIET_RANGE_MIN

def ckQuiet (g : Img) (p : Plate) (gs : List BurstG) : List (Nat × Nat) :=
  ((indexed p.quiets).flatMap (fun e =>
    let q := e.2
    if q.len < quietMin q ∨ (occursIn q.period q.phase 79 ∧ FRAME < q.start + q.len) ∨ (q.purpose = 0 ∧ q.reach = 0)
        ∨ (q.purpose ≠ 0 ∧ q.reach ≠ 0) then [(2, e.1)] else []))
    ++ (List.range 64).flatMap (fun n =>
      let qs := quietSpans p.quiets n
      nearFails g GUARD_MIN qs (burstSpans gs n) ++ nearFails g GUARD_MIN qs qs)

def ckSlackUp (g : Img) (p : Plate) (gs : List BurstG) : List (Nat × Nat) :=
  ((indexed p.slackups).flatMap (fun e => if e.2.len < 1233 ∨ FRAME < e.2.start + e.2.len then [(3, e.1)] else []))
    ++ (List.range 64).flatMap (fun n =>
      let ss := slackSpans p.slackups n
      nearFails g GUARD_MIN ss (burstSpans gs n) ++ nearFails g GUARD_MIN ss (quietSpans p.quiets n))

def ckDsOverflow (p : Plate) : List (Nat × Nat) :=
  recFails 4 p.downs (fun d => (framesOf d.period d.phase).any (fun f => 655360 - mapBytes p d.tree f < d.off + d.len))

def ckDsOverlap (p : Plate) : List (Nat × Nat) :=
  (indexed p.downs).flatMap (fun e =>
    if (indexed p.downs).any (fun c => c.1 ≠ e.1 && c.2.tree = e.2.tree && (c.2.off < e.2.off || (c.2.off = e.2.off && c.1 < e.1))
        && e.2.off < c.2.off + c.2.len && 0 < e.2.len
        && (List.range 80).any (fun f => occursIn c.2.period c.2.phase f && occursIn e.2.period e.2.phase f)) then [(4, e.1)] else [])

def ckDsSlot (p : Plate) : List (Nat × Nat) :=
  recFails 4 p.downs (fun d => (flowIn p d.flow).any (fun f => d.len < f.maxFrame + 8))

/-- A domain has a record (R74, R75). -/
def domHas (p : Plate) (d : Nat) : Bool := p.doms.any (fun x => x.dom = d)

def ckCalLane (p : Plate) : List (Nat × Nat) :=
  (indexed p.millrace).flatMap (fun e =>
    let c := e.2
    let bad := if c.kind = 1 then
        (match p.flows[c.flowix]? with
         | some f => f.lane ≠ e.1 / 1944 || c.target ≠ (if f.up then 64 + f.port else f.tree)
         | none => true)
      else (c.kind = 2 || c.kind = 3) && !c.shared && !domHas p c.dom
    if bad then [(6, e.1)] else [])

def ckSpare (p : Plate) : List (Nat × Nat) :=
  (indexed p.millrace).flatMap (fun e =>
    let s := e.1 % 1944
    let grp := laneGroup (e.1 / 1944)
    if e.2.kind ≠ 0 ∧ e.2.kind ≠ 4 ∧ !(List.range 6).any (fun j => (p.millrace[(6 * grp + j) * 1944 + s]?).any (fun c => c.kind = 4))
    then [(6, e.1)] else [])

/-- Lanes of a port of MODE m. -/
def modeLanes (m : Nat) : Nat := if m = 0 then 1 else if m = 1 then 2 else if m = 2 then 4 else 8

def ckPortLayout (p : Plate) : List (Nat × Nat) :=
  (indexed p.egress).flatMap (fun e =>
    if e.2.first % modeLanes e.2.mode ≠ 0 ∨ (p.egress.take e.1).any (fun d =>
        d.first < e.2.first + modeLanes e.2.mode && e.2.first < d.first + modeLanes d.mode) then [(7, e.1)] else [])

def ckEgressRun (p : Plate) : List (Nat × Nat) :=
  recFails 7 p.egress (fun b => (runsOf b.ents).any (fun r => r.kind = 1 &&
    (match p.flows[r.fix]? with
     | some f => !f.up || f.port ≠ b.first || r.n < ceilDiv (f.maxFrame + 20) (bytesPerStroke b.mode)
     | none => true)))

/-- Flow index ix has a THROUGH entry in the millrace. -/
def hasThrough (p : Plate) (ix : Nat) : Bool := p.millrace.any (fun c => c.kind = 1 && c.flowix = ix)

def ckFlowRef (p : Plate) : List (Nat × Nat) :=
  recFails 4 p.downs (fun d => !(flowIn p d.flow).any (fun f => !f.up))
    ++ (indexed p.flows).flatMap (fun e =>
      let f := e.2
      let bad := !hasThrough p e.1
        || (f.up && !p.bursts.any (fun b => b.tree = f.tree && b.term = f.term && b.alloc = f.alloc))
        || (!f.up && !p.downs.any (fun d => d.flow = f.id))
        || (f.up && !p.egress.any (fun b => b.first = f.port && b.ents.any (fun x => x.1 = 1 && x.2 = e.1)))
      if bad then [(5, e.1)] else [])

def ckFlowLane (p : Plate) : List (Nat × Nat) := recFails 5 p.flows (fun f => f.up && f.lane ≠ treeLane f.tree)

/-! ### Latency and capacity (R81, R82) -/

/-- Strokes of a frame at which lane k carries THROUGH of flow index ix. -/
def throughStrokes (p : Plate) (k ix : Nat) : List Nat :=
  (List.range 1944).filter (fun s => (p.millrace[k * 1944 + s]?).any (fun c => c.kind = 1 && c.flowix = ix))

/-- First start at or after t of a set of strokes that repeats every frame. -/
def nextStroke (l : List Nat) (t : Nat) : Option Nat :=
  (sortBy id (l.map (fun s => t + (s * STROKE + FRAME - t % FRAME) % FRAME))).head?

/-- Egress strokes e of flow index ix from which its run holds a frame of MAX_FRAME plus 20 bytes (R73). -/
def fitStrokes (b : Egress) (ix maxFrame : Nat) : List Nat :=
  (runsOf b.ents).flatMap (fun r => if r.kind = 1 ∧ r.fix = ix then
    ((List.range r.n).filter (fun i => maxFrame + 20 ≤ (r.n - i) * bytesPerStroke b.mode)).map (r.s + ·) else [])

/-- Occurrences over the impression of bursts holding an allocation of the flow: (start, end). -/
def allocSpans (gs : List BurstG) (f : Flow) : List (Nat × Nat) :=
  sortBy (·.1) ((gs.filter (fun g => g.head.tree = f.tree && g.head.term = f.term && g.recs.any (fun r => r.alloc = f.alloc))).flatMap
    (fun g => (framesOf g.head.period g.head.phase).map (fun k => (k * FRAME + g.head.start, k * FRAME + g.end_))))

/-- Slot times of the DOWN records of a flow over the impression, with their length. -/
def downSlots (p : Plate) (f : Flow) : List (Nat × Nat) :=
  sortBy (·.1) ((p.downs.filter (fun d => d.flow = f.id)).flatMap
    (fun d => (framesOf d.period d.phase).map (fun k => (txAt p d.tree k d.off, d.len))))

/-- Worst-case latency of a flow by R81; none where a search finds nothing. -/
def latency (p : Plate) (gs : List BurstG) (ix : Nat) (f : Flow) : Option Nat :=
  let ts := throughStrokes p f.lane ix
  let worst := fun (l : List (Option Nat)) => if l = [] then none else l.foldl (fun a x =>
    match a, x with
    | some a, some x => some (max a x)
    | _, _ => none) (some 0)
  if f.up then
    match p.egress.find? (fun b => b.first = f.port) with
    | none => none
    | some b =>
      let es := fitStrokes b ix f.maxFrame
      worst ((allocSpans gs f).map (fun o => do
        let ls ← nextStroke ts (o.2 + T_UP_FRONT)
        let e ← nextStroke es (ls + T_RACE_TAIL)
        pure (e + T_UP_BACK - o.2)))
  else
    let slots := downSlots p f
    let starts := (List.range 80).flatMap (fun k => ts.map (fun s => k * FRAME + s * STROKE))
    worst (starts.map (fun s => do
      let ls ← nextStroke ts (s + 1)
      let t := ls + T_RACE_TAIL + DS_COMMIT
      let d ← (sortBy id (slots.map (fun x => t + (x.1 + 2 * IMPRESSION - t) % IMPRESSION))).head?
      pure (d + T_DN_FRONT - (s + 1))))

def ckLatency (p : Plate) (gs : List BurstG) : List (Nat × Nat) :=
  (indexed p.flows).flatMap (fun e =>
    match latency p gs e.1 e.2 with
    | some l => if e.2.bound < l then [(5, e.1)] else []
    | none => [(5, e.1)])

/-- Starts of a set of strokes that repeats every frame, lying in [a, b). -/
def startsIn (l : List Nat) (a b : Nat) : Nat :=
  (l.map (fun s =>
    let first := a + (s * STROKE + FRAME - a % FRAME) % FRAME
    if first < b then (b - first + FRAME - 1) / FRAME else 0)).sum

def capOk (p : Plate) (gs : List BurstG) (ix : Nat) (f : Flow) : Bool :=
  let n := ceilDiv f.fpb f.minFrame
  let need := ceilDiv (n * wordsOf f.maxFrame) 80
  let ts := throughStrokes p f.lane ix
  let next := fun (l : List (Nat × Nat)) =>
    match l with
    | [x] => [(x, (x.1 + IMPRESSION, x.2 + IMPRESSION))]
    | _ => (l.zip (l.drop 1)) ++ (match l.getLast?, l.head? with
        | some z, some a => [(z, (a.1 + IMPRESSION, a.2 + IMPRESSION))]
        | _, _ => [])
  if f.up then
    match p.egress.find? (fun b => b.first = f.port) with
    | none => false
    | some b =>
      let rs := (runsOf b.ents).filter (fun r => r.kind = 1 && r.fix = ix)
      (next (allocSpans gs f)).all (fun o =>
        let r := o.1.2 + T_UP_FRONT
        let r' := o.2.2 + T_UP_FRONT
        need ≤ startsIn ts r r' &&
          n ≤ (rs.map (fun x => startsIn [x.s] (r + 146) (r' + 146) * (x.n * bytesPerStroke b.mode / (f.maxFrame + 20)))).sum)
  else
    let slots := downSlots p f
    slots.all (fun d => n ≤ d.2 / (f.maxFrame + 8)) &&
      (next (slots.map (fun d => (d.1, d.1)))).all (fun o =>
        -- start + 306 in (prev, next]: start in [prev + 1 − 306, next + 1 − 306)
        need ≤ startsIn ts (o.1.1 + 1 + IMPRESSION - 306) (o.2.1 + 1 + IMPRESSION - 306))

def ckCapacity (p : Plate) (gs : List BurstG) : List (Nat × Nat) :=
  (indexed p.flows).flatMap (fun e => if capOk p gs e.1 e.2 then [] else [(5, e.1)])

/-! ### Domains and the pre-wake map -/

def sumResv (l : List Dom) : Nat := (l.map (·.resv)).sum

/-- Shared cells of a plate (R74). -/
def sharedCells (p : Plate) : Nat := 524288 - 4096 - sumResv p.doms

def ckDomSum (p : Plate) : List (Nat × Nat) :=
  (indexed p.doms).flatMap (fun e => if 524288 - 4096 < sumResv (p.doms.take (e.1 + 1)) then [(8, e.1)] else [])

def ckDomCap (p : Plate) : List (Nat × Nat) :=
  recFails 8 p.doms (fun d => d.cap < d.resv || d.resv + sharedCells p < d.cap)

def ckDomRef (p : Plate) : List (Nat × Nat) :=
  recFails 3 p.slackups (fun q => !q.shared && !domHas p q.dom) ++ recFails 5 p.flows (fun f => !domHas p f.dom)
    ++ recFails 6 p.millrace (fun c => (c.kind = 2 || c.kind = 3) && !c.shared && !domHas p c.dom)

/-- Intervals merged that overlap or lie fewer than MIN_DARK apart (R83). -/
def mergeSpans (l : List (Nat × Nat)) : List (Nat × Nat) :=
  ((sortBy (·.1) l).foldl (fun (a : List (Nat × Nat)) x =>
    match a with
    | y :: r => if x.1 < y.2 + MIN_DARK then (y.1, max y.2 x.2) :: r else x :: y :: r
    | [] => [x]) []).reverse

/-- Powered intervals of frame f of tree n (R83). -/
def preWake (p : Plate) (gs : List BurstG) (n f : Nat) : List (Nat × Nat) :=
  let spans := burstSpans gs n ++ quietSpans p.quiets n ++ slackSpans p.slackups n
  let lo := f * FRAME
  mergeSpans (spans.flatMap (fun x =>
    [0, IMPRESSION, 2 * IMPRESSION].flatMap (fun k =>
      -- shifted by one impression so that nothing lies below 0
      let a := x.s + k - PREWAKE
      let b := x.e + k + GATE
      let a' := max a (lo + IMPRESSION)
      let b' := min b (lo + IMPRESSION + FRAME)
      if a' < b' then [(a' - (lo + IMPRESSION), b' - (lo + IMPRESSION))] else [])))

def ckPreWake (p : Plate) (gs : List BurstG) (fs : BitVec 64) : List (Nat × Nat) :=
  if !fs.getLsbD 7 then []
  else (List.range 64).flatMap (fun n =>
    let pats := (((List.range 80).map (preWake p gs n)).filter (fun l => l ≠ [])).eraseDups
    if 8 < pats.length ∨ pats.any (fun l => 256 < l.length) then [(0, n)] else [])

/-- The proof: the first failing check of Table 2.13 with its section and record, or the plate (R78, R79). -/
def prove (fs : BitVec 64) (fuse : Fuse) (m : Map Byte) : (Nat × Nat × Nat) ⊕ Plate :=
  let g := readImg m
  let p := plateOf g
  let gs := groupBursts p.bursts
  let hdr := fun (b : Bool) => if b then [(0, 0)] else []
  let wantFmt := if fs.getLsbD 1 then 3 else 2
  let checks : List (Nat × (Unit → List (Nat × Nat))) :=
    [(0x0001, fun _ => hdr (g.magic ≠ 0x4B4C5054)), (0x0002, fun _ => hdr (g.format ≠ wantFmt)),
     (0x0003, fun _ => hdr (g.contract ≠ 0x0301)),
     (0x0004, fun _ => hdr (g.len < 528 || 5242880 < g.len || g.len % 16 ≠ 0)), (0x0005, fun _ => hdr (!g.crcOk)),
     (0x0006, fun _ => ckReserved g), (0x0007, fun _ => ckFeature g fs), (0x0010, fun _ => ckSections g), (0x0011, fun _ => ckCount g),
     (0x0012, fun _ => ckOrder g), (0x0020, fun _ => hdr (fuse.trees < g.trees)), (0x0021, fun _ => hdr (g.grade = 1 && !fuse.speed5)),
     (0x0022, fun _ => ckEncoding g), (0x0030, fun _ => recFails 1 p.bursts (fun b => FRAME < b.start + b.len)),
     (0x0031, fun _ => recFails 1 p.bursts ckBurstShape), (0x0032, fun _ => ckGuard g gs), (0x0033, fun _ => ckChain p.bursts),
     (0x0034, fun _ => ckTaps gs), (0x0035, fun _ => ckRateMix p.bursts), (0x0036, fun _ => ckBank gs), (0x0037, fun _ => ckQuiet g p gs),
     (0x0038, fun _ => ckSlackUp g p gs), (0x0040, fun _ => ckDsOverflow p), (0x0041, fun _ => ckDsOverlap p), (0x0042, fun _ => ckDsSlot p),
     (0x0050, fun _ => ckCalLane p), (0x0051, fun _ => ckSpare p), (0x0052, fun _ => ckPortLayout p), (0x0053, fun _ => ckEgressRun p),
     (0x0060, fun _ => ckFlowRef p), (0x0061, fun _ => ckFlowLane p), (0x0062, fun _ => ckLatency p gs), (0x0063, fun _ => ckCapacity p gs),
     (0x0070, fun _ => ckDomSum p), (0x0071, fun _ => ckDomCap p), (0x0072, fun _ => ckDomRef p), (0x0080, fun _ => ckPreWake p gs fs)]
  match checks.findSome? (fun c => (pickFail g (c.2 ())).map (fun x => (c.1, x.1, x.2))) with
  | some f => .inl f
  | none => .inr p

end Sys2Proof.Machine
end

