-- ==== Sys2Proof/Machine/TimeCore.lean ====
section
/-! DEFINITION. Domain time, output time, rate changes, steps and state changes of the time domains (R306 to R319). -/

namespace Sys2Proof.Machine

/-- One second, 10 ms and 1 ns in units of 2^−16 ns. -/
def nsU : Int := 65536
def secU : Int := 1000000000 * nsU
def radioU : Int := 10000000 * nsU

/-- Numerator of the rate of R306: 3,125 × 2^16 × (2^40 + R); the denominator is 3,888 × 2^40. -/
def rateNum (r : Int) : Int := 3125 * 2 ^ 16 * (2 ^ 40 + r)
def rateDen : Int := 3888 * 2 ^ 40

/-- τ at counter value c under (C_b, τ_b, R) (R306). -/
def tauAt (cb : Nat) (tau r : Int) (c : Nat) : Int := tau + ((c : Int) - cb) * rateNum r / rateDen

/-- Time of a domain at counter value c; 0 in UNSET (Table 10.1). -/
def domTime (s : State) (b : Bool) (c : Nat) : Int :=
  let d := tdom s b
  if d.st = .unset then 0 else tauAt d.cb d.tau d.r c

/-- K at counter value c: |K| falls by 10 ns a second until it reaches 0 (R317). -/
def kNow (s : State) (c : Nat) : Int :=
  let k := s.time.k
  let m := (k.natAbs : Int) - 10 * nsU * ((c : Int) - s.time.kAt) / 1244160000
  if m ≤ 0 then 0 else if k < 0 then -m else m

/-- Output time T_out = T_sel − K at counter value c (R317). -/
def outTime (s : State) (c : Nat) : Int := domTime s s.time.sel c - kNow s c

/-- SEC(6), rsv(2), NS(4), FRAC(2), rsv(2) of a time (R306). -/
def timeBytes (t : Int) : List Byte :=
  beBytes 6 (twos 48 (t / secU)) ++ rsv 2 ++ beBytes 4 (t / nsU % 1000000000).toNat ++ beBytes 2 (t % nsU).toNat ++ rsv 2

/-- The first radio frame boundary (multiple of 10 ms) of the selected domain at or after counter value t; none unless that domain
is TRACKING or HOLD (R31). -/
def radioAt (s : State) (t : Nat) : Option Nat :=
  let d := tdom s s.time.sel
  if d.st = .tracking ∨ d.st = .hold then
    let now := domTime s s.time.sel t
    let target := (now + radioU - 1) / radioU * radioU
    let x := ((target - d.tau) * rateDen + rateNum d.r - 1) / rateNum d.r
    some (max t ((d.cb : Int) + x).toNat)
  else none

/-- MPD_REF as a record carries it: 0 where it is no mean of 16 exchanges yet (R314; log 152). -/
def mpdRef (d : TDom) : Int := if d.mpds.length < 16 then 0 else d.mpd

/-- The TIME record of a domain (Table 11.2). -/
def timeRecOf (s : State) (b : Bool) : Rec :=
  let d := tdom s b
  .time b (match d.st with | .unset => 0 | .stepArmed => 1 | .tracking => 2 | .bridging => 3 | .hold => 4)
    d.cb d.tau d.r (mpdRef d) d.asym d.kb s.time.sel s.time.k

/-- STATE code (Table 10.5). -/
def domCode : DomSt → Nat
  | .unset => 0 | .stepArmed => 1 | .tracking => 2 | .bridging => 3 | .hold => 4

/-- The parameter set in force from counter value c is kept, the last 256 of them (R319), and the partner told. -/
def keepSet (b : Bool) (c : Nat) (s : State) : State :=
  let d := tdom s b
  let s := setTdom b { d with past := ((c, d.cb, d.tau, d.r, decide (d.st = .unset)) :: d.past).take 256 } s
  streamPush (timeRecOf s b) s

/-- The domain's rate and state from the stroke boundary on, for R316. -/
def noteRate (b : Bool) (s : State) : State :=
  let d := tdom s b
  setTdom b { d with rates := ((strokeAt s s.now, d.r, decide (d.st = .tracking)) :: d.rates).take 600 } s

/-- A change of R at the next stroke boundary (R307), within ±100 ppm. -/
def setRate1 (b : Bool) (r : Int) (s : State) : State :=
  let d := tdom s b
  let c := strokeAt s s.now
  let r := clampI (-109951163) 109951163 r
  if d.st = .unset ∨ r = d.r then s
  else keepSet b c (noteRate b (setTdom b { d with tau := tauAt d.cb d.tau d.r c, cb := c, r := r } s))

/-- A rate change; a domain BRIDGING on this one takes the same R (R315). -/
def setRate (b : Bool) (r : Int) (s : State) : State :=
  let s := setRate1 b r s
  if (tdom s !b).st = .bridging then setRate1 (!b) (tdom s b).r s else s

/-- A declared PATH_STEP stands in a state (Table 10.1): it ends where the domain tracks, is armed or is disabled. -/
def pathStays : DomSt → Bool
  | .bridging | .hold => true
  | _ => false

/-- TIME_STATE for one domain (R309). -/
def moveDom1 (b : Bool) (st : DomSt) (cause : Nat) (s : State) : State :=
  let d := tdom s b
  if d.st = st then s
  else
    let k := pathStays st
    let s := noteRate b (setTdom b { d with st := st, valids := 0, near := 0, pathStep := d.pathStep && k, pathDue := d.pathDue && k,
                                            holdPath := d.holdPath && k, suspects := if k then d.suspects else 0 } s)
    let s := event 0x0700 0x0A b.toNat (beBytes 1 (domCode d.st) ++ beBytes 1 (domCode st) ++ beBytes 1 cause) s
    streamPush (timeRecOf s b) s

/-- A domain taken as the partner holds it: an MPD_REF taken stands for the 16 exchanges it is the mean of (R314; log 152), and a state it changes to is
reported (R309), with a cause that no record carries, a free value (log 153). -/
def adoptDom (b : Bool) (d : TDom) (s : State) : State :=
  let old := (tdom s b).st
  let s := setTdom b { d with mpds := if d.mpd = 0 then [] else List.replicate 16 d.mpd } s
  if d.st = old then s
  else
    let (v, s) := fresh s
    event 0x0700 0x0A b.toNat (beBytes 1 (domCode old) ++ beBytes 1 (domCode d.st) ++ beBytes 1 (v % 256)) s

/-- A state change; a domain BRIDGING on one that leaves TRACKING enters HOLD, keeping its R (Table 10.1). -/
def moveDom (b : Bool) (st : DomSt) (cause : Nat) (s : State) : State :=
  let left := (tdom s b).st = .tracking ∧ st ≠ .tracking
  let s := moveDom1 b st cause s
  let o := tdom s !b
  if left ∧ o.st = .bridging then moveDom1 (!b) .hold 4 (setTdom (!b) { o with holdPath := true } s) else s

/-- Sum of R over the last `left` mill cycles of TRACKING before counter value c, with the cycles summed; newest span first. -/
def sumRates : List (Nat × Int × Bool) → Nat → Nat → Int × Nat
  | [], _, _ => (0, 0)
  | (a, r, tracking) :: l, c, left =>
    let n := if tracking then min left (c - a) else 0
    let (x, m) := sumRates l (min a c) (left - n)
    (x + r * (n : Int), m + n)

/-- Time-weighted mean of R over the last 16 s of TRACKING before counter value c (R316). -/
def meanRate (l : List (Nat × Int × Bool)) (r : Int) (c : Nat) : Int :=
  let (x, n) := sumRates l c (16 * 1244160000)
  if n = 0 then r else x / (n : Int)

/-- TRACKING left for HOLD: R stays at its mean over the last 16 s of TRACKING (R316). -/
def holdDom (b path : Bool) (cause : Nat) (s : State) : State :=
  let d := tdom s b
  let s := setRate1 b (meanRate d.rates d.r (strokeAt s s.now)) s
  let d := tdom s b
  moveDom b .hold cause (setTdom b { d with holdPath := path } s)

/-- A step of a STEP_ARMED domain at the next stroke boundary, and its move to TRACKING (R310). -/
def stepDom (b : Bool) (amount : Int) (cause : Nat) (s : State) : State :=
  let d := tdom s b
  let s := keepSet b (strokeAt s s.now) (setTdom b { d with tau := d.tau + amount } s)
  let s := event 0x0701 0x0A b.toNat (beBytes 8 (twos 64 amount)) s
  moveDom b .tracking cause s

/-- The selection moves at the stroke boundary (R317); nothing for the domain selected. -/
def selectDom (b : Bool) (s : State) : State :=
  if b = s.time.sel then s
  else
    let c := strokeAt s s.now
    let d := domTime s b c - outTime s c
    let s := { s with time := { s.time with sel := b, k := if (d.natAbs : Int) ≤ 2 * nsU then 0 else d, kAt := c } }
    streamPush (timeRecOf s b) s

/-- The selection that moves at the stroke boundary, after the domains' steps (R325). -/
def askSel (b : Bool) (s : State) : State := { s with time := { s.time with selNext := some b } }

/-- Only domain A exists unless TWO_DOMAIN_TIME is in D (Table 12.9). -/
def twoDom (s : State) : Bool := featOn s 4

end Sys2Proof.Machine
end

