-- ==== Sys2Proof/Machine/Plates.lean ====
section
/-! DEFINITION. Plate banks, the proof's outcome, turns and disengages (R31, R52 to R57, R84 to R90, R198, R388). -/

namespace Sys2Proof.Machine

open Config

/-! ### Turns -/

/-- TURN_CANCELLED with a code (Table 13.14). -/
def cancelTurn (code : Nat) (s : State) : State :=
  match s.plates.turn with
  | none => s
  | some t =>
    event 0x0102 7 t.bank.toNat (beBytes 2 code ++ rsv 2 ++ beBytes 4 t.target.toNat) { s with plates := { s.plates with turn := none } }

/-- The scheduled turn of bank b, if any, cancelled with code 0 (R53, R56). -/
def dropTurnOf (b : Bool) (s : State) : State := if s.plates.turn.any (fun t => t.bank = b) then cancelTurn 0 s else s

/-- A bank LOADING under a session that ends becomes EMPTY (R377). -/
def endLoading (p : Port) (sid : BitVec 32) (s : State) : State :=
  [false, true].foldl (fun s b =>
    let x := bank s b
    if x.st = .loading ∧ x.owner = some (p, sid) then emptyBank b s else s) s

/-- Agreed set of the session a packet names; the device set where it is not open here (a mirrored packet). -/
def agreedOf (s : State) (h : Hdr) : BitVec 64 :=
  match (portSt s h.port).session with
  | some x => if x.id = h.session then x.agreed else s.cmd.featD
  | none => s.cmd.featD

/-- The moment of an opcode's own checks: on a standby, the canonical stroke (R85). -/
def checkTime (s : State) (h : Hdr) : Nat := if mirrorFlag h then s.now - PAIR_LAG else s.now

/-- GUARD and BANK across the boundary on tree n (TURN_SEAM): the last two bursts of the engaged plate and the first two of the new. -/
def seamOk (old new : Plate) (n : Nat) : Bool :=
  let a := (burstSpans (groupBursts old.bursts) n).reverse
  let fresh_ := (burstSpans (groupBursts new.bursts) n).map (fun x => { x with s := x.s + IMPRESSION, e := x.e + IMPRESSION })
  let gap := fun (g : Nat) (x y : Option Span) =>
    match x, y with
    | some x, some y => x.e + g ≤ y.s
    | _, _ => true
  gap GUARD_MIN a[0]? fresh_[0]? && gap BANK_DRAIN a[1]? fresh_[0]? && gap BANK_DRAIN a[0]? fresh_[1]?

/-- The spare of a port from the next impression boundary on (R197, R214). -/
def spareSoon (u : UPort) : Option Nat := (u.protNext.map Prod.fst).getD u.spare

/-- Table 2.14, in table order: the code of the first check that fails, or 0. -/
def turnChecks (s : State) (p : Plate) : Nat :=
  if p.bursts.any (fun b =>
      let t := term s (128 * b.tree + b.term)
      (t.st = .ranged || t.st = .active || t.st = .popup) && t.rate ≠ b.rate) then 0xA0
  else if p.egress.any (fun e => !(portOn s e.first && quadMode s (e.first / 4) = e.mode && !regBit s (aPORT e.first) 26
      && !(List.range 32).any (fun q => spareSoon (uport s q) = some e.first))) then 0xA1
  else if p.quiets.any (fun q => q.purpose = 0 && decide (q.reach < (tree s q.tree).set.reach)) then 0xA2
  else
    match engaged s with
    | none => 0
    | some old =>
      if !(List.range 64).all (seamOk old p) then 0xA3
      else if (indexed p.flows).any (fun e => (flowIn old e.2.id).any (fun f => f.lane ≠ e.2.lane) &&
          (match latency p (groupBursts p.bursts) e.1 e.2 with
           | some l => decide (e.2.bound < l + LANE_MOVE_HOLD)
           | none => true)) then 0xA4
      else 0

/-- Boundary and number of a first turn accepted at t (R31): the first radio frame boundary of the selected domain whose cutoff has not
passed, taken at the first counter value at or after it (log 9), or the first multiple of 12,441,600. -/
def firstTurn (s : State) (t : Nat) : Nat × BitVec 32 :=
  let lo := t + TURN_CUTOFF + 1
  let b := match radioAt s lo with
    | some x => x
    | none => ceilDiv lo IMPRESSION * IMPRESSION
  (b, if b ≤ s.imprNext then s.imprNum + 1 else oldBoundaryNum s (b - 1) + 1)

/-- The turn scheduled and its reply. -/
def scheduleTurn (b : Bool) (id : BitVec 128) (target : BitVec 32) (at_ : Nat) (first : Bool) (s : State) : Res :=
  let s := cancelTurn 0 s
  resOk (beBytes 4 target.toNat)
    { s with plates := { s.plates with turn := some { bank := b, target := target, at_ := at_, first := first, id := id } } }

/-- The plate engaged at counter value t, of the impression in progress or the one before (R90). -/
def engagedAt (s : State) (t : Nat) : Option Plate := if t < s.imprAt then s.plates.prev else engaged s

/-- The boundary of a PLATE_TURN checked at t: the one it names, with ASAP the first whose cutoff has not passed, and placed anew by a first turn
(R31, R84, R86). -/
def turnPlace (h : Hdr) (b : Bool) (id : BitVec 128) (target : Word) (t : Nat) (s : State) : Res :=
  if !asap h then scheduleTurn b id target (s.imprNext + ((target - s.imprNum).toNat - 1) * IMPRESSION) false s
  else if (engagedAt s t).isNone then scheduleTurn b id (firstTurn s t).2 (firstTurn s t).1 true s
  else
    let early := boundaryAt s (t + TURN_CUTOFF + 1)
    scheduleTurn b id (boundaryNum s early) early false s

/-- PLATE_TURN after its ASAP and TARGET rules (R84, steps 3 to 7). -/
def turnRun (h : Hdr) (bk : BitVec 8) (id : BitVec 128) (target : Word) (s : State) : Res :=
  let b := bk = 1
  let x := bank s b
  let t := checkTime s h
  match x.plate with
  | none => resBad 16 s
  | some p =>
    if 1 < bk.toNat ∨ x.st ≠ .proven then resBad 16 s
    else if p.id ≠ id then resBad 20 s
    else if s.plates.turn.any (fun u => u.at_ ≤ t + TURN_CUTOFF) then resBusy s
    else
      let early := boundaryAt s (t + TURN_CUTOFF + 1)
      let d := (target - s.imprNum).toNat
      let at_ := s.imprNext + (d - 1) * IMPRESSION
      if !asap h ∧ (d = 0 ∨ 2 ^ 31 ≤ d ∨ at_ ≤ t + TURN_CUTOFF) then resLate s.imprNum.toNat (boundaryNum s early).toNat s
      else
        let code := turnChecks s p
        if code ≠ 0 then resRejected code s else turnPlace h b id target t s

/-! ### Operations -/

def opPlateOpen (h : Hdr) (bk : BitVec 8) : Op where
  bad _ := firstBad [(16, bk.toNat ≤ 1)]
  run s :=
    let b := bk = 1
    let x := bank s b
    if !(pwrOn s 72 && pwrOn s 76 && pwrOn s 77) then resBusy s
    else if x.st = .engaged ∨ x.st = .turning ∨ x.st = .proving then resBusy s
    else if x.st = .loading ∧ x.owner ≠ some (h.port, h.session) then resBusy s
    else
      let s := dropTurnOf b s
      resOk [] (setBank b { st := .loading, owner := some (h.port, h.session), feats := agreedOf s h } s)

/-- Bytes written into an image from an offset. -/
def imgWrite : Map Byte → Nat → List Byte → Map Byte
  | m, _, [] => m
  | m, o, x :: r => imgWrite (mput 0 m o x) (o + 1) r

def opPlateData (h : Hdr) (bk : BitVec 8) (off : Word) (data : List Byte) : Op where
  bad _ := firstBad [(16, bk.toNat ≤ 1), (20, off.toNat % 16 = 0), (20, off.toNat + data.length ≤ 5242880),
    (24, data.length % 16 = 0 ∧ 16 ≤ data.length ∧ data.length ≤ 4080)]
  run s :=
    let b := bk = 1
    let x := bank s b
    if x.st ≠ .loading ∨ x.owner ≠ some (h.port, h.session) then resBusy s
    else resOk [] (setBank b { x with image := imgWrite x.image off.toNat data } s)

/-- Groups on whose lanes an image's millrace section has a non-IDLE entry (R429). -/
def imageGroups (m : Map Byte) : List Nat := calGroups ((readImg m).cals.map (·.2))

def opPlateProof (h : Hdr) (bk : BitVec 8) : Op where
  bad _ := firstBad [(16, bk.toNat ≤ 1)]
  run s :=
    let b := bk = 1
    let x := bank s b
    if x.st ≠ .loading ∨ x.owner ≠ some (h.port, h.session) ∨ (bank s !b).st = .proving then resBusy s
    else
      let s := (imageGroups x.image).foldl (fun s g => pwrUp (72 + g) s) s
      resAcc [] (setBank b { x with st := .proving } s)

def opPlateTurn (h : Hdr) (bk : BitVec 8) (id : BitVec 128) (target : Word) : Op where
  bad _ := 0
  run s :=
    if asap h ∧ target ≠ 0 then resBad 36 s
    else if (engaged s).isNone ∧ !asap h then resBad (if target = 0 then 1 else 36) s
    else turnRun h bk id target s

def opPlateAbort (h : Hdr) (bk : BitVec 8) : Op where
  bad _ := firstBad [(16, bk.toNat ≤ 1)]
  run s :=
    let b := bk = 1
    let x := bank s b
    match x.st with
    | .empty => resOk [] s
    | .turning => resBusy s
    | .engaged =>
      if (bank s !b).st = .turning then resBusy s
      else if s.plates.disengage.isSome then resOk [] s
      else resOk [] { s with plates := { s.plates with disengage := some (boundaryAt s (checkTime s h + TURN_CUTOFF + 1)) } }
    | _ => resOk [] (emptyBank b (dropTurnOf b s))

/-- State code of a bank (R388). -/
def bankCode : BankSt → Nat
  | .empty => 0 | .loading => 1 | .proving => 2 | .proven => 3 | .turning => 4 | .engaged => 5

/-- LOS_REACT of tree n under a plate, with LOS_BURSTS l (R198): the largest time from a burst's start to the end of the l-th after it. -/
def losReact (gs : List BurstG) (n l : Nat) : Nat :=
  let sp := burstSpans gs n
  let m := sp.length
  if m = 0 then 0
  else ((indexed sp).map (fun e =>
    let j := e.1 + l
    match sp[j % m]? with
    | some x => x.e + j / m * IMPRESSION - e.2.s
    | none => 0)).foldl max 0

def opPlateInfo (_ : Hdr) (bk : BitVec 8) : Op where
  bad _ := firstBad [(16, bk.toNat ≤ 1)]
  run s :=
    let b := bk = 1
    let x := bank s b
    let gs := (x.plate.map (fun p => groupBursts p.bursts)).getD []
    let tgt := match s.plates.turn with
      | some t => if t.bank = b then t.target.toNat else 0
      | none => 0
    resOk (beBytes 1 (bankCode x.st) ++ rsv 1 ++ beBytes 2 x.refusal ++ beBytes 1 x.refSection ++ rsv 3 ++ beBytes 4 x.refRecord
      ++ beBytes 16 ((x.plate.map Plate.id).getD 0).toNat ++ beBytes 4 tgt ++ beBytes 4 s.imprNum.toNat
      ++ (List.range 64).flatMap (fun n => beBytes 4 (losReact gs n (tree s n).losBursts))) s

def execPlateOpen (h : Hdr) (b : BitVec 8) (s : State) := command (.plateOpen h b) (opPlateOpen h b) s
def execPlateData (h : Hdr) (b : BitVec 8) (o : Word) (d : List Byte) (s : State) := command (.plateData h b o d) (opPlateData h b o d) s
def execPlateProof (h : Hdr) (b : BitVec 8) (s : State) := command (.plateProof h b) (opPlateProof h b) s
def execPlateTurn (h : Hdr) (b : BitVec 8) (i : BitVec 128) (t : Word) (s : State) :=
  command (.plateTurn h b i t) (opPlateTurn h b i t) s
def execPlateAbort (h : Hdr) (b : BitVec 8) (s : State) := command (.plateAbort h b) (opPlateAbort h b) s
def execPlateInfo (h : Hdr) (b : BitVec 8) (s : State) := command (.plateInfo h b) (opPlateInfo h b) s

/-! ### Events of the plate engine -/

/-- PLATE_PROVED (R55, R57, R78): the proof of a PROVING bank ends, once the lane groups it uses are on. -/
def plateProved (b : Bool) (s : State) : State :=
  let x := bank s b
  if x.st ≠ .proving then s
  else if s.plates.restore = some b then
    match s.plates.mram with
    | none => s
    | some (p, m) =>
      if !(calGroups p.millrace).all (fun g => pwrOn s (72 + g)) then s
      else
        let at_ := boundaryAt s (s.now + TURN_CUTOFF + 1)
        let s := setBank b { x with st := .proven, image := m, plate := some p } s
        let s := { s with plates := { s.plates with restore := none } }
        let s := event 0x0100 7 b.toNat ((beBytes 16 p.id.toNat).take 12) s
        { s with plates := { s.plates with turn := some { bank := b, target := boundaryNum s at_, at_ := at_, first := false, id := p.id } } }
  else if !(imageGroups x.image).all (fun g => pwrOn s (72 + g)) then s
  else
    match prove x.feats s.fuse x.image with
    | .inl (code, sec, ix) =>
      let s := setBank b { refusal := code, refSection := sec, refRecord := ix } s
      (event 0x0101 7 b.toNat (beBytes 2 code ++ beBytes 1 sec ++ rsv 1 ++ beBytes 4 ix) s)
    | .inr p =>
      let s := setBank b { x with st := .proven, plate := some p, refusal := 0, refSection := 0, refRecord := 0 } s
      (event 0x0100 7 b.toNat ((beBytes 16 p.id.toNat).take 12) s)

/-- TURN_CUTOFF (R87): the recheck at B − 12,442 mc. -/
def turnCutoff (s : State) : State :=
  match s.plates.turn with
  | none => s
  | some t =>
    let x := bank s t.bank
    let s := advance (t.at_ - TURN_CUTOFF) s
    match x.plate with
    | some p => if x.st = .proven ∧ turnChecks s p ≠ 0 then (cancelTurn (turnChecks s p) s) else s
    | none => s

/-- TURN_LEAD (R88): the bank becomes TURNING at B − 4,000 mc. -/
def turnLead (s : State) : State :=
  match s.plates.turn with
  | none => s
  | some t =>
    let x := bank s t.bank
    if x.st = .proven ∧ x.plate.any (fun p => p.id = t.id) then (setBank t.bank { x with st := .turning } (advance (t.at_ - TURN_LEAD) s))
    else s

/-- MRAM_COPY (R57): the copy of the newly engaged image replaces the previous one. -/
def mramCopy (s : State) : State :=
  match s.plates.mramBusy with
  | none => s
  | some b =>
    match (bank s b).plate with
    | some p => { s with plates := { s.plates with mram := some (p, (bank s b).image), mramBusy := none } }
    | none => { s with plates := { s.plates with mramBusy := none } }

/-- PLATE_ECC (R32): an uncorrectable storage error in the engaged bank. -/
def plateEcc (word : Word) (s : State) : State :=
  let hit := fun (b : Bool) =>
    let s := { s with plates := { s.plates with eccRepeat := true } }
    let s := eccEvent 2 word.toNat s
    event 0x0104 7 b.toNat (rsv 4 ++ beBytes 4 s.imprNum.toNat) s
  if s.plates.bank0.st = .engaged then hit false else if s.plates.bank1.st = .engaged then hit true else s

def execPlateProved (b : Bool) (s : State) := live s (plateProved b s)
def execTurnCutoff (s : State) := live s (turnCutoff s)
def execTurnLead (s : State) := live s (turnLead s)
def execMramCopy (s : State) := live s (mramCopy s)
def execPlateEcc (word : Word) (s : State) := live s (plateEcc word s)

/-! ### The turn and the disengage at their boundary -/

/-- The plate a turn names stands PROVEN or TURNING in its bank (R33). -/
def turnReady (s : State) (t : Turn) : Bool :=
  ((bank s t.bank).st = .proven || (bank s t.bank).st = .turning) && (bank s t.bank).plate.any (fun p => p.id = t.id)

/-- The turn at boundary B (Table 2.15, R56): new bank ENGAGED, old bank PROVEN, or EMPTY when its disengage is due at B; flows that move
lanes hold their first frame (R21); the copy to MRAM starts (R57); the repetition of R32 ends. A disengage pending for a later boundary ends with the
old plate's engagement and leaves that bank PROVEN: no rule says what becomes of it (DESIGN CHOICE, log 76). -/
def engageTurn (s : State) : State :=
  match s.plates.turn with
  | none => s
  | some t =>
    let old := engaged s
    let gone := s.plates.disengage = some t.at_
    let s := if (bank s !t.bank).st = .engaged then
        (if gone then emptyBank (!t.bank) s else setBank (!t.bank) { bank s !t.bank with st := .proven } s)
      else s
    let s := setBank t.bank { bank s t.bank with st := .engaged } s
    let moved := match old, (bank s t.bank).plate with
      | some o, some p => (p.flows.filter (fun f => (flowIn o f.id).any (fun g => g.lane ≠ f.lane))).map
          (fun f => (f.id, ((flowIn o f.id).map Flow.lane).getD 0))
      | _, _ => []
    { s with plates := { s.plates with turn := none, disengage := none, mramBusy := some t.bank, eccRepeat := false,
                                       laneHold := moved, prev := old } }

/-- A turn that does not take place: its bank is PROVEN again (log 77). -/
def failTurn (s : State) : State :=
  match s.plates.turn with
  | none => s
  | some t =>
    let x := bank s t.bank
    let s := if x.st = .turning then setBank t.bank { x with st := .proven } s else s
    { s with plates := { s.plates with turn := none } }

/-- The turn due at a boundary: it does not take place on a unit whose lease has expired (Table 1.5); a standby that lacks its plate falls out of
step (R33). -/
def turnDue (s : State) : State :=
  match s.plates.turn with
  | none => s
  | some t =>
    if s.pair.fencedLease then failTurn s
    else if turnReady s t then engageTurn s
    else outOfStep 6 (failTurn s)

/-- A disengage due at boundary b (R56). -/
def disengageAt (b : Nat) (s : State) : State :=
  if s.plates.disengage ≠ some b then s
  else
    let old := engaged s
    let s := [false, true].foldl (fun s k => if (bank s k).st = .engaged then emptyBank k s else s) s
    { s with plates := { s.plates with disengage := none, eccRepeat := false, prev := old, laneHold := [] } }

end Sys2Proof.Machine
end

