-- ==== Sys2Proof/Machine/Session.lean ====
section
/-! DEFINITION. Session opcodes but HELLO, counters and defects opcodes, hopper opcodes (R197, R376 to R381, R391, R405 to R408,
R412 to R418). -/

namespace Sys2Proof.Machine

/-! ### Session -/

def opNop : Op where
  bad _ := 0
  run s := resOk [] s

/-- The port's session ends (R377). -/
def endSession (p : Port) (s : State) : State :=
  match (portSt s p).session with
  | none => s
  | some x => endLoading p x.id (setPortSt p { portSt s p with session := none } s)

def opBye (h : Hdr) : Op where
  bad _ := 0
  run s := resOk [] (endSession h.port s)

/-- Every open session's set cut to the device set (R379). -/
def cutSessions (s : State) : State :=
  let cut := fun (p : PortState) => { p with session := p.session.map (fun x => { x with agreed := x.agreed &&& s.cmd.featD }) }
  { s with cmd := { s.cmd with board := cut s.cmd.board, host := cut s.cmd.host, inband := cut s.cmd.inband, pair := cut s.cmd.pair } }

/-- R379: every bank EMPTY, every tree OFF, every uplink port disabled, MODE 0 or 1. -/
def featuresFree (s : State) : Bool :=
  s.plates.bank0.st = .empty && s.plates.bank1.st = .empty
    && (List.range 64).all (fun n => (tree s n).st = .off && (tree s n).moving.isNone)
    && (List.range 32).all (fun p => !regBit s (aPORT p) 31) && pairMode s ≤ 1

/-- FEATURES (R379); reserved bits of the mask (Table 12.9) are refused (R13); a queue without LARGE_QUEUES is disabled (R236). -/
def opFeatures (h : Hdr) (set : BitVec 8) (mask : BitVec 64) : Op where
  bad _ := firstBad [(16, set.toNat ≤ 1), (20, mask &&& ~~~Config.OFFER = 0)]
  run s :=
    let reply := fun (s : State) =>
      resOk (beBytes 8 (((portSt s h.port).session.map Session.agreed).getD 0).toNat ++ beBytes 8 s.cmd.featD.toNat) s
    if set = 0 then reply s
    else if regBit s aLOCKS 0 then resLocked aLOCKS s
    else if !featuresFree s then resBusy s
    else reply (post .largeOff (cutSessions { s with cmd := { s.cmd with featD := Config.OFFER &&& mask, featFixed := true } }))

/-- The fence path (R380): a SAILS_ON unit of a pair releases its lease at once, a standby leaves, a SOLO unit feathers. -/
def fenceOn (cause : Nat) (s : State) : State :=
  let s := if s.pair.sails then releaseLease 7 s
    else if isStandby s then (let s := leavePair s; { s with pair := { s.pair with released := true } })
    else s
  fenceEvent cause { s with pair := { s.pair with fenceEpoch := some s.pair.epoch } }

/-- A fence lifted: a SOLO unit that nothing else fences raises, and a unit of a pair joins, at the next stroke boundary (R380, R462). -/
def fenceLifted (s : State) : State :=
  if s.pair.st = .solo ∧ (!s.pair.detached ∨ s.pair.released) ∧ !isFenced s ∧ !s.pair.sails then
    post .liftFence s
  else s

def opFence (action : BitVec 8) : Op where
  bad _ := firstBad [(16, action.toNat ≤ 1)]
  run s :=
    if action = 1 then
      if s.pair.fencedCmd then resOk [] s
      else
        let s := fenceOn 1 s
        resOk [] { s with pair := { s.pair with fencedCmd := true } }
    else if s.pair.fencedCmd then resOk [] (fenceLifted { s with pair := { s.pair with fencedCmd := false } })
    else resOk [] s

def execNop (h : Hdr) (s : State) := command (.nop h) opNop s
def execFeatures (h : Hdr) (set : BitVec 8) (m : BitVec 64) (s : State) := command (.features h set m) (opFeatures h set m) s
def execFence (h : Hdr) (a : BitVec 8) (s : State) : Host.Outcome State Fault Refusal := .next (deliverFence h 3 (some (.fence h a)) 0 (opFence a) s)
def execBye (h : Hdr) (s : State) := command (.bye h) (opBye h) s

/-! ### Counters (R405 to R407) -/

/-- The copy cycle of a SNAPSHOT (R405): each counter as it stood at the start of the cycle; flags of what has happened since the cycle began stay for
the next copy. A second SNAPSHOT of the cycle is merged with the first. -/
def snapshotAll (s : State) : State :=
  if s.snapCycle = some s.now then s
  else
    let new := fun (a : Nat) (c : Cnt) =>
      let o := mget {} s.cyc a
      { c with wrap := c.wrap && !o.wrap, preset := c.preset && !o.preset }
    { s with
      hold := if s.cntWrap then mmap {} (fun a c => { c with wrap := c.wrap || !s.cntKeep.contains a }) s.cyc else s.cyc
      cnt := mmap {} new s.cnt, cyc := mmap {} (fun _ c => { c with wrap := false, preset := false }) s.cyc
      holdWrap := s.cntWrap.toNat, holdKeep := s.cntKeep, cntWrap := false, cntKeep := []
      snapNum := s.snapNum + 1, snapAt := BitVec.ofNat 64 s.now, snapCycle := some s.now }

def opSnapshot : Op where
  bad _ := 0
  run s := let s := snapshotAll s; resOk (beBytes 8 s.snapAt.toNat) s

def holdBytes (c : Cnt) : List Byte := beBytes 8 c.v.toNat ++ beBytes 4 (c.wrap.toNat + 2 * c.preset.toNat)

def opCntRead (addr : Word) (count : BitVec 16) : Op where
  bad s := firstBad [(16, isCounter s addr.toNat && (List.range count.toNat).all (fun i => isCounter s (addr.toNat + 8 * i))),
    (20, 1 ≤ count.toNat ∧ count.toNat ≤ 341)]
  run s := resOk ((List.range count.toNat).flatMap (fun i => holdBytes (holdOf s (addr.toNat + 8 * i)))) s

def execSnapshot (h : Hdr) (s : State) := command (.snapshot h) opSnapshot s
def execCntRead (h : Hdr) (a : Word) (c : BitVec 16) (s : State) := command (.cntRead h a c) (opCntRead a c) s

/-! ### Defects (R197, R203) -/

/-- Object of a class exists (Table 13.15, R3, R196). -/
def objOk (s : State) (cls ix : Nat) : Bool :=
  match cls with
  | 1 => treeOk s ix
  | 2 => treeOk s (ix / 128)
  | 3 => true
  | 4 => ix < 32 && firstLane s ix
  | 5 => ix = 0
  | 6 => ix < 16 && ix ≠ 6 && ix ≠ 7
  | _ => false

/-- Bit k for the k-th defect of the class in code order. -/
def defBits (m : Map Bool) (cls ix : Nat) : Nat :=
  ((classCodes cls).zip (List.range 8)).foldl (fun a c => a + (mget false m (defKey cls ix c.1)).toNat * 2 ^ c.2) 0

def opDefectGet (cls flags : BitVec 8) (ix : BitVec 16) : Op where
  bad s := firstBad [(16, 1 ≤ cls.toNat ∧ cls.toNat ≤ 6), (17, flags &&& 0x7F = 0), (18, objOk s cls.toNat ix.toNat)]
  run s :=
    let c := cls.toNat
    let i := ix.toNat
    let r := beBytes 4 (defBits s.defects.on c i) ++ beBytes 4 (defBits s.defects.hist c i)
    if flags.getLsbD 7 then
      resOk r { s with defects := { s.defects with hist := (classCodes c).foldl (fun m k => mput false m (defKey c i k) false) s.defects.hist } }
    else resOk r s

def opDefectCfg (kind sd sf : BitVec 8) (setT clrT : BitVec 16) : Op where
  bad _ := firstBad [(16, kind.toNat ≤ 2), (17, 5 ≤ sd.toNat ∧ sd.toNat ≤ 9), (18, 3 ≤ sf.toNat ∧ sf.toNat ≤ 5 ∧ sf.toNat < sd.toNat),
    (20, 1 ≤ setT.toNat ∧ setT.toNat ≤ 600), (22, setT.toNat ≤ clrT.toNat ∧ clrT.toNat ≤ 600)]
  run s := resOk [] { s with defects := { s.defects with
      next := s.defects.next ++ [(kind.toNat, { sdExp := sd.toNat, sfExp := sf.toNat, setT := setT.toNat, clrT := clrT.toNat })] } }

def execDefectGet (h : Hdr) (c f : BitVec 8) (i : BitVec 16) (s : State) := command (.defectGet h c f i) (opDefectGet c f i) s
def execDefectCfg (h : Hdr) (k sd sf : BitVec 8) (a b : BitVec 16) (s : State) :=
  command (.defectCfg h k sd sf a b) (opDefectCfg k sd sf a b) s

/-! ### Bandwidth windows (R408) -/

/-- W admitted: 1, 2, 5, or a multiple of 10 up to 10,000. -/
def windowOk (w : Nat) : Bool := w = 1 || w = 2 || w = 5 || (w % 10 = 0 && 10 ≤ w && w ≤ 10000)

def opBwWindow (ms : Word) : Op where
  bad _ := firstBad [(16, windowOk ms.toNat)]
  run s := resOk [] (setRaw aBW_CFG (ms &&& 0x3FFF) s)

def execBwWindow (h : Hdr) (ms : Word) (s : State) := command (.bwWindow h ms) (opBwWindow ms) s

/-! ### Hoppers (R391, R413, R417) -/

/-- OWNER code of a port. -/
def ownerOf (p : Port) : BitVec 2 := match p with | .board => 0 | .host => 1 | .inband => 2 | .pair => 3

/-- A consumer operation: on a time-stamp hopper BAD_PARAM, from another port than the owner PRIVILEGE. -/
def consumer (h : Hdr) (hop : BitVec 16) (f : Hopper → State → Res) (s : State) : Res :=
  match hopOf s hop.toNat with
  | none => resBad 16 s
  | some x => if 1 < hop.toNat then resBad 16 s else if x.owner ≠ ownerOf h.port then resPriv h.port 0xA00 s else f x s

/-- A hopper replaced, with the level interrupt a risen readable count raises (R418). -/
def putHop (hop : Nat) (x' : Hopper) (s : State) : State :=
  match hopOf s hop with
  | none => s
  | some x => hopLevel hop x' (hopReadable x) (hopReadable x') (setHop hop x' s)

/-- Up to n items read (R413). -/
def hopReadRes (hop : BitVec 16) (count : Nat) (peek : Bool) (x : Hopper) (s : State) : Res :=
  let (l, x') := hopRead s.now x (min count (4088 / x.width)) peek
  resOk (beBytes 4 x.rd.toNat ++ beBytes 2 l.length ++ rsv 2 ++ l.flatMap (itemBytes x.width)) (setHop hop.toNat x' s)

def opHopRead (h : Hdr) (hop count : BitVec 16) (flags : BitVec 8) : Op where
  bad s := firstBad [(16, (hopOf s hop.toNat).isSome), (20, flags &&& 0x7F = 0 && (hop.toNat ≤ 1 || flags.getLsbD 7))]
  run s :=
    if flags.getLsbD 7 then
      match hopOf s hop.toNat with
      | none => resBad 16 s
      | some x => hopReadRes hop count.toNat true x s
    else consumer h hop (hopReadRes hop count.toNat false) s

def opHopMark (h : Hdr) (hop : BitVec 16) : Op where
  bad s := firstBad [(16, (hopOf s hop.toNat).isSome)]
  run s := consumer h hop (fun x s => resOk (beBytes 4 x.rd.toNat) (setHop hop.toNat { x with mark := x.rd } s)) s

def opHopRewind (h : Hdr) (hop : BitVec 16) : Op where
  bad s := firstBad [(16, (hopOf s hop.toNat).isSome)]
  run s := consumer h hop (fun x s =>
    if seqLt x.mark x.rel then resStale s else resOk (beBytes 4 x.mark.toNat) (putHop hop.toNat { x with rd := x.mark } s)) s

def opHopRelease (h : Hdr) (hop : BitVec 16) (q : Word) : Op where
  bad s := firstBad [(16, (hopOf s hop.toNat).isSome)]
  run s := consumer h hop (fun x s => if seqLe x.rd q then resBad 20 s else resOk [] (setHop hop.toNat (hopRelease x q) s)) s

/-- OWNER of hopper 0 or 1 named (R417). -/
def setOwner (hop : Nat) (o : BitVec 2) (s : State) : State :=
  match hopOf s hop with
  | none => s
  | some x => if o = x.owner then s else putHop hop (hopOwn o x) s

/-- LEVEL of hopper 0 or 1. -/
def setLevel (hop l : Nat) (s : State) : State :=
  match hopOf s hop with
  | none => s
  | some x => setHop hop { x with level := l } s

def opHopCfg (_ : Hdr) (hop : BitVec 16) (owner : BitVec 8) (level : Word) : Op where
  bad s := firstBad [(16, hop.toNat ≤ 1), (18, owner.toNat ≤ 2),
    (20, decide (level.toNat < ((hopOf s hop.toNat).map Hopper.slots).getD 0))]
  run s := resOk [] (setOwner hop.toNat (BitVec.ofNat 2 owner.toNat) (setLevel hop.toNat level.toNat s))

def execHopRead (h : Hdr) (p c : BitVec 16) (f : BitVec 8) (s : State) := command (.hopRead h p c f) (opHopRead h p c f) s
def execHopMark (h : Hdr) (p : BitVec 16) (s : State) := command (.hopMark h p) (opHopMark h p) s
def execHopRewind (h : Hdr) (p : BitVec 16) (s : State) := command (.hopRewind h p) (opHopRewind h p) s
def execHopRelease (h : Hdr) (p : BitVec 16) (q : Word) (s : State) := command (.hopRelease h p q) (opHopRelease h p q) s
def execHopCfg (h : Hdr) (p : BitVec 16) (o : BitVec 8) (l : Word) (s : State) := command (.hopCfg h p o l) (opHopCfg h p o l) s

end Sys2Proof.Machine
end

