-- ==== Sys2Proof/Machine/Aes.lean ====
section
/-! DEFINITION. AES-128 (FIPS 197) and AES key wrap (RFC 3394): the integrity check of a wrapped key, the key it holds, KCV, and encryption of XGEM
payloads in counter mode (R126 to R132, Table 11.3). A block is its sixteen bytes in order. -/

namespace Sys2Proof.Machine

/-- The substitution table of FIPS 197, sixteen bytes a row, entry 0 of a row in its most significant byte. -/
def aesSubTable : List Nat :=
  [0x637c777bf26b6fc53001672bfed7ab76, 0xca82c97dfa5947f0add4a2af9ca472c0, 0xb7fd9326363ff7cc34a5e5f171d83115, 0x04c723c31896059a071280e2eb27b275] ++
  [0x09832c1a1b6e5aa0523bd6b329e32f84, 0x53d100ed20fcb15b6acbbe394a4c58cf, 0xd0efaafb434d338545f9027f503c9fa8, 0x51a3408f929d38f5bcb6da2110fff3d2] ++
  [0xcd0c13ec5f974417c4a77e3d645d1973, 0x60814fdc222a908846eeb814de5e0bdb, 0xe0323a0a4906245cc2d3ac629195e479, 0xe7c8376d8dd54ea96c56f4ea657aae08] ++
  [0xba78252e1ca6b4c6e8dd741f4bbd8b8a, 0x703eb5664803f60e613557b986c11d9e, 0xe1f8981169d98e949b1e87e9ce5528df, 0x8ca1890dbfe6426841992d0fb054bb16]

/-- Its inverse, sixteen bytes a row, entry 0 of a row in its most significant byte. -/
def aesInvTable : List Nat :=
  [0x52096ad53036a538bf40a39e81f3d7fb, 0x7ce339829b2fff87348e4344c4dee9cb, 0x547b9432a6c2233dee4c950b42fac34e, 0x082ea16628d924b2765ba2496d8bd125] ++
  [0x72f8f66486689816d4a45ccc5d65b692, 0x6c704850fdedb9da5e154657a78d9d84, 0x90d8ab008cbcd30af7e45805b8b34506, 0xd02c1e8fca3f0f02c1afbd0301138a6b] ++
  [0x3a9111414f67dcea97f2cfcef0b4e673, 0x96ac7422e7ad3585e2f937e81c75df6e, 0x47f11a711d29c5896fb7620eaa18be1b, 0xfc563e4bc6d279209adbc0fe78cd5af4] ++
  [0x1fdda8338807c731b11210592780ec5f, 0x60517fa919b54a0d2de57a9f93c99cef, 0xa0e03b4dae2af5b0c8ebbb3c83539961, 0x172b047eba77d626e169146355210c7d]

/-- Entry x of a table. -/
def aesLook (t : List Nat) (x : Nat) : Nat := ((t[x / 16]?).getD 0 >>> (8 * (15 - x % 16))) % 256

/-- Product by x in GF(2^8). -/
def xtime (a : Nat) : Nat := if a < 128 then 2 * a else (2 * a - 256) ^^^ 0x1B

/-- Product by a constant below 16 in GF(2^8). -/
def gfMul (c a : Nat) : Nat :=
  let a2 := xtime a
  let a4 := xtime a2
  (if c % 2 = 1 then a else 0) ^^^ (if c / 2 % 2 = 1 then a2 else 0) ^^^ (if c / 4 % 2 = 1 then a4 else 0) ^^^ (if c / 8 = 1 then xtime a4 else 0)

def xorAll (a b : List Nat) : List Nat := List.zipWith (fun x y => x ^^^ y) a b

/-- Row r of the block moved by k · r columns to the left. -/
def aesShift (k : Nat) (l : List Nat) : List Nat := (List.range 16).map (fun i => (l[(i + 4 * k * (i % 4)) % 16]?).getD 0)

/-- One column times the circulant matrix of first row (a, b, c, d). -/
def aesColumn (a b c d : Nat) : List Nat → List Nat
  | [w, x, y, z] =>
    [gfMul a w ^^^ gfMul b x ^^^ gfMul c y ^^^ gfMul d z, gfMul d w ^^^ gfMul a x ^^^ gfMul b y ^^^ gfMul c z,
     gfMul c w ^^^ gfMul d x ^^^ gfMul a y ^^^ gfMul b z, gfMul b w ^^^ gfMul c x ^^^ gfMul d y ^^^ gfMul a z]
  | l => l

def aesMix (a b c d : Nat) (l : List Nat) : List Nat :=
  aesColumn a b c d (l.take 4) ++ aesColumn a b c d ((l.drop 4).take 4) ++ aesColumn a b c d ((l.drop 8).take 4) ++ aesColumn a b c d (l.drop 12)

/-- The next round key, with round constant rc. -/
def aesNext (rc : Nat) (k : List Nat) : List Nat :=
  let w := k.drop 12
  let g := xorAll (((w.drop 1) ++ w.take 1).map (aesLook aesSubTable)) [rc, 0, 0, 0]
  let a := xorAll (k.take 4) g
  let b := xorAll ((k.drop 4).take 4) a
  let c := xorAll ((k.drop 8).take 4) b
  a ++ b ++ c ++ xorAll w c

/-- The n round keys after k, each followed by those after it, first first. -/
def aesKeys : Nat → Nat → List Nat → List (List Nat)
  | 0, _, _ => []
  | n + 1, rc, k => let k' := aesNext rc k; k' :: aesKeys n (xtime rc) k'

/-- The rounds of encryption under the round keys still to be used. -/
def aesRounds : List (List Nat) → List Nat → List Nat
  | [], l => l
  | [k], l => xorAll (aesShift 1 (l.map (aesLook aesSubTable))) k
  | k :: ks, l => aesRounds ks (xorAll (aesMix 2 3 1 1 (aesShift 1 (l.map (aesLook aesSubTable)))) k)

/-- The rounds of decryption under the round keys in reverse order. -/
def aesInvRounds : List (List Nat) → List Nat → List Nat
  | [], l => l
  | [k], l => xorAll ((aesShift 3 l).map (aesLook aesInvTable)) k
  | k :: ks, l => aesInvRounds ks (aesMix 14 11 13 9 (xorAll ((aesShift 3 l).map (aesLook aesInvTable)) k))

/-- A number of n bytes, and back. -/
def toBlock (n : Nat) (v : Nat) : List Nat := (beBytes n v).map BitVec.toNat
def ofBlock (l : List Nat) : Nat := l.foldl (fun a b => 256 * a + b) 0

/-- AES-128 encryption and decryption of one block. -/
def aesEnc (key : BitVec 128) (x : Nat) : Nat :=
  let k := toBlock 16 key.toNat
  ofBlock (aesRounds (aesKeys 10 1 k) (xorAll (toBlock 16 x) k))

def aesDec (key : BitVec 128) (x : Nat) : Nat :=
  match (k₀ key :: aesKeys 10 1 (k₀ key)).reverse with
  | [] => x
  | k :: ks => ofBlock (aesInvRounds ks (xorAll (toBlock 16 x) k))
where
  /-- The cipher key as a block. -/
  k₀ (key : BitVec 128) : List Nat := toBlock 16 key.toNat

/-! ### Key wrap (RFC 3394) -/

/-- Step t of the unwrapping, down to 1: check value a, halves r1 and r2 of the key. -/
def unwrapSteps (kek : BitVec 128) : Nat → Nat × Nat × Nat → Nat × Nat × Nat
  | 0, x => x
  | t + 1, (a, r1, r2) =>
    let b := aesDec kek ((a ^^^ (t + 1)) * 2 ^ 64 + if (t + 1) % 2 = 1 then r1 else r2)
    unwrapSteps kek t (if (t + 1) % 2 = 1 then (b / 2 ^ 64, b % 2 ^ 64, r2) else (b / 2 ^ 64, r1, b % 2 ^ 64))

/-- A wrapped key taken apart under the key-wrapping key. -/
def unwrap (kek : BitVec 128) (w : BitVec 192) : Nat × Nat × Nat :=
  unwrapSteps kek 12 (w.toNat / 2 ^ 128, w.toNat / 2 ^ 64 % 2 ^ 64, w.toNat % 2 ^ 64)

/-- The integrity check of a wrapped key (R127). -/
def unwrapOk (kek : BitVec 128) (w : BitVec 192) : Bool := (unwrap kek w).1 = 0xA6A6A6A6A6A6A6A6

/-- The key a wrapped key holds. -/
def plainKey (kek : BitVec 128) (w : BitVec 192) : BitVec 128 :=
  let x := unwrap kek w
  BitVec.ofNat 128 (x.2.1 * 2 ^ 64 + x.2.2)

/-- CRC-32C of the unwrapped key, for the digest (Table 11.3). -/
def keyCrc (kek : BitVec 128) (w : BitVec 192) : BitVec 32 := crc32c (beBytes 16 (plainKey kek w).toNat)

/-- KCV: the first 3 bytes of the AES-128 encryption of the all-zero block (R129). -/
def kcv (key : BitVec 128) : BitVec 24 := BitVec.ofNat 24 (aesEnc key 0 / 2 ^ 104)

/-! ### Counter mode (R126, R131, R132) -/

/-- The payload of an XGEM frame encrypted, and equally decrypted, in counter mode from an initial counter block. -/
def ctrMode (key icb : BitVec 128) (l : List Byte) : List Byte :=
  l.mapIdx (fun i b => b ^^^ BitVec.ofNat 8 (aesEnc key ((icb.toNat + i / 16) % 2 ^ 128) / 256 ^ (15 - i % 16)))

/-- A payload under the key of a slot: unwrapped under the key-wrapping key, in counter mode from the block that G.9804.2 forms of the superframe counter
and the frame's position. -/
def xgemCrypt (kwk : Option (BitVec 128)) (wrapped : BitVec 192) (up : Bool) (superframe pos : Nat) (l : List Byte) : List Byte :=
  ctrMode (plainKey (kwk.getD 0) wrapped) (Config.counterBlock up superframe pos) l

end Sys2Proof.Machine
end

