-- ==== Sys2Proof/Machine/TermCore.lean ====
section
/-! DEFINITION. Terminals: PLOAM queueing, state changes, activation, ranging arithmetic, queues (R137 to R163, Tables 4.1 to 4.6). -/

namespace Sys2Proof.Machine

open Config

/-! ### Small conditions -/

/-- This unit decides: a standby's own receptions drive no decision (R333). -/
def decides (s : State) : Bool := !isStandby s

/-- FEEDER_SKEW that applies on this unit to tree n: 0 on the HOME unit and on a unit that is not of a pair, that is in MODE 2 (R205, R327). -/
def skewOf (s : State) (n : Nat) : Int :=
  let t := tree s n
  if pairMode s = 2 ∧ (regBit s aPAIR_CFG 29).toNat ≠ t.home then t.skew else 0

/-- T_EQ of tree n, 1/40 mc (R144). -/
def tEq (s : State) (n : Nat) : Nat := 40 * ((tree s n).set.rtdMin + (tree s n).set.reach * RTT_PER_100M)

/-- RTD_MIN of tree n, 1/40 mc. -/
def rtdLo (s : State) (n : Nat) : Nat := 40 * (tree s n).set.rtdMin

/-- Bursts of the engaged plate for terminal g. -/
def plateBursts (s : State) (g : Nat) : List Burst :=
  ((engaged s).map (fun p => p.bursts.filter (fun b => b.tree = g / 128 && b.term = g % 128))).getD []

/-- The engaged plate grants the terminal a burst with PLOAMU = 1: it is ACTIVE and such a record exists, not chained (R103, R155). -/
def ploamuOk (s : State) (g : Nat) : Bool := (term s g).st = .active && (plateBursts s g).any (fun b => b.ploamu && !b.chain)

/-- The integrity key of terminal g in a frame that starts at counter value b: the carried key from the boundary its command names, else the default
key (R139). -/
def integrity (s : State) (g b : Nat) : MicKey :=
  let t := term s g
  match t.pkey with
  | some w => if t.pkeyOn ∨ (nextBoundary s ≤ b ∧ seqLe t.pkeyImpr (s.imprNum + 1)) then .key (plainKey (s.power.kwk.getD 0) w) else .dflt
  | none => .dflt

/-- TERMINAL record of a slot (Table 11.2). -/
def termCode : TermSt → Nat
  | .unseen => 0 | .discovered => 1 | .ranged => 2 | .active => 3 | .popup => 4 | .disabled => 5 | .rogue => 6

def termRecOf (s : State) (g : Nat) : Rec :=
  let t := term s g
  .terminal g (termCode t.st) t.eqd t.rtd t.wasActive t.tries

/-- The partner told of a terminal's decision (R333). -/
def tellTerm (g : Nat) (s : State) : State := streamPush (termRecOf s g) s

/-- The slot that holds a serial number on the device. -/
def slotOf (s : State) (serial : BitVec 64) : Option Nat :=
  if serial = 0 then none else (s.terms.find? (fun e => e.2.serial = serial)).map Prod.fst

/-- The terminal's tap entry invalidated (R115). -/
def dropTaps (g : Nat) (s : State) : State := { s with taps := mupd {} s.taps g (fun t => { t with valid := false }) }

/-! ### PLOAM queues (R154 to R157) -/

/-- Message type codes of the G.9804.2 family (PRESUMED, log 31). -/
def ploamType : PKind → Nat
  | .burstProfile _ _ => 0x01 | .assignOnu => 0x03 | .rangingTime _ => 0x04 | .deactivate => 0x05 | .disableSn _ => 0x06
  | .requestReg => 0x09 | .assignAlloc _ => 0x0A | .systemProfile => 0x17 | .channelProfile => 0x18 | .protection => 0x19
  | .host t => t

/-- Types that PLOAM_SEND refuses: device-owned, and those never sent (Table 4.5). -/
def deviceTypes : List Nat := [0x01, 0x03, 0x04, 0x05, 0x06, 0x09, 0x0A, 0x12, 0x14, 0x15, 0x17, 0x18, 0x19]

/-- Class order of R156. No rule says when the device sends a Protection_Control of its own, so none is queued (DESIGN CHOICE, log 130). -/
def ploamClass : PKind → Nat
  | .disableSn _ | .deactivate => 1
  | .assignOnu | .rangingTime _ | .requestReg => 2
  | .burstProfile _ _ | .assignAlloc _ => 3
  | .protection => 4
  | .host _ => 5
  | .systemProfile | .channelProfile => 6

/-- Messages that await acknowledgement (Table 4.6). -/
def awaitsAck : PKind → Bool
  | .rangingTime _ | .burstProfile _ _ | .assignAlloc _ => true
  | _ => false

/-- A device message queued on tree n with the next sequence number. -/
def queueMsg (n : Nat) (slot : Option Nat) (k : PKind) (value : Nat) (s : State) : State :=
  updTree n (fun t => { t with msgs := t.msgs ++ [{ slot := slot, kind := k, seq := t.ploamSeq, value := value, content := [] }],
                               ploamSeq := t.ploamSeq + 1, hostSeqs := t.hostSeqs.filter (· ≠ t.ploamSeq) }) s

/-- Queued and awaited messages of a terminal whose kind satisfies f withdrawn. -/
def dropMsgs (g : Nat) (f : PKind → Bool) (s : State) : State :=
  let s := updTree (g / 128) (fun t => { t with msgs := t.msgs.filter (fun m => !(m.slot = some (g % 128) && f m.kind)) }) s
  updTerm g (fun t => { t with awaits := t.awaits.filter (fun a => !f a.msg.kind) }) s

def isActKind : PKind → Bool
  | .burstProfile _ false | .assignAlloc _ => true
  | _ => false
def isChange : PKind → Bool
  | .burstProfile _ c => c
  | _ => false
def isRanging : PKind → Bool
  | .rangingTime _ => true
  | _ => false

/-- Some message of the terminal of a kind is queued or awaits acknowledgement. -/
def pendingKind (s : State) (g : Nat) (f : PKind → Bool) : Bool :=
  (tree s (g / 128)).msgs.any (fun m => m.slot = some (g % 128) && f m.kind) || (term s g).awaits.any (fun a => f a.msg.kind)

/-- Ranging_Time, superseding an earlier one (R157). -/
def sendRanging (g : Nat) (drift : Bool) (s : State) : State :=
  queueMsg (g / 128) (some (g % 128)) (.rangingTime drift) (term s g).eqd (dropMsgs g isRanging s)

/-- Burst_Profile for the listed indices at a rate (R107). -/
def sendProfiles (g : Nat) (l : List Nat) (change : Bool) (rate : Nat) (s : State) : State :=
  l.foldl (fun s i => queueMsg (g / 128) (some (g % 128)) (.burstProfile i change) (if i = 3 then 2 else rate) s) s

/-- An activation message again (R474). -/
def sendAct (g : Nat) (k : PKind) (s : State) : State :=
  match k with
  | .burstProfile i _ => sendProfiles g [i] false (term s g).rate s
  | .assignAlloc i => queueMsg (g / 128) (some (g % 128)) k (((term s g).allocs[i]?).getD 0) s
  | _ => s

/-! ### Band ranging and probes (R147) -/

def queueBand (g : Nat) (s : State) : State :=
  updTree (g / 128) (fun t => { t with bandQ := if t.bandQ.contains (g % 128) then t.bandQ else t.bandQ ++ [g % 128] }) s

/-- The CDR phase of the tap entry moves with a drift correction of d, 1/40 mc, and back with one undone (R153, log 112). -/
def cdrAdjust (g : Nat) (d : Int) (s : State) : State :=
  { s with taps := mupd {} s.taps g (fun x => if x.valid then { x with taps := { x.taps with cdr := Config.cdrMove x.taps.cdr d } } else x) }

/-- EQD corrected for drift: the entry's CDR phase goes with it, and the partner is told (R152, R153, R333). -/
def driftTo (g eqd : Nat) (s : State) : State :=
  streamPush (.drift g eqd) (updTerm g (fun t => { t with eqd := eqd }) (cdrAdjust g ((eqd : Int) - (term s g).eqd) s))

/-- After a failed attempt the terminal joins again at the back. -/
def requeueBand (g : Nat) (s : State) : State :=
  updTree (g / 128) (fun t => { t with bandQ := t.bandQ.filter (· ≠ g % 128) ++ [g % 128] }) s

/-! ### State changes (R141, R142, Table 4.3) -/

/-- The terminal's defects as a state it enters leaves them (R194, Table 6.1): TM_LOS clears in ACTIVE, all of them outside service. -/
def termService (g : Nat) (st : TermSt) (s : State) : State :=
  if st = .active then defClear 2 g TM_LOS 0 s
  else if st = .popup then s
  else
    updTerm g (fun x => { x with losRun := 0, lobRun := 0, lobSd := false, foundRun := 0, rdiRun := 0, rdiClr := 0, driftOk := 0 })
      (estDrop 2 g (defLeave 2 g s))

/-- The terminal changes state with a cause: what Table 4.3 and R142 tie to the state entered and left, and the event TERM_STATE. -/
def moveTerm (g : Nat) (st : TermSt) (cause : Nat) (s : State) : State :=
  let n := g / 128
  let k := g % 128
  let t := term s g
  if t.st = st then s
  else
    let out := st = .unseen ∨ st = .disabled ∨ st = .rogue
    let s := updTree n (fun x => { x with bandQ := x.bandQ.filter (· ≠ k), popupQ := x.popupQ.filter (· ≠ k) }) s
    let s := if out ∨ st = .discovered then dropMsgs g awaitsAck s else s
    let s := updTerm g (fun x =>
      let x := { x with st := st, timer := 0, activeDue := none, actAsked := false }
      let x := if out then { x with eqd := 0, eqdAck := 0, wasActive := false, tries := 0, rateNext := none } else x
      let x := if out ∨ st = .discovered then
          { x with rangeAcked := false, actLeft := [], actFailed := false, allocsSent := false }
        else x
      if st = .active then
        { x with wasActive := true, tries := 0, dlmN := (cntOf s (cTerm g 0x30)).v.toNat, dlmS := (cntOf s (cTerm g 0x28)).v.toInt }
      else x) s
    let s := if out then dropTaps g s else s
    let s := if st = .popup then updTree n (fun x => { x with popupQ := x.popupQ ++ [k] }) s else s
    let s := if st = .disabled then queueMsg n (some k) (.disableSn false) 0 s
      else if st = .unseen ∧ (t.st = .disabled ∨ t.st = .rogue) then queueMsg n (some k) (.disableSn true) 0 s
      else if st = .unseen then queueMsg n (some k) .deactivate 0 s
      else s
    let s := event 0x0200 2 g (beBytes 1 (termCode t.st) ++ beBytes 1 (termCode st) ++ beBytes 1 cause) s
    tellTerm g (termService g st s)

/-- The terminal returns to UNSEEN with RANGE_FAIL (Table 4.3). -/
def rangeFail (g cause : Nat) (s : State) : State :=
  let tries := (term s g).tries
  event 0x0201 2 g (beBytes 1 tries) (moveTerm g .unseen cause s)

/-- One failed ranging attempt (R147, R148): the third leaves DISCOVERED; a terminal still to be ranged joins the queue at the back. -/
def rangeMiss (g : Nat) (again : Bool) (s : State) : State :=
  let s := updTerm g (fun t => { t with tries := min 3 (t.tries + 1) }) s
  let t := term s g
  if t.st = .discovered ∧ t.tries = 3 then rangeFail g 7 s
  else tellTerm g (if again then requeueBand g s else s)

/-- Discovery accepted for a slot in UNSEEN or POPUP with its Rc, 1/40 mc (Table 4.3, R147). -/
def discover (g rc : Nat) (s : State) : State :=
  let was := (term s g).st
  let s := updTerm g (fun t => { t with eqd := 0, eqdAck := 0, rtd := rc, rcHeld := true,
                                        wasActive := if was = .popup then false else t.wasActive }) s
  let s := moveTerm g .discovered 1 s
  let s := queueMsg (g / 128) (some (g % 128)) .assignOnu (term s g).serial.toNat s
  if (term s g).auto then queueBand g s else s

/-- Ranged (Table 4.3): EQD and RTD stored, taps invalid where EQD changes (R115), Ranging_Time and profiles 0 to 3. -/
def ranged (g rtd : Nat) (s : State) : State :=
  let eqd := tEq s (g / 128) - rtd
  let s := if eqd ≠ (term s g).eqd then dropTaps g s else s
  let s := updTerm g (fun t => { t with rtd := rtd, eqd := eqd, rcHeld := false }) s
  let s := moveTerm g .ranged 2 s
  let s := updTerm g (fun t =>
    { t with
      rangeAcked := false, actFailed := false, allocsSent := false,
      actLeft := [.burstProfile 0 false, .burstProfile 1 false, .burstProfile 2 false, .burstProfile 3 false]
        ++ (if t.wasActive then [] else [.assignAlloc 0, .assignAlloc 1, .assignAlloc 2, .assignAlloc 3]) }) s
  sendProfiles g [0, 1, 2, 3] false (term s g).rate (sendRanging g false s)

/-- Activation (Table 4.3, R474): the allocations are assigned once Ranging_Time is acknowledged and activation is asked for; after the
last acknowledgement the terminal is ACTIVE at the next impression boundary. -/
def actStep (g : Nat) (s : State) : State :=
  let t := term s g
  if t.st ≠ .ranged ∨ !t.rangeAcked ∨ t.actFailed ∨ !(t.actAsked || t.auto || t.wasActive) then s
  else if !t.wasActive ∧ !t.allocsSent then
    [0, 1, 2, 3].foldl (fun s i => sendAct g (.assignAlloc i) s) (updTerm g (fun t => { t with allocsSent := true }) s)
  else if t.actLeft = [] then updTerm g (fun t => { t with activeDue := some 7 }) s
  else s

/-- TM_LOS on an ACTIVE terminal: POPUP (Table 4.3). -/
def termLos (g : Nat) (s : State) : State :=
  let s := defSet 2 g TM_LOS s
  if declared s 2 g TM_LOS ∧ (term s g).st = .active ∧ decides s then moveTerm g .popup 4 s else s

/-- Suspicious energy or identity on a tree: one OOG event (R125, R159); one within a frame whose grants are withheld tells that it is not silent. -/
def oogEvent (n : Nat) (s : State) : State :=
  let s := event 0x020F 1 n (rsv 4 ++ beBytes 4 s.imprNum.toNat) (bump (cTree n 0x130) 1 s)
  updTree n (fun t =>
    { t with oogImpr := t.oogImpr + 1, oogAt := some s.now,
             rogue := { t.rogue with heard := t.rogue.heard || t.rogue.heldAt.any (fun b => decide (b ≤ s.now) && decide (s.now < b + Config.FRAME)) } }) s

end Sys2Proof.Machine
end

