-- ==== Sys2Proof/Machine/Line.lean ====
section
/-! DEFINITION. What stands on a tree's line and at its balls: units of the bandwidth map, burst profiles, the delimiter, BRST, SD
(R97, R105 to R107, R116, R117, R123 to R125). -/

namespace Sys2Proof.Machine

open Config

/-! ### StartTime, GrantSize, expected arrival (R105) -/

/-- The unit of G.9804.2 at a rate, in line bits; no more than 4 mc, so that a shift is at most 2 mc. -/
def unitBits (rate : Nat) : Nat := 1 + grantUnit rate % (4 * lineBits rate)

/-- Line bits to the nearest unit, ties toward the earlier. -/
def toUnits (rate bits : Nat) : Nat := (2 * bits + unitBits rate - 1) / (2 * unitBits rate)

/-- StartTime and GrantSize of an allocation structure. -/
def startTime (m : MapEntry) : Nat := toUnits m.rate (m.data * lineBits m.rate)
def grantSize (m : MapEntry) : Nat := toUnits m.rate ((m.data + m.len) * lineBits m.rate) - startTime m

/-- E: the first delimiter bit of a granted burst by its rounded start, in line bits of the burst's rate from the start of its frame (R105, R117), before
FEEDER_SKEW. -/
def expected (g : Grant) : Int :=
  (toUnits g.rate ((g.plateStart - g.base + PRE g.pclass + DELIM) * lineBits g.rate) * unitBits g.rate : Nat) - (DELIM * lineBits g.rate : Nat)

/-! ### Profiles (R106, R107) -/

/-- Preamble class, rate and preamble length in line bits of a profile index for a terminal of a configured rate. -/
def profileOf (i rate : Nat) : Nat × Nat × Nat :=
  let c := min i 2
  let r := if i = 3 then 2 else rate
  (c, r, PRE c * lineBits r)

/-! ### The delimiter (R116, R117) -/

def delimPattern : BitVec 160 := 0xB28CE539D64F0A71C93E85B24D1FA6C07E3952D8

/-- Bits of the delimiter at a rate. -/
def delimBits (rate : Nat) : Nat := DELIM * lineBits rate

/-- Hamming distance of the bits at a position to the delimiter. -/
def hamming (rate : Nat) (seen : BitVec 160) : Nat := (List.range (delimBits rate)).countP (fun i => (seen ^^^ delimPattern).getMsbD i)

/-- DLM_CFG threshold of a rate, clamped to its range (R136). -/
def dlmThreshold (s : State) (n rate : Nat) : Nat :=
  let a := aTREE n + 0x10
  if rate = 0 then min 80 (regFld s a 7 0) else if rate = 1 then min 40 (regFld s a 15 8) else min 20 (regFld s a 23 16)

/-- The winning delimiter position: least distance, then earliest (R117). -/
def delimWin (rate thr : Nat) (l : List (Int × BitVec 160)) : Option Int :=
  ((l.filter (fun x => decide (x.1.natAbs ≤ DELIM_WIN * lineBits rate) && decide (hamming rate x.2 ≤ thr))).foldl (fun a x =>
    match a with
    | none => some x
    | some y => if hamming rate x.2 < hamming rate y.2 ∨ (hamming rate x.2 = hamming rate y.2 ∧ x.1 < y.1) then some x else some y) none).map Prod.fst

/-- A response at 12.4416 Gb/s shows the delimiter within the threshold (R148). -/
def respSeen (s : State) (n : Nat) (seen : BitVec 160) : Bool := hamming 2 seen ≤ dlmThreshold s n 2

/-- End of a grant. -/
def grantEnd (g : Grant) : Nat := g.start + g.len

/-! ### BRST (R123, R124) -/

/-- L = min(BRST_LEAD, 56) and W = min(BRST_WIDTH, L − 8). -/
def brstLead (s : State) (n : Nat) : Nat := min (regFld s (aTREE n + 0x0C) 15 8) 56
def brstWidth (s : State) (n : Nat) : Int := min (regFld s (aTREE n + 0x0C) 7 0 : Int) ((brstLead s n : Int) - 8)

/-- What BRST announces: granted bursts and quiet windows; a chained record has no pulse of its own. -/
def brstStarts (s : State) (n : Nat) : List Nat := (tree s n).grants.map Grant.start ++ (tree s n).quietSpans.map Prod.fst

/-- BRST of tree n is asserted at counter value t. -/
def brstOn (s : State) (n t : Nat) : Bool :=
  let l := brstLead s n
  let w := (brstWidth s n).toNat
  (brstStarts s n).any (fun a => decide (a ≤ t + l) && decide (t + l < a + w))
    || (tree s n).respEnds.any (fun e => decide (e + 8 ≤ t) && decide (t < e + 8 + w))

/-- The level at the BRST ball; none: not driven, in OFF. Deasserted in DARK, and in LIT outside commanded windows. -/
def brstLevel (s : State) (n t : Nat) : Option Bool :=
  let x := (tree s n).st
  if x = .off then none
  else some ((x ≠ .dark && brstOn s n t) != regBit s (aTREE n + 0x0C) 25)

/-- The end of a response found at a delimiter time of 1/40 mc: delimiter and one codeword at 12.4416 Gb/s. A BRST pulse follows it (R124). -/
def respEnd (delim : Nat) : Nat := ceilDiv delim 40 + DELIM + CW 2
def respFound (n delim : Nat) (s : State) : State := updTree n (fun t => { t with respEnds := t.respEnds ++ [respEnd delim] }) s

/-! ### SD (R125) -/

/-- The grant mask of tree n at counter value t. -/
def inMask (s : State) (n t : Nat) : Bool :=
  let h := regFld s (aTREE n + 0x0C) 23 16
  (tree s n).grants.any (fun g => decide (g.start ≤ t + h) && decide (t < g.start + g.len + h))
    || ((tree s n).quietSpans ++ (tree s n).slackSpans).any (fun x => decide (x.1 ≤ t) && decide (t < x.2))

/-! ### Tap sets (R110, R111) -/

/-- A captured tap set taken apart (R110). -/
def Taps.ofBits (b : BitVec 408) : Taps :=
  { ffe := b.extractLsb' 120 288, dfe := b.extractLsb' 24 96, gain := b.extractLsb' 16 8, cdr := b.extractLsb' 0 16 }

/-- The shadow set becomes live at its burst's START. -/
def tapsLive (n : Nat) (s : State) : State :=
  updTree n (fun t => match t.shadow with
    | some (a, x) => if a ≤ s.now then { t with live := x, shadow := none } else t
    | none => t) s

/-! ### Downstream times (R100) -/

/-- wire(n, f, p): the mill cycle, from the impression boundary, in which composable byte p of frame f sits on the line, with m = M(n, f). -/
def wire (m f p : Nat) : Nat :=
  let q := 1280 + m + p
  f * FRAME + 432 * (q / 1824) + q % 1824 / 5

end Sys2Proof.Machine
end

