-- ==== Sys2Proof/Machine/TribCore.lean ====
section
/-! DEFINITION. Tributaries: sizes, the downstream store, the tributary frame, the deframer (R166 to R183, Tables 5.1 to 5.5). -/

namespace Sys2Proof.Machine

/-- T, C and the uplink-side sizes of an entry (R171). -/
def tribT (c : TCfg) : Nat := c.payLen + 10
def tribC (c : TCfg) : Nat := c.k * tribT c
def tribUmax (c : TCfg) : Nat := if c.kindPacket then c.payLen - 2 else c.payLen + 26 + 4 * c.vtags
def tribUmin (c : TCfg) : Nat := if c.kindPacket then 64 else c.payLen + 26 + 4 * c.vtags

/-- Structure-agnostic data subtype of IEEE 1914.3 (PRESUMED, log 40). -/
def roeSub : Nat := 2

/-- A FLOW_OVERSIZE frame of a flow and domain: counted, and reported once per flow per impression (R189). -/
def oversize (f d len : Nat) (s : State) : State :=
  let s := bump (cbDom d 7) 1 (bump (xFlow f 13) 1 s)
  if s.mill.oversizeTold.contains f then s
  else event 0x0306 3 f (beBytes 2 len ++ beBytes 1 d) { s with mill := { s.mill with oversizeTold := f :: s.mill.oversizeTold } }

/-- The RDI a downstream tributary sends: RET_EN and a defect of the reverse tributary, or TM_LOS of the terminal. -/
def rdiOf (s : State) (r : Flow) : Bool :=
  let c := (trib s r.id).cfg
  c.retEn && (declared s 3 c.retFlow TB_LOF || declared s 3 c.retFlow TB_AIS || declared s 3 c.retFlow TB_SLM
    || declared s 2 (128 * r.tree + r.term) TM_LOS)

/-- RDI of the frame that starts at b follows the state at the start of its composition (Table 5.8). -/
def rdiCapture (p : Plate) (n b : Nat) (s : State) : State :=
  (p.flows.filter (fun r => r.trib && !r.up && r.tree = n)).foldl (fun s r =>
    setTrib r.id { trib s r.id with rdiSend := (b, rdiOf s r) :: (trib s r.id).rdiSend.take 1 } s) s

/-- RDI of an occurrence in the slot at t: that of its frame, or the present state where no frame has been composed since the entry took effect. -/
def rdiAt (s : State) (r : Flow) (t : Nat) : Bool :=
  (((trib s r.id).rdiSend.find? (fun x => x.1 ≤ t)).map Prod.snd).getD (rdiOf s r)

/-! ### The downstream store (R175, R176) -/

/-- Payloads held. -/
def storeDepth (t : Trib) : Nat := t.store.countP (·.isSome)

/-- A payload written in its place, or, with the store full, lost: counted in OVERRUN, its place due as missing. -/
def storePut (f : Nat) (p : List Byte) (s : State) : State :=
  let t := trib s f
  if storeDepth t < 2 * t.cfg.k then setTrib f { t with store := t.store ++ [some p] } s
  else bump (xFlow f 10) 1 (setTrib f { t with store := t.store ++ [none] } s)

/-- A RoE packet of a stream tributary (R175). A resynchronising packet takes the first place of the emptied store (log 41). -/
def tribStream (f : Nat) (l : List Byte) (s : State) : State :=
  let t := trib s f
  let c := t.cfg
  let o := 14 + tagsLen l
  if natAt l (o - 2) 2 ≠ 0xFC3D ∨ natAt l o 1 ≠ roeSub ∨ natAt l (o + 1) 1 ≠ c.roeFlow ∨ natAt l (o + 2) 2 ≠ c.payLen then
    bump (xFlow f 5) 1 s
  else
    let q := BitVec.ofNat 32 (natAt l (o + 4) 4)
    let p := bytesAt l (o + 8) c.payLen
    let go := fun (miss : Nat) (s : State) =>
      let t := trib s f
      storePut f p (setTrib f { t with store := t.store ++ List.replicate miss none, expect := some (q + 1) } s)
    match t.expect with
    | none => go 0 s
    | some e =>
      let d := (q - e).toNat
      if d ≤ 2 * c.k then go d s
      else if d < 2 ^ 31 then
        let s := event 0x0301 3 f (beBytes 4 (q + 1).toNat) (bump (xFlow f 7) 1 s)
        go 0 (setTrib f { t with store := [] } s)
      else bump (xFlow f 6) 1 s

/-- An Ethernet frame of a packet tributary (R176). -/
def tribPacket (f d : Nat) (l : List Byte) (s : State) : State :=
  let t := trib s f
  if t.cfg.payLen - 2 < l.length then oversize f d l.length s
  else if storeDepth t < 2 * t.cfg.k then setTrib f { t with store := t.store ++ [some l] } s
  else bump (xFlow f 10) 1 s

/-- A frame classified to a downstream tributary flow, from the port of first lane p (none: from the partner's record). -/
def tribStore (f d : Nat) (p : Option Nat) (l : List Byte) (s : State) : State :=
  let t := trib s f
  let s := match p with
    | some p => if t.fedBy.contains p then s else setTrib f { t with fedBy := p :: t.fedBy } s
    | none => s
  if t.cfg.kindPacket then tribPacket f d l s else tribStream f l s

/-! ### The tributary frame (Table 5.1) -/

/-- A tributary frame. -/
def tribFrame (label : Nat) (ais rdi : Bool) (fcnt : BitVec 16) (payload : List Byte) : List Byte :=
  let b := beBytes 1 label ++ beBytes 1 (ais.toNat * 128 + rdi.toNat * 64) ++ beBytes 2 fcnt.toNat ++ payload
  beBytes 4 0xB62D4E95 ++ b ++ beBytes 2 (crc16 b).toNat

/-- The payload of a packet tributary holding an item (R170). -/
def itemPayload (len : Nat) (item : List Byte) : List Byte :=
  beBytes 2 item.length ++ item ++ List.replicate (len - 2 - item.length) 0

/-! ### The deframer (R180 to R182) -/

/-- A completed frame of the chosen alignment: its bytes, CRC result, and whether it fails R181 while TB_AMB is raised. -/
structure TFrame where
  bytes : List Byte
  crcOk : Bool
  ambFail : Bool
  deriving DecidableEq, Repr

/-- Hamming distance of the four bytes at i to the alignment word. -/
def alignDist (l : List Byte) (i : Nat) : Nat :=
  let x := BitVec.ofNat 32 (natAt l i 4) ^^^ (0xB62D4E95 : BitVec 32)
  (List.range 32).countP (fun k => x.getLsbD k)

/-- The frame of T bytes at i passes its CRC. -/
def frameCrcOk (l : List Byte) (i T : Nat) : Bool :=
  crc16 (bytesAt l (i + 4) (T - 6)) = BitVec.ofNat 16 (natAt l (i + T - 2) 2)

/-- What the deframer of a stream has at hand: its state, completed frames (newest first), status counters to advance (index in Table 5.7). -/
structure DSt where
  t : Trib
  done : List TFrame
  counts : List Nat
  deriving DecidableEq, Repr

/-- Marks among the counts: TB_AMB raised, TB_AMB cleared (R181). -/
def ambRaised : Nat := 100
def ambCleared : Nat := 101

/-- TB_AMB marked where shadows have come or the last has gone. -/
def ambMark (was : List Nat) (d : DSt) : DSt :=
  if was = [] ∧ d.t.shadows ≠ [] then { d with counts := ambRaised :: d.counts }
  else if was ≠ [] ∧ d.t.shadows = [] then { d with counts := ambCleared :: d.counts }
  else d

/-- Stream byte e arrives, the buffer l beginning at stream byte b: completed frames first (R181, R182), then the word that ends here
(Table 5.5). In SYNC a word within `tol` of the alignment word counts as present. -/
def deframeStep (tol T b : Nat) (l : List Byte) (d : DSt) (e : Nat) : DSt :=
  -- completed frames
  let d :=
    if d.t.align = 2 ∧ d.t.chosen + T = e then
      let i := d.t.chosen - b
      let ok := frameCrcOk l i T
      let amb := d.t.shadows ≠ []
      let fails := !ok || tol < alignDist l i
      let fr : TFrame := { bytes := bytesAt l i T, crcOk := ok, ambFail := amb && fails }
      let d := { d with done := fr :: d.done, counts := if ok then d.counts else 0 :: d.counts }
      match d.t.shadows with
      | x :: r =>
        if fails then { d with t := { d.t with chosen := x, shadows := r, misses := 0 }, counts := 3 :: d.counts }
        else { d with t := { d.t with chosen := e } }
      | [] => { d with t := { d.t with chosen := e } }
    else d
  let d :=
    { d with t := { d.t with shadows := d.t.shadows.filterMap (fun x =>
        if x + T = e then (if frameCrcOk l (x - b) T ∧ alignDist l (x - b) ≤ tol then some e else none) else some x) } }
  -- the word ending at e
  if e < b + 4 then d
  else
    let p := e - 4
    let dist := alignDist l (p - b)
    if d.t.align = 2 ∧ p = d.t.chosen ∧ d.t.ambUntil ≤ p then
      if dist ≤ tol then { d with t := { d.t with misses := 0, cands := [] } }
      else if d.t.misses + 1 < 4 then { d with t := { d.t with misses := d.t.misses + 1, cands := [] } }
      else { d with t := { d.t with align := 0, misses := 0, shadows := [], cands := [] }, counts := 2 :: d.counts }
    else if d.t.align = 2 then
      if d.t.ambUntil ≤ p then { d with t := { d.t with cands := [] } }
      else
        let hit := d.t.cands.any (fun c => c.start + c.seen * T = p && c.seen = 2 && dist ≤ tol)
        { d with t := { d.t with
            shadows := if hit then d.t.shadows ++ [p] else d.t.shadows,
            cands := d.t.cands.filterMap (fun c =>
              if c.start + c.seen * T = p then (if dist ≤ tol ∧ c.seen < 2 then some { c with seen := c.seen + 1 } else none) else some c) } }
    else
      let third := d.t.cands.any (fun c => c.start + c.seen * T = p && c.seen = 2) && dist = 0
      let known := d.t.cands.any (fun c => c.start + c.seen * T = p)
      let cs := d.t.cands.filterMap (fun c =>
        if c.start + c.seen * T = p then (if dist = 0 ∧ c.seen < 2 then some { c with seen := c.seen + 1 } else none) else some c)
      if third then { d with t := { d.t with align := 2, chosen := p, misses := 0, ambUntil := p + T, shadows := [], cands := cs } }
      else
        let cs := if dist = 0 ∧ !known then cs ++ [{ start := p, seen := 1 }] else cs
        { d with t := { d.t with cands := cs, align := if cs = [] then 0 else 1 } }

/-- One stream byte, with TB_AMB marked. -/
def deframeByte (tol T b : Nat) (l : List Byte) (d : DSt) (e : Nat) : DSt := ambMark d.t.shadows (deframeStep tol T b l d e)

/-- The occurrence's C bytes appended to the stream and deframed (R179 to R182). -/
def deframe (tol : Nat) (t : Trib) (new : List Byte) : DSt :=
  let T := tribT t.cfg
  let l := t.bytes ++ new
  let e0 := t.streamAt + t.bytes.length
  let d := (List.range new.length).foldl (fun d i => deframeByte tol T t.streamAt l d (e0 + i + 1)) { t := t, done := [], counts := [] }
  let keep := min l.length (T + 8)
  { d with t := { d.t with bytes := l.drop (l.length - keep), streamAt := e0 + new.length - keep }, done := d.done.reverse,
           counts := d.counts.reverse }

end Sys2Proof.Machine
end

