-- ==== Sys2Proof/Machine/MillCore.lean ====
section
/-! DEFINITION. The mill: routes, admission at the headrace, weirs, the millpond, sluices, deficit round robin (R70, R225 to R246). -/

namespace Sys2Proof.Machine

/-! ### Routes (R225, R240) -/

/-- Where a flow's frames go. -/
inductive Route
  | through (r : Flow)
  | slack (x : SFlow)
  | none_
  deriving DecidableEq, Repr

/-- Queue of a slack flow. -/
def slackQ (x : SFlow) : Nat := 32 * (128 * x.tree + x.term) + (if x.dir then 0 else 16) + x.queue

def queueOf (s : State) (q : Nat) : QCfg := mget {} s.mill.queues q
def sflowOf (s : State) (f : Nat) : SFlow := mget {} s.mill.sflows f

/-- The route of a flow under a plate for a direction (true: downstream). -/
def routeIn (p : Option Plate) (s : State) (down : Bool) (f : Nat) : Route :=
  match p.bind (flowIn · f) with
  | some r => if r.up ≠ down then .through r else .none_
  | none =>
    let x := sflowOf s f
    if x.valid && !x.suspended && x.dir = down then .slack x else .none_

/-- Queue of a route's slack flow. -/
def routeQueue : Route → Nat
  | .slack x => slackQ x
  | _ => 0

/-- Domain of a route (R165). -/
def routeDom (s : State) : Route → Nat
  | .through r => r.dom
  | .slack x => (queueOf s (slackQ x)).dom
  | .none_ => 0

/-! ### The canonical stroke (R252) -/

/-- Stroke of the PON frame that begins at counter value t. -/
def strokeIx (s : State) (t : Nat) : Nat := (t - s.imprAt) / Config.STROKE % 1944

/-- How far the mill runs behind its unit's own strokes: a standby executes the canonical input PAIR_LAG later, its calendars with it (R252, R333). -/
def millLag (s : State) : Nat := if isStandby s && s.pair.contact then Config.PAIR_LAG else 0

/-- The stroke and the plate of the mill's calendars at counter value t; in the lag behind a boundary the plate is still the one before it. -/
def millIx (s : State) (t : Nat) : Nat := strokeIx s (t + Config.FRAME - millLag s)
def millPlate (s : State) (t : Nat) : Option Plate := if t < s.imprAt + millLag s then s.plates.prev else engaged s

/-- The plate that governs the mill now. -/
def canonPlate (s : State) : Option Plate := millPlate s s.now

/-! ### Weirs (R228, R230) -/

def updLane (k : Nat) (f : Lane → Lane) (s : State) : State := setLane k (f (lane s k)) s

/-- A slack frame at classification. -/
def weirEnter (k : Nat) (fr : Frame) (s : State) : State :=
  let l := lane s k
  let c := cellsOf fr.len
  let held := fun (p : Frame → Bool) => ((l.weir.filter p).map (fun x => cellsOf x.len)).sum
  if !(canonPlate s).any (fun p => domHas p fr.dom) then bump (cbDom fr.dom 1) 1 s
  else if 40 < held (fun x => x.dom = fr.dom) + c ∨ 128 < held (fun _ => true) + c then bump (cbDom fr.dom 0) 1 s
  else setLane k { l with weir := l.weir ++ [fr] } s

/-- Entries of lane k of a plate. -/
def laneCals (p : Plate) (k : Nat) : List Cal := (p.millrace.drop (k * 1944)).take 1944

/-- Longest run of consecutive entries that satisfy f. -/
def longestRun {α : Type} (f : α → Bool) (l : List α) : Nat :=
  (l.foldl (fun (a : Nat × Nat) x => if f x then (a.1 + 1, max a.2 (a.1 + 1)) else (0, a.2)) (0, 0)).2

/-- Entries from the front of a list that satisfy f. -/
def runAhead {α : Type} (f : α → Bool) (l : List α) : Nat := (l.takeWhile f).length

/-- The stroke belongs to a fill run of domain d (R227). -/
def fillsFor (d : Nat) (c : Cal) : Bool := c.kind = 2 && (c.shared || c.dom = d)

/-- The head of domain d's FIFO in a weir. -/
def weirHead (l : Lane) (d : Nat) : Option Frame := l.weir.find? (fun x => x.dom = d)

/-- The head of domain d's FIFO removed. -/
def weirPop (d : Nat) : List Frame → List Frame
  | [] => []
  | x :: r => if x.dom = d then r else x :: weirPop d r

/-- Heads that no fill run of their domain holds discarded, up to n of them (R230). -/
def fillPurge (cs : List Cal) (k : Nat) : Nat → State → State
  | 0, s => s
  | n + 1, s =>
    let l := lane s k
    match (List.range 64).findSome? (fun d =>
        (weirHead l d).bind (fun x => if 80 * longestRun (fillsFor d) cs < wordsOf x.len then some x else none)) with
    | none => s
    | some x =>
      let s := bump (cbLane k 0) 1 (setLane k { l with weir := weirPop x.dom l.weir } s)
      let s := if l.fillTold then s
        else event 0x0108 8 k (beBytes 1 x.dom ++ rsv 3 ++ beBytes 2 x.len) (updLane k (fun l => { l with fillTold := true }) s)
      fillPurge cs k n s

/-! ### Admission at the headrace (R70, R89, R94, R173, R189, R225, R269, R333, R334) -/

/-- Next per-flow sequence point (R334). -/
def nextPoint (s : State) (f : Nat) (tag : Option (BitVec 16)) : BitVec 32 :=
  let old := mget 0 s.mill.points f
  match tag with
  | none => old + 1
  | some q => old + BitVec.ofInt 32 (q - old.setWidth 16 : BitVec 16).toInt

/-- The headrace lane of a route (R20). -/
def routeLane : Route → Nat
  | .through x => if x.up then treeLane x.tree else x.lane
  | .slack x => treeLane x.tree
  | .none_ => 0

/-- A canonical frame enters the mill at headrace lane k on its route; a downstream tributary's crosses in its THROUGH strokes as every through-flow's
does (R36, R225). -/
def enterAt (k : Nat) (r : Route) (port : Option Nat) (fr : Frame) (s : State) : State :=
  let s := { s with mill := { s.mill with points := mput 0 s.mill.points fr.flow fr.point } }
  match r with
  | .through x =>
    if x.trib && x.up then setTrib fr.flow { trib s fr.flow with occ := (trib s fr.flow).occ ++ [fr.data] } s
    else { s with mill := { s.mill with through := mupd [] s.mill.through fr.flow (· ++ [{ fr with port := port }]) } }
  | .slack _ => weirEnter k fr s
  | .none_ => s

/-- A canonical frame enters the mill at its route's lane. -/
def enterCanon (r : Route) (port : Option Nat) (fr : Frame) (s : State) : State := enterAt (routeLane r) r port fr s

/-- A standby keeps its own reception as content for the INGRESS record to come: upstream frames, and uplink frames with an R-TAG, each with the
port it came by and the plate that classified it (R89). -/
def keepCopy (down old : Bool) (tag : Option (BitVec 16)) (fr : Frame) (s : State) : State :=
  if down && tag.isNone then s
  else { s with pair := { s.pair with copies := s.pair.copies ++ [{ fr with point := if down then fr.point else 0, cls := if old then 0 else s.imprAt }] } }

/-- Bytes of the repairs of a tier that 40 Gb/s allows by now: 10 Gb is 248.832 million mc (R334). -/
def repairRoom (s : State) (n : Nat) : Bool :=
  s.pair.tier = 0 || decide (7776 * (s.pair.repaired + n) ≤ (s.now - s.pair.tierAt) * 31250)

/-- A REPAIR record sent if the budget allows (R334). -/
def repairSend (b : Rec) (s : State) : State :=
  if repairRoom s (recBytes b) then streamPush b { s with pair := { s.pair with repaired := s.pair.repaired + recBytes b } } else s

/-- The records of a canonical frame: a repair of an uplink frame without an R-TAG, then INGRESS with its lane, which names the first stroke after the
frame's arrival, so that a frame of the boundary's own cycle counts to the plate then engaged (R89, R333, R334). -/
def tellFrame (lack : Bool) (lane : Nat) (fr : Frame) (s : State) : State :=
  let s := if lack then repairSend (.repair (BitVec.ofNat 16 fr.flow) fr.point fr.data) s else s
  streamAt (strokeAt s (s.now + 1)) (.ingress lane (BitVec.ofNat 16 fr.flow) fr.len fr.point) s

/-- How a frame came: downstream from an uplink port with or without an R-TAG, or upstream from a burst, whose codewords it lay in (R333), granted by the
engaged plate or by the one before it (R89). -/
structure Came where
  down : Bool
  tag : Option (BitVec 16) := none
  port : Option Nat := none
  src : Option (Nat × Nat × Nat × Nat) := none
  old : Bool := false

/-- Bytes admitted of a flow's allowance in the occurrence a frame belongs to: upstream that of its burst, downstream that of its slot (R70). -/
def allowUsed (s : State) (f : Nat) : Option (Nat × Nat × Nat × Nat) → Nat
  | none => mget 0 s.mill.usedFpb f
  | some (g, a, _, _) =>
    (((tree s (g / 128)).grants.find? (fun x => x.term = g % 128 && x.start = a)).map (fun x => mget 0 x.fpb f)).getD 0

/-- len bytes charged to that allowance. -/
def allowTake (f len : Nat) (src : Option (Nat × Nat × Nat × Nat)) (s : State) : State :=
  match src with
  | none => { s with mill := { s.mill with usedFpb := mput 0 s.mill.usedFpb f (mget 0 s.mill.usedFpb f + len) } }
  | some (g, a, _, _) =>
    updTree (g / 128) (fun t => { t with grants := t.grants.map (fun x =>
      if x.term = g % 128 && x.start = a then { x with fpb := mput 0 x.fpb f (mget 0 x.fpb f + len) } else x) }) s

/-- A frame of a through-flow exceeds MAX_FRAME, which has to hold the R-TAG a generator adds, or what is left of its occurrence's allowance (R70, R269). -/
def overAllowance (s : State) (x : Flow) (len : Nat) (src : Option (Nat × Nat × Nat × Nat)) : Bool :=
  let most := if x.up && (mget none s.mill.gens x.id).isSome then x.maxFrame - 6 else x.maxFrame
  decide (most < len) || decide (x.fpb < allowUsed s x.id src + len)

/-- A classified frame of flow f under a plate: `noFlow` is the counter of a frame without a route. -/
def takeIn (x : Came) (pl : Option Plate) (noFlow f : Nat) (data : List Byte) (s : State) : State :=
  let down := x.down
  let tag := x.tag
  let port := x.port
  let lack := down && tag.isNone
  let r := routeIn pl s down f
  let len := data.length
  let fr : Frame := { flow := f, dom := routeDom s r, len := len, point := nextPoint s f tag, chaff := false, data := data,
                      queue := routeQueue r, src := x.src }
  match r with
  | .none_ => bump noFlow 1 s
  | .slack _ => if isStandby s then keepCopy down x.old tag { fr with port := port } s else enterCanon r port fr (tellFrame lack (routeLane r) fr s)
  | .through y =>
    if isStandby s then keepCopy down x.old tag { fr with port := port } s
    else if y.trib && (trib s f).held then bump (xFlow f 8) 1 s
    else if !y.up && (tree s y.tree).st ≠ .serving then bump (cTree y.tree 0x160) 1 s
    else if overAllowance s y len x.src then
      -- the occurrence of an upstream tributary still counts the frame it delivered (R179)
      let s := oversize f y.dom len s
      if y.trib && y.up then enterCanon r port fr (tellFrame lack (routeLane r) fr s) else s
    else enterCanon r port fr (tellFrame lack (routeLane r) fr (allowTake f len x.src s))

/-! ### The millpond (R231 to R233) -/

def usedOf (s : State) (d : Nat) : Nat := mget 0 s.mill.used d

/-- RESV_CELLS and CAP_CELLS of a domain in the plate that governs the mill; a domain without a record has neither reservation nor cap (R74). -/
def domRec (s : State) (d : Nat) : Nat × Nat :=
  (((canonPlate s).bind (fun p => p.doms.find? (fun x => x.dom = d))).map (fun x => (x.resv, x.cap))).getD (0, 524288)

/-- SHARED_FREE (R232). -/
def sharedFree (s : State) : Int :=
  let sh := ((canonPlate s).map sharedCells).getD (524288 - 4096)
  (sh : Int) - s.mill.retiredCells.length - ((s.mill.used.map (fun e => e.2 - (domRec s e.1).1)).sum : Nat)

/-- Frames of a queue: those in the millpond, and those admitted to it and still on their way (R231). -/
def queueFrames (s : State) (q : Nat) : List Frame :=
  mget [] s.mill.pond q ++ s.mill.lanes.flatMap (fun e =>
    (e.2.hopper.filter (fun x => !x.2.2 && x.2.1.queue = q && seqLt e.2.committed x.1)).map (fun x => x.2.1))

/-- Cells of a queue (DEPTH_CELLS). -/
def queueCells (s : State) (q : Nat) : Nat := ((queueFrames s q).map (fun x => cellsOf x.len)).sum

/-- The admission of R232: none, or the drop counters (queue index, domain index) and whether a reserved admission found no cell. -/
def pondRefuse (s : State) (fr : Frame) : Option (Nat × Nat × Bool) :=
  let q := fr.queue
  let c := cellsOf fr.len
  let (resv, cap) := domRec s fr.dom
  let u := usedOf s fr.dom
  let free : Int := (524288 - 4096 : Nat) - s.mill.retiredCells.length - ((s.mill.used.map (·.2)).sum : Nat)
  if !(queueOf s q).enable then some (0, 2, false)
  else if (queueOf s q).qlimit < queueCells s q + c then some (1, 3, false)
  else if u + c ≤ resv then (if free < (c : Int) then some (2, 4, true) else none)
  else if u + c ≤ cap ∧ ((c - (resv - u) : Nat) : Int) ≤ sharedFree s then none
  else some (2, 4, false)

/-- Cells held by a domain changed. -/
def useCells (d c : Nat) (s : State) : State := { s with mill := { s.mill with used := mput 0 s.mill.used d (usedOf s d + c) } }
def freeCells (d c : Nat) (s : State) : State := { s with mill := { s.mill with used := mput 0 s.mill.used d (usedOf s d - c) } }

/-- A refused frame counted. -/
def countRefused (fr : Frame) (x : Nat × Nat × Bool) (s : State) : State :=
  let s := bump (cbDom fr.dom x.2.1) 1 (bump (xQueue fr.queue x.1) 1 s)
  if x.2.2 then bump (cbDom fr.dom 5) 1 s else s

/-! ### Nodes and sluices (R237, R241 to R243) -/

def keyDom (P d : Nat) : Nat := 256 + 64 * P + d
def keyTerm (P d g : Nat) : Nat := 0x10000 + (64 * P + d) * 8192 + g
def keyQueue (q : Nat) : Nat := 0x100000000 + q
def keyAlloc (a : Nat) : Nat := 0x200000000 + a

/-- Direction code e' of a service port (R237). -/
def portDir (P : Nat) : Nat := if P < 64 then 0 else if P < 96 then 1 else 2

/-- Parameters of a node. -/
def nodeCfg (s : State) (k : Nat) : NodeCfg :=
  if k < 256 then mget {} s.mill.ports k
  else if k < 0x10000 then mget {} s.mill.doms (k - 256)
  else if k < 0x100000000 then
    let x := k - 0x10000
    mget {} s.mill.terms (3 * (x % 8192) + portDir (x / 8192 / 64))
  else if k < 0x200000000 then (queueOf s (k - 0x100000000)).node
  else (mget {} s.mill.allocs (k - 0x200000000)).node

def nodeSt (s : State) (k : Nat) : NodeSt := mget {} s.mill.nodes k
def setNode (k : Nat) (x : NodeSt) (s : State) : State := { s with mill := { s.mill with nodes := mput {} s.mill.nodes k x } }

/-- conforms(x). -/
def conforms (s : State) (k : Nat) : Bool := !(nodeCfg s k).sluEn || decide (0 ≤ (nodeSt s k).tokens)

/-- Service port, domain and terminal of a queue. -/
def queuePlace (s : State) (q : Nat) : Nat × Nat × Nat :=
  let c := queueOf s q
  let g := q / 32
  (if q / 16 % 2 = 0 then g / 128 else 64 + c.port, c.dom, g)

/-- The same of an allocation. -/
def allocPlace (s : State) (a : Nat) : Nat × Nat × Nat := (96 + a / 4 / 128, (mget {} s.mill.allocs a).dom, a / 4)

/-- Terminal nodes that entry i = 3g + e' of the terminal table governs: one per place of its terminal's leaves in that direction (R237). -/
def termNodes (s : State) (i : Nat) : List Nat :=
  let g := i / 3
  let places := match i % 3 with
    | 0 => (List.range 16).map (fun q => queuePlace s (32 * g + q))
    | 1 => (List.range 16).map (fun q => queuePlace s (32 * g + 16 + q))
    | _ => (List.range 4).map (fun a => allocPlace s (4 * g + a))
  (places.map (fun x => keyTerm x.1 x.2.1 x.2.2)).eraseDups

/-- Every node whose sluice can be enabled: ports, domain nodes, leaves with an entry, and the terminal nodes of terminal entries. -/
def allNodes (s : State) : List Nat :=
  s.mill.ports.map (·.1) ++ s.mill.doms.map (fun e => 256 + e.1) ++ s.mill.queues.map (fun e => keyQueue e.1)
    ++ s.mill.allocs.map (fun e => keyAlloc e.1) ++ s.mill.terms.flatMap (fun e => termNodes s e.1)

/-- The refill of n stroke boundaries (R241). -/
def refill (n : Nat) (s : State) : State :=
  (allNodes s).foldl (fun s k =>
    let c := nodeCfg s k
    if c.sluEn then
      let x := nodeSt s k
      setNode k { x with tokens := min (x.tokens + n * c.rate) (c.burst * 15552) } s
    else s) s

/-- A sluice's accepted change at its boundary: credit clipped, debt kept; enabled afresh, tokens 0. -/
def sluChange (k : Nat) (old new : NodeCfg) (s : State) : State :=
  if !new.sluEn then s
  else
    let x := nodeSt s k
    setNode k { x with tokens := if old.sluEn then min x.tokens (new.burst * 15552) else 0 } s

/-! ### Deficit round robin (R244) -/

/-- Least element. -/
def leastOf (l : List Nat) : Option Nat := l.foldl (fun a x => match a with | none => some x | some y => some (min x y)) none

/-- next_frame: from node x, over the heads below it as (path below x, charge, every node of the path conforms); the leaf and
charge chosen, and the nodes' service state. `q` gives a node's quantum. -/
def nextFrame (q : Nat → Nat) : Nat → Map NodeSt → Nat → List (List Nat × Nat × Bool) → Option (Nat × Nat) × Map NodeSt
  | 0, ns, _, _ => (none, ns)
  | n + 1, ns, x, hs =>
    let xn := mget {} ns x
    let cs := hs.filterMap (fun h => h.1.head?)
    match (match leastOf (cs.filter (fun c => xn.cursor ≤ c)) with | some c => some c | none => leastOf cs) with
    | none => (none, ns)
    | some c =>
      let sub := (hs.filter (fun h => h.1.head? = some c)).map (fun h => (h.1.tail, h.2))
      let ok := sub.any (fun h => h.2.2)
      let cn := mget {} ns c
      let ns1 := if ok && !cn.isOpen then mput {} ns c { cn with deficit := cn.deficit + q c, isOpen := true } else ns
      let r := if !ok then (none, ns1)
        else match sub with
          | [([], ch, _)] => (some (c, ch), ns1)
          | _ => nextFrame q n ns1 c sub
      let shut := fun (_ : Unit) =>
        let ns3 := mput {} r.2 c { mget {} r.2 c with isOpen := false }
        nextFrame q n (mput {} ns3 x { mget {} ns3 x with cursor := c + 1 }) x hs
      match r.1 with
      | some (leaf, ch) =>
        if ch ≤ (mget {} r.2 c).deficit then (some (leaf, ch), mput {} r.2 x { mget {} r.2 x with cursor := c }) else shut ()
      | none => shut ()

/-- Passes that the loop of R244 can take: each failed pass over an eligible child raises its deficit by at least 64. -/
def drrFuel (hs : List (List Nat × Nat × Bool)) : Nat :=
  4 * (hs.length + 1) * ((hs.map (fun h => h.2.1)).foldl max 0 / 64 + 2)

/-- A choice at a root with at least one eligible head; none where the root is not eligible. -/
def drrPick (root : Nat) (hs : List (List Nat × Nat × Bool)) (s : State) : Option (Nat × Nat) × State :=
  if !conforms s root || !hs.any (fun h => h.2.2) then (none, s)
  else
    let r := nextFrame (fun k => (nodeCfg s k).quantum) (drrFuel hs) s.mill.nodes root hs
    (r.1, { s with mill := { s.mill with nodes := r.2 } })

/-- Tokens of every enabled sluice on a path charged (R242). -/
def chargeTokens (ks : List Nat) (c : Nat) (s : State) : State :=
  ks.foldl (fun s k => if (nodeCfg s k).sluEn then
    let x := nodeSt s k
    setNode k { x with tokens := x.tokens - c * 15552 } s else s) s

/-- serve: the deficits of `below` (the path below the root) and the tokens of the whole path are charged. -/
def serveCharge (below all : List Nat) (c : Nat) (s : State) : State :=
  let s := below.foldl (fun s k => let x := nodeSt s k; setNode k { x with deficit := x.deficit - c } s) s
  chargeTokens all c s

/-- Nodes of a path with nothing left below them lose deficit and visit. -/
def clearEmpty (ks : List Nat) (some_ : Nat → Bool) (s : State) : State :=
  ks.foldl (fun s k => if some_ k then s else let x := nodeSt s k; setNode k { x with deficit := 0, isOpen := false } s) s

/-! ### Allocations (R247) -/

/-- XGEM bytes X of a burst of k codewords, with PLOAMu or not, and with d status reports (R104). -/
def xgemBytes (k : Nat) (ploamu : Bool) (d : Nat) : Nat := 1824 * k - 8 - 48 * ploamu.toNat - 4 * d

/-- need(a): a report taken in the very cycle a window is decided serves the next window (Table 7.7). -/
def need (s : State) (c : ACfg) : Nat := if c.reportAt = some s.now then c.needOld else c.reported - c.granted

/-- Path of an allocation below its port. -/
def allocPath (s : State) (a : Nat) : List Nat :=
  let (P, d, g) := allocPlace s a
  [keyDom P d, keyTerm P d g, keyAlloc a]

/-- Nodes on a path of allocation a that are left without need are cleared. -/
def clearAllocAt (P d g a : Nat) (s : State) : State :=
  let left := fun (f : Nat → Bool) => s.mill.allocs.any (fun e => e.2.dynEn && decide (0 < need s e.2) && f e.1)
  clearEmpty [keyDom P d, keyTerm P d g, keyAlloc a] (fun q =>
    if q = keyAlloc a then left (· = a)
    else if q = keyTerm P d g then left (fun b => allocPlace s b = (P, d, g))
    else left (fun b => (allocPlace s b).1 = P && (allocPlace s b).2.1 = d)) s

/-- Those on the path it has. -/
def clearAlloc (a : Nat) (s : State) : State :=
  let (P, d, g) := allocPlace s a
  clearAllocAt P d g a s

/-! ### Drawing (R245) -/

/-- Charge of a frame at a service port (Table 7.2). -/
def chargeOf (P len : Nat) : Nat := if P < 64 then len + 8 else len + 20

/-- Path of a queue below its port. -/
def queuePath (s : State) (q : Nat) : List Nat :=
  let (P, d, g) := queuePlace s q
  [keyDom P d, keyTerm P d g, keyQueue q]

/-- Heads at a draw root: port P, or its domain node. -/
def drawHeads (s : State) (P : Nat) (dom : Option Nat) : List (List Nat × Nat × Bool) :=
  s.mill.pond.filterMap (fun e =>
    let (p, d, _) := queuePlace s e.1
    match e.2 with
    | [] => none
    | fr :: _ =>
      if p = P ∧ dom.all (· = d) then
        let path := queuePath s e.1
        let path := if dom.isSome then path.tail else path
        some (path, chargeOf P fr.len, path.all (conforms s))
      else none)

/-- Longest draw run of a plate that admits domain d for a target, in words. -/
def drawRunMax (p : Plate) (t d : Nat) : Nat :=
  let best := fun (c : Cal) (cs : List Cal) => longestRun (fun x => x = c) cs
  ((List.range 24).map (fun k =>
    let cs := laneCals p k
    ((cs.filter (fun c => c.kind = 3 && c.target = t && (c.shared || c.dom = d))).eraseDups.map (fun c => 80 * best c cs)).foldl max 0)).foldl max 0

/-- The head frame of queue q leaves its queue. -/
def pondTake (q : Nat) (s : State) : State := { s with mill := { s.mill with pond := mupd [] s.mill.pond q List.tail } }

/-- The head frame of queue q leaves the millpond, its cells with it. -/
def pondPop (q : Nat) (fr : Frame) (s : State) : State := freeCells fr.dom (cellsOf fr.len) (pondTake q s)

/-- Cells of a frame of w words that n drawn words have returned (R232): four words to a cell. -/
def cellsDrawn (w n : Nat) : Nat := if w ≤ n then ceilDiv w 4 else n / 4

/-- Frames stand below a draw node: its queue, its terminal node or its domain node (R237). Other nodes count as held. -/
def nodeHeld (s : State) (k : Nat) : Bool :=
  let live := fun (f : Nat × Nat × Nat → Bool) => s.mill.pond.any (fun e => e.2 ≠ [] && f (queuePlace s e.1))
  if k < 256 ∨ 0x200000000 ≤ k then true
  else if 0x100000000 ≤ k then mget [] s.mill.pond (k - 0x100000000) ≠ []
  else if 0x10000 ≤ k then
    let x := k - 0x10000
    96 * 64 ≤ x / 8192 || live (fun y => keyTerm y.1 y.2.1 y.2.2 = k)
  else 96 * 64 ≤ k - 256 || live (fun y => keyDom y.1 y.2.1 = k)

/-- Draw nodes that frames lost or discarded have left empty are without deficit or open visit (R244). -/
def clearIdle (s : State) : State :=
  { s with mill := { s.mill with
      nodes := mmap {} (fun k (x : NodeSt) => if nodeHeld s k then x else { x with deficit := 0, isOpen := false }) s.mill.nodes } }

/-- Frames at or below their flow's delivered point are discarded, their cells returned, nodes so emptied cleared (R41, R42, R244, R344); those in a
lane hopper keep their number and are suppressed at the commit point. -/
def dropDelivered (s : State) : State :=
  let keep := fun (x : Frame) => !wasDelivered s x
  let mark := fun (x : Frame) => { x with gone := x.gone || wasDelivered s x }
  let m := s.mill
  let used := ((m.pond.flatMap (·.2)).filter (wasDelivered s)).foldl (fun u x => mupd 0 u x.dom (· - cellsOf x.len)) m.used
  clearIdle { s with mill := { m with
      through := mmap [] (fun _ l => l.filter keep) m.through, tail := mmap [] (fun _ l => l.filter keep) m.tail,
      pond := mmap [] (fun _ l => l.filter keep) m.pond, used := used, flumes := mmap [] (fun _ l => l.filter keep) m.flumes,
      lanes := mmap {} (fun _ l => { l with weir := l.weir.filter keep, hopper := l.hopper.map (fun e => (e.1, mark e.2.1, e.2.2)) }) m.lanes } }

/-- Nodes on the path of a queue that hold nothing are cleared. -/
def clearQueue (q : Nat) (s : State) : State :=
  let (P, d, g) := queuePlace s q
  clearEmpty [keyQueue q, keyTerm P d g, keyDom P d] (nodeHeld s) s

/-- Bytes free in a flume of 32,768 bytes. -/
def flumeFree (s : State) (t : Nat) : Nat := 32768 - ((mget [] s.mill.flumes t).map (fun x => x.len + 16)).sum

/-- A frame whose draw meets an uncorrectable word (R234): discarded, its cell retired; which cell it is, is internal: a free value (log 42). -/
def drawBad (fr : Frame) (s : State) : State :=
  let (v, s) := fresh s
  let cell := v % 524288
  let s := event 0x0109 9 fr.dom (beBytes 4 cell) (bump (cbDom fr.dom 6) 1 s)
  eccEvent 0 cell { s with mill := { s.mill with retiredCells := s.mill.retiredCells ++ [cell] } }

/-- What a frame drawn in part leaves to the run's next strokes: words to come, its domain, its words. -/
abbrev Carry := Nat × Nat × Nat

/-- Frames drawn in a stroke of a draw run with `left` words of the run ahead and `room` words of the stroke (R245): what a frame still needs in the
following strokes, and the queues whose bad word was not met. -/
def drawLoop (p : Plate) (t : Nat) (dom : Option Nat) : Nat → Nat → Nat → List Nat → State → Carry × List Nat × State
  | 0, _, _, bad, s => ((0, 0, 0), bad, s)
  | n + 1, left, room, bad, s =>
    if room = 0 ∨ (dom.isSome ∧ !conforms s t) then ((0, 0, 0), bad, s)
    else
      let root := match dom with | some d => keyDom t d | none => t
      let hs := drawHeads s t dom
      match drrPick root hs s with
      | (none, s) => ((0, 0, 0), bad, s)
      | (some (leaf, _), s) =>
        let q := leaf - 0x100000000
        match mget [] s.mill.pond q with
        | [] => ((0, 0, 0), bad, s)
        | fr :: _ =>
          let w := wordsOf fr.len
          if drawRunMax p t fr.dom < w then
            drawLoop p t dom n left room bad (bump (cbDraw t 0) 1 (clearQueue q (pondPop q fr s)))
          else if left < w ∨ flumeFree s t < fr.len + 16 then ((0, 0, 0), bad, s)
          else
            let path := queuePath s q
            let s := serveCharge (if dom.isSome then path.tail else path) (t :: path) (chargeOf t fr.len) s
            if bad.contains q then drawLoop p t dom n left room (bad.erase q) (drawBad fr (clearQueue q (pondPop q fr s)))
            else
              let s := clearQueue q (freeCells fr.dom (cellsDrawn w room) (pondTake q s))
              let s := bump (cbDraw t 1) w { s with mill := { s.mill with flumes := mupd [] s.mill.flumes t (· ++ [fr]) } }
              if room < w then ((w - room, fr.dom, w), bad, s) else drawLoop p t dom n (left - w) (room - w) bad s

end Sys2Proof.Machine
end

