-- ==== Sys2Proof/Machine/Trees.lean ====
section
/-! DEFINITION. Tree ports: states, bursts, tap memory, delimiter search, decoding counts, upstream XGEM (R91 to R94, R111 to R122,
R132, R165, R186, R198, Table 6.1). -/

namespace Sys2Proof.Machine

open Config

/-! ### Port states (R91 to R94) -/

/-- A plate record names tree n (R94). -/
def plateNames (p : Plate) (n : Nat) : Bool :=
  p.bursts.any (fun x => x.tree = n) || p.quiets.any (fun x => x.tree = n) || p.slackups.any (fun x => x.tree = n)
    || p.downs.any (fun x => x.tree = n) || p.flows.any (fun x => x.tree = n)
    || p.millrace.any (fun c => (c.kind = 1 || c.kind = 3) && c.target = n)

/-- TARGET of tree n. -/
def treeTarget (s : State) (n : Nat) : Nat := regFld s (aTREE n) 1 0

/-- The first PON frame boundary at least DS_BUILD after t. -/
def frameBoundary (s : State) (t : Nat) : Nat := frameStart s (t + DS_BUILD)

/-- The tree's objects leave service (R194). -/
def treeLeaves (n : Nat) (s : State) : State := estDrop 1 n (defLeave 1 n s)

/-- Tree n loses its power domain: no store of it holds anything; its registers read 0 when it next comes on, but TREE_CTL, which brings it back
(R427, log 43). -/
def treePowerOff (n : Nat) (s : State) : State :=
  let s := domOff n s
  let s := { s with regs := s.regs.filter (fun e => !(aTREE n < e.1 && decide (e.1 < aTREE n + 0x10000))),
                    taps := s.taps.filter (fun e => e.1 / 128 ≠ n),
                    keys := mmap {} (fun i k => if i / 128 = n then {} else k) s.keys }
  let s := setRaw (aTREE n + 0x10) 0 (setRaw (aTREE n + 0x0C) 0 s)
  updTree n (fun t => { t with frags := [], grants := [], sent := [], window := none, plans := [], carry := 0, carryOf := none, lineNext := none, lineNow := none,
                               placed := [], quietSpans := [], slackSpans := [], respEnds := [], sdRun := 0, sdLow := 0, sdHeld := false,
                               live := none, shadow := none, writeBack := none }) s

/-- The state a port enters when its transition is decided; OFF at once. -/
def treeDecide (n : Nat) (s : State) : State :=
  let t := tree s n
  let g := treeTarget s n
  if t.moving.isSome ∨ !treeOk s n then s
  else
    let go := fun (x : TreeSt) (b : Nat) => updTree n (fun t => { t with moving := some (x, b) }) s
    match t.st with
    | .off => if 1 ≤ g then pwrUp n (pwrUp (72 + treeGroup n) (pwrUp 72 (go .dark (s.now + 2488320)))) else s
    | .dark =>
      if 2 ≤ g then go .lit (frameBoundary s s.now)
      else if g = 0 then treePowerOff n (updTree n (fun t => { t with st := .off, sdNow := false }) s)
      else s
    | .lit =>
      if g ≤ 1 then go .dark (frameBoundary s s.now)
      else if g = 3 ∧ (engaged s).any (fun p => plateNames p n) then go .serving (boundaryAt s (s.now + TURN_CUTOFF + 1))
      else s
    | .serving => if g ≤ 2 then go .lit (frameBoundary s s.now) else s

/-- TREE_CTL: TARGET written (R91). -/
def treeCtl (n : Nat) (g : BitVec 2) (s : State) : State :=
  if treeOk s n then treeDecide n (setRaw (aTREE n) (g.setWidth 32) s) else s

/-- The port enters a state. -/
def treeEnter (n : Nat) (x : TreeSt) (s : State) : State :=
  let old := (tree s n).st
  let s := updTree n (fun t => { t with st := x, moving := none }) s
  -- its counters restart as it leaves OFF, in whatever way its domain came on (R93)
  let s := if old = .off then domRestart n (domOn n (domOn (72 + treeGroup n) (domOn 72 s))) else s
  -- bursts that have begun are still received: their frames are classified under the plate that granted them (R89)
  let s := if old = .serving then updTree n (fun t =>
      { t with grants := t.grants.filter (fun g => x = .lit && decide (g.start < s.now)), window := none, plans := [], carry := 0, carryOf := none, compPos := 0 }) s
    else s
  let s := if x = .serving then updTree n (fun t => { t with heldTold := false }) s else s
  let s := if x = .dark then treeLeaves n (updTree n (fun t =>
      { t with window := none, plans := [], quietSpans := [], slackSpans := [], respEnds := [], losCount := 0, lofRun := 0, lineNext := none, lineNow := none,
               placed := [] }) s)
    else s
  treeDecide n s

/-- TREE_TRANSITION: the decided state is entered at its boundary (R92); the OFF to DARK bound is a latest time. SERVING is entered only
while the engaged plate still names the tree. -/
def treeTransition (n : Nat) (s : State) : State :=
  match (tree s n).moving with
  | none => s
  | some (x, b) =>
    let s := if (tree s n).st = .off then s else advance b s
    if x = .serving ∧ !(engaged s).any (fun p => plateNames p n) then treeDecide n (updTree n (fun t => { t with moving := none }) s)
    else treeEnter n x s

/-- A BAR0 write of TREE_CTL. -/
def execTreeTransition (n : Fin 64) (s : State) := live s (treeTransition n.val s)

/-! ### Bursts -/

/-- The k-th grant the tree holds: those of the frame last composed, after those of the frame before it (R98). -/
def grantAt (s : State) (n k : Nat) : Option Grant := (tree s n).grants[k]?

def setGrant (n k : Nat) (g : Grant) (s : State) : State := updTree n (fun t => { t with grants := t.grants.set k g }) s

/-- Age of a stamp, modulo 2^64. -/
def stampAge (now : Nat) (st : BitVec 64) : Nat := (BitVec.ofNat 64 now - st).toNat

/-- The grant before the k-th to the same terminal. -/
def prevGrant (s : State) (n k : Nat) (g : Grant) : Option Grant := ((tree s n).grants.take k).reverse.find? (fun x => x.term = g.term)

/-- The taps are taken from the live or the write-back set, not from memory: the terminal's previous burst has its delimiter found and is not yet
written, end + T_DSP (R113); on a device with TAP_MEMORY. -/
def tapsDirect (s : State) (p : Option Grant) : Bool :=
  featOn s 6 && p.any (fun p => p.found.isSome && decide (s.now < grantEnd p + T_DSP))

/-- BURST_ANNOUNCE (R111, R113, R114, R115). -/
def burstAnnounce (n k : Nat) (tapEcc : Bool) (s : State) : State :=
  match grantAt s n k with
  | none => s
  | some g =>
    if g.announced then s
    else
      let s := tapsLive n (advance (g.start - ANNOUNCE) s)
      let ix := 128 * n + g.term
      let s := if tapEcc then
          event 0x020E 2 ix [] (eccEvent 5 ix (bump (cTree n 0x168) 1 (dropTaps ix s)))
        else s
      let tm := term s ix
      let tap : Tap := mget {} s.taps ix
      let p := prevGrant s n k g
      let direct := tapsDirect s p
      let valid := if direct then p.any (fun p => p.rate = g.rate) else tap.valid && decide (tap.rate = BitVec.ofNat 2 g.rate)
      let age := if direct then s.now - ((p.map grantEnd).getD 0) else stampAge s.now tap.stamp
      let fresh_ := valid && decide (age ≤ TAP_STALE)
      let use := if g.pclass = 0 then fresh_ else g.pclass = 1 && valid
      let t := tree s n
      let taps := if !direct then some tap.taps else if p.any (fun p => s.now < grantEnd p) then t.live else t.writeBack
      let s := updTree n (fun t => { t with shadow := some (g.start, if use then taps else none) }) s
      let s := setGrant n k { g with announced := true, fresh := use } s
      if g.pclass = 0 ∧ !fresh_ then
        let s := bump (cTree n 0x128) 1 s
        if tm.staleTold then s else event 0x020D 2 ix [] (updTerm ix (fun t => { t with staleTold := true }) s)
      else s

/-- RDI of the FS header, 3 decoded bursts in a row each way (Table 6.1, TM_RDI). -/
def rdiSeen (ix : Nat) (rdi : Bool) (s : State) : State :=
  if !inService s 2 ix then s else
  let s := updTerm ix (fun t => { t with rdiRun := if rdi then t.rdiRun + 1 else 0, rdiClr := if rdi then 0 else t.rdiClr + 1 }) s
  if masked s 2 ix TM_RDI then updTerm ix (fun t => { t with rdiRun := 0, rdiClr := 0 }) s
  else if rdi ∧ 3 ≤ (term s ix).rdiRun then defSet 2 ix TM_RDI s
  else if !rdi ∧ 3 ≤ (term s ix).rdiClr then defClear 2 ix TM_RDI 0 s
  else s

/-- A status report of allocation a, carried by a burst that starts at `start` (R247, Table 7.6): GRANTED_SINCE goes on with the dynamic bursts already
granted that start after it; a leaf left without need is cleared (R244). -/
def report (a v start : Nat) (s : State) : State :=
  let since := (((tree s (a / 512)).grants.filter (fun g =>
    g.dynamic && 4 * g.term + ((g.allocs.map (·.1)).headD 4) = a % 512 && decide (start < g.start))).map Grant.xgem).sum
  let old := need s (mget {} s.mill.allocs a)
  let set := fun (f : ACfg → ACfg) (s : State) => { s with mill := { s.mill with allocs := mupd {} s.mill.allocs a f } }
  set (fun c => { c with reportAt := some s.now, needOld := old })
    (clearAlloc a (set (fun c => { c with reported := v, granted := since, reportAt := none }) s))

/-- Codewords of a burst (R102). -/
def grantCws (g : Grant) : Nat := (g.len - (PRE g.pclass + DELIM)) / CW g.rate

/-- The codeword in which the DBRu of allocation index a stands: the first of its record's allocation (R102). -/
def dbruCw (g : Grant) (a : Nat) : Nat := ((g.firstCw.find? (fun x => x.1 = a)).map Prod.snd).getD 0

/-- The codewords of a burst as observed: as many as it has, one not observed counting as uncorrectable (R102, R121). -/
def burstCws (g : Grant) (o : BurstObs) : List (Option Nat) :=
  (o.cws ++ List.replicate (grantCws g - o.cws.length) none).take (grantCws g)

/-- Numbers of the codewords that are uncorrectable. -/
def erasedCws (l : List (Option Nat)) : List Nat := ((indexed l).filter (fun e => e.2.isNone)).map Prod.fst

/-- The live taps adapt to the burst that arrives: what they come to is the receiver's, a free value (R110, R112). -/
def adaptTaps (n : Nat) (s : State) : State :=
  let (v, s) := fresh s
  updTree n (fun t => { t with live := some (Taps.ofBits (Config.learnedTaps v)) }) s

/-- BURST_RX: the delimiter, the codewords, the header and the reports of a granted burst (R117 to R122). -/
def burstRx (n k : Nat) (o : BurstObs) (s : State) : State :=
  match grantAt s n k with
  | none => s
  | some g =>
    if g.received then s
    else
      let ix := 128 * n + g.term
      let s := tapsLive n (advance (g.start + PRE g.pclass + DELIM) s)
      let s := adaptTaps n s
      match delimWin g.rate (dlmThreshold s n g.rate) o.delims with
      | none =>
        let s := bump (cTerm ix 0x18) 1 (bump (cTree n 0x120) 1 s)
        let s := setGrant n k { g with received := true, sdAny := o.sdAny } s
        tellBurst n g none o.bipOk [] s
      | some off =>
        let s := bump (cTerm ix 0x30) 1 (bumpS (cTerm ix 0x28) off s)
        let s := updTree n (fun t => { t with ownDlm := (t.ownDlm.1 + off * (40 / lineBits g.rate : Nat), t.ownDlm.2 + 1) }) s
        let cws := burstCws g o
        let good := cws.filterMap id
        let bad := cws.length - good.length
        let s := setGrant n k { g with received := true, sdAny := o.sdAny, found := some off, decoded := cws.length,
                                       corrected := good.sum, uncorr := bad, bipOk := o.bipOk, erased := erasedCws cws,
                                       dataAt := some (expected g + delimBits g.rate + off) } s
        let s := if cws.head?.join.isSome then
            let s := if o.onu ≠ g.term then
                updTree n (fun t => { t with idMisImpr := t.idMisImpr + 1 }) (bump (cbTree n 14) 1 s)
              else s
            rdiSeen ix o.rdi s
          else s
        let s := o.reports.foldl (fun s r => if g.allocs.contains (r.1, true) && (cws[dbruCw g r.1]?).join.isSome then report (4 * ix + r.1) r.2 g.start s else s) s
        tellBurst n g (some off) o.bipOk cws s
where
  /-- The BURST record, sent both ways (Table 11.2). -/
  tellBurst (n : Nat) (g : Grant) (found : Option Int) (bip : Bool) (cws : List (Option Nat)) (s : State) : State :=
    if s.pair.contact && s.pair.st ≠ .solo then
      let mask := cws.foldl (fun a c => 2 * a + c.isNone.toNat) 0
      let a := (g.allocs.map (·.1)).headD 0
      sendRecs [{ stroke := strokeAt s s.now, body := .burst n g.term a found.isSome (found.getD 0) mask bip }] s
    else s

/-- Terminal defects at the end of a granted burst (Table 6.1). -/
def burstDefects (ix : Nat) (found sd : Bool) (s : State) : State :=
  if !inService s 2 ix then s else
  let s := updTerm ix (fun t => { t with
    losRun := if sd then 0 else t.losRun + 1,
    lobRun := if found then 0 else t.lobRun + 1, lobSd := !found && (t.lobSd || sd),
    foundRun := if found then t.foundRun + 1 else 0 }) s
  let s := if masked s 2 ix TM_LOB then updTerm ix (fun t => { t with lobRun := 0, lobSd := false }) s
    else if 4 ≤ (term s ix).lobRun ∧ (term s ix).lobSd then defSet 2 ix TM_LOB s
    else if 2 ≤ (term s ix).foundRun then defClear 2 ix TM_LOB 0 s
    else s
  if masked s 2 ix TM_LOS then updTerm ix (fun t => { t with losRun := 0 }) s
  else if 4 ≤ (term s ix).losRun ∧ (term s ix).st = .active then termLos ix (advance (s.now + 24) s) else s

/-- BURST_END: taps written back, TR_LOS count, terminal defects (R112, R198). -/
def burstEnd (n k : Nat) (s : State) : State :=
  match grantAt s n k with
  | none => s
  | some g =>
    let ix := 128 * n + g.term
    let s := tapsLive n (advance (grantEnd g) s)
    -- a burst of which nothing was received is lost (R118)
    let s := if g.received then s
      else bump (cTerm ix 0x18) 1 (bump (cTree n 0x120) 1 (setGrant n k { g with received := true } s))
    let found := g.found.isSome
    let s := adaptTaps n s
    let learned := (tree s n).live
    let s := updTree n (fun t => { t with writeBack := learned }) s
    let s := if found ∧ g.uncorr = 0 ∧ featOn s 6 then
        { s with taps := mput {} s.taps ix { taps := learned.getD {}, rate := BitVec.ofNat 2 g.rate, valid := true, stamp := BitVec.ofNat 64 (grantEnd g) } }
      else s
    let prev := (term s ix).prevFound
    let s := updTree n (fun t => { t with
      losCount := if g.sdAny then 0 else if prev then t.losCount + 1 else t.losCount,
      foundTerms := if found then g.term :: t.foundTerms else t.foundTerms, sdFrame := t.sdFrame || g.sdAny,
      partnerAtSd := if g.sdAny then t.partnerDefects else t.partnerAtSd }) s
    let s := updTerm ix (fun t => { t with prevFound := found, prevEnd := grantEnd g }) s
    let s := if !g.sdAny ∧ prev ∧ (tree s n).losBursts ≤ (tree s n).losCount then treeDefect n TR_LOS (advance (grantEnd g + 24) s) else s
    burstDefects ix found g.sdAny s

/-- BANK_RELEASE: the decoder's counts of the burst (R121, R122). -/
def bankRelease (n k : Nat) (s : State) : State :=
  match grantAt s n k with
  | none => s
  | some g =>
    let ix := 128 * n + g.term
    let s := advance (grantEnd g + BANK_DRAIN) s
    if g.found.isNone then s
    else
      let add := fun (a : Nat) (s : State) => bump (a + 16) g.uncorr (bump (a + 8) g.corrected (bump a g.decoded s))
      let s := add (cTerm ix 0) (add (cTree n 0x100) s)
      let s := estAdd 2 ix g.uncorr g.decoded (estAdd 1 n g.uncorr g.decoded s)
      if g.uncorr = 0 ∧ !g.bipOk then bump (cTerm ix 0x20) 1 s else s

def execBurstAnnounce (n : Fin 64) (k : Nat) (e : Bool) (s : State) := live s (burstAnnounce n.val k e s)
def execBurstRx (n : Fin 64) (k : Nat) (o : BurstObs) (s : State) := live s (burstRx n.val k o s)
def execBurstEnd (n : Fin 64) (k : Nat) (s : State) := live s (burstEnd n.val k s)
def execBankRelease (n : Fin 64) (k : Nat) (s : State) := live s (bankRelease n.val k s)

/-- TR_LOS and TR_LOF at the end of a frame that ends at counter value e (Table 6.1). -/
def treeFrameEnd (n e : Nat) (s : State) : State :=
  let t := tree s n
  let ts := ((t.grants.filter (fun g => e ≤ g.plateStart + FRAME && g.plateStart < e)).map Grant.term).eraseDups
  let f := t.foundTerms.eraseDups
  let s := updTree n (fun t => { t with foundTerms := [], sdFrame := false }) s
  if ts = [] then s
  else
    let s := if 2 ≤ f.length ∨ ts.all (fun x => f.contains x) then defClear 1 n TR_LOS 0 s else s
    if f ≠ [] then defClear 1 n TR_LOF 0 (updTree n (fun t => { t with lofRun := 0 }) s)
    else if !t.sdFrame ∨ masked s 1 n TR_LOF then updTree n (fun t => { t with lofRun := 0 }) s
    else
      let s := updTree n (fun t => { t with lofRun := t.lofRun + 1 }) s
      if 2 ≤ t.lofRun + 1 then treeDefect n TR_LOF s else s

/-! ### Upstream XGEM (R89, R121, R132, R165, R186) -/

/-- Plate that granted a burst: the one engaged, or the one before it for a burst that began before the boundary (R89). -/
def grantPlate (s : State) (g : Grant) : Option Plate := if g.plateStart < s.imprAt then s.plates.prev else engaged s

/-- The terminal whose flow a FLOW_ID names: its FLOW record in a plate, else its valid slack entry (R165). -/
def flowTerm (p : Option Plate) (s : State) (f : Nat) : Option Nat :=
  match p.bind (flowIn · f) with
  | some r => some (128 * r.tree + r.term)
  | none => let x := sflowOf s f; if x.valid then some (128 * x.tree + x.term) else none

/-- The domain of a flow (R165). -/
def flowDom (p : Option Plate) (s : State) (f : Nat) : Nat :=
  match p.bind (flowIn · f) with
  | some r => r.dom
  | none => (queueOf s (slackQ (sflowOf s f))).dom

/-- The FCS of a frame is that of its content. -/
def fcsGood (l : List Byte) : Bool := 4 ≤ l.length && l.drop (l.length - 4) = fcsOf (body l)

/-- A partial frame discarded and counted (R186). -/
def fragDrop (n t : Nat) (p : Nat) (s : State) : State :=
  if (tree s n).frags.any (fun f => f.term = t && f.portId = p) then
    bump (cbTree n 4) 1 (updTree n (fun x => { x with frags := x.frags.filter (fun f => !(f.term = t && f.portId = p)) }) s)
  else s

/-- First and last codeword of a burst in which an XGEM frame lies (R102). -/
def xgemCws (x : Xgem) : Nat × Nat := (x.pos / 1824, (x.pos + 7 + x.data.length) / 1824)

/-- Reassembly of a frame that passed Port-ID and key checks, then its FCS and its route (R186, R132, R225). A tributary's payload carries no
Ethernet FCS (R166). A frame of fragments in bursts of two plates is classified under the plate of its last fragment's burst: R89 speaks of one burst
(DESIGN CHOICE, log 117). -/
def reassemble (n : Nat) (g : Grant) (x : Xgem) (plain : List Byte) (isTrib : Bool) (s : State) : State :=
  let p := x.portId.toNat
  let (a, b) := xgemCws x
  let old := (tree s n).frags.find? (fun f => f.term = g.term && f.portId = p)
  let data := (old.map Frag.data).getD [] ++ plain
  let rest := fun (s : State) =>
    updTree n (fun t => { t with frags := t.frags.filter (fun f => !(f.term = g.term && f.portId = p)) }) s
  if 9600 < data.length then bump (cbTree n 5) 1 (bump (cbTree n 4) 1 (rest s))
  else if !x.last then
    let part : Frag := { term := g.term, portId := p, since := (old.map Frag.since).getD s.now, data := data }
    updTree n (fun t => { t with frags := t.frags ++ [part] }) (rest s)
  else
    let s := rest s
    if !fcsGood data ∧ !isTrib then bump (cTree n 0x158) 1 s
    else takeIn { down := false, src := some (128 * n + g.term, g.start, a, b), old := decide (g.plateStart < s.imprAt) } (grantPlate s g) (cbTree n 2) p data
      (bump (cbTree n 1) (data.length + 8) s)

/-- An XGEM frame or fragment is discarded for erasure: a byte of it lies in a codeword erased here that no REPAIR record brought, or, on a standby, in
one its SAILS_ON partner had erased (R121, R333, R334). -/
def xgemLost (s : State) (g : Grant) (x : Xgem) : Bool :=
  let (a, b) := xgemCws x
  let within := fun (c : Nat) => decide (a ≤ c) && decide (c ≤ b)
  let fixed := g.repaired.map Prod.fst
  (x.erased && !fixed.any within) || (g.erased.filter (fun c => !fixed.contains c)).any within
    || (isStandby s && (g.partnerErased.getD []).any within)

/-- UPSTREAM_XGEM: one XGEM frame or fragment of the k-th grant. A burst has no more XGEM bytes than X (R104), so nothing stands beyond them. -/
def upstreamXgem (n k : Nat) (x : Xgem) (s : State) : State :=
  match grantAt s n k with
  | none => s
  | some g =>
    if g.found.isNone ∨ g.xgem < g.used + 8 + x.data.length then s
    else
      let s := setGrant n k { g with used := g.used + 8 + x.data.length } s
      let p := x.portId.toNat
      let pl := grantPlate s g
      let r := routeIn pl s false p
      if xgemLost s g x then fragDrop n g.term p (bump (cTree n 0x138) 1 s)
      else if x.idle then s
      else if flowTerm pl s p ≠ some (128 * n + g.term) then bump (cbTree n 3) 1 s
      else
        let ks := keySet s (keyIx n (flowDom pl s p) true)
        let slot := if x.key = 1 then ks.st0 else ks.st1
        let plain := if x.key = 0 then x.data
          else xgemCrypt s.power.kwk (if x.key = 1 then ks.key0 else ks.key1) true g.superframe x.pos x.data
        if x.key = 3 ∨ (x.key ≠ 0 ∧ slot = .empty) then fragDrop n g.term p (bump (cTree n 0x148) 1 s)
        else if x.key = 0 ∧ ks.encrypt then fragDrop n g.term p (bump (cTree n 0x150) 1 s)
        else reassemble n g x plain (match r with | .through f => f.trib | _ => false) s

/-- FRAG_TIMEOUT (R186). -/
def fragTimeout (n t p : Nat) (s : State) : State :=
  match (tree s n).frags.find? (fun f => f.term = t && f.portId = p) with
  | none => s
  | some f => fragDrop n t p (advance (f.since + 311040) s)

def execUpstreamXgem (n : Fin 64) (k : Nat) (x : Xgem) (s : State) := live s (upstreamXgem n.val k x s)
def execFragTimeout (n : Fin 64) (t : Fin 128) (p : BitVec 16) (s : State) := live s (fragTimeout n.val t.val p.toNat s)

end Sys2Proof.Machine
end

