-- ==== Sys2Proof/Machine/Takeover.lean ====
section
/-! DEFINITION. What the sections of a state copy hold and how a unit takes them; taking and giving sails (R163, R343 to R349, Table 11.6). -/

namespace Sys2Proof

/-! ### Content of a section

The spec lists what each section carries and gives no byte layout of it (log 22): what its bytes say is an open function of them. -/

/-- Section 1: PAIR_CFG, lease epoch, protection settings of trees and ports. -/
opaque Config.copyProt : List Byte → Word × BitVec 32 × Map Machine.Tree × Map Machine.UPort
/-- Section 1: time domains A and B in the sender's counter, SEL_DOM, K. -/
opaque Config.copyTime : List Byte → List Machine.TDom × Bool × Int
/-- Section 2: the terminal table, and by tree the POPUP and the band-ranging queue that its slots stand in (R147). -/
opaque Config.copyTerms : List Byte → Map Machine.Term × Map (List Nat × List Nat)
/-- Section 3: the key slots, wrapped. -/
opaque Config.copyKeys : List Byte → Map Machine.KeySet
/-- Section 4: the ENGAGED bank and its image. -/
opaque Config.copyEngaged : List Byte → Option (Bool × List Byte)
/-- Section 4: the image of a PROVEN bank and its scheduled turn. -/
opaque Config.copyTurn : List Byte → Option (List Byte × Machine.Turn)
/-- Section 5: the entries and the tributaries with what waits for a boundary (at most one element). -/
opaque Config.copyEntries : List Byte → List (Machine.Prov × Map Machine.Trib)
/-- Section 6: live datapath state (at most one element). -/
opaque Config.copyLive : List Byte → List (Machine.Mill × Map Machine.Trib)
/-- The slow tier: counters as they stood at C, and defect history bits. -/
opaque Config.copyCounters : List Byte → Map Machine.Cnt × Map Bool
/-- The bytes of the sections as sent, without their CRC. -/
opaque Config.packPair : Word → BitVec 32 → Map Machine.Tree → Map Machine.UPort → List Machine.TDom × Bool × Int → List Byte
opaque Config.packTerms : Map Machine.Term → Map (List Nat × List Nat) → List Byte
opaque Config.packKeys : Map Machine.KeySet → List Byte
opaque Config.packBanks : Option (Bool × Map Byte) → Option (Map Byte × Machine.Turn) → List Byte
opaque Config.packEntries : Machine.Prov → Map Machine.Trib → List Byte
opaque Config.packLive : Machine.Mill → Map Machine.Trib → List Byte
opaque Config.packCounters : Map Machine.Cnt → Map Bool → List Byte

namespace Machine

/-- A table in canonical form, each value read by f. -/
def canon {α β : Type} [DecidableEq β] (d : β) (f : Nat → α → β) (m : Map α) : Map β := m.foldl (fun a e => mput d a e.1 (f e.1 e.2)) []

/-- A frame as its descriptor alone (R334, R347). -/
def asChaff (x : Frame) : Frame := { x with chaff := true, data := [] }

/-! ### Taking a section -/

/-- Content of quick-tier section k as received, without its CRC. -/
def sectionBytes (s : State) (k : Nat) : List Byte := let l := mget [] s.pair.copied (16 + k); l.take (l.length - 4)

/-- A lease epoch learnt: the later one stands (R340). -/
def epochTake (e : BitVec 32) (s : State) : State :=
  if seqLt s.pair.epoch e then { s with pair := { s.pair with epoch := e } } else s

/-- Section 1. Of the pair configuration WITNESS_EN and JOIN_AUTO are the pair's, the rest of PAIR_CFG the unit's own (R327; log 22). Counter values come
converted by Δ_C (R331); at a cold takeover the epoch raised lies beyond the one copied (R340). -/
def takePairSec (l : List Byte) (s : State) : State :=
  let (cfg, e, ts, us) := Config.copyProt l
  let s := setRaw aPAIR_CFG ((regRaw s aPAIR_CFG &&& 0xF0000000) ||| (cfg &&& 0x0C000000)) s
  let (ds, sel, k) := Config.copyTime l
  let own := fun (c : Nat) => ((c : Int) + s.pair.deltaC).toNat
  let conv := fun (b : Bool) (d : TDom) =>
    { tdom s b with st := d.st, cb := own d.cb, tau := d.tau, r := d.r, past := d.past.map (fun x => (own x.1, own x.2.1, x.2.2)),
                    rates := d.rates.map (fun x => (own x.1, x.2)), pathStep := d.pathStep, holdPath := d.holdPath, mpd := d.mpd, asym := d.asym,
                    kb := d.kb }
  let s := (List.range 64).foldl (fun s n => updTree n (fun t => treeProt t (mget {} ts n)) s) (epochTake (if s.pair.sails then e + 1 else e) s)
  let s := (List.range 32).foldl (fun s p =>
    updPort p (fun u => { u with spare := (mget {} us p).spare, utrig := (mget {} us p).utrig, protNext := none }) s) s
  let s := adoptDom true (conv true ((ds[1]?).getD {})) (adoptDom false (conv false ((ds[0]?).getD {})) s)
  { s with time := { s.time with sel := sel, k := k, kAt := s.now } }

/-- The taps of slot g are no longer valid after its entry has changed from x to y (R115): it is UNSEEN, DISABLED or ROGUE, or has another delay or rate. -/
def tapsEnd (x y : Term) : Bool :=
  (x.st ≠ y.st && (y.st = .unseen || y.st = .disabled || y.st = .rogue)) || x.eqd ≠ y.eqd || x.rate ≠ y.rate

/-- Section 2: what Table 4.1 lists of each slot, Rc held or not (R147), and the queues in their order; timers and counts of receptions are the unit's
own. A slot's defects follow the state it has now (R194), and so do its taps (R115; log 93). -/
def takeTerms (l : List Byte) (s : State) : State :=
  let old := s.terms
  let (ts, qs) := Config.copyTerms l
  let own := fun (g : Nat) (x : Term) =>
      { term s g with
        serial := x.serial, rate := x.rate, allocs := x.allocs, auto := x.auto, pkey := x.pkey, pkeyImpr := x.pkeyImpr, pkeyOn := x.pkeyOn,
        st := x.st, eqd := x.eqd, eqdAck := x.eqd, rtd := x.rtd, rcHeld := x.rcHeld, wasActive := x.wasActive, tries := x.tries }
  let s := { s with terms := canon {} own ts }
  let s := old.foldl (fun s e => if e.2.st = (term s e.1).st then s else termService e.1 (term s e.1).st s) s
  let s := s.taps.foldl (fun s e => if tapsEnd (mget {} old e.1) (term s e.1) then dropTaps e.1 s else s) s
  (List.range 64).foldl (fun s n => updTree n (fun t => { t with popupQ := (mget ([], []) qs n).1, bandQ := (mget ([], []) qs n).2 }) s) s

/-- An image written into an empty bank, with the plate it holds. -/
def imageBank (st : BankSt) (l : List Byte) : Bank :=
  let m := imgWrite [] 0 (l.take 5242880)
  { st := st, image := m, plate := some (plateOf (readImg m)) }

/-- Section 4: the engaged plate, and the plate of a scheduled turn in the other bank. -/
def takeBanks (l : List Byte) (s : State) : State :=
  let s := emptyBank true (emptyBank false s)
  let s := { s with plates := { s.plates with turn := none } }
  match Config.copyEngaged l, Config.copyTurn l with
  | some (b, x), some (y, t) =>
    sweepLeft (setBank (!b) (imageBank .proven y) (setBank b (imageBank .engaged x) { s with plates := { s.plates with turn := some { t with bank := !b } } }))
  | some (b, x), none => sweepLeft (setBank b (imageBank .engaged x) s)
  | none, some (y, t) => sweepLeft (setBank t.bank (imageBank .proven y) { s with plates := { s.plates with turn := some t } })
  | none, none => sweepLeft s

/-- Section 5. Ports it enables or disables follow as at a write of PORT_CFG, and their quads come on; what leaves service leaves its defects (R194). -/
def takeEntries (l : List Byte) (s : State) : State :=
  let x : Prov × Map Trib := (Config.copyEntries l).headD ({}, [])
  let c := x.1
  let own := fun (c : Nat) => ((c : Int) + s.pair.deltaC).toNat
  let was := portsOn s
  let s := { s with regs := (c.regs.filter (fun (e : Nat × Word) => copyReg e.1)).foldl (fun (m : Map Word) (e : Nat × Word) => mput 0 m e.1 e.2) (s.regs.filter (fun e => !copyReg e.1)) }
  let s := { s with
    mill := { s.mill with
      queues := canon {} (fun _ x => x) c.queues, terms := canon {} (fun _ x => x) c.termNodes, doms := canon {} (fun _ x => x) c.doms,
      ports := canon {} (fun _ x => x) c.portNodes, allocs := canon {} (fun _ x => x) c.allocs, sflows := canon {} (fun _ x => x) c.sflows,
      gens := c.gens.foldl (fun m f => mput none m f (some 0)) [] },
    screens := c.screens,
    tribs := canon {} (fun _ (x : Trib) => ({ cfg := x.cfg, present := x.present, next := x.next.map (fun y => (y.1, own y.2)), held := x.held } : Trib)) x.2 }
  let s := sweepLeft (portsFollow was s)
  let s := (List.range 8).foldl (fun s g => if (List.range 4).any (fun j => portOn s (4 * g + j)) then pwrUp (64 + g) s else s) s
  (List.range 64).foldl (fun s n => updTree n (fun t => { t with set := (mget {} c.trees n).set, setNext := none }) s) s

/-- Section 6: frames as chaff; what a lane is retired for stays the unit's own. -/
def takeLive (l : List Byte) (s : State) : State :=
  let (m, ts) : Mill × Map Trib := (Config.copyLive l).headD ({}, [])
  let frames := fun (x : Map (List Frame)) => canon [] (fun _ (y : List Frame) => y.map asChaff) x
  let s := { s with mill := { s.mill with
    nodes := canon {} (fun _ x => x) m.nodes, pond := frames m.pond, used := canon 0 (fun _ x => x) m.used, flumes := frames m.flumes,
    through := frames m.through, tail := frames m.tail, points := canon 0 (fun _ x => x) m.points, usedFpb := canon 0 (fun _ x => x) m.usedFpb } }
  let s := (List.range 24).foldl (fun s k =>
    let x : Lane := mget {} m.lanes k
    setLane k { x with weir := x.weir.map asChaff, hopper := x.hopper.map (fun y => (y.1, asChaff y.2.1, y.2.2)),
                       retired := (lane s k).retired, hwm := (lane s k).hwm } s) s
  { s with tribs := mmap {} (fun f (t : Trib) =>
      let x : Trib := mget {} ts f
      { t with fcnt := x.fcnt, order := x.order, expect := x.expect, store := x.store.map (fun _ => none) }) s.tribs }

/-- A complete section taken into the unit's state (R347). -/
def takeSec (s : State) (k : Nat) : State :=
  let l := sectionBytes s k
  match k with
  | 1 => takePairSec l s
  | 2 => takeTerms l s
  | 3 => { s with keys := canon {} (fun _ x => x) (Config.copyKeys l) }
  | 4 => takeBanks l s
  | 5 => takeEntries l s
  | _ => takeLive l s

/-- The slow tier's section as received, without the CRC that closes it. -/
def slowBytes (s : State) : List Byte := let l := mget [] s.pair.copied 33; if sectionDone l then l.take (l.length - 4) else l

/-- The copied counters are added, the history bits taken (R348). -/
def takeCounters (s : State) : State :=
  let (c, h) := Config.copyCounters (slowBytes s)
  let s := c.foldl (fun s e => { s with cnt := mupd {} s.cnt e.1 (fun x => { cntAdd e.2.v.toNat x with wrap := x.wrap || e.2.wrap }) }) s
  { s with defects := { s.defects with hist := h.foldl (fun m e => if e.2 then mput false m e.1 true else m) s.defects.hist } }

/-- The SAILS_ON unit is lost during the slow tier: the counters copied so far are added; those not yet copied restart from 0, with the wrap bit in
their first holding copy (R48, R349). -/
def slowTierLost (s : State) : State :=
  if s.pair.tier ≠ 2 then s
  else
    let t := takeCounters s
    if sectionDone (mget [] s.pair.copied 33) then t
    else
      let keep := (Config.copyCounters (slowBytes s)).1.map (·.1)
      { t with cnt := t.cnt.filter (fun e => keep.contains e.1), cntWrap := true, cntKeep := keep }

/-! ### Sending a copy (R347, R348) -/

/-- A section closed by its CRC-32C. -/
def closed (l : List Byte) : List Byte := l ++ e32 (crc32c l)

/-- The entries of section 5 as they stand. -/
def provNow (s : State) : Prov :=
  let m := s.mill
  { regs := s.regs.filter (fun e => copyReg e.1), trees := s.trees, queues := m.queues, termNodes := m.terms, doms := m.doms, portNodes := m.ports,
    allocs := m.allocs, sflows := m.sflows, gens := m.gens.map (·.1), screens := s.screens, ports := s.ports }

/-- Content of quick-tier section k as it stands (Table 11.6). -/
def sectionNow (s : State) (k : Nat) : List Byte :=
  let img := fun (b : Bool) => (bank s b).image
  let eng := if s.plates.bank0.st = .engaged then some (false, img false) else if s.plates.bank1.st = .engaged then some (true, img true) else none
  match k with
  | 1 => Config.packPair (regRaw s aPAIR_CFG) s.pair.epoch s.trees s.ports ([s.time.domA, s.time.domB], s.time.sel, s.time.k)
  | 2 => Config.packTerms s.terms (s.trees.map (fun e => (e.1, (e.2.popupQ, e.2.bandQ))))
  | 3 => Config.packKeys s.keys
  | 4 => Config.packBanks eng (s.plates.turn.map (fun t => (img t.bank, t)))
  | 5 => Config.packEntries (provNow s) s.tribs
  | _ => Config.packLive s.mill s.tribs

/-- The cut C (R347, R348): the SAILS_ON unit marks its stream and holds every section as it stands; the standby's counters count from 0. -/
def landCut (s : State) : State :=
  if s.pair.st ≠ .joining ∨ !s.pair.contact then s
  else
    let s := { s with pair := { s.pair with tier := 1, cutAt := some s.now, tierAt := s.now, repaired := 0 } }
    if s.pair.sails then
      { s with pair := { s.pair with
          streamMark := s.pair.streamWr,
          sending := (quickSecs.map (fun k => (16 + k, closed (sectionNow s k)))) ++ [(33, closed (Config.packCounters s.cnt s.defects.hist))] } }
    else if isStandby s then countFromZero s else s

/-! ### A warm restart's and a cold takeover's terminals (R163) -/

/-- R163 for one terminal: ACTIVE to POPUP, POPUP again, DISCOVERED to UNSEEN; awaited messages are sent again. -/
def restartTerm (g : Nat) (s : State) : State :=
  let n := g / 128
  let k := g % 128
  let s := match (term s g).st with
    | .active => moveTerm g .popup 5 s
    | .popup => tellTerm g (updTree n (fun x => { x with popupQ := x.popupQ.filter (· ≠ k) ++ [k] }) (updTerm g (fun t => { t with timer := 0 }) s))
    | .discovered => moveTerm g .unseen 5 s
    | .ranged => actStep g s
    | _ => s
  let again := (term s g).awaits.map Await.msg
  updTree n (fun x => { x with msgs := x.msgs ++ again }) (updTerm g (fun t => { t with awaits := [] }) s)

/-- Every terminal as R163 has it; terminals enter POPUP in slot order (log 93). -/
def restartTerms (s : State) : State := (s.terms.map (·.1)).foldl (fun s g => restartTerm g s) s

/-! ### Sails (R343 to R346, R349) -/

/-- The sections a cold takeover keeps, as a bit mask of the event COLD_TAKEOVER. -/
def secMask (s : State) : Nat := s.pair.sections.foldl (fun a k => a ||| (1 <<< (k - 1))) 0

/-- The sections of a cold takeover (R349): complete ones are taken, the rest emptied. -/
def coldSections (s : State) : State :=
  if s.pair.taken then s
  else
    let kept := s.pair.sections
    let s := quickSecs.foldl (fun s k => if kept.contains k then takeSec s k else emptySec s k) s
    { s with pair := { s.pair with taken := true } }

/-- A cold takeover (R349): with its sections, the trees follow the TARGETs that section 5 brought, terminals of a copied table are as at a warm
restart. -/
def coldTake (s : State) : State :=
  let s := coldSections s
  let s := event 0x0806 5 0 (beBytes 1 (secMask s)) s
  restartTerms ((List.range 64).foldl (fun s n => treeDecide n s) s)

/-- The new unit at X (R343 to R346): forms 1, 5 and 6 carry the old unit's delivered points, the others flush what came before X.
A cold takeover (form 7) keeps the complete sections and reports DEGRADED (R349). The tree that triggered a feeder handover keeps its defect on the
partner, whose DEFECT records follow; no other one bars itself (R210). What the standby held of frames classified before X is lost with it (R220). -/
def takeSails (form cause tr : Nat) (s : State) : State :=
  let s := switchCmd s
  let cold := decide (form = 7)
  let s := tsGap (slowTierLost (if form = 1 ∨ form = 5 ∨ form = 6 then dropDelivered s else flushMill s))
  let s := raiseSails { s with trees := mmap {} (fun n (t : Tree) => if form = 6 ∧ n = tr then
      { t with triggered := cause ≠ 0xFF, partnerDefects := [cause], partnerLosAt := 0 } else { t with triggered := false, partnerDefects := [], partnerLosAt := 0 }) s.trees }
  let s := { s with pair := { s.pair with
      st := if form = 5 ∨ form = 6 then s.pair.st else .solo, cold := cold, degraded := s.pair.degraded || cold,
      lastHandover := if form = 6 then some s.imprCount else s.pair.lastHandover,
      tier := if form = 5 ∨ form = 6 then s.pair.tier else 0, lag := [], copies := [], refused := [], digestDue := none } }
  switchEvent form cause tr (if cold then coldTake s else s)

end Machine
end Sys2Proof
end

