-- ==== Sys2Proof/Machine/Mill.lean ====
section
/-! DEFINITION. Mill entries (MILL_SET, MILL_GET, the mill window), the strokes of the lanes, the commit point (R36 to R40, R226 to R240). -/

namespace Sys2Proof.Machine

/-! ### Entries (R236 to R240, Tables 7.3 to 7.6) -/

def dw (d : List Word) (i : Nat) : Nat := ((d[i]?).getD 0).toNat

/-- Quantum and sluice of words D1 to D3. -/
def readNode (d : List Word) : NodeCfg :=
  { quantum := fld (dw d 1) 20 0, sluEn := fld (dw d 2) 31 31 = 1, rate := fld (dw d 2) 22 0, burst := fld (dw d 3) 24 0 }

def readQueue (d : List Word) : QCfg :=
  { enable := fld (dw d 0) 31 31 = 1, dom := fld (dw d 0) 30 25, port := fld (dw d 0) 24 20, qlimit := fld (dw d 0) 19 0, node := readNode d }

def readSFlow (d : List Word) : SFlow :=
  { valid := fld (dw d 0) 31 31 = 1, dir := fld (dw d 0) 30 30 = 1, tree := fld (dw d 0) 29 24, term := fld (dw d 0) 23 17, queue := fld (dw d 0) 16 13 }

/-- Entries of a table. -/
def tableSize (t : Nat) : Nat :=
  match t with
  | 0 => 262144 | 1 => 24576 | 2 => 10240 | 3 => 160 | 4 => 32768 | 5 => 65536 | _ => 0

/-- The tree an entry belongs to exists on this part (R3). -/
def entryHere (s : State) (t i : Nat) : Bool :=
  let port := fun (P : Nat) => if P < 64 then treeOk s P else if P < 96 then true else treeOk s (P - 96)
  match t with
  | 0 => treeOk s (i / 32 / 128)
  | 1 => treeOk s (i / 3 / 128)
  | 2 => port (i / 64)
  | 3 => port i
  | 4 => treeOk s (i / 4 / 128)
  | _ => true

/-- The index is in range and names something present. -/
def entryOk (s : State) (t i : Nat) : Bool := i < tableSize t && entryHere s t i

/-- Reserved bits of a sluice and quantum, as (word, test). -/
def nodeRules (quantum : Bool) (d : List Word) : List (Nat × Bool) :=
  let c := readNode d
  [(1, fld (dw d 1) 31 21 = 0), (2, fld (dw d 2) 30 23 = 0), (3, fld (dw d 3) 31 25 = 0),
   (1, !quantum || (64 ≤ c.quantum && c.quantum ≤ 1048576)), (1, quantum || dw d 1 = 0),
   (2, !c.sluEn || (1 ≤ c.rate && c.rate ≤ 6400000)), (3, !c.sluEn || (64 ≤ c.burst && c.burst ≤ 16777216))]

def domOk (s : State) (d : Nat) : Bool := d ≤ 15 || featOn s 3

/-- Content rules of an entry (R236, R238): (word, test that must hold). A non-zero reserved word or bit is refused, unlisted ones too: R13 and R238 refuse
it, where the line under Table 7.6 lets writes of unlisted ones be ignored (DESIGN CHOICE, log 78). -/
def entryRules (s : State) (t i : Nat) (d : List Word) : List (Nat × Bool) :=
  let q := readQueue d
  let f := readSFlow d
  match t with
  | 0 => nodeRules true d ++
      [(4, decide (fld (dw d 4) 29 20 = 0)), (5, fld (dw d 5) 31 30 = 0), (6, fld (dw d 6) 31 22 = 0), (0, 1 ≤ q.qlimit ∧ q.qlimit ≤ 524288),
       (0, i % 16 < 4 || featOn s 2), (0, domOk s q.dom), (0, !(q.enable && i / 16 % 2 = 1) || portOn s q.port)]
  | 1 => (0, decide (dw d 0 = 0)) :: nodeRules true d ++ [(4, decide (dw d 4 = 0)), (5, dw d 5 = 0), (6, dw d 6 = 0), (7, dw d 7 = 0)]
  | 2 => (0, decide (dw d 0 = 0)) :: nodeRules true d ++
      [(4, decide (fld (dw d 4) 29 0 = 0)), (5, dw d 5 = 0), (6, fld (dw d 6) 31 22 = 0), (0, domOk s (i % 64))]
  | 3 => (0, decide (dw d 0 = 0)) :: nodeRules false d ++ [(4, decide (fld (dw d 4) 29 0 = 0)), (5, dw d 5 = 0), (6, fld (dw d 6) 31 22 = 0)]
  | 4 => nodeRules true d ++ [(0, decide (fld (dw d 0) 24 8 = 0)), (4, fld (dw d 4) 31 30 = 0), (5, fld (dw d 5) 31 30 = 0),
      (6, fld (dw d 6) 31 22 = 0), (0, domOk s (fld (dw d 0) 30 25))]
  | _ => [(0, fld (dw d 0) 12 0 = 0), (1, fld (dw d 1) 31 2 = 0), (2, dw d 2 = 0), (3, dw d 3 = 0), (4, dw d 4 = 0), (5, dw d 5 = 0),
      (6, dw d 6 = 0), (7, dw d 7 = 0), (0, treeOk s f.tree), (0, f.queue < 4 || featOn s 2)]

/-- The first word at fault, plus 1; 0 for none. -/
def wordBad : List (Nat × Bool) → Nat
  | [] => 0
  | (w, ok) :: r => if ok then wordBad r else w + 1

/-- Frames of a slack flow in a weir, on the way, or in the millpond. -/
def flowHeld (s : State) (f : Nat) : Bool :=
  s.mill.lanes.any (fun e => e.2.weir.any (fun x => x.flow = f) || e.2.hopper.any (fun x => !x.2.2 && x.2.1.flow = f))
    || s.mill.pond.any (fun e => e.2.any (fun x => x.flow = f))

/-- The write must wait: it moves a queue or slack flow that holds frames (R238). -/
def entryBusy (s : State) (t i : Nat) (d : List Word) : Bool :=
  let c := queueOf s i
  let q := readQueue d
  let o := sflowOf s i
  let f := readSFlow d
  match t with
  | 0 => (c.dom ≠ q.dom || c.port ≠ q.port) && queueCells s i ≠ 0
  | 5 => (o.queue ≠ f.queue || o.tree ≠ f.tree || o.term ≠ f.term || o.dir ≠ f.dir) && flowHeld s i
  | _ => false

/-- SHADOW (R240). -/
def shadowed (s : State) (f : Nat) : Bool := (flowOf s f).isSome

/-- FLOW_IDs of terminal g: its through-flows in the engaged plate and its valid, unshadowed slack entries but f. -/
def termFlows (s : State) (g f : Nat) : Nat :=
  (((engaged s).map Plate.flows).getD []).countP (fun r => 128 * r.tree + r.term = g)
    + s.mill.sflows.countP (fun e => e.1 ≠ f && e.2.valid && 128 * e.2.tree + e.2.term = g && !shadowed s e.1)

/-- The write would exceed 64 flows of a terminal (R240). -/
def entryOver (s : State) (t i : Nat) (d : List Word) : Bool :=
  let f := readSFlow d
  t = 5 && f.valid && !shadowed s i && 64 ≤ termFlows s (128 * f.tree + f.term) i

/-- Suspension of slack entries of every terminal above 64 flows, the highest FLOW_IDs first (R240). -/
def sflowLimit (s : State) : State :=
  let gs := (s.mill.sflows.map (fun e => 128 * e.2.tree + e.2.term)).eraseDups
  gs.foldl (fun s g =>
    let thr := (((engaged s).map Plate.flows).getD []).countP (fun r => 128 * r.tree + r.term = g)
    let mine := (s.mill.sflows.filter (fun e => e.2.valid && 128 * e.2.tree + e.2.term = g && !shadowed s e.1)).map (·.1)
    let off := mine.drop (64 - thr)
    let fresh_ := off.filter (fun f => !(sflowOf s f).suspended)
    let s := { s with mill := { s.mill with sflows := mmap {} (fun f x =>
      if 128 * x.tree + x.term = g then { x with suspended := off.contains f } else x) s.mill.sflows } }
    match off.head?, fresh_ with
    | some lo, _ :: _ => event 0x010A 2 g (beBytes 2 lo) s
    | _, _ => s) s

/-- Every frame of a queue in the millpond discarded and counted in Q_FLUSH (R239). -/
def flushQueue (q : Nat) (s : State) : State :=
  let fs := mget [] s.mill.pond q
  let s := fs.foldl (fun s x => bump (cbDom x.dom 8) 1 (bump (xQueue q 3) 1 (freeCells x.dom (cellsOf x.len) s))) s
  clearQueue q { s with mill := { s.mill with pond := mput [] s.mill.pond q [] } }

/-- Without LARGE_QUEUES queues 4 to 15 of each direction are disabled, as by ENABLE 0 (R236, R239). -/
def landLargeOff (s : State) : State :=
  if featOn s 2 then s
  else
    (s.mill.queues.filter (fun e => decide (4 ≤ e.1 % 16) && e.2.enable)).foldl (fun s e =>
      let s := flushQueue e.1 s
      { s with mill := { s.mill with queues := mput {} s.mill.queues e.1 { e.2 with enable := false } } }) s

/-- An accepted entry lands at a stroke boundary, after the refill (R238 to R240, R243). -/
def landEntry (t i : Nat) (d : List Word) (s : State) : State :=
  let m := s.mill
  let c := readNode d
  match t with
  | 0 =>
    let o := queueOf s i
    let q := readQueue d
    let s := if o.enable ∧ !q.enable then flushQueue i s else s
    sluChange (keyQueue i) o.node q.node { s with mill := { s.mill with queues := mput {} s.mill.queues i q } }
  | 1 =>
    let o := mget {} m.terms i
    let ks := (m.nodes.map (·.1)).filter (fun k => 0x10000 ≤ k && decide (k < 0x100000000) &&
      (let x := k - 0x10000; 3 * (x % 8192) + portDir (x / 8192 / 64) = i))
    ks.foldl (fun s k => sluChange k o c s) { s with mill := { m with terms := mput {} m.terms i c } }
  | 2 => sluChange (256 + i) (mget {} m.doms i) c { s with mill := { m with doms := mput {} m.doms i c } }
  | 3 =>
    let c := { c with quantum := (NodeCfg.quantum {}) }
    sluChange i (mget {} m.ports i) c { s with mill := { m with ports := mput {} m.ports i c } }
  | 4 =>
    let o := mget {} m.allocs i
    let n := { o with dynEn := fld (dw d 0) 31 31 = 1, dom := fld (dw d 0) 30 25, poll := fld (dw d 0) 7 0, node := c }
    let (P, x, g) := allocPlace s i
    -- nodes that the allocation leaves without need, on its old path and its new one, are cleared (R244)
    clearAlloc i (clearAllocAt P x g i (sluChange (keyAlloc i) o.node c { s with mill := { m with allocs := mput {} m.allocs i n } }))
  | _ => sflowLimit { s with mill := { m with sflows := mput {} m.sflows i { readSFlow d with suspended := (sflowOf s i).suspended } } }

/-- A node is eligible (R244): its sluice conforms and a conforming leaf with a head lies below it. -/
def nodeElig (s : State) (k : Nat) : Bool :=
  let qs := s.mill.pond.filter (fun e => e.2 ≠ [])
  conforms s k && (qs.any (fun e =>
    let path := queuePath s e.1
    let full := (queuePlace s e.1).1 :: path
    full.contains k && ((full.dropWhile (· ≠ k)).all (conforms s)))
    || s.mill.allocs.any (fun e =>
      let (P, d, g) := allocPlace s e.1
      let full := [P, keyDom P d, keyTerm P d g, keyAlloc e.1]
      e.2.dynEn && decide (0 < need s e.2) && full.contains k && ((full.dropWhile (· ≠ k)).all (conforms s))))

/-- TOKENS as read. -/
def tokenWord (x : NodeSt) : Word := BitVec.ofInt 32 (x.tokens / 15552)

def nodeWords (c : NodeCfg) : List Word :=
  [BitVec.ofNat 32 c.quantum, BitVec.ofNat 32 (c.sluEn.toNat * 2 ^ 31 + c.rate), BitVec.ofNat 32 c.burst]

/-- An entry as read: eight words (Tables 7.5, 7.6). -/
def readEntry (s : State) (t i : Nat) : List Word :=
  let flags := fun (k : Nat) => BitVec.ofNat 32 ((nodeSt s k).isOpen.toNat * 2 ^ 31 + (nodeElig s k).toNat * 2 ^ 30)
  match t with
  | 0 =>
    let c := queueOf s i
    let k := keyQueue i
    [BitVec.ofNat 32 (c.enable.toNat * 2 ^ 31 + c.dom * 2 ^ 25 + c.port * 2 ^ 20 + c.qlimit)] ++ nodeWords c.node
      ++ [flags k ||| BitVec.ofNat 32 (queueCells s i), BitVec.ofNat 32 (((queueFrames s i).map Frame.len).sum),
          BitVec.ofNat 32 (nodeSt s k).deficit, tokenWord (nodeSt s k)]
  | 1 => [0] ++ nodeWords (mget {} s.mill.terms i) ++ [0, 0, 0, 0]
  | 2 => [0] ++ nodeWords (mget {} s.mill.doms i)
      ++ [flags (256 + i), 0, BitVec.ofNat 32 (nodeSt s (256 + i)).deficit, tokenWord (nodeSt s (256 + i))]
  | 3 => [0, 0] ++ (nodeWords (mget {} s.mill.ports i)).tail
      ++ [BitVec.ofNat 32 ((nodeElig s i).toNat * 2 ^ 30), 0, 0, tokenWord (nodeSt s i)]
  | 4 =>
    let c := mget {} s.mill.allocs i
    let k := keyAlloc i
    [BitVec.ofNat 32 (c.dynEn.toNat * 2 ^ 31 + c.dom * 2 ^ 25 + c.poll)] ++ nodeWords c.node
      ++ [BitVec.ofNat 32 (c.reported % 2 ^ 30), BitVec.ofNat 32 (c.granted % 2 ^ 30), BitVec.ofNat 32 (nodeSt s k).deficit, tokenWord (nodeSt s k)]
  | 5 =>
    let x := sflowOf s i
    [BitVec.ofNat 32 (x.valid.toNat * 2 ^ 31 + x.dir.toNat * 2 ^ 30 + x.tree * 2 ^ 24 + x.term * 2 ^ 17 + x.queue * 2 ^ 13),
     BitVec.ofNat 32 (x.suspended.toNat * 2 + (shadowed s i).toNat), 0, 0, 0, 0, 0, 0]
  | _ => [0, 0, 0, 0, 0, 0, 0, 0]

def opMillSet (t : BitVec 8) (i : Word) (d : List Word) : Op where
  bad s := if 5 < t.toNat then 16 else if !entryOk s t.toNat i.toNat then 20
    else match wordBad (entryRules s t.toNat i.toNat d) with
      | 0 => 0
      | w + 1 => 24 + 4 * w
  run s :=
    if entryBusy s t.toNat i.toNat d then resBusy s
    else if entryOver s t.toNat i.toNat d then resConflict 9 (128 * (readSFlow d).tree + (readSFlow d).term) s
    else resOk [] (landEntry t.toNat i.toNat d s)

def opMillGet (t : BitVec 8) (i : Word) : Op where
  bad s := if 5 < t.toNat then 16 else if !entryOk s t.toNat i.toNat then 20 else 0
  run s := resOk ((readEntry (sampled s) t.toNat i.toNat).flatMap e32) s

def execMillSet (h : Hdr) (t : BitVec 8) (i : Word) (d : List Word) (s : State) := command (.millSet h t i d) (opMillSet t i d) s
def execMillGet (h : Hdr) (t : BitVec 8) (i : Word) (s : State) := command (.millGet h t i) (opMillGet t i) s

/-- TABLE and IDX of MW_SEL. -/
def mwTable (s : State) : Nat := regFld s aMW_SEL 31 29
def mwIdx (s : State) : Nat := regFld s aMW_SEL 17 0
/-- MW_DATA0 to MW_DATA7. -/
def mwData (s : State) : List Word := (List.range 8).map (fun i => regRaw s (aMW_DATA i))

def setMwErr (e : Nat) (s : State) : State := { s with mill := { s.mill with mwErr := e } }

/-- MW_READ: GO with WRITE 0 (Table 7.4). -/
def mwRead (s : State) : State :=
  let s := setRaw aMW_CMD 0 s
  if 5 < mwTable s then setMwErr 2 s
  else if !entryOk s (mwTable s) (mwIdx s) then setMwErr 1 s
  else setMwErr 0 (((List.range 8).zip (readEntry s (mwTable s) (mwIdx s))).foldl (fun s x => setRaw (aMW_DATA x.1) x.2 s) s)

/-- MW_WRITE: GO with WRITE 1 (R238). A write over a terminal's 64 FLOW_IDs, for which R240 gives RESOURCE_CONFLICT and no ERR, reads ERR 2, not accepted
(DESIGN CHOICE, log 145). -/
def mwWrite (s : State) : State :=
  let s := setRaw aMW_CMD 2 s
  let t := mwTable s
  let i := mwIdx s
  let d := mwData s
  if 5 < t then setMwErr 2 s
  else if !entryOk s t i then setMwErr 1 s
  else if wordBad (entryRules s t i d) ≠ 0 then setMwErr 2 s
  else if entryBusy s t i d then setMwErr 3 s
  else if entryOver s t i d then setMwErr 2 s
  else setMwErr 0 (landEntry t i d s)


/-! ### Strokes of the lanes (R72, R226 to R231, R245) -/

/-- The lane in whose stroke lane k's entry executes: its own, or for a retired lane a SPARE entry of its group, the lowest-numbered lane first: the j-th
retired lane with something to execute takes the j-th spare (R72). -/
def runsOn (p : Plate) (s : State) (k st : Nat) : Option Nat :=
  if !(lane s k).retired then some k
  else
    let grp := (List.range 24).filter (fun j => laneGroup j = laneGroup k)
    let ent := fun (j : Nat) (f : Nat → Bool) => (p.millrace[j * 1944 + st]?).any (fun c => f c.kind)
    let spares := grp.filter (fun j => !(lane s j).retired && ent j (· = 4))
    spares[(grp.filter (fun j => decide (j < k) && (lane s j).retired && ent j (fun c => c ≠ 0 && c ≠ 4))).length]?

/-- The lane hopper has room for an entry: of its 512 slots one stays free, as in every hopper (R412, R414); entries wait while it has none (log 146). -/
def laneRoom (l : Lane) : Bool := l.hopper.length + 2 ≤ 512

/-- An entry numbered into the lane hopper (R36). -/
def hopperAdd (k : Nat) (fr : Frame) (thr : Bool) (s : State) : State :=
  updLane k (fun l =>
    let h := l.hopper ++ [(l.nextSeq, fr, thr)]
    { l with hopper := h, nextSeq := l.nextSeq + 1, hwm := max l.hwm h.length }) s

/-- Words moved by a lane in a stroke counted (Table 13.8). -/
def laneMoved (k w : Nat) (s : State) : State := if w = 0 then s else bump (cbLane k 2) w (bump (cbLane k 1) 1 s)

/-- Frames of flow f entered into lane k's hopper as far as b words allow; words left (R226). -/
def throughLoop (k f : Nat) : Nat → Nat → State → Nat × State
  | 0, b, s => (b, s)
  | n + 1, b, s =>
    match mget [] s.mill.through f with
    | [] => (b, s)
    | fr :: r =>
      if b = 0 ∨ !laneRoom (lane s k) then (b, s)
      else
        let w := wordsOf fr.len
        let s := hopperAdd k fr true { s with mill := { s.mill with through := mput [] s.mill.through f r } }
        if w ≤ b then throughLoop k f n (b - w) s
        else (0, updLane k (fun l => { l with parts := mput 0 l.parts f (w - b) }) s)

/-- A THROUGH stroke of lane k for flow f, executed in a stroke of lane j (R21, R72, R226). -/
def throughStroke (j k f : Nat) (s : State) : State :=
  let m := mget 0 (lane s k).parts f
  let u := min 80 m
  let s := updLane k (fun l => { l with parts := mput 0 l.parts f (m - u) }) s
  let held := s.plates.laneHold.any (fun x => x.1 = f && (lane s x.2).hopper.any (fun e => e.2.1.flow = f))
  let s := if held then s else { s with plates := { s.plates with laneHold := s.plates.laneHold.filter (fun x => x.1 ≠ f) } }
  let (b, s) := if held then (80 - u, s) else throughLoop k f ((mget [] s.mill.through f).length + 1) (80 - u) s
  laneMoved j (80 - b) s

/-- Slack frames entered in a FILL stroke with b words left of the stroke; `rest` are the entries after it (R227, R229, R231). In a SHARED stroke a frame
that the millpond refuses has used its domain's turn (DESIGN CHOICE, log 144). -/
def fillLoop (k : Nat) (dom : Option Nat) (rest : List Cal) : Nat → Nat → State → Nat × State
  | 0, b, s => (b, s)
  | n + 1, b, s =>
    let l := lane s k
    let fits := fun (d : Nat) => (weirHead l d).any (fun fr => decide (wordsOf fr.len ≤ b + 80 * runAhead (fillsFor d) rest))
    let pick := match dom with
      | some d => if fits d then some d else none
      | none => (((List.range 64).map (fun i => (l.lastDom + 1 + i) % 64)).find? fits)
    match pick.bind (fun d => (weirHead l d).map (fun fr => (d, fr))) with
    | none => (b, s)
    | some (d, fr) =>
      if b = 0 ∨ !laneRoom l then (b, s)
      else
        let s := setLane k { l with weir := weirPop d l.weir, lastDom := if dom.isNone then d else l.lastDom } s
        match pondRefuse s fr with
        | some x => fillLoop k dom rest n b (countRefused fr x s)
        | none =>
          let w := wordsOf fr.len
          let s := hopperAdd k fr false (useCells fr.dom (cellsOf fr.len) s)
          if w ≤ b then fillLoop k dom rest n (b - w) s
          else (0, updLane k (fun l => { l with fillWords := w - b }) s)

/-- A FILL stroke of lane k: entry e, entries after it, executed in a stroke of lane j (R72, R227, R229, R230). -/
def fillStroke (p : Plate) (j k : Nat) (e : Cal) (rest : List Cal) (s : State) : State :=
  let s := fillPurge (laneCals p k) k ((lane s k).weir.length + 1) s
  let l := lane s k
  if l.parts ≠ [] then s
  else
    let u := min 80 l.fillWords
    let s := setLane k { l with fillWords := l.fillWords - u } s
    let (b, s) := fillLoop k (if e.shared then none else some e.dom) rest (l.weir.length + 1) (80 - u) s
    laneMoved j (80 - b) s

/-- A DRAW stroke of lane k, executed in a stroke of lane j (R72, R94, R219, R245). -/
def drawStroke (p : Plate) (j k : Nat) (e : Cal) (rest : List Cal) (bad : List Nat) (s : State) : List Nat × State :=
  let l := lane s k
  let u := min 80 l.drawWords
  -- the cells of the words drawn return (R232)
  let n := l.drawing.2 - l.drawWords
  let s := freeCells l.drawing.1 (cellsDrawn l.drawing.2 (n + u) - cellsDrawn l.drawing.2 n)
    (setLane k { l with drawWords := l.drawWords - u, drawing := if l.drawWords - u = 0 then (0, 0) else l.drawing } s)
  let idle := if e.target < 64 then (tree s e.target).st ≠ .serving
    else portTrig s (e.target - 64) && !(uport s (e.target - 64)).rehashed
  if idle then (bad, laneMoved j u s)
  else
    let room := 80 - u
    let left := room + 80 * runAhead (fun c => c = e) rest
    let before := (cntOf s (cbDraw e.target 1)).v.toNat
    let (carry, bad, s) := drawLoop p e.target (if e.shared then none else some e.dom) ((s.mill.pond.map (fun x => x.2.length)).sum + 1)
      left room bad s
    let moved := (cntOf s (cbDraw e.target 1)).v.toNat - before - carry.1
    (bad, laneMoved j (u + moved)
      (if carry.1 = 0 then s else updLane k (fun l => { l with drawWords := carry.1, drawing := carry.2 }) s))

/-- Lane k in stroke st. While a replay runs its strokes carry nothing else (R39). -/
def laneStroke (p : Plate) (st k : Nat) (x : List Nat × State) : List Nat × State :=
  let (bad, s) := x
  match (if (lane s k).replayTo.isSome then none else runsOn p s k st), (laneCals p k).drop st with
  | some j, e :: rest =>
    match e.kind with
    | 1 =>
      match p.flows[e.flowix]? with
      | some f => if !f.up ∧ (tree s f.tree).st ≠ .serving then (bad, s) else (bad, throughStroke j k f.id s)
      | none => (bad, s)
    | 2 => (bad, fillStroke p j k e rest s)
    | 3 => drawStroke p j k e rest bad s
    | _ => (bad, s)
  | _, _ => (bad, s)

/-- The hopper's mark moves: entries acknowledged by the commit point are released (R37). Everything committed by a stroke boundary counts as acknowledged
there, where R37 lets the acknowledgement trail by up to a stroke (DESIGN CHOICE, log 79). -/
def hopperMarks (s : State) : State :=
  { s with mill := { s.mill with lanes := mmap {} (fun _ l => { l with hopper := l.hopper.filter (fun e => seqLt l.committed e.1) }) s.mill.lanes } }

/-- Heads that no fill run holds leave their weirs under a new calendar (R230): at the first stroke of the mill after a turn. -/
def turnPurge (t : Nat) (s : State) : State :=
  if t ≠ s.imprAt + millLag s ∨ s.plates.prev = engaged s then s
  else match engaged s with
    | none => s
    | some p => (List.range 24).foldl (fun s k => fillPurge (laneCals p k) k ((lane s k).weir.length + 1) s) s

/-- Draw and fill decisions of the stroke that begins at counter value t, lane by lane (R243, R245). -/
def millStroke (t : Nat) (ecc : List Nat) (s : State) : State :=
  let s := turnPurge t (hopperMarks s)
  match millPlate s t with
  | none => s
  | some p => ((List.range 24).foldl (fun x k => laneStroke p (millIx s t) k x) (ecc, s)).2

/-! ### The commit point (R38 to R40) -/

/-- The frame has crossed whole: it is not the entry still moving in the lane's following strokes. -/
def crossed (l : Lane) (q : BitVec 32) (fr : Frame) (thr : Bool) : Bool :=
  let later := l.hopper.any (fun e => seqLt q e.1 && e.2.2 = thr && (!thr || e.2.1.flow = fr.flow))
  later || (if thr then mget 0 l.parts fr.flow = 0 else l.fillWords = 0)

/-- A tributary's chaff takes its place in the store, with no content, where the frame it stands for would (R175, R176, R334). -/
def chaffStore (f d len : Nat) (s : State) : State :=
  let t := trib s f
  if t.cfg.kindPacket then tribPacket f d (List.replicate len 0) s
  else storePut f (List.replicate t.cfg.payLen 0) (setTrib f { t with expect := t.expect.map (· + 1) } s)

/-- A frame committed: to the tailrace, to its tributary's store, or to its queue in the millpond. A frame that was at or below its flow's delivered
point when the unit took the sails is suppressed (R41, R42, R344). -/
def commitFrame (fr : Frame) (thr : Bool) (s : State) : State :=
  if fr.gone then (if thr then s else freeCells fr.dom (cellsOf fr.len) s)
  else if thr then
    match (canonPlate s).bind (flowIn · fr.flow) with
    | some x =>
      if x.trib && !x.up then (if fr.chaff then chaffStore fr.flow fr.dom fr.len s else tribStore fr.flow fr.dom fr.port fr.data s)
      else { s with mill := { s.mill with tail := mupd [] s.mill.tail fr.flow (· ++ [fr]) } }
    | none => { s with mill := { s.mill with tail := mupd [] s.mill.tail fr.flow (· ++ [fr]) } }
  else { s with mill := { s.mill with pond := mupd [] s.mill.pond fr.queue (· ++ [fr]) } }

/-- The last entry of a lane's hopper that has crossed: a replay runs until it has passed (R39). -/
def lastCrossed (l : Lane) (q : BitVec 32) : BitVec 32 :=
  l.hopper.foldl (fun a e => if crossed l e.1 e.2.1 e.2.2 then e.1 else a) q

/-- COMMIT: the entry of a sequence number reaches the commit point, its words correctable or not. A failure starts a replay from the mark, during which the
lane's strokes carry nothing else (R39); a second failure of the same entry retires the lane (R40). -/
def commit (k : Nat) (q : BitVec 32) (good : Bool) (s : State) : State :=
  let l := lane s k
  if q ≠ l.committed + 1 then s
  else
    match l.hopper.find? (fun e => e.1 = q) with
    | none => s
    | some (_, fr, thr) =>
      if !crossed l q fr thr then s
      else if good then
        commitFrame fr thr (setLane k { l with committed := q, failed := if l.failed = some q then none else l.failed,
                                               replayTo := if l.replayTo = some q then none else l.replayTo } s)
      else if l.failed = some q then
        if l.retired then s else event 0x0107 8 k [] (setLane k { l with retired := true } s)
      else
        let mark := ((l.hopper.head?).map (·.1)).getD q
        event 0x0106 8 k (beBytes 4 mark.toNat)
          (bump (cbLane k 3) 1 (setLane k { l with failed := some q, replayTo := some (lastCrossed l q) } s))

def execCommit (k : Fin 24) (q : Word) (g : Bool) (s : State) := live s (commit k.val q g s)

end Sys2Proof.Machine
end

