-- ==== Sys2Proof/Machine/Time.lean ====
section
/-! DEFINITION. Timing opcodes and events of the time domains (R308 to R319, R322, R323; PTP_SEND is in Machine/Uplinks.lean). -/

namespace Sys2Proof.Machine

/-- Checks common to the commands that name a domain: 0 or 1; B only while TWO_DOMAIN_TIME is agreed (Table 12.9). -/
def domBad (d : BitVec 8) : Nat := firstBad [(16, d.toNat ≤ 1)]
def withDom (d : BitVec 8) (f : Bool → State → Res) (s : State) : Res :=
  if d = 1 ∧ !twoDom s then resNotNeg 4 s else f (d = 1) s

def opTimeArm (d : BitVec 8) : Op where
  bad _ := domBad d
  run := withDom d (fun b s =>
    match (tdom s b).st with
    | .unset =>
      let c := strokeAt s s.now
      let s := setTdom b { tdom s b with st := .stepArmed, cb := c, tau := 0, r := 0, valids := 0 } s
      resOk [] (keepSet b c (event 0x0700 0x0A b.toNat [0, 1, 0] s))
    | .stepArmed => resOk [] s
    | _ => resOk [] (moveDom b .stepArmed 0 s))

/-- Address of a domain's DOM_STATUS. -/
def domStatus (b : Bool) : Nat := aDOM_STATUS b

def opTimeSet (d : BitVec 8) (sec : BitVec 48) (ns : Word) : Op where
  bad _ := firstBad [(16, d.toNat ≤ 1), (24, ns.toNat < 1000000000)]
  run := withDom d (fun b s =>
    let c := strokeAt s s.now
    let step := (sec.toNat * 1000000000 + ns.toNat : Nat) * nsU - domTime s b c
    if (tdom s b).st = .stepArmed then resOk [] (stepDom b step 0 s)
    else resLocked (domStatus b) (event 0x0703 0x0A b.toNat (beBytes 8 (twos 64 step) ++ [1]) s))

def opTimeDisable (d : BitVec 8) : Op where
  bad _ := domBad d
  run := withDom d (fun b s =>
    if (tdom s b).st = .unset then resOk [] s else resOk [] (keepSet b (strokeAt s s.now) (moveDom b .unset 0 s)))

def opTimeSel (d : BitVec 8) : Op where
  bad _ := domBad d
  run := withDom d (fun b s => resOk [] (askSel b s))

/-- R316: the asymmetry applies to every later exchange, MPD_REF restarts, and a domain held or bridged by a path step tracks again. -/
def opAcceptPathStep (d : BitVec 8) (asym : Word) : Op where
  bad _ := domBad d
  run := withDom d (fun b s =>
    let x := tdom s b
    let back := x.st = .bridging ∨ (x.st = .hold ∧ x.holdPath)
    let s := setTdom b { x with asym := asym.toInt, mpds := [], suspects := 0, near := 0, pathStep := false, pathDue := false } s
    if back then resOk [] (moveDom b .tracking 0 s) else resOk [] (streamPush (timeRecOf s b) s))

/-- A 64-bit stamp extended to the counter's width by its present high bits (R305). -/
def extendStamp (s : State) (v : Nat) : Nat := s.now / 2 ^ 64 * 2 ^ 64 + v

def opTimeConv (d : BitVec 8) (count : BitVec 64) : Op where
  bad _ := domBad d
  run := withDom d (fun b s =>
    let v := extendStamp s count.toNat
    match (tdom s b).past.find? (fun e => e.1 ≤ v) with
    | none => resBad 20 s
    | some e =>
      if s.now < v ∨ e.2.2.2.2 then resBad 20 s
      else resOk (timeBytes (tauAt e.2.1 e.2.2.1 e.2.2.2.1 v)) s)

/-- TOD_TX_ADJ of tree n in 2^−16 ns (Table 10.5). -/
def todAdj (s : State) (n : Nat) : Int := sgn 16 (regFld s (0x31000 + 4 * n) 15 0) * 4096

/-- R323: a superframe among the last 64 sent answers at once; one at most 8 ahead waits until it has left. -/
def opTodGet (tr : BitVec 8) (sf : Word) : Op where
  bad s := firstBad [(16, treeOk s tr.toNat)]
  run s :=
    let t := tree s tr.toNat
    match t.sentTimes.find? (fun e => e.1 = sf.toNat) with
    | some e => resOk (timeBytes (e.2 + todAdj s tr.toNat)) s
    | none =>
      let ahead := (sf.toNat + 2 ^ 32 - (t.sentTimes.head?.map Prod.fst).getD t.superframe) % 2 ^ 32
      if 1 ≤ ahead ∧ ahead ≤ 8 ∧ (t.st = .lit ∨ t.st = .serving) then resWait s else resBad 20 s

def execTimeArm (h : Hdr) (d : BitVec 8) (s : State) := command (.timeArm h d) (opTimeArm d) s
def execTimeSet (h : Hdr) (d : BitVec 8) (c : BitVec 48) (n : Word) (s : State) := command (.timeSet h d c n) (opTimeSet d c n) s
def execTimeDisable (h : Hdr) (d : BitVec 8) (s : State) := command (.timeDisable h d) (opTimeDisable d) s
def execTimeSel (h : Hdr) (d : BitVec 8) (s : State) := command (.timeSel h d) (opTimeSel d) s
def execAcceptPathStep (h : Hdr) (d : BitVec 8) (a : Word) (s : State) := command (.acceptPathStep h d a) (opAcceptPathStep d a) s
def execTimeConv (h : Hdr) (d : BitVec 8) (c : BitVec 64) (s : State) := command (.timeConv h d c) (opTimeConv d c) s
def execTodGet (h : Hdr) (t : BitVec 8) (n : Word) (s : State) := command (.todGet h t n) (opTodGet t n) s

/-- CAPTURE, at the stroke boundary at which the write takes hold (R22, R308). -/
def capture (s : State) : State :=
  let c := strokeAt s s.now
  { s with time := { s.time with capCnt := c, capA := domTime s false c, capB := domTime s true c, capOut := outTime s c } }


/-! ### The servo (R310 to R315) -/

/-- A domain's PSTEP_TH in 1/16 ns, and SLEW_LIM as a rate in 2^−40. -/
def pstepTh (s : State) (b : Bool) : Nat := 16 * regFld s (aDOM_CFG b) 25 16
def slewLim (s : State) (b : Bool) : Int := (regFld s (aDOM_CFG b) 13 0 * 10 * 2 ^ 40 / 1000000000 : Nat)

/-- Rate correction by the servo (R311): R_f and R_p are open, |R_p| is at most SLEW_LIM. -/
def servo (b : Bool) (offset : Int) (s : State) : State :=
  let (v, s) := fresh s
  let (w, s) := fresh s
  let lim := slewLim s b
  let s := setRate b (Config.servoRate offset v + clampI (-lim) lim (Config.servoRate offset w)) s
  let d := tdom s b
  let far := decide (1000 * 16 < offset.natAbs)
  let s := setTdom b { d with jumpTold := far } s
  if far ∧ !d.jumpTold then event 0x0703 0x0A b.toNat (beBytes 8 (twos 64 (offset * 4096)) ++ [0]) s else s

/-- PATH_STEP declared (R314); what it does to the domain is decided at the stroke boundary (R325). -/
def pathStep (b : Bool) (mpd : Int) (s : State) : State :=
  let d := tdom s b
  event 0x0705 0x0A b.toNat (beBytes 4 (twos 32 (mpd - d.mpd))) (setTdom b { d with pathStep := true, pathDue := true } s)

/-- A PATH_STEP declared in the stroke past: BRIDGING on a TRACKING domain without one, else HOLD (Table 10.1, R315). -/
def pathJudge (b : Bool) (s : State) : State :=
  let d := tdom s b
  let o := tdom s !b
  if !d.pathDue then s
  else
    let s := setTdom b { d with pathDue := false } s
    if d.st ≠ .tracking then s
    else if o.st = .tracking ∧ !o.pathStep then
      let c := strokeAt s s.now
      let kb := domTime s b c - domTime s (!b) c
      let s := setRate1 b o.r s
      moveDom b .bridging 2 (setTdom b { tdom s b with kb := kb } s)
    else holdDom b true 2 s

/-- A master lost in the stroke past: TRACKING holds at its mean rate, BRIDGING at its present one (Table 10.1, R316). -/
def lostJudge (b : Bool) (s : State) : State :=
  let d := tdom s b
  if !d.lostDue then s
  else
    let s := setTdom b { d with lostDue := false } s
    match d.st with
    | .tracking => holdDom b false 3 s
    | .bridging => moveDom b .hold 3 (setTdom b { tdom s b with holdPath := false } s)
    | _ => s

/-- The exchange the servo uses at this stroke boundary: from the eighth valid one STEP_ARMED steps and a hold after a master loss tracks, and
TRACKING corrects by rate (R310, R311). -/
def exchangeJudge (b : Bool) (s : State) : State :=
  let d := tdom s b
  match d.due with
  | none => s
  | some offset =>
    let s := setTdom b { d with due := none } s
    match d.st with
    | .stepArmed => if 8 ≤ d.valids then stepDom b (-offset * 4096) 1 s else s
    | .tracking => servo b offset s
    | .hold => if !d.holdPath ∧ 8 ≤ d.valids then servo b offset (moveDom b .tracking 1 s) else s
    | _ => s

/-- The selection asked for, after the steps of the boundary. -/
def selJudge (s : State) : State :=
  match s.time.selNext with
  | none => s
  | some b => selectDom b { s with time := { s.time with selNext := none } }

/-- The time domains at a stroke boundary, after the commands that land on it (Table 10.3): exchanges, path steps, master losses, the selection.
A standby's domains follow the TIME records. -/
def timeStroke (s : State) : State :=
  let both := fun (f : Bool → State → State) (s : State) => f true (f false s)
  let s := if isStandby s then both (fun b s => setTdom b { tdom s b with due := none, pathDue := false, lostDue := false } s) s
    else both lostJudge (both pathJudge (both exchangeJudge s))
  selJudge s

/-- Mean of a list, rounded down. -/
def meanI (l : List Int) : Int := if l = [] then 0 else l.sum / (l.length : Int)

/-- An exchange of the path delay mpd in 1/16 ns is suspect (R314). -/
def suspect (s : State) (b : Bool) (mpd : Int) : Bool :=
  let d := tdom s b
  decide (16 ≤ d.mpds.length) && decide (pstepTh s b < (mpd - d.mpd).natAbs)

/-- A valid exchange while BRIDGING: the sixteenth in a row within PSTEP_TH restores the path (R315, Table 10.1). -/
def bridgeExchange (b : Bool) (mpd : Int) (s : State) : State :=
  let d := tdom s b
  if d.mpds.length < 16 ∨ suspect s b mpd then setTdom b { d with near := 0 } s
  else
    let s := setTdom b { d with near := d.near + 1 } s
    if d.near + 1 = 16 then event 0x0706 0x0A b.toNat [] (moveDom b .tracking 1 s) else s

/-- A suspect exchange: the fourth in a row declares PATH_STEP (R314). -/
def suspectExchange (b : Bool) (mpd : Int) (s : State) : State :=
  let d := tdom s b
  let s := setTdom b { d with suspects := d.suspects + 1 } s
  if d.suspects + 1 = 4 ∧ !d.pathStep then pathStep b mpd s else s

/-- A normal exchange: MPD_REF takes it, fewer than four suspects before it are outliers, and the servo uses its offset (R314). -/
def normalExchange (b : Bool) (offset mpd : Int) (s : State) : State :=
  let d := tdom s b
  let ms := (mpd :: d.mpds).take 16
  let s := if 0 < d.suspects ∧ d.suspects < 4 then bump (cTime (if b then 0x240 else 0x140)) d.suspects s else s
  setTdom b { d with mpds := ms, mpd := meanI ms, suspects := 0, due := some offset } s

/-- Three Announce intervals at 8 per second. -/
def announceMc : Nat := 3 * 155520000

/-- A completed exchange: offset and mean path delay in 1/16 ns. It is valid if it carries both time-stamps and the master's clockIdentity is
unchanged (R313); one whose Delay_Req lost its time-stamp is skipped (R322). A standby only measures. -/
def ptpExchange (b : Bool) (x : ExSrc) (raw mpd : Int) (s : State) : State :=
  let d := tdom s b
  if b ∧ !twoDom s then s
  else if 0 < d.skip then setTdom b { d with skip := d.skip - 1 } s
  else if !x.stamps ∨ d.masterId.any (· ≠ x.ident) then setTdom b { d with valids := 0, masterId := some x.ident } s
  else
    let offset := raw - d.asym
    let s := setTdom b { d with offset := offset, masterOk := true, valids := d.valids + 1, validAt := s.now, masterId := some x.ident } s
    if isStandby s then s
    else if d.st = .bridging then bridgeExchange b mpd s
    else if suspect s b mpd then suspectExchange b mpd s
    else normalExchange b offset mpd s
def execPtpExchange (b : Bool) (x : ExSrc) (o m : Int) (s : State) := live s (ptpExchange b x o m s)

/-- MASTER_LOST: three Announce intervals without an Announce, or 1 s without a valid exchange, of a master not yet lost (R313); the domain holds
from the next stroke boundary (R325). -/
def masterLost (b announce : Bool) (s : State) : State :=
  let d := tdom s b
  if (b ∧ !twoDom s) ∨ !d.masterOk then s
  else
    let s := advance (if announce then d.announceAt + announceMc else d.validAt + 1244160000) s
    event 0x0704 0x0A b.toNat [if announce then 0 else 1] (setTdom b { d with masterOk := false, valids := 0, lostDue := true } s)
def execMasterLost (b a : Bool) (s : State) := live s (masterLost b a s)

end Sys2Proof.Machine
end

