-- ==== Sys2Proof/Machine/Timing.lean ====
section
/-! DEFINITION. References, selection, the DPLL, holdover, pulse and clock outputs (R280 to R301). -/

namespace Sys2Proof.Machine

/-! ### References -/

/-- One second and 10 s of mill cycles. -/
def secMc : Nat := 1244160000

/-- Indices of Table 9.1. -/
def refIxs : List Nat := [0, 1, 2, 3, 4, 5, 8, 9, 10, 11, 12, 13, 14, 15]

/-- The reference is in service: EN (R281). -/
def refOn (s : State) (r : Nat) : Bool := refIxs.contains r && regBit s (aREF_CFG r) 31

/-- Lane that recovered clock i takes (R274). -/
def rclkLane (s : State) (i : Nat) : Nat := regFld s (aRCLK i) 4 0

/-- Recovered clock i is failed (R274, R430): not enabled, its quad off, its lane of no enabled port, or the port in UL_LOS or UL_LOF. -/
def rclkBad (s : State) (i : Nat) : Bool :=
  let l := rclkLane s i
  let p := portOf s l
  !regBit s (aRCLK i) 7 || !pwrOn s (64 + l / 4) || !portOn s p || declared s 4 p UL_LOS || declared s 4 p UL_LOF

/-- Quality level in use (R275, Table 9.1). -/
def refQl (s : State) (r : Nat) : Nat :=
  let p := portOf s (rclkLane s (r - 8))
  if 8 ≤ r ∧ regBit s (aPORT p) 29 then (((uport s p).esmcQl).getD 15).toNat else regFld s (aREF_CFG r) 26 23

def qlEn (s : State) : Bool := regBit s aSEL_CFG 25

/-- Some defect of the reference is declared. -/
def refBad (s : State) (r : Nat) : Bool := [RF_LOS, RF_FREQ, RF_PHASE].any (fun c => declared s 6 r c)

/-- Some defect of the reference is declared, RF_TIE among them. -/
def refAny (s : State) (r : Nat) : Bool := refBad s r || declared s 6 r RF_TIE

/-- A reference's last defect has cleared: its wait-to-restore timer starts unless it is selected (R285). -/
def refCleared (r : Nat) (s : State) : State :=
  let s := setRef r { refOf s r with clearedAt := some s.now } s
  if refAny s r ∨ s.timing.cur = some r then s
  else setRef r { refOf s r with wtr := s.now + (if (refOf s r).restarting then 2 else regFld s aSEL_CFG 9 0) * secMc } s

/-- A reference's defect cleared by its rule. -/
def refClear (r code : Nat) (s : State) : State :=
  if declared s 6 r code then refCleared r (defClear 6 r code 0 s) else s

/-- A reference leaves service: its defects clear with cause 2 (R283). -/
def refLeave (r : Nat) (s : State) : State :=
  let t := defLeave 6 r s
  if refAny s r then refCleared r t else t

/-- R285: qualified. -/
def refQual (s : State) (r : Nat) : Bool :=
  refOn s r && !refBad s r && (refOf s r).wtr = 0 && (!qlEn s || (refQl s r ≠ 8 && refQl s r ≠ 15))

/-- Rank (R286): quality level when QL_EN is set, then PRIO; lower is better. -/
def refRank (s : State) (r : Nat) : Nat := (if qlEn s then refQl s r else 0) * 16 + regFld s (aREF_CFG r) 30 27

/-! ### The holdover model (R291, R294) -/

/-- m(T, t) in 1/16 ppb, each term rounded down (log 30): T in 1/256 °C, t in mill cycles since the fit. -/
def holdModel (g : Timing) (temp : Int) (t : Int) : Int :=
  let d := temp - g.t0
  16 * g.a * d / (1024 * 256) + 16 * g.b * d * d / (65536 * 65536) + 16 * g.g * t / (1024 * 86400 * 1244160000)

/-- f_start: mean steering over HOLD_AVG_S seconds ending 2 s ago (R291). -/
def holdStart (s : State) : Int := meanI ((s.timing.steers.drop 2).take (regFld s aHOLD_CFG2 17 8))

/-- Steering the model applies at counter value c. -/
def holdSteer (s : State) (c : Nat) : Int :=
  let g := s.timing
  if g.dpll = .holdover then
    g.fStart + holdModel g g.tempNow ((c : Int) - g.fittedAt) - holdModel g g.tStart ((g.sStart : Int) - g.fittedAt)
  else holdStart s

/-- L in ppb: 0 without a valid model (R281). -/
def localEst (s : State) (c : Nat) : Int := if s.timing.modelValid then holdSteer s c / 16 else 0

/-! ### The decision tick (R284) -/

/-- Step 1: defects of one measured reference (Table 9.3). -/
def refMeasure (l : Int) (m : RefMeas) (s : State) : State :=
  let r := m.ref.val
  if !refOn s r then s
  else
    let off := (m.f - l).natAbs
    let th := 10 * regFld s aMON_CFG 21 8
    let x := refOf s r
    let tie := x.freqTie && declared s 6 r RF_FREQ
    let fbad := 9 * th < 10 * off || (tie && decide (regFld s aMON_CFG 31 22 < off))
    let pbad := decide (regFld s aMON_CFG 7 0 < m.move)
    let s := setRef r { x with f := m.f, freqTie := tie, ql := BitVec.ofNat 4 (refQl s r), freqBadAt := if fbad then s.now else x.freqBadAt,
                               phaseBadAt := if pbad then s.now else x.phaseBadAt } s
    let s := if th < off then defSet 6 r RF_FREQ s else s
    if pbad then defSet 6 r RF_PHASE s else s

/-- Step 1 for a recovered clock's RF_LOS, and the clear of a PPS input's. -/
def refLosTick (r : Nat) (s : State) : State :=
  if !refOn s r then s
  else if 8 ≤ r then
    if rclkBad s (r - 8) then defSet 6 r RF_LOS (setRef r { refOf s r with good := 0 } s)
    else
      let n := (refOf s r).good + 1
      let s := setRef r { refOf s r with good := n } s
      if 2 ≤ n then refClear r RF_LOS s else s
  else if (r = 4 ∨ r = 5) ∧ 2 ≤ (refOf s r).good then refClear r RF_LOS s
  else s

/-- Step 1: RF_FREQ and RF_PHASE clear once 10 s have passed since their conditions last failed (Table 9.3). -/
def refSpanTick (r : Nat) (s : State) : State :=
  let x := refOf s r
  let s := if x.freqBadAt + 10 * secMc ≤ s.now then refClear r RF_FREQ s else s
  if x.phaseBadAt + 10 * secMc ≤ s.now then refClear r RF_PHASE s else s

/-- A reference's timer ends; one that has been free of defects since a warm restart is past it (R285, R295). -/
def wtrEnd (r : Nat) (s : State) : State :=
  let x := refOf s r
  setRef r { x with wtr := 0, restarting := x.restarting && (refBad s r || declared s 6 r RF_TIE) } s

/-- Step 2: wait-to-restore timers; WTR_CLR ends that of MANUAL_REF. -/
def wtrTick (s : State) : State :=
  let man := regFld s aSEL_CFG 31 27
  let s := if s.timing.wtrClr then wtrEnd man s else s
  let s := { s with timing := { s.timing with wtrClr := false } }
  refIxs.foldl (fun s r => if (refOf s r).wtr ≤ s.now ∧ (refOf s r).wtr ≠ 0 then wtrEnd r s else s) s

/-- R287 over the f_r of a group: the members outside W, or a tie. -/
inductive Disagree
  | agree
  | outside (bad : List Nat)
  | tie

def disagree (s : State) (l : Int) (g : List Nat) : Disagree :=
  let th := regFld s aMON_CFG 31 22
  let f := fun r => (refOf s r).f
  let apart := fun (a b : Int) => decide (th < (a - b).natAbs)
  if !g.any (fun a => g.any (fun b => apart (f a) (f b))) then .agree
  else
    let w := g.filter (fun a => !apart (f a) l)
    if w ≠ [] ∧ !w.any (fun a => w.any (fun b => apart (f a) (f b))) then .outside (g.filter (fun a => !w.contains a)) else .tie

/-- REF_SWITCH (Table 13.14). -/
def refSwitch (new old cause : Nat) (s : State) : State := event 0x0600 6 new (beBytes 1 cause ++ beBytes 1 old) s

/-- RF_TIE cleared on every reference outside g. -/
def tieClear (g : List Nat) (s : State) : State :=
  refIxs.foldl (fun s r => if g.contains r then s else refClear r RF_TIE s) s

/-- The selection has left a reference whose last defect cleared at this tick: its timer starts (Table 9.5). -/
def leftClear (old : Option Nat) (s : State) : State :=
  match old with
  | some r => if (refOf s r).clearedAt = some s.now ∧ (refOf s r).wtr = 0 then refCleared r s else s
  | none => s

/-- Steps 3 to 5 (R285 to R287): qualification, disagreement, selection; RF_TIE clears once the tick has selected. -/
def refSelect (s : State) : State :=
  let l := localEst s s.now
  let q := refIxs.filter (refQual s)
  let s := refIxs.foldl (fun s r => setRef r { refOf s r with qual := q.contains r } s) s
  let man := regFld s aSEL_CFG 31 27
  let cur := s.timing.cur
  let best := (q.map (refRank s)).foldl min 100000
  let g := q.filter (fun r => refRank s r = best)
  let pick := fun (g : List Nat) => match cur with
    | some c => if g.contains c then some c else g.head?
    | none => g.head?
  -- the candidate, the state, and the members of the tie found
  let (cand, s, tied) : Option Nat × State × List Nat :=
    if q.contains man then (some man, s, [])
    else match disagree s l g with
      | .agree => (pick g, s, [])
      | .outside bad =>
        let s := bad.foldl (fun s r =>
          defSet 6 r RF_FREQ (setRef r { refOf s r with freqTie := true, freqBadAt := s.now, qual := false } s)) s
        (pick (g.filter (fun r => !bad.contains r)), s, [])
      | .tie => (none, g.foldl (fun s r => defSet 6 r RF_TIE s) s, g)
  let curQ := match cur with | some c => refQual s c | none => false
  let new := if curQ then
      match cand, cur with
      | some k, some c =>
        if k ≠ c ∧ regBit s aSEL_CFG 26 ∧ (k = man ∨ refRank s k < refRank s c) then some k
        -- with REVERTIVE = 0 only a write of MANUAL_REF leaves a qualified selection (log 98)
        else if k ≠ c ∧ k = man ∧ s.timing.manNew then some k else cur
      | _, _ => cur
    else cand
  let s := if new = some man then { s with timing := { s.timing with manNew := false } } else s
  let s := if new = cur then s
    else
      let cause := match new with
        | none => 3
        | some k => if k = man then 2 else if curQ then 1 else 0
      leftClear cur (refSwitch (new.getD 31) (cur.getD 31) cause { s with timing := { s.timing with cur := new } })
  tieClear tied s

/-- SRC of DPLL_STATUS. -/
def dpllSrc (s : State) : Nat := if s.timing.following then 6 else s.timing.cur.getD 31

def dpllCode : Dpll → Nat
  | .freerun => 0 | .acquiring => 1 | .locked => 2 | .holdover => 3

/-- The DPLL enters a state (R288, R291). -/
def dpllTo (x : Dpll) (s : State) : State :=
  let old := s.timing.dpll
  let s := { s with timing := { s.timing with
      dpll := x, lockFrom := none,
      fStart := if x = .holdover then holdStart s else s.timing.fStart, tStart := s.timing.tempNow, sStart := s.now } }
  event 0x0601 0 0 (beBytes 1 (dpllCode old) ++ beBytes 1 (dpllCode x) ++ beBytes 1 (dpllSrc s)) s

/-- The unit's DPLL follows its partner's root: FEATHERED, with contact (R290, R332). -/
def mustFollow (s : State) : Bool :=
  !s.pair.sails && s.pair.contact && regBit s aSEL_CFG 24 && !declared s 5 0 PL_LOS

/-- Step 6 (Table 9.4): `changed` says that the DPLL's source changed at this tick. -/
def dpllTick (changed : Bool) (phaseNs freqPpb : Int) (s : State) : State :=
  let g := s.timing
  let has := g.following || g.cur.isSome
  let ff := regBit s aDPLL_CFG 31
  let fh := regBit s aDPLL_CFG 30
  let hist := decide (60 ≤ g.history)
  let go := fun (x : Dpll) => if g.dpll = x then s else dpllTo x s
  let lockNs := regFld s aDPLL_CFG 15 8
  let within := decide (phaseNs.natAbs ≤ lockNs) && decide (freqPpb.natAbs ≤ regFld s aDPLL_CFG 7 0)
  if ff then go .freerun
  else if fh ∧ g.dpll ≠ .freerun ∧ hist then go .holdover
  else match g.dpll with
    | .freerun | .holdover => if has ∧ !fh then dpllTo .acquiring s else s
    | .acquiring =>
      if !has then dpllTo (if hist then .holdover else .freerun) s
      else if changed then dpllTo .acquiring s
      else if !within then { s with timing := { g with lockFrom := none } }
      else
        let from_ := g.lockFrom.getD s.now
        if from_ + regFld s aDPLL_CFG 22 16 * secMc ≤ s.now then dpllTo .locked s
        else { s with timing := { g with lockFrom := some from_ } }
    | .locked =>
      if !has then dpllTo (if hist then .holdover else .freerun) s
      else if changed ∨ 4 * lockNs < phaseNs.natAbs then dpllTo .acquiring s
      else s

/-- Steering (R28, R289): within ±50 ppm, moving by at most 0.5 ppm/s, which is 1/16 ppb a tick; toward the model in HOLDOVER, toward 0 in
FREERUN, by the loop otherwise. -/
def steerTick (phaseNs freqPpb : Int) (s : State) : State :=
  let (v, s) := fresh s
  let g := s.timing
  let target := match g.dpll with
    | .freerun => 0
    | .holdover => holdSteer s s.now
    | _ => Config.loopSteer phaseNs freqPpb v
  { s with timing := { g with steer := clampI (-800000) 800000 (g.steer + clampI (-1) 1 (target - g.steer)) } }

/-- DECISION_TICK (R284). -/
def decisionTick (ms : List RefMeas) (phaseNs freqPpb : Int) (s : State) : State :=
  let s := advance s.timing.tickNext s
  let s := { s with timing := { s.timing with tickNext := (s.now / 155520 + 1) * 155520 } }
  let l := localEst s s.now
  let s := ms.foldl (fun s m => refMeasure l m s) s
  let s := refIxs.foldl (fun s r => refSpanTick r (refLosTick r s)) s
  let src := dpllSrc s
  let s := refSelect (wtrTick s)
  let f := mustFollow s
  let s := if f = s.timing.following then s
    else
      let s := { s with timing := { s.timing with following := f } }
      refSwitch (if f then 6 else s.timing.cur.getD 31) (if f then s.timing.cur.getD 31 else 6) 4 s
  let s := steerTick phaseNs freqPpb (dpllTick (decide (dpllSrc s ≠ src)) phaseNs freqPpb s)
  if s.now % secMc = 0 then { s with timing := { s.timing with steers := (s.timing.steer :: s.timing.steers).take 700 } } else s

/-- WTR_EXPIRY (R285). -/
def execWtrExpiry (r : Fin 16) (s : State) :=
  let x := refOf s r.val
  liveTiming s (if x.wtr = 0 then s else wtrEnd r.val (advance x.wtr s))

/-- DPLL_LOCK (Table 9.4). -/
def execDpllLock (s : State) :=
  liveTiming s (match s.timing.lockFrom with
    | some t =>
      if s.timing.dpll = .acquiring ∧ !regBit s aDPLL_CFG 31 ∧ !(regBit s aDPLL_CFG 30 ∧ 60 ≤ s.timing.history) then
        dpllTo .locked (advance (t + regFld s aDPLL_CFG 22 16 * secMc) s)
      else s
    | none => s)

/-- REF_DEFECT_CLEAR (Table 9.3): the clear span has elapsed: 10 s after the last failure for RF_FREQ and RF_PHASE; RF_LOS of indices 0 to 3
at the next decision tick (R283), of the others where their run of good edges or ticks is complete. -/
def execRefDefectClear (r : Fin 16) (code : BitVec 8) (s : State) :=
  let x := refOf s r.val
  liveTiming s (if code.toNat = RF_FREQ ∧ declared s 6 r.val RF_FREQ then
      setRef' r.val (refClear r.val RF_FREQ (advance (x.freqBadAt + 10 * secMc) s))
    else if code.toNat = RF_PHASE then
      (if declared s 6 r.val RF_PHASE then refClear r.val RF_PHASE (advance (x.phaseBadAt + 10 * secMc) s) else s)
    else if code.toNat = RF_LOS then
      (if r.val ≤ 3 then refClear r.val RF_LOS (advance s.timing.tickNext s)
       else if 2 ≤ x.good then refClear r.val RF_LOS (advance s.timing.tickNext s) else s)
    else s)
where
  /-- RF_FREQ is no longer held by R287. -/
  setRef' (r : Nat) (s : State) : State := setRef r { refOf s r with freqTie := false } s

/-- REF_LOS_TIMEOUT (Table 9.3): evaluated at the next decision tick (R283). A recovered clock's RF_LOS follows R274 alone. -/
def execRefLosTimeout (r : Fin 16) (s : State) :=
  liveTiming s (if refOn s r.val ∧ r.val < 8 then
      defSet 6 r.val RF_LOS (setRef r.val { refOf s r.val with good := 0, edgeAt := none } (advance s.timing.tickNext s))
    else s)

/-- TIMING_CFG_REFUSED naming the register (R302, R326, R408). -/
def timingRefused (a : Nat) (s : State) : State := event 0x0603 0 0 (beBytes 4 a) s


/-! ### Holdover learning (R292, R293) -/

/-- Least value and greatest of a list. -/
def spanI (l : List Int) : Int :=
  match l with
  | [] => 0
  | x :: r => r.foldl max x - r.foldl min x

/-- Determinant of an n × n matrix, by its first row. -/
def det : Nat → List (List Int) → Int
  | 0, _ => 1
  | n + 1, m =>
    match m with
    | [] => 0
    | r :: rest =>
      (List.range (n + 1)).foldl (fun a j => a + (if j % 2 = 0 then 1 else -1) * r.getD j 0 * det n (rest.map (fun x => x.eraseIdx j))) 0

/-- Least squares of y over n regressors: coefficient j as numerator and denominator, by Cramer's rule on the normal equations; 0 where they leave it
open. -/
def leastSquares (n : Nat) (rows : List (List Int × Int)) (j : Nat) : Int × Int :=
  let dot := fun (f g : List Int × Int → Int) => (rows.map (fun x => f x * g x)).sum
  let col := fun (i : Nat) (x : List Int × Int) => x.1.getD i 0
  let m := (List.range n).map (fun i => (List.range n).map (fun k => dot (col i) (col k)))
  let d := det n m
  if d = 0 then (0, 1) else (det n (m.zipIdx.map (fun x => x.1.set j (dot (col x.2) Prod.snd))), d)

/-- R292: the fit of steering (1/16 ppb) to a constant and the terms that are valid, over samples of steering, temperature (1/256 °C) and second; a term
not valid counts with the record's value. In register units, rounded down; the time is reckoned from the fit (log 125). -/
def holdFit (av bv gv : Bool) (r : HoldRec) (t0 : Int) (sec : Nat) (w : List (Int × Int × Nat)) : Int × Int × Int :=
  let ix := fun (b : Bool) (n : Nat) => if b then n else 0
  let ia := 1
  let ib := 1 + ix av 1
  let ig := ib + ix bv 1
  let n := ig + ix gv 1
  let rows := w.map (fun x =>
    let d := x.2.1 - t0
    let t := (x.2.2 : Int) - sec
    ([1] ++ (if av then [d] else []) ++ (if bv then [d * d] else []) ++ (if gv then [t] else []),
     x.1 - (if av then 0 else r.a * d / 16384) - (if bv then 0 else r.b * d * d / 2 ^ 28) - (if gv then 0 else r.g * t / 5529600)))
  let c := fun (i : Nat) (unit : Int) => let x := leastSquares n rows i; unit * x.1 / x.2
  (if av then c ia 16384 else 0, if bv then c ib (2 ^ 28) else 0, if gv then c ig 5529600 else 0)

/-- HOLDOVER_SAMPLE: once a second in LOCKED; the window holds the samples of the last LEARN_H hours. A term that is not valid keeps the learning
record's value. -/
def holdoverSample (s : State) : State :=
  let g := s.timing
  if g.dpll ≠ .locked then s
  else
    let g := { g with history := g.history + 1 }
    if g.following then { s with timing := g }
    else
      let sec := s.now / secMc
      let w := ((g.steer, g.tempNow, sec) :: g.samples).filter (fun x => sec < x.2.2 + regFld s aHOLD_CFG2 7 0 * 3600)
      let span := spanI (w.map (fun x => x.2.1))
      let t0 := meanI (w.map (fun x => x.2.1))
      let av := decide (128 ≤ span)
      let bv := decide (768 ≤ span)
      let gv := decide (21600 ≤ w.length)
      let c32 := clampI (-(2 ^ 31)) (2 ^ 31 - 1)
      let fit := holdFit av bv gv g.record t0 sec w
      { s with timing := { g with
          samples := w, t0 := t0, modelValid := g.modelValid || decide (60 ≤ w.length), fittedAt := s.now,
          a := if av then c32 fit.1 else g.record.a, b := if bv then c32 fit.2.1 else g.record.b, g := if gv then c32 fit.2.2 else g.record.g,
          aValid := av, bValid := bv, gValid := gv } }
def execHoldoverSample (s : State) := liveTiming s (holdoverSample s)

/-- The model as the learning record holds it. -/
def modelOf (g : Timing) : HoldRec :=
  { a := g.a, b := g.b, g := g.g, aValid := g.aValid, bValid := g.bValid, gValid := g.gValid, modelValid := g.modelValid, t0 := g.t0,
    fittedAt := g.fittedAt }

/-- The model of a record is taken up (R295). -/
def takeModel (r : HoldRec) (g : Timing) : Timing :=
  { g with a := r.a, b := r.b, g := r.g, aValid := r.aValid, bValid := r.bValid, gValid := r.gValid, modelValid := r.modelValid, t0 := r.t0,
           fittedAt := r.fittedAt }

/-- HOLDOVER_RECORD: the learning record rewritten in MRAM. -/
def execHoldoverRecord (s : State) :=
  liveTiming s { s with timing := { s.timing with record := modelOf s.timing, recordLater := true } }

/-- TEMP_SRC changes: a and b invalid, the window's samples gone (R292), and with them the validity of g, the model and the LOCKED history (R288; log 98). -/
def tempSrcMoved (s : State) : State :=
  { s with timing := { s.timing with aValid := false, bValid := false, gValid := false, modelValid := false, samples := [], history := 0, tempFails := 0 } }

/-- TEMP_READ (R293): the on-die sensor resolves 1/16 °C; the third failed board read in a row clears TEMP_SRC. -/
def tempRead (raw : Option (BitVec 16)) (s : State) : State :=
  let brd := regBit s aHOLD_CFG 31
  match raw with
  | some v =>
    let t := if brd then v.toInt else v.toInt / 16 * 16
    { s with timing := { s.timing with tempNow := t, tempFails := 0 } }
  | none =>
    if !brd then s
    else if s.timing.tempFails + 1 < 3 then { s with timing := { s.timing with tempFails := s.timing.tempFails + 1 } }
    else event 0x0602 0 0 [] (tempSrcMoved (setRaw aHOLD_CFG (regRaw s aHOLD_CFG &&& 0x7FFFFFFF) s))
def execTempRead (raw : Option (BitVec 16)) (s : State) := liveTiming s (tempRead raw s)

/-! ### Pulse, frame and clock outputs (R296 to R299) -/

def pulseOf (s : State) (o : Nat) : Pulse := mget {} s.timing.pulses o
def setPulse (o : Nat) (x : Pulse) (s : State) : State := { s with timing := { s.timing with pulses := mput {} s.timing.pulses o x } }
def clkOf (s : State) (k : Nat) : ClkOut := mget {} s.timing.clks k
def setClk (k : Nat) (x : ClkOut) (s : State) : State := { s with timing := { s.timing with clks := mput {} s.timing.clks k x } }

/-- Period of pulse output o: 1 s, or 10 ms for the frame outputs. -/
def pulsePeriod (o : Nat) : Nat := if o < 4 then 1244160000 else 12441600

def pulseSrc (s : State) (o : Nat) : Nat := regFld s (aPCFG o) 30 28
def pulseOffset (s : State) (o : Nat) : Int := (regRaw s (aPOFFSET o)).toInt

/-- Squelched by SQ and the DPLL's state (R298). -/
def squelched (s : State) (sq : Nat) : Bool :=
  (sq = 1 && s.timing.dpll = .freerun) || (sq = 2 && (s.timing.dpll = .freerun || s.timing.dpll = .holdover))

/-- First counter value at or after t congruent to e modulo p. -/
def nextCong (e : Int) (p t : Nat) : Nat := t + ((e - t) % p).toNat

/-- The outputs of clocks synchronised to PPS output o wait for its next leading edge (R299). -/
def resync (o : Nat) (s : State) : State :=
  (List.range 4).foldl (fun s k =>
    let v := (regRaw s (aCCFG k)).toNat
    if fld v 31 31 = 1 ∧ fld v 28 28 = 1 ∧ fld v 27 26 = o then setClk k { clkOf s k with synced := false, wantSync := true } s else s) s

/-- The edge captured at counter value c acts on output o (R297): an output that waits for one anchors, a tracking one turns toward the edge's grid. -/
def edgeActs (c o : Nat) (s : State) : State :=
  let p := pulsePeriod o
  let x := { pulseOf s o with due := none }
  let e := (c : Int) + pulseOffset s o
  match (if x.wantAnchor then none else x.grid) with
  | none =>
    resync o (setPulse o { x with grid := some (nextCong e p (c + 160)), wantAnchor := false, realign := false, slew := 0, stepHeld := false } s)
  | some g =>
    let m := (e - g) % (p : Int)
    let d := if 2 * m ≤ p then m else m - p
    let x := { x with lastDelta := clampI (-32768) 32767 d }
    if regBit s (aPCFG o) 27 = false ∨ x.stepHeld then setPulse o x s
    else if d.natAbs * 3125 ≤ regFld s aMON_CFG 7 0 * 10 * 3888 then setPulse o { x with slew := d } s
    else setPulse o { x with stepHeld := true } s

/-- An edge that has become available, 40 mc after its capture, has acted (R297). -/
def settlePulse (o : Nat) (s : State) : State :=
  match (pulseOf s o).due with
  | some c => if c + 40 ≤ s.now then edgeActs c o s else s
  | none => s

/-- An input edge is captured for one output (R297). While the input has RF_LOS an output with a grid runs on that and follows no edge; one that waits
to anchor takes the edge (log 98). -/
def edgeFor (pps : Bool) (o : Nat) (s : State) : State :=
  let x := pulseOf s o
  if !(regBit s (aPCFG o) 31 && pulseSrc s o = pps.toNat) ∨ x.due.isSome then s
  else if x.grid.isSome ∧ !x.wantAnchor ∧ declared s 6 (4 + pps.toNat) RF_LOS then s
  else setPulse o { x with due := some s.now } s

/-- INPUT_EDGE (R297), and the RF_LOS clear run of a PPS reference (Table 9.3). -/
def inputEdge (pps : Bool) (s : State) : State :=
  let s := (List.range 6).foldl (fun s o => settlePulse o s) s
  let r := 4 + pps.toNat
  let x := refOf s r
  let ok := match x.edgeAt with
    | some t => decide (t + 1244160000 ≤ s.now + 1244) && decide (s.now ≤ t + 1244160000 + 1244)
    | none => false
  let s := setRef r { x with edgeAt := some s.now, good := if ok then x.good + 1 else 0 } s
  (List.range 6).foldl (fun s o => edgeFor pps o s) s
def execInputEdge (pps : Bool) (s : State) := liveTiming s (inputEdge pps s)


/-- Counter value of the next edge of output o at or after t; none when it has none (R296). -/
def nextPulse (s : State) (o t : Nat) : Option Nat :=
  let off := pulseOffset s o
  match pulseSrc s o with
  | 0 | 1 => (pulseOf s o).grid
  | 2 | 3 =>
    let d := tdom s (pulseSrc s o = 3)
    if d.st = .unset then none
    else
      let u : Int := if o < 4 then secU else radioU
      -- first grid time at or after the time of t - OFFSET
      let now := d.tau + ((t : Int) - off - d.cb) * rateNum d.r / rateDen
      let target := (now + u - 1) / u * u
      some (max t ((d.cb : Int) + ((target - d.tau) * rateDen + rateNum d.r - 1) / rateNum d.r + off).toNat)
  | 4 => if o < 4 then none else some (nextCong ((s.imprNext : Int) + off) 12441600 t)
  | _ => none

/-- 1 s is a whole number of periods of clock output k (R299). -/
def clkWhole (s : State) (k : Nat) : Bool :=
  let d := (clkOf s k).den
  d ≠ 0 && 9953280000 * regFld s (aCCFG k) 23 0 % d = 0

/-- Mill cycles by which a tracking output's next pulse moves toward the new grid (R297). -/
def pulseMove (s : State) (o : Nat) : Int := if regBit s (aPCFG o) 27 ∧ pulseSrc s o ≤ 1 then clampI (-1) 1 (pulseOf s o).slew else 0

/-- An input edge that becomes available before output o's next edge has acted by then (R297). -/
def pulseReady (o : Nat) (s : State) : State :=
  match (pulseOf s o).due with
  | some c => if s.now < c + 40 ∧ (nextPulse s o (max s.now ((pulseOf s o).lastEdge + 1))).any (fun e => decide (e < c + 40)) then s else edgeActs c o s
  | none => s

/-- OUTPUT_PULSE (R297 to R299): a pulse that moves falls 1 mc beside the old grid, and the grid with it. -/
def outputPulse (o : Nat) (s : State) : State :=
  if !regBit s (aPCFG o) 31 then s
  else
    let s := pulseReady o s
    match nextPulse s o (max s.now ((pulseOf s o).lastEdge + 1)) with
    | none => s
    | some e0 =>
      let d := pulseMove s o
      let e := ((e0 : Int) + d).toNat
      let s := advance e s
      let x := pulseOf s o
      let sq := squelched s (regFld s (aPCFG o) 26 25)
      let s := setPulse o { x with grid := x.grid.map (fun g => ((g : Int) + pulsePeriod o + d).toNat), slew := x.slew - d,
                                   lastEdge := e, pulseAt := if sq then x.pulseAt else some e } s
      if o < 4 ∧ !sq then
        (List.range 4).foldl (fun s k =>
          let c := clkOf s k
          if c.wantSync ∧ regFld s (aCCFG k) 27 26 = o then setClk k { c with wantSync := false, synced := clkWhole s k, resetAt := e } s else s) s
      else s
def execOutputPulse (o : Fin 6) (s : State) := liveTiming s (outputPulse o.val s)

/-- Level of pulse output o: active for WIDTH from a pulse's leading edge, inverted by POL; a pulse in progress completes (R298). -/
def pulseLevel (s : State) (o : Nat) : Bool :=
  xor (regBit s (aPCFG o) 24)
    (regBit s (aPCFG o) 31 && (pulseOf s o).pulseAt.any (fun e => e ≤ s.now && decide (s.now < e + regFld s (aPWIDTH o) 23 0)))

/-- Frequency of clock output k in Hz, as numerator and denominator (R299). -/
def clkRate (s : State) (k : Nat) : Nat × Nat := (9953280000 * regFld s (aCCFG k) 23 0, (clkOf s k).den)

/-- The ratio gives 1 kHz to 800 MHz (R299). -/
def clkOk (num den : Nat) : Bool := den ≠ 0 && 1000 * den ≤ 9953280000 * num && 9953280000 * num ≤ 800000000 * den

/-- Rising edge j of clock output k after its divider's reset, the first mill cycle at or after it: the period is DEN / (8 NUM) mill cycles (R299). -/
def clkEdge (s : State) (k j : Nat) : Nat := (clkOf s k).resetAt + ceilDiv (j * (clkOf s k).den) (8 * regFld s (aCCFG k) 23 0)

/-- CCFG (R299): the staged DEN takes effect and the divider resynchronises. -/
def ccfg (k : Nat) (v : Word) (s : State) : State :=
  let den := (regRaw s (aCDEN k)).toNat
  if fld v.toNat 30 29 = 3 ∨ !clkOk (fld v.toNat 23 0) den then timingRefused (aCCFG k) s
  else setClk k { clkOf s k with den := den, synced := false, wantSync := v.getLsbD 31 && v.getLsbD 28 } (setRaw (aCCFG k) (v &&& 0xFCFFFFFF) s)

/-- The quality level the timing unit gives the port of first lane p (R300). -/
def outQl (s : State) (p : Nat) : BitVec 4 :=
  match s.timing.cur with
  | some r =>
    if 8 ≤ r ∧ portOf s (rclkLane s (r - 8)) = p then 8
    else if s.timing.dpll = .locked then BitVec.ofNat 4 (refQl s r)
    else BitVec.ofNat 4 (regFld s aSEL_CFG 22 19)
  | none => BitVec.ofNat 4 (regFld s aSEL_CFG 22 19)

end Sys2Proof.Machine
end

