-- ==== Sys2Proof/Machine/Uplinks.lean ====
section
/-! DEFINITION. Uplink ports: quads, port configuration, screens, sequence generation, device frames, ESMC, uplink defects, rehash
(R214, R215, R218, R253 to R255, R261 to R271, R274 to R278, Table 6.2). -/

namespace Sys2Proof.Machine

open Config

/-! ### Quads and ports (R253 to R255, R270, R429, R430) -/

/-- UL_CFG_REFUSED with the register's offset within the quad block. -/
def ulRefused (p a : Nat) (s : State) : State := event 0x0304 4 p (beBytes 4 (a % 0x10000)) s

/-- Quad g carries lanes of an enabled port. -/
def quadBusy (s : State) (g : Nat) : Bool :=
  (List.range 32).any (fun p => portOn s p && decide (p / 4 ≤ g) && decide (4 * g < p + portLanes s p))

/-- Exactly one quad of the pair of quad g has MODE 3 (R254). -/
def pairSplit (s : State) (g : Nat) : Bool :=
  let a := quadMode s (g / 2 * 2)
  let b := quadMode s (g / 2 * 2 + 1)
  (a = 3 && b ≠ 3) || (a ≠ 3 && b = 3)

/-- Every quad domain under the port of first lane p is on. -/
def portPowered (s : State) (p : Nat) : Bool :=
  (List.range 8).all (fun g => !(decide (p / 4 ≤ g) && decide (4 * g < p + portLanes s p)) || pwrOn s (64 + g))

/-- A twin's conditions (R270): p would copy q. -/
def twinOk (s : State) (p q : Nat) : Bool :=
  firstLane s q && quadMode s (p / 4) = quadMode s (q / 4) && p ≠ q
    && !(engaged s).any (fun x => x.egress.any (fun e => e.first = p))
    && !(List.range 32).any (fun r => (uport s r).spare = some p || (uport s r).protNext.any (fun x => x.1 = some p))
    && !(List.range 32).any (fun r => r ≠ p && firstLane s r && regBit s (aPORT r) 26 && regFld s (aPORT r) 25 21 = p)
    && !regBit s (aPORT q) 26

/-- A port's TWIN_EN names a port it may not copy now. -/
def twinBroken (s : State) (p : Nat) : Bool := firstLane s p && regBit s (aPORT p) 26 && !twinOk s p (regFld s (aPORT p) 25 21)

/-- Writes that break a condition of R270 leave TWIN_EN at 0, with UL_CFG_REFUSED. -/
def twinJudge (s : State) : State :=
  (List.range 32).foldl (fun s p =>
    if twinBroken s p then ulRefused p (aPORT p) (setRaw (aPORT p) (regRaw s (aPORT p) &&& 0xFBFFFFFF) s) else s) s

/-- A write of QUAD_CFG (R254, R255, R270): ports that are no longer formed leave service. -/
def quadWrite (g m : Nat) (s : State) : State :=
  if quadMode s g = m then s
  else if quadBusy s g then ulRefused (4 * g) (aQUAD g) s
  else
    let was := (List.range 32).filter (portOn s)
    let s := setRaw (aQUAD g) (BitVec.ofNat 32 m) s
    let s := if pairSplit s g then ulRefused (4 * g) (aQUAD g) s else s
    twinJudge (portsFollow was s)

/-- A write of PORT_CFG (R255, R270, R429, R430). -/
def portCfgWrite (p : Nat) (v : Word) (s : State) : State :=
  let a := aPORT p
  if !firstLane s p then s
  else if !portPowered s p then (if v.getLsbD 31 then ulRefused p a s else s)
  else
    let bad := v.getLsbD 26 && !twinOk s p (fld v.toNat 25 21)
    let w := (if bad then v &&& 0xFBFFFFFF else v) &&& 0xFFE03FFF
    let was := portOn s p
    let s := setRaw a w s
    let s := if was && !w.getLsbD 31 then portLeaves p s
      else if !was && w.getLsbD 31 then portStarts p s
      else s
    if bad then ulRefused p a s else s

/-- MAX_LEN in force, held within its range (R258, R279). -/
def maxLen (s : State) (p : Nat) : Nat := min 9600 (max 1518 (regFld s (aPORT p) 13 0))

/-- UL_CLR in mill cycles, held within 1 to 1,000 ms. -/
def ulClr (s : State) (p : Nat) : Nat := 1244160 * min 1000 (max 1 (regFld s (aPORT p + 4) 9 0))

/-- MAC address of a port. -/
def portMac (s : State) (p : Nat) : Nat := regFld s (aPORT p + 8) 15 0 * 2 ^ 32 + (regRaw s (aPORT p + 12)).toNat

/-- The port has a THROUGH entry in its EGRESS block of the engaged plate (R261). -/
def hasThroughEgress (s : State) (p : Nat) : Bool :=
  (engaged s).any (fun x => x.egress.any (fun e => e.first = p && e.ents.any (fun y => y.1 = 1)))

/-! ### Screens (R262 to R267, Table 8.4) -/

/-- KIND and ID of a frame (R262, Table 8.3; eCPRI and RoE header layouts PRESUMED, log 55); none for an eCPRI frame of another revision. -/
def keyKind (l : List Byte) : Option (Nat × Nat) :=
  let e := etherAt l
  let da := natAt l 0 6
  if etherType l = 0xAEFE then
    let t := natAt l (e + 3) 1
    if natAt l (e + 2) 1 / 16 ≠ 1 then none
    else if t = 0 ∨ t = 2 then some (2, t * 2 ^ 40 + natAt l (e + 6) 2 * 2 ^ 24)
    else some (1, da)
  else if etherType l = 0xFC3D then some (3, natAt l (e + 3) 1 * 2 ^ 40)
  else some (1, da)

/-- The fields of a screen entry that make its key: KIND, VID_O, VID_I, ID. -/
def scKey (e : List Byte) : Nat × Nat × Nat × Nat := (natAt e 0 1, natAt e 4 2, natAt e 6 2, natAt e 8 6)

/-- The key of a held screen. -/
def keyOfScreen (x : Screen) : Nat × Nat × Nat × Nat := (x.kind, x.vidO, x.vidI, x.ident.toNat)

/-- The screen of a frame's key, tagged or not. -/
def screenOf (s : State) (l : List Byte) : Option Screen :=
  (keyKind l).bind (fun k => s.screens.find? (fun x => keyOfScreen x = (k.1, vidO l, vidI l, k.2)))

/-- Checks of a SCREEN_SET entry (R263). -/
def scRules (e : List Byte) : List (Nat × Bool) :=
  let k := natAt e 0 1
  let rec_ := natAt e 1 1 / 128 = 1
  [(16, decide (k ≤ 3)), (17, natAt e 1 1 % 128 = 0),
   (18, if rec_ then 2 ≤ natAt e 2 1 && natAt e 2 1 ≤ 64 else natAt e 2 1 = 0), (19, natAt e 3 1 = 0),
   (20, natAt e 4 2 < 4096), (22, natAt e 6 2 < 4096),
   (24, k ≠ 2 || natAt e 8 1 = 0 || natAt e 8 1 = 2), (27, k ≠ 2 || natAt e 11 3 = 0), (25, k ≠ 3 || natAt e 9 5 = 0),
   (32, if rec_ then 1 ≤ natAt e 16 2 && natAt e 16 2 ≤ 1000 else natAt e 16 2 = 0), (34, natAt e 18 6 = 0)]

/-- A screen from its entry. -/
def readScreen (e : List Byte) : Screen :=
  { kind := natAt e 0 1, recEn := natAt e 1 1 / 128 = 1, histLen := natAt e 2 1, vidO := natAt e 4 2, vidI := natAt e 6 2,
    ident := BitVec.ofNat 48 (natAt e 8 6), flow := natAt e 14 2, resetMs := natAt e 16 2 }

/-- A screen as its entry. -/
def screenBytes (x : Screen) : List Byte :=
  beBytes 1 x.kind ++ beBytes 1 (x.recEn.toNat * 128) ++ beBytes 1 x.histLen ++ rsv 1 ++ beBytes 2 x.vidO ++ beBytes 2 x.vidI
    ++ beBytes 6 x.ident.toNat ++ beBytes 2 x.flow ++ beBytes 2 x.resetMs ++ rsv 6

/-- FRER_RESET of a screen, at most once per screen per impression (R267). -/
def frerReset (key : Nat × Nat × Nat × Nat) (cause : Nat) (s : State) : State :=
  match s.screens.find? (fun x => keyOfScreen x = key) with
  | none => s
  | some x =>
    let s := { s with screens := s.screens.map (fun y => if keyOfScreen y = key then { y with recov := none, marked := [], told := true } else y) }
    if x.told then s else event 0x0303 3 x.flow (beBytes 1 cause) s

/-- The table after an entry: KIND 0 deletes the screens of that key, of every kind (log 44). -/
def screenPut (e : List Byte) (l : List Screen) : List Screen :=
  let n := readScreen e
  if n.kind = 0 then l.filter (fun x => !((scKey e).2 = (keyOfScreen x).2))
  else if l.any (fun x => keyOfScreen x = scKey e) then
    l.map (fun x => if keyOfScreen x = scKey e then
      { n with recov := x.recov, marked := x.marked, lastPass := x.lastPass, told := x.told } else x)
  else l ++ [n]

/-- An accepted screen entry takes hold (R263): a rewrite resets the recovery state of a screen that keeps one. -/
def landScreen (e : List Byte) (s : State) : State :=
  let old := s.screens.find? (fun x => keyOfScreen x = scKey e)
  let s := { s with screens := screenPut e s.screens }
  if old.any (fun x => x.recEn) then frerReset (scKey e) 1 s else s

def opScreenSet (e : List Byte) : Op where
  bad _ := firstBad (scRules e)
  run s :=
    let l := s.screens
    if natAt e 1 1 / 128 = 1 ∧ !featOn s 9 then resNotNeg 9 s
    else if natAt e 0 1 ≠ 0 ∧ 65536 ≤ l.length ∧ !l.any (fun x => keyOfScreen x = scKey e) then resConflict 4 0 s
    else resOk [] (landScreen e s)

/-- SCREEN_GET: fields other than the key are 0; a key without a screen names nothing (log 45). -/
def opScreenGet (e : List Byte) : Op where
  bad s := firstBad [(17, natAt e 1 3 = 0), (30, natAt e 14 10 = 0), (16, s.screens.any (fun x => keyOfScreen x = scKey e))]
  run s :=
    match s.screens.find? (fun x => keyOfScreen x = scKey e) with
    | some x => resOk (screenBytes x) s
    | none => resBad 16 s

def execScreenSet (h : Hdr) (e : List Byte) (s : State) := command (.screenSet h e) (opScreenSet e) s
def execScreenGet (h : Hdr) (e : List Byte) (s : State) := command (.screenGet h e) (opScreenGet e) s

/-- FRER_RESET by RESET_MS: no frame passed for that long (R267). -/
def frerTimeout (e : List Byte) (s : State) : State :=
  match s.screens.find? (fun x => keyOfScreen x = scKey e) with
  | none => s
  | some x =>
    if x.recEn ∧ x.recov.isSome then frerReset (scKey e) 0 (advance (x.lastPass + x.resetMs * 1244160) s) else s
def execFrerReset (e : List Byte) (s : State) := live s (frerTimeout e s)

/-! ### Sequence generation (R269) -/

/-- GEN set: the numbers start at 0; already set, they go on. -/
def landGen (f : Nat) (on : Bool) (s : State) : State :=
  let old := mget none s.mill.gens f
  let new := if on then (if old.isSome then old else some 0) else none
  { s with mill := { s.mill with gens := mput none s.mill.gens f new } }

def opGenSet (f : BitVec 16) (g : BitVec 8) : Op where
  bad _ := firstBad [(18, g.toNat ≤ 1)]
  run s := resOk [] (landGen f.toNat (g = 1) s)

def opGenGet (f : BitVec 16) : Op where
  bad _ := 0
  run s :=
    let x := mget none (sampled s).mill.gens f.toNat
    resOk (beBytes 1 x.isSome.toNat ++ rsv 1 ++ beBytes 2 ((x.getD 0).toNat)) s

def execGenSet (h : Hdr) (f : BitVec 16) (g : BitVec 8) (s : State) := command (.genSet h f g) (opGenSet f g) s
def execGenGet (h : Hdr) (f : BitVec 16) (s : State) := command (.genGet h f) (opGenGet f) s

/-! ### ESMC (R275, R282, R300; PDU layout of ITU-T G.8264: PRESUMED, log 46) -/

/-- Quality level code of an SSM code and an enhanced SSM code, option 1. -/
def qlOf (ssm essm : Nat) : BitVec 4 :=
  if ssm = 2 then (if essm = 0x20 ∨ essm = 0x21 then 0 else if essm = 0x23 then 1 else 2)
  else if ssm = 4 then 3 else if ssm = 8 then 5
  else if ssm = 0xB then (if essm = 0x22 then 6 else 7)
  else if ssm = 0xF then 8 else 15

/-- The SSM code and the enhanced SSM code of a quality level. -/
def ssmOf (q : BitVec 4) : Nat × Nat :=
  match q.toNat with
  | 0 => (2, 0x20) | 1 => (2, 0x23) | 2 => (2, 0xFF) | 3 => (4, 0xFF) | 5 => (8, 0xFF) | 6 => (0xB, 0x22) | 7 => (0xB, 0xFF)
  | _ => (0xF, 0xFF)

/-- An ESMC PDU of a port: event flag, quality level, clock identity. -/
def esmcPdu (s : State) (p : Nat) (ev : Bool) (q : BitVec 4) (ident : Nat) : List Byte :=
  let (ssm, essm) := ssmOf q
  let b := beBytes 6 0x0180C2000002 ++ beBytes 6 (portMac s p) ++ beBytes 2 0x8809 ++ beBytes 1 0x0A ++ beBytes 3 0x0019A7 ++ beBytes 2 1
    ++ beBytes 1 (0x10 + 8 * ev.toNat) ++ rsv 3 ++ beBytes 1 1 ++ beBytes 2 4 ++ beBytes 1 ssm
    ++ beBytes 1 2 ++ beBytes 2 20 ++ beBytes 1 essm ++ beBytes 8 ident ++ rsv 8
  withFcs (b ++ List.replicate (60 - b.length) 0)

/-- In MODE 0 a unit that is not SAILS_ON emits nothing on its uplinks (R327). -/
def mute (s : State) : Bool := pairMode s = 0 && !s.pair.sails

/-- A PDU queued on port p, in place of one still waiting (log 47). -/
def sendEsmc (p : Nat) (ev : Bool) (s : State) : State :=
  if mute s then s else
  let q := outQl s p
  let (v, s) := fresh s
  updPort p (fun u => { u with devEsmc := some (esmcPdu s p ev q v), esmcSent := q }) s

/-- ESMC_INFO: the information PDU of a port with ESMC_EN. -/
def execEsmcInfo (l : Fin 32) (s : State) := live s (if portOn s l.val && regBit s (aPORT l.val) 29 then sendEsmc l.val false s else s)

/-- An event PDU on every port whose quality level has changed. -/
def esmcChanges (s : State) : State :=
  (List.range 32).foldl (fun s p =>
    if portOn s p && regBit s (aPORT p) 29 && outQl s p ≠ (uport s p).esmcSent then sendEsmc p true s else s) s

/-- DECISION_TICK, also through a save and a restart (R440), with the event PDUs of the quality levels it changes (R275, R284). -/
def execDecisionTick (ms : List RefMeas) (p f : Int) (s : State) :=
  liveTiming s (let t := decisionTick ms p f s; if t.power.phase = .running then esmcChanges t else t)

/-- ESMC_TIMEOUT: QL-FAILED (R275). -/
def esmcTimeout (p : Nat) (s : State) : State :=
  let t := (uport s p).esmcAt
  if (uport s p).esmcQl.isSome && regBit s (aPORT p) 29 then updPort p (fun u => { u with esmcQl := none }) (advance (t + 5 * secMc) s) else s
def execEsmcTimeout (l : Fin 32) (s : State) := live s (esmcTimeout l.val s)

/-- An ESMC PDU received: EtherType of slow protocols at byte e. -/
def esmcRx (p e : Nat) (l : List Byte) (s : State) : State :=
  let essm := if natAt l (e + 16) 1 = 2 then natAt l (e + 19) 1 else 0xFF
  let info := natAt l (e + 8) 1 / 8 % 2 = 0
  updPort p (fun u => { u with esmcQl := some (qlOf (natAt l (e + 15) 1 % 16) essm), esmcAt := if info then s.now else u.esmcAt }) s

/-! ### PTP messages (R271 to R273, R313; header layout of IEEE 1588: PRESUMED, log 48) -/

/-- Number of the PTP domain bound to a time domain. -/
def ptpNum (s : State) (b : Bool) : Nat := regFld s (aDOM_CFG b) 31 26

/-- A PTP message of port p: type, sequence number, clock identity, two-step flag, the output time it carries. Which of the two profile addresses it
goes to is open (R7): `peer`, a free value of its own, chooses (log 48). -/
def ptpFrame (s : State) (p : Nat) (b : Bool) (msg seq ident : Nat) (peer two : Bool) (t : Int) : List Byte :=
  let n := if msg = 0x0B then 64 else 44
  let x := beBytes 6 (if !peer then 0x011B19000000 else 0x0180C200000E) ++ beBytes 6 (portMac s p) ++ beBytes 2 0x88F7 ++ beBytes 1 msg ++ beBytes 1 2 ++ beBytes 2 n
    ++ beBytes 1 (ptpNum s b) ++ rsv 1 ++ beBytes 1 (2 * two.toNat) ++ rsv 1 ++ rsv 12 ++ beBytes 8 ident ++ beBytes 2 (p + 1)
    ++ beBytes 2 seq ++ rsv 2 ++ beBytes 6 (twos 48 (t / secU)) ++ beBytes 4 (t / nsU % 1000000000).toNat
  withFcs (x ++ List.replicate (max 60 (14 + n) - x.length) 0)

/-- The message type of Follow_Up. -/
def followUp : Nat := 8

/-- The time a message carries: a Follow_Up that of its Sync's time-stamp, none where the engine has not taken it (R322); any other the present. -/
def ptpTime (s : State) (p : Nat) (b : Bool) (msg seq : Nat) : Option Int :=
  if msg = followUp then (s.time.stamped.find? (fun x => x.1 = (p, b, seq))).map (fun x => outTime s x.2) else some (outTime s s.now)

/-- PTP_SEND: a Sync, Delay_Req, Follow_Up or Announce waits on a port with PTP_EN, in place of one still waiting; a two-step message awaits
its transmit time-stamp (R273, R313, R322). -/
def ptpSend (p : Nat) (b : Bool) (msg seq : Nat) (two : Bool) (s : State) : State :=
  if !(portOn s p && regBit s (aPORT p) 30) ∨ (b ∧ !twoDom s) ∨ mute s then s
  else
    match ptpTime s p b msg seq with
    | none => s
    | some t =>
      let (v, s) := fresh s
      let (w, s) := fresh s
      let s := { s with time := { s.time with
        stamped := s.time.stamped.filter (fun x => !(decide (msg = followUp) && x.1 = (p, b, seq))),
        awaiting := s.time.awaiting ++ (if two then [(p, b, msg, seq)] else []) } }
      updPort p (fun u => { u with devPtp := some (ptpFrame s p b msg seq v (decide (w % 2 = 1)) two t) }) s
def execPtpSend (l : Fin 32) (b : Bool) (m : BitVec 4) (q : BitVec 16) (two : Bool) (s : State) :=
  live s (ptpSend l.val b m.toNat q.toNat two s)

/-! ### The slave port (R313; alternate BMCA of G.8275.1 and the Announce layout of IEEE 1588: PRESUMED, log 95) -/

/-- The Announce of a frame whose PTP header starts at byte h. -/
def announceOf (p h now : Nat) (l : List Byte) : Foreign :=
  { lane := p, gmClass := natAt l (h + 48) 1, accuracy := natAt l (h + 49) 1, variance := natAt l (h + 50) 2, prio2 := natAt l (h + 52) 1,
    gm := natAt l (h + 53) 8, steps := natAt l (h + 61) 2, sender := natAt l (h + 20) 10, at_ := now }

/-- The first differing pair decides; true where the left side is smaller. -/
def lexLt : List (Nat × Nat) → Bool
  | [] => false
  | (a, b) :: r => if a < b then true else if b < a then false else lexLt r

/-- Master x goes before y: the grandmaster's class, accuracy, variance and priority 2; then, unless its class is 127 or lower, its identity; then the
steps removed, the sender and the port. Every port's local priority is the same. -/
def foreignBefore (x y : Foreign) : Bool :=
  lexLt ([(x.gmClass, y.gmClass), (x.accuracy, y.accuracy), (x.variance, y.variance), (x.prio2, y.prio2)]
    ++ (if x.gmClass ≤ 127 then [] else [(x.gm, y.gm)]) ++ [(x.steps, y.steps), (x.sender, y.sender), (x.lane, y.lane)])

/-- The best of the masters heard. -/
def bestForeign : List Foreign → Option Foreign
  | [] => none
  | x :: l => match bestForeign l with
    | some y => if foreignBefore y x then some y else some x
    | none => some x

/-- An Announce of domain b: the masters heard within three intervals, and the slave port among their ports. -/
def announceRx (b : Bool) (x : Foreign) (s : State) : State :=
  let d := tdom s b
  let l := d.foreign.filter (fun y => decide (s.now ≤ y.at_ + announceMc) && !(y.lane = x.lane && y.sender = x.sender)) ++ [x]
  let best := bestForeign l
  setTdom b { d with foreign := l, slave := (best.map Foreign.lane).getD d.slave,
                     announceAt := if best.any (fun y => y.lane = x.lane && y.sender = x.sender) then s.now else d.announceAt } s

/-- A trim of TS_ADJ (1/16 ns) in mill cycles, rounded down. -/
def trimMc (v : Nat) : Int := sgn 16 v * 3888 / 50000
def rxTrim (s : State) (p : Nat) : Int := trimMc (regFld s (aPORT p + 16) 15 0)
def txTrim (s : State) (p : Nat) : Int := trimMc (regFld s (aPORT p + 16) 31 16)

/-- A PTP message of domain number n on port p, its header at byte h: time-stamped, less a path delay that no rule gives, a free value (R272); an
Announce of a domain bound to a time domain goes to the choice of the slave port (R313). -/
def ptpRx (p h n : Nat) (l : List Byte) (s : State) : State :=
  let (v, s) := fresh s
  let at_ := ((s.now : Int) - (v % 4096 : Nat) + rxTrim s p).toNat
  let s := updPort p (fun u => { u with ptpRx := some (natAt l h 1 % 16, natAt l (h + 30) 2, at_) }) s
  if natAt l h 1 % 16 ≠ 0x0B then s
  else if n = ptpNum s false then announceRx false (announceOf p h s.now l) s
  else if twoDom s ∧ n = ptpNum s true then announceRx true (announceOf p h s.now l) s
  else s

/-! ### Pause (R261) -/

/-- PAUSE_EXPIRY. -/
def pauseExpiry (p : Nat) (s : State) : State :=
  let t := (uport s p).pausedTo
  if t = 0 then s else updPort p (fun u => { u with pausedTo := 0 }) (advance t s)
def execPauseExpiry (l : Fin 32) (s : State) := live s (pauseExpiry l.val s)

/-! ### Uplink defects, faults, rehash (R214, R215, R218, R276, Table 6.2) -/

/-- Trigger times of port p after a change of its defects; `was` tells whether a trigger was declared before it. -/
def trigMark (p : Nat) (was : Bool) (s : State) : State :=
  let now_ := portTrig s p
  if !was && now_ then updPort p (fun u => { u with trigAt := s.now }) s
  else if was && !now_ then updPort p (fun u => { u with trigAt := 0, clearAt := s.now }) s
  else s

/-- A change of port p's defects, with its trigger marks and the protection status. -/
def portChange (p : Nat) (f : State → State) (s : State) : State := trigMark p (portTrig s p) (f s)

/-- UL_LOS: signal or CDR lock lost on a lane of the port. -/
def ulLos (l : Nat) (s : State) : State :=
  let p := portOf s l
  if !portOn s p then s
  else portChange p (fun s => updPort p (fun u => { u with aligned := false, rfTx := true, faultAt := s.now }) (defSet 4 p UL_LOS s)) s
def execUlLos (l : Fin 32) (s : State) := live s (ulLos l.val s)

/-- UL_LOF: alignment lost with signal present. -/
def ulLof (l : Nat) (s : State) : State :=
  let p := portOf s l
  if !portOn s p then s
  else portChange p (fun s => updPort p (fun u => { u with aligned := false, rfTx := true, faultAt := s.now }) (defSet 4 p UL_LOF s)) s
def execUlLof (l : Fin 32) (s : State) := live s (ulLof l.val s)

/-- UL_RDI: Remote Fault received for 1,244 mc. -/
def ulRdi (l : Nat) (s : State) : State :=
  let p := portOf s l
  if !portOn s p then s else portChange p (fun s => updPort p (fun u => { u with rfRx := true, faultAt := s.now }) (defSet 4 p UL_RDI s)) s
def execUlRdi (l : Fin 32) (s : State) := live s (ulRdi l.val s)

/-- UL_CLEAR: the port good throughout UL_CLR, aligned, no fault received: its defects but UL_SD clear and Remote Fault is sent no longer. While a
fault is received nothing clears. -/
def ulClear (l : Nat) (s : State) : State :=
  let p := portOf s l
  let u := uport s p
  if !portOn s p ∨ u.rfRx ∨ u.lfRx then s
  else
    portChange p (fun s =>
      [UL_LOS, UL_LOF, UL_RDI].foldl (fun s c => defClear 4 p c 0 s) (updPort p (fun u => { u with aligned := true, rfTx := false }) s))
      (advance (u.faultAt + ulClr s p) s)
def execUlClear (l : Fin 32) (s : State) := live s (ulClear l.val s)

/-- REMOTE_FAULT starting or stopping on a port's receiver (R276). -/
def remoteFault (l : Nat) (on : Bool) (s : State) : State :=
  let p := portOf s l
  if portOn s p then (updPort p (fun u => { u with rfRx := on, faultAt := s.now }) s) else s
def execRemoteFault (l : Fin 32) (on : Bool) (s : State) := live s (remoteFault l.val on s)

/-- LOCAL_FAULT starting or stopping (R276): Remote Fault is sent while it is received, or while UL_LOS or UL_LOF is declared (R218). -/
def localFault (l : Nat) (on : Bool) (s : State) : State :=
  let p := portOf s l
  if portOn s p then
    updPort p (fun u => { u with lfRx := on, faultAt := s.now, rfTx := on || declared s 4 p UL_LOS || declared s 4 p UL_LOF }) s
  else s
def execLocalFault (l : Fin 32) (on : Bool) (s : State) := live s (localFault l.val on s)

/-- REHASH: at the first stroke boundary at least 1,244 mc after the trigger, the port's output moves to its spare; a spare in use serves no
second port (R214, R215); no rehash follows a fault on a twin (R270). -/
def rehash (p : Nat) (s : State) : State :=
  let u := uport s p
  if u.trigAt = 0 ∨ u.rehashed ∨ !portOn s p ∨ regBit s (aPORT p) 26 then s
  else
    match u.spare with
    | none => s
    | some q =>
      let s := advance (strokeAt s (u.trigAt + 1244)) s
      let s' := updPort p (fun u => { u with trigAt := 0, rehashed := !spareUsed s q, txLeft := 0, txOf := none }) s
      if spareUsed s q then event 0x0305 4 p (beBytes 1 q) s' else s'
def execRehash (l : Fin 32) (s : State) := live s (rehash l.val s)

end Sys2Proof.Machine
end

