-- ==== Sys2Proof/Machine/Pair.lean ====
section
/-! DEFINITION. Contact, pair opcodes, PROT_CFG, the lease, the witness, the state copy (R205 to R216, R326 to R353). -/

namespace Sys2Proof.Machine

open Config

/-! ### Registers of the pair block (Tables 11.10, 11.11) -/

def pairCode : PairSt → Nat
  | .solo => 0 | .joining => 1 | .eligible => 2 | .inStep => 3

def pairStatus (s : State) : Word :=
  let p := s.pair
  BitVec.ofNat 32 (pairCode p.st * 2 ^ 30 + p.sails.toNat * 2 ^ 29 + p.contact.toNat * 2 ^ 28 + p.contact.toNat * 2 ^ 27
    + p.sbGood.toNat * 2 ^ 26 + (p.fencedLease || p.fencedCmd || p.fencedPin || p.fencedScan).toNat * 2 ^ 25 + p.tier % 4 * 2 ^ 23
    + p.cold.toNat * 2 ^ 22 + p.detached.toNat * 2 ^ 21 + twos 16 p.skew)

/-- Impression and mill cycle of the lease's expiry; 0 while there is none. -/
def leaseExp (s : State) : Word × Word :=
  if s.pair.expiry = 0 then (0, 0)
  else
    let d : Int := (s.pair.expiry : Int) - s.imprAt
    (s.imprNum + BitVec.ofInt 32 (d / IMPRESSION), BitVec.ofNat 32 (d % IMPRESSION).toNat)

/-! ### Contact (R328, R331, R340, Table 11.1) -/

/-- The FEATHERED unit places itself on its SAILS_ON partner's pair time (R331): it empties both banks, with what is scheduled for them; the partner's
impression number, the boundary and Δ_C are the partner's and the link's, so free values; |PAIR_SKEW| ≤ 2 mc. The silence of R342 counts from here. -/
def adoptTime (s : State) : State :=
  let (num, s) := fresh s
  let (ph, s) := fresh s
  let (dc, s) := fresh s
  let (sk, s) := fresh s
  let s := cancelTurn 0 (emptyBank true (emptyBank false s))
  let b := s.now + 1 + ph % IMPRESSION
  let s := { s with imprNum := BitVec.ofNat 32 num, imprNext := b, imprAt := b - IMPRESSION,
                    plates := { s.plates with disengage := none },
                    pair := { s.pair with deltaC := (dc : Int) - 2 ^ 95, skew := (sk % 65 : Nat) - 32, lag := [], copies := [], lastAck := 0,
                                          tier := 0, tierDone := 0, sections := [], copied := [], quickDone := false, taken := false,
                                          cutAt := none, digestDue := none, partnerSails := true, renewAt := s.now, lostTold := false,
                                          detached := false, released := false } }
  sweepLeft { s with strokeNext := strokeAt s s.now }

/-- What the unit learns of its partner with contact reaches it in no stated field: sails, PREFER, whether it fenced under the higher epoch, epoch; free
values. -/
def partnerInfo (s : State) : (Bool × Bool × Bool × BitVec 32) × State :=
  let (v, s) := fresh s
  let (w, s) := fresh s
  ((decide (v % 2 = 1), decide (v / 2 % 2 = 1), decide (v / 4 % 2 = 1), BitVec.ofNat 32 w), s)

/-- The later of this unit's epoch and another. -/
def topEpoch (s : State) (e : BitVec 32) : BitVec 32 := if seqLt s.pair.epoch e then e else s.pair.epoch

/-- With contact this unit has the sails, or raises them, and its partner follows (Table 11.1, R340); a unit that FENCE, FENCE_IN_N or boundary scan
fences never raises. -/
def wouldSail (s : State) (x : Bool × Bool × Bool × BitVec 32) : Bool :=
  let (pSails, pPrefer, pFenced, theirs) := x
  let unit1 := regBit s aPAIR_CFG 29
  let iPrefer := regBit s aPAIR_CFG 28
  let iFenced := decide (s.pair.fenceEpoch = some (topEpoch s theirs))
  if s.pair.sails then !pSails || seqLt theirs s.pair.epoch || (theirs = s.pair.epoch && !unit1)
  else if pSails || s.pair.fencedCmd || s.pair.fencedPin || s.pair.fencedScan then false
  else if iFenced ≠ pFenced then !iFenced
  else if iPrefer ≠ pPrefer then iPrefer
  else !unit1

/-- Contact begins, and the local series starts again (R360); the roles it decides are taken at the next stroke boundary (R22). -/
def gainContact (x : Bool × Bool × Bool × BitVec 32) (s : State) : State :=
  if s.pair.contact ∨ pairMode s ≠ 2 ∨ declared s 5 0 PL_LOS then s
  else post (.contact x.1 x.2.1 x.2.2.1 x.2.2.2) { s with pair := { s.pair with contact := true, partnerPrefer := x.2.1 },
                                                                  cmd := { s.cmd with locLast := 0x80000000 } }

/-- A SAILS_ON unit with contact and a FEATHERED partner: from SOLO JOIN_AUTO starts the quick tier, from JOINING the pair resyncs; after RESYNC_LIMIT
only PAIR_JOIN does (Table 11.1, R351). -/
def startJoin (s : State) : State :=
  if s.pair.sails && s.pair.contact && !s.pair.partnerSails && !s.pair.resyncLimit
      && (s.pair.st ≠ .solo || regBit s aPAIR_CFG 26) then startQuick s
  else s

/-- Contact ends: the standby falls out of step (R350); a detached unit is detached no longer (Table 11.1), and, as it is neither detached nor a fenced
SOLO unit, waits JOINING without contact (R329, log 128). -/
def loseContact (s : State) : State :=
  if s.pair.contact then
    let s := outOfStep 7 { s with pair := { s.pair with contact := false },
                                  mill := { s.mill with landing := s.mill.landing.filter (fun x => match x.eff with | .contact .. => false | _ => true) } }
    { s with pair := { s.pair with detached := false, cutAt := if s.pair.detached then none else s.pair.cutAt,
                                   st := if s.pair.detached ∧ !isFenced s then .joining else s.pair.st } }
  else s

/-- PL_LOS (Table 6.2). -/
def plLos (s : State) : State := loseContact (defSet 5 0 PL_LOS s)
def execPlLos (s : State) := live s (plLos s)

/-- PL_LOS clears: contact returns where HELLO has been exchanged (R328). -/
def plLosClear (s : State) : State :=
  let s := defClear 5 0 PL_LOS 0 s
  if (s.cmd.pair.session).isSome then (let (x, s) := partnerInfo s; gainContact x s) else s
def execPlLosClear (s : State) := live s (plLosClear s)

/-! ### HELLO (R328, R377 to R379, R386) -/

/-- VERSION of the running slot: bytes 4 to 7 of its header; the open version of a slot no image was written to. -/
def fwVersion (s : State) (b : Bool) : BitVec 32 :=
  let x := if b then s.power.fwB else s.power.fwA
  if x.image = [] then Config.firmwareVersion b.toNat else BitVec.ofNat 32 (imgNat x.image 4 4)

/-- The PAIRINFO check that fails on the pair port (R328): its cause and offset; `leads`: this unit has the sails, or would raise them. -/
def pairCause (s : State) (leads : Bool) (unit flags rev : BitVec 8) (key : BitVec 24) : Option (Nat × Nat) :=
  let mine := regBit s aPAIR_CFG 29
  if (unit = 1) = mine then some (1, 28)
  else if rev ≠ 0xB0 then some (2, 30)
  else if !(s.power.kwk.any (fun k => kcv k = key)) then some (3, 32)
  else if !(if leads then flags.getLsbD 0 else regBit s aSEL_CFG 24) then some (4, 29)
  else none

/-- A session opens on a port: what an earlier one had loading ends, the set is D AND the offer, the ID is fresh and not 0. -/
def openSession (p : Port) (offer : BitVec 64) (s : State) : State :=
  let s := endSession p s
  let (v, s) := fresh s
  setPortSt p { portSt s p with session := some { id := BitVec.ofNat 32 (v % 0xFFFFFFFF + 1), agreed := s.cmd.featD &&& offer } } s

/-- Reply of HELLO. -/
def helloReply (p : Port) (s : State) : List Byte :=
  let x := (portSt s p).session
  beBytes 4 ((x.map Session.id).getD 0).toNat ++ beBytes 8 ((x.map Session.agreed).getD 0).toNat ++ beBytes 8 s.cmd.featD.toNat
    ++ beBytes 2 0x0301 ++ beBytes 2 (creditsOf p) ++ beBytes 4 (fwVersion s s.power.fwRun).toNat ++ rsv 4

/-- HELLO (R377, R378, R328); reserved bits of OFFER (Table 12.9) are refused (R13). -/
def opHello (h : Hdr) (offer : BitVec 64) (_build : BitVec 32) (unit flags rev : BitVec 8) (key : BitVec 24) : Op where
  bad _ := match h.port with
    | .pair => firstBad [(16, offer &&& ~~~Config.OFFER = 0), (28, unit.toNat ≤ 1), (29, flags.toNat ≤ 1)]
    | _ => firstBad [(16, offer &&& ~~~Config.OFFER = 0), (28, unit = 0), (29, flags = 0), (30, rev = 0), (32, key = 0)]
  run s :=
    match h.port with
    | .pair =>
      if !s.cmd.featFixed then resNotNeg 0xFF s
      else if !featOn s 5 then resNotNeg 5 s
      else
        let (x, s) := partnerInfo s
        match pairCause s (wouldSail s x) unit flags rev key with
        | some (c, o) => resBadCause o c (event 0x0801 5 0 (beBytes 1 c) s)
        | none => let s := gainContact x (openSession .pair offer s); resOk (helloReply .pair s) s
    | .inband =>
      if !s.cmd.featFixed then resNotNeg 0xFF s else let s := openSession .inband offer s; resOk (helloReply .inband s) s
    | p =>
      let s := if s.cmd.featFixed then s else { s with cmd := { s.cmd with featD := Config.OFFER &&& offer, featFixed := true } }
      let s := openSession p offer s
      resOk (helloReply p s) s

def execHello (h : Hdr) (o : BitVec 64) (b : BitVec 32) (u f r : BitVec 8) (k : BitVec 24) (s : State) :=
  command (.hello h o b u f r k) (opHello h o b u f r k) s

/-! ### PAIR_CFG (R327) -/

/-- MODE 1: SOLO and SAILS_ON, unless fenced (R327, R329). -/
def landSolo (s : State) : State :=
  let s := freeReplies { s with pair := { s.pair with st := .solo, tier := 0, detached := false } }
  if isFenced s then s else txFrom { s with pair := { s.pair with sails := true, granted := false, expiry := 0 } }

/-- A write of PAIR_CFG. -/
def pairCfgWrite (v : Word) (s : State) : State :=
  let old := regRaw s aPAIR_CFG
  let refused := fun (s : State) => event 0x0800 5 0 (beBytes 4 v.toNat) s
  let m := fld v.toNat 31 30
  if m = 3 then refused s
  else
    let was := pairMode s
    let modeOk := m = was || ((was = 0 || s.pair.st = .solo) && (m ≠ 2 || featOn s 5))
    let unitOk := (v &&& 0x30000000) = (old &&& 0x30000000) || !s.pair.contact
    let w := (if modeOk then v &&& 0xC0000000 else old &&& 0xC0000000) ||| (if unitOk then v &&& 0x30000000 else old &&& 0x30000000)
      ||| (v &&& 0x0C000000)
    let s := setRaw aPAIR_CFG w s
    let s := if !modeOk || !unitOk then refused s else s
    let s := if !old.getLsbD 26 && v.getLsbD 26 then startJoin s else s
    if !modeOk ∨ m = was then s
    else
    let s := if was = 2 then (let s := defLeave 5 0 s; { s with pair := { s.pair with contact := false } }) else s
    if m = 1 then landSolo s
    else if m = 2 then
      let s := { s with pair := { s.pair with renewAt := s.now, lostTold := false } }
      if (s.cmd.pair.session).isSome then (let (x, s) := partnerInfo s; gainContact x s) else s
    else s

/-! ### Effects at the next stroke boundary (R22, R327, R340, R342, R380) -/

/-- A fence lifted (R380): a unit that the fence took out of its pair joins as the standby once contact holds; a SOLO unit joins a SAILS_ON partner in
contact (R329, R339), else it raises. -/
def landLift (s : State) : State :=
  if !(s.pair.st = .solo && (!s.pair.detached || s.pair.released) && !isFenced s && !s.pair.sails) then s
  else if s.pair.released then
    let s := { s with pair := { s.pair with st := .joining, detached := false, released := false } }
    if s.pair.contact then adoptTime s else s
  else if s.pair.contact ∧ s.pair.partnerSails then adoptTime { s with pair := { s.pair with st := .joining } }
  else raiseSails s

/-- What the mill of a unit that has released holds is lost (R42). -/
def landFenced (s : State) : State := if s.pair.sails then s else loseFrames s

/-- SAIL verdict on a unit fenced by the lease (R342). -/
def landRaise (s : State) : State :=
  if s.pair.fencedLease ∧ !s.pair.sails ∧ !(s.pair.fencedCmd || s.pair.fencedPin || s.pair.fencedScan) then
    takeSails 3 0 0 { s with pair := { s.pair with fencedLease := false } }
  else s

/-- A later epoch e was received (R340): the unit feathers; with contact it joins as its partner's standby, without it waits JOINING (log 116). -/
def landFeather (e : BitVec 32) (s : State) : State :=
  if !s.pair.sails then s
  else
    let s := loseFrames (feather (dropHandover s))
    let s := { s with pair := { s.pair with st := .joining, epoch := topEpoch s e, granted := false, expiry := 0, tier := 0 } }
    if s.pair.contact then adoptTime s else s

/-- The unit fences by the lease: at its fence point (cause 0) or on a FEATHER verdict (cause 3) (R338, R339, R342). -/
def leaseFence (cause form : Nat) (s : State) : State :=
  if !s.pair.sails then s
  else
    let s := loseFrames (feather (dropHandover s))
    let s := leaseSend .fenced 0 0 s
    let s := { s with pair := { s.pair with fencedLease := true, fenceEpoch := some s.pair.epoch, granted := false, expiry := 0, st := .solo, tier := 0,
                                            partnerSails := s.pair.contact } }
    (switchEvent form 0 0 (fenceEvent cause s))

/-! ### Pair opcodes (R342, R343, R352, R353, Table 11.7) -/

def opPairJoin : Op where
  bad _ := 0
  run s :=
    let ok := s.pair.contact && ((s.pair.st = .solo && s.pair.sails && !s.pair.partnerSails) || s.pair.resyncLimit)
    if ok then resOk [] (startQuick { s with pair := { s.pair with resyncLimit := false, resyncs := [] } }) else resBusy s

def opPairLeave : Op where
  bad _ := 0
  run s := if isStandby s then resOk [] (leavePair s) else resBusy s

/-- PAIR_SWITCH replies at X (R343); while an earlier one awaits its X, it waits for the same X. -/
def opPairSwitch : Op where
  bad _ := 0
  run s :=
    if s.pair.sails ∧ s.pair.st = .inStep ∧ !s.pair.handover.any (fun y => y.2.1 = 6) then
      resWait (if s.pair.handover.isSome then s else releaseAt 5 0 0 s.now s)
    else resBusy s

/-- A switchover that processes the lag first: by release, PAIR_SWITCH or feeder handover (R344). -/
def byRelease (form : Nat) : Bool := form = 1 || form = 5 || form = 6

/-- A switchover awaits its X on the standby: of two the earlier stands, at one stroke the release (R343); a feeder handover's release governs over a
PAIR_SWITCH's (R355). -/
def awaitX (x form cause tr : Nat) (s : State) : State :=
  let take := match s.pair.handover with
    | some (y, f, _, _) => decide (x < y) || (decide (x = y) && byRelease form && !byRelease f) || (form = 6 && f = 5)
    | none => true
  if take then { s with pair := { s.pair with handover := some (x, form, cause, tr) } } else s

def opPairVerdict (v : BitVec 8) (epoch : Word) : Op where
  bad s := firstBad [(16, v = 1 || v = 2), (20, epoch = s.pair.epoch)]
  run s :=
    if s.pair.contact ∨ !regBit s aPAIR_CFG 27 then resBusy s
    else if v = 2 then resOk [] (if s.pair.sails then post .linkFence s else s)
    else if s.pair.sails then
      resOk [] (freeReplies { s with pair := { s.pair with st := .solo, renewing := false, granted := false, expiry := 0, tier := 0 } })
    else if s.pair.fencedLease then resOk [] (post .raise_ s)
    else if isStandby s then
      resOk [] (awaitX (strokeAt s (max (s.now + 1) (s.pair.expiry + 124400))) 3 0 0 { s with pair := { s.pair with sailVerdict := true } })
    else resOk [] s

/-- LAST_CAUSE (Table 11.13). -/
def lastCause (s : State) : List Byte := beBytes 1 s.pair.causeForm ++ beBytes 1 s.pair.causeCode ++ beBytes 2 s.pair.causeTree

def opPairInfo : Op where
  bad _ := 0
  run s :=
    let (i, m) := leaseExp s
    resOk (beBytes 4 (pairStatus s).toNat ++ beBytes 4 s.pair.epoch.toNat ++ beBytes 4 i.toNat ++ beBytes 4 m.toNat
      ++ beBytes 4 s.pair.tierDone ++ lastCause s) s

def execPairJoin (h : Hdr) (s : State) := command (.pairJoin h) opPairJoin s
def execPairLeave (h : Hdr) (s : State) := command (.pairLeave h) opPairLeave s
def execPairSwitch (h : Hdr) (s : State) := command (.pairSwitch h) opPairSwitch s
def execPairVerdict (h : Hdr) (v : BitVec 8) (e : Word) (s : State) := command (.pairVerdict h v e) (opPairVerdict v e) s
def execPairInfo (h : Hdr) (s : State) := command (.pairInfo h) opPairInfo s

/-! ### Protection configuration (R208, R215, Table 6.5) -/

def opProtCfg (a : ProtArg) : Op where
  bad s := match a with
    | .tree i m h l x k =>
      firstBad [(17, treeOk s i.toNat), (20, m.toNat ≤ 1), (21, h.toNat ≤ 1), (22, 2 ≤ l.toNat ∧ l.toNat ≤ 16), (23, x.toNat ≤ 15),
        (24, -248 ≤ k.toInt ∧ k.toInt ≤ 248)]
    | .port i sp u =>
      firstBad [(17, decide (i.toNat < 32) && firstLane s i.toNat),
        (20, sp = 0xFF || (decide (sp.toNat < 32) && firstLane s sp.toNat && decide (sp.toNat ≠ i.toNat)
          && quadMode s (sp.toNat / 4) = quadMode s (i.toNat / 4))), (21, u.toNat ≤ 1)]
  run s := match a with
    | .tree i m h l x k =>
      if s.pair.handover.any (fun y => y.2.1 = 6) then resBusy s
      else
        resOk [] (updTree i.toNat (fun t =>
          { t with protNext := some (decide (m = 1), h.toNat, k.toInt, l.toNat, BitVec.ofNat 4 x.toNat) }) s)
    | .port i sp u =>
      let b1 := decide (s.plates.bank1.st = .engaged)
      if sp ≠ 0xFF ∧ (engaged s).any (fun p => p.egress.any (fun e => e.first = sp.toNat)) then resConflict 3 b1.toNat s
      else
        resOk [] (updPort i.toNat (fun p => { p with protNext := some (if sp = 0xFF then none else some sp.toNat, decide (u = 1)) }) s)

/-- PROT_SWITCH (R215): the port reverts once its triggers have been clear for UL_CLR, with the timing of R214. -/
def opProtSwitch (p : BitVec 8) : Op where
  bad s := firstBad [(16, decide (p.toNat < 32) && firstLane s p.toNat)]
  run s :=
    let u := uport s p.toNat
    if !u.rehashed then resOk [] s
    else if portTrig s p.toNat ∨ s.now < u.clearAt + ulClr s p.toNat then resBusy s
    else resOk [] (updPort p.toNat (fun u => { u with revertAt := strokeAt s (s.now + 1244) }) s)

def execProtSwitch (h : Hdr) (p : BitVec 8) (s : State) := command (.protSwitch h p) (opProtSwitch p) s
def execProtCfg (h : Hdr) (a : ProtArg) (s : State) := command (.protCfg h a) (opProtCfg a) s

/-! ### The lease (R338 to R342) -/

/-- An epoch seen in a lease message (R340): a SAILS_ON unit that sees a later one feathers at the next stroke boundary. -/
def epochSeen (e : BitVec 32) (s : State) : State :=
  if s.pair.sails ∧ seqLt s.pair.epoch e ∧ !s.mill.landing.any (fun x => match x.eff with | .feather _ => true | _ => false) then
    event 0x0804 5 0 (beBytes 4 e.toNat) (post (.feather e) s)
  else s

/-- Lease paths silent: WITNESS_ASK where a witness is configured, and LEASE_PATHS_LOST, once per silence (R342). -/
def leaseSilent (s : State) : State :=
  if s.pair.lostTold then s
  else
    let s := { s with pair := { s.pair with lostTold := true } }
    let s := if regBit s aPAIR_CFG 27 then event 0x0803 5 0 (beBytes 4 s.pair.epoch.toNat) s else s
    event 0x0805 5 0 (beBytes 4 s.pair.epoch.toNat) s

/-- RENEWAL at a PON frame start (R338). The unit of a SOLO pair holds its sails without a lease (R330): it has no standby that could grant (log 138). -/
def renewal (s : State) : State :=
  if !(s.pair.sails && pairMode s = 2 && s.pair.st ≠ .solo && (s.pair.contact || s.pair.renewing)) then s
  else
    let last := s.pair.expiry - 1244160
    let t := frameStart s (if s.pair.renewing then max s.now (last + 1) else s.now)
    let s := advance t s
    if !s.pair.renewing || s.pair.grantBack then
      let n := (s.pair.num + 1) % 16
      let s := { s with pair := { s.pair with num := n, expiry := t + 1244160, renewing := true, grantBack := false } }
      leaseSend .renew n (t + 1244160) (bump (cPair 0x110) 1 s)
    else leaseSilent (bump (cPair 0x118) 1 s)
def execRenewal (s : State) := live s (renewal s)

/-- RENEW at the standby (R338); e is in this unit's counter. -/
def renewRx (num : Nat) (epoch : Word) (e : Nat) (s : State) : State :=
  let s := epochSeen epoch s
  if !isStandby s ∨ (s.pair.granted ∧ s.pair.num = num ∧ s.pair.epoch = epoch) then s
  else
    let s := { s with pair := { s.pair with num := num, epoch := epoch, expiry := e, granted := true, renewAt := s.now, lostTold := false,
                                            partnerSails := true } }
    leaseSend .grant num e s

/-- GRANT at the SAILS_ON unit (R338). -/
def grantRx (num : Nat) (epoch : Word) (s : State) : State :=
  let s := epochSeen epoch s
  if s.pair.sails ∧ num = s.pair.num ∧ epoch = s.pair.epoch then
    { s with pair := { s.pair with grantBack := true, granted := true, lostTold := false } }
  else s

/-- CAUSE of a feeder handover (Table 11.13): the trigger code of Table 6.1, or 0xFF. -/
def triggerCode (v : Nat) : Nat := ([TR_LOS, TR_LOF, TR_SF, TR_SD, 0xFF][v % 5]?).getD 0xFF

/-- RELEASE at the standby (R343, R349): a JOINING standby that has granted makes a cold takeover. Form, cause and tree of the sender do not
travel with it: free values within Table 11.13. -/
def releaseRx (epoch : Word) (x : Option Nat) (s : State) : State :=
  let s := epochSeen epoch s
  if !isStandby s ∨ seqLt epoch s.pair.epoch then s
  else
    let (v, s) := fresh s
    let s := { s with pair := { s.pair with epoch := epoch } }
    if s.pair.st = .joining then
      if s.pair.granted then awaitX (match x with | some x => x | none => strokeAt s s.now) 7 0 0 s else s
    else
      match x with
      | some x => if v % 2 = 0 then awaitX x 5 0 0 s else awaitX x 6 (triggerCode (v / 2)) (v / 16 % 64) s
      | none => awaitX (strokeAt s s.now) 1 (v % 9 + 1) 0 s

/-- FENCED at the standby (R339). -/
def fencedRx (epoch : Word) (s : State) : State :=
  let s := epochSeen epoch s
  if !isStandby s then s
  else if s.pair.st = .joining then awaitX (strokeAt s (s.now + 1)) 7 0 0 s
  else awaitX (strokeAt s (s.now + 1)) 4 0 0 s

/-- LEAVE at the SAILS_ON unit (R329, Table 11.1): the pair becomes SOLO, no lease is held; a feeder handover that waits for its X is cancelled with
HANDOVER_REFUSED (Table 6.7), and the mark of a copy is discarded (R349). -/
def leaveRx (epoch : Word) (s : State) : State :=
  let s := epochSeen epoch s
  if s.pair.sails then
    let s := match s.pair.handover with
      | some (_, 6, _, n) => event 0x0213 1 n [1] s
      | _ => s
    let s := dropHandover s
    freeReplies { s with pair := { s.pair with st := .solo, granted := false, renewing := false, tier := 0, expiry := 0, partnerSails := false,
                                               cutAt := none, sending := [], streamMark := s.pair.streamRel } }
  else s

/-- A valid frame on LEASE_RX: the sideband path is good (R341). -/
def sideband (s : State) : State := { s with pair := { s.pair with sbGood := true, sbAt := s.now } }

/-- EPOCH as a lease frame carries it, its low 8 bits, completed to the value nearest the unit's own (R337). -/
def nearEpoch (s : State) (e : Word) : Word := s.pair.epoch + ((e - s.pair.epoch).setWidth 8).signExtend 32

/-- A time as a lease frame carries it, the low 8 bits of its impression number, completed to the impression nearest the unit's own (R337). -/
def nearTime (s : State) (e : Nat) : Nat :=
  let d : Int := (e : Int) - s.imprAt
  ((s.imprAt : Int) + (BitVec.ofInt 8 (d / IMPRESSION)).toInt * IMPRESSION + d % IMPRESSION).toNat

def execRenew (num : Nat) (epoch : Word) (e : Nat) (s : State) := live s (renewRx (num % 16) (nearEpoch s epoch) (nearTime s e) (sideband s))
def execGrant (num : Nat) (epoch : Word) (s : State) := live s (grantRx (num % 16) (nearEpoch s epoch) (sideband s))
def execRelease (epoch : Word) (x : Option Nat) (s : State) := live s (releaseRx (nearEpoch s epoch) (x.map (nearTime s)) (sideband s))
def execFencedNotice (epoch : Word) (s : State) := live s (fencedRx (nearEpoch s epoch) (sideband s))
/-- LEAVE on LEASE_RX: the row does not name the frame's EPOCH, a free value. -/
def execLeave (s : State) := live s (let (v, s) := fresh (sideband s); leaveRx (nearEpoch s (BitVec.ofNat 32 v)) s)

/-- SB_LOST (R341). -/
def sbLost (s : State) : State :=
  if s.pair.sbGood then
    event 0x0802 5 0 [] { advance (s.pair.sbAt + 24576) s with pair := { s.pair with sbGood := false } }
  else s
def execSbLost (s : State) := live s (sbLost s)

/-- FENCE_POINT (R338): no renewal has extended e_a. A partner may have granted a renewal whose GRANT was lost (R330). -/
def fencePoint (s : State) : State :=
  if s.pair.sails ∧ s.pair.expiry ≠ 0 then leaseFence 0 2 (advance (s.pair.expiry - 124400) s) else s
def execFencePoint (s : State) := live s (fencePoint s)

/-- NO_RENEW (R342). -/
def noRenew (s : State) : State :=
  if isStandby s then leaseSilent (advance (s.pair.renewAt + 311040) s) else s
def execNoRenew (s : State) := live s (noRenew s)

/-! ### Trigger held, internal faults (R207, R216, R217) -/

/-- HANDOVER_HELD: the held triggers judged again when the 10 impressions end. -/
def handoverHeld (s : State) : State :=
  if handoverFree s then
    s.pair.heldTriggers.foldl (fun s x => if trigStands s x.1 x.2 then feederTrigger x.1 x.2 s.now s else s)
      { s with pair := { s.pair with heldTriggers := [] } }
  else s
def execHandoverHeld (s : State) := live s (handoverHeld s)

/-- A command that waits for its stroke or its reply when an uncorrectable internal error strikes it: it ends with INTERNAL and has no effect
(Table 12.4; log 134). -/
def commandFails (s : State) : State :=
  match s.mill.landing.find? (fun x => x.eff = .cmd false && x.pkt.isSome), s.cmd.waiting with
  | some x, _ =>
    let s := { s with mill := { s.mill with landing := s.mill.landing.erase x } }
    (x.pkt.map (fun k => finish k true 0x12 [] s)).getD s
  | none, w :: l => finish w.pkt true 0x12 [] { s with cmd := { s.cmd with waiting := l } }
  | none, [] => s

/-- INTERNAL_UNCORRECTABLE: 0 a mismatch in lockstep, of a control pair or of the lease logic (R217, R339; log 34), 1 queue table entry, 2 flow-table or
calendar entry (R217: causes 3 to 5); 3 a structure of tree n (R216). Which word failed is the unit's own: a free value. Of hopper n: 4 the entry at RD,
5 its positions, 6 a word corrected (R421). 7: a command's execution (Table 12.4). -/
def internalUncorr (k n : Nat) (s : State) : State :=
  match k with
  | 4 => hopEcc n s
  | 5 => hopReset n s
  | 6 => hopCorrected n s
  | 7 => commandFails s
  | _ =>
    let (v, s) := fresh s
    let s := if k = 0 then s else eccEvent (if k = 1 then 1 else if k = 2 then 2 else 7) v s
    if k = 3 then (if (tree s n).xtrig.getLsbD 3 then askTrigger n 0xFF s else s)
    else stopUnit (3 + k) s
def execInternalUncorrectable (k : Fin 8) (n : Fin 64) (s : State) := live s (internalUncorr k.val n.val s)

/-! ### The state copy (R347, R348, R386) -/

/-- Largest size of a section (Table 11.6, R348). -/
def copyLimit (tier sec : Nat) : Nat :=
  if tier = 2 then 16777216
  else match sec with
    | 1 => 4096 | 2 => 524288 | 3 => 524288 | 4 => 12582912 | 5 => 16777216 | _ => 12582912

/-- A SOLO pair's FEATHERED unit with contact, neither fenced nor joined yet, sees its SAILS_ON partner start a copy: JOINING (Table 11.1). -/
def copyJoins (s : State) : State :=
  if s.pair.st = .solo ∧ !s.pair.sails ∧ !isFenced s ∧ s.pair.contact then
    { s with pair := { s.pair with st := .joining, detached := false, partnerSails := true, renewAt := s.now } }
  else s

/-- A unit that joins and has not seen the cut C takes what comes first from its partner for it, a record of stroke c or a chunk: its counters count
from 0, and records from c on are its copy's (R347, R348; log 107). -/
def copyCut (c : Nat) (s : State) : State :=
  if s.pair.st = .joining ∧ s.pair.cutAt = none ∧ isStandby s ∧ !s.mill.landing.any (fun x => x.eff = .cut) then
    countFromZero { s with pair := { s.pair with cutAt := some ((s.pair.lag.map StreamRec.stroke).foldl min c), tierAt := s.now } }
  else s

/-- The standby holds all sections and has not taken them. -/
def sectionsHeld (s : State) : Bool := s.pair.st = .joining && decide (s.pair.sections = quickSecs) && !s.pair.taken

/-- Once the standby holds all sections it takes them at the next stroke boundary (R22); the records from C follow (R347). -/
def askSections (s : State) : State := if sectionsHeld s && !s.mill.landing.any (fun x => x.eff = .sections) then post .sections s else s

/-- The sections of a quick tier are taken. -/
def landSections (s : State) : State :=
  if sectionsHeld s then (let s := quickSecs.foldl takeSec s; { s with pair := { s.pair with taken := true } }) else s

/-- COPY: a chunk of a section, on the standby. -/
def copyRun (tier sec off : Nat) (data : List Byte) (s : State) : State :=
  let s := copyJoins s
  if !isStandby s then s
  else
    let k := 16 * tier + sec
    let s := if tier = 1 then copyCut 0 s else s
    let old := mget [] s.pair.copied k
    let new := bytesAt old 0 off ++ data ++ old.drop (off + data.length)
    let s := { s with pair := { s.pair with copied := mput [] s.pair.copied k new, tierDone := s.pair.tierDone + data.length,
                                            tier := if s.pair.st = PairSt.joining ∨ s.pair.st = PairSt.eligible then tier else s.pair.tier } }
    askSections { s with pair := { s.pair with
      sections := (List.range 7).filter (fun i => i ≠ 0 && sectionDone (mget [] s.pair.copied (16 + i))) } }

def opCopy (tier sec : BitVec 8) (off : Word) (data : List Byte) : Op where
  bad _ := firstBad [(16, tier = 1 || tier = 2), (17, 1 ≤ sec.toNat ∧ sec.toNat ≤ (if tier = 1 then 6 else 1)),
    (20, decide (off.toNat + data.length ≤ copyLimit tier.toNat sec.toNat))]
  run s := resOk [] (copyRun tier.toNat sec.toNat off.toNat data s)

def execCopy (h : Hdr) (t c : BitVec 8) (o : Word) (d : List Byte) (s : State) := command (.copy h t c o d) (opCopy t c o d) s

/-- QUICK_TIER: the copy is taken and the standby PAIR_LAG behind; the next digest decides (R347, Table 11.1). -/
def quickTier (s : State) : State :=
  if s.pair.st = .joining ∧ s.pair.tier = 1 ∧ s.pair.contact
      ∧ (s.pair.sails ∨ (s.pair.taken ∧ s.pair.lag.all (fun r => s.now ≤ r.stroke + PAIR_LAG))) then
    { s with pair := { s.pair with quickDone := true } }
  else s
def execQuickTier (s : State) := live s (quickTier s)

/-- SLOW_TIER: its section is complete; the standby adds the copied counters; IN_STEP, and PL_DIGEST clears (R348, Table 6.2). -/
def slowTier (s : State) : State :=
  if s.pair.st = .eligible ∧ s.pair.tier = 2 ∧ (s.pair.sails ∨ sectionDone (mget [] s.pair.copied 33)) then
    let s := if s.pair.sails then s else takeCounters s
    defClear 5 0 PL_DIGEST 0 { s with pair := { s.pair with st := .inStep, tier := 0, sending := [] } }
  else s
def execSlowTier (s : State) := live s (slowTier s)

end Sys2Proof.Machine
end

