-- ==== Sys2Proof/Machine/Terminals.lean ====
section
/-! DEFINITION. Terminal opcodes, windows, discovery, ranging, PLOAM and rogue terminals (R108, R126 to R130, R134, R137 to R163, R473, R474). -/

namespace Sys2Proof.Machine

open Config

/-! ### TERM_ADD (R138 to R140, R389, R473) -/

/-- RATE admitted on this part (R4, Table 2.5). -/
def rateOk (s : State) (r : Nat) : Bool := r ≤ 2 && !(r = 0 && !s.fuse.speed5)

/-- Allocation IDs in 1,024 to 16,383, none twice on the tree (R138); the index of the first bad one. -/
def allocBad (s : State) (g : Nat) (l : List Nat) : Option Nat :=
  let others := (s.terms.filter (fun e => e.1 / 128 = g / 128 && e.1 ≠ g && e.2.serial ≠ 0)).flatMap (fun e => e.2.allocs)
  (List.range 4).find? (fun i =>
    let a := (l[i]?).getD 0
    a < 1024 || 16383 < a || others.contains a || (l.take i).contains a)

/-- Table 4.8. -/
def termEntry (t : Term) : List Byte :=
  beBytes 8 t.serial.toNat
    ++ beBytes 1 (t.auto.toNat * 128 + t.pkey.isSome.toNat * 64 + t.rate % 4) ++ beBytes 1 (termCode t.st)
    ++ beBytes 1 (t.tries % 4 * 2 + t.wasActive.toNat) ++ rsv 1 ++ t.allocs.flatMap (fun a => beBytes 2 (a % 16384))
    ++ beBytes 4 (t.eqd % 2 ^ 24) ++ beBytes 4 (t.rtd % 2 ^ 25) ++ beBytes 4 (if t.pkey.isSome then t.pkeyImpr.toNat else 0) ++ rsv 32

/-- Offset of the first field of the slot layout that a command may not carry; with QUERY the flags AUTO and PKEY among them (log 80). -/
def slotBad (s : State) (g : Nat) (flags rate : BitVec 8) (serial : BitVec 64) (l : List Nat) (impr : BitVec 32) (wrap : BitVec 192) : Nat :=
  let query := flags.getLsbD 7
  let pkey := flags.getLsbD 5
  if flags &&& 0x1F ≠ 0 then 18
  else if query then
    firstBad [(18, flags = 0x80), (19, rate = 0), (20, serial = 0), (28, (l[0]?).getD 0 = 0), (30, (l[1]?).getD 0 = 0),
      (32, (l[2]?).getD 0 = 0), (34, (l[3]?).getD 0 = 0), (36, impr = 0), (40, wrap = 0)]
  else if serial = 0 then
    firstBad [(18, flags = 0), (19, rate = 0), (28, (l[0]?).getD 0 = 0), (30, (l[1]?).getD 0 = 0), (32, (l[2]?).getD 0 = 0),
      (34, (l[3]?).getD 0 = 0), (36, impr = 0), (40, wrap = 0)]
  else if !rateOk s rate.toNat then 19
  else
    match allocBad s g l with
    | some i => 28 + 2 * i
    | none =>
      if !pkey ∧ impr ≠ 0 then 36 else if !pkey ∧ wrap ≠ 0 then 40
      else if pkey ∧ s.power.kwk.any (fun k => !unwrapOk k wrap) then 40 else 0

def settingsBad (m : BitVec 32) (r d l g b x a : BitVec 8) (td tp : BitVec 16) : Nat :=
  firstBad [(20, m.toNat ≤ 524287), (24, 1 ≤ r.toNat ∧ r.toNat ≤ 200), (25, d.toNat ≤ 1), (26, 1 ≤ l.toNat ∧ l.toNat ≤ 16),
    (27, 1 ≤ g.toNat), (28, b.toNat ≤ 1), (29, 4 ≤ x.toNat ∧ x.toNat ≤ 160), (30, 1 ≤ a.toNat ∧ a.toNat ≤ 100),
    (32, 10 ≤ td.toNat ∧ td.toNat ≤ 6000), (34, 5 ≤ tp.toNat ∧ tp.toNat ≤ 1000)]

def slotIx (tr sl : BitVec 8) : Nat := 128 * tr.toNat + sl.toNat

/-- The boundary of impression b is no longer open at counter value t: not in the future, or its TURN_CUTOFF has passed (R127). -/
def boundaryLate (s : State) (t : Nat) (b : BitVec 32) : Bool :=
  let d := (b - s.imprNum).toNat
  d = 0 || decide (2 ^ 31 ≤ d) || decide (nextBoundary s + (d - 1) * IMPRESSION ≤ t + TURN_CUTOFF)

def slotRun (h : Hdr) (g : Nat) (flags rate : BitVec 8) (serial : BitVec 64) (l : List Nat) (impr : BitVec 32) (wrap : BitVec 192) (s : State) : Res :=
  let t := term s g
  let at_ := checkTime s h
  if flags.getLsbD 7 then resOk (termEntry t) s
  else if t.st ≠ .unseen then resBusy s
  else if serial = 0 then
    resOk [] (updTerm g (fun t => { t with serial := 0, rate := 0, allocs := [0, 0, 0, 0], auto := false, pkey := none, pkeyImpr := 0, pkeyOn := false }) s)
  else if flags.getLsbD 5 ∧ s.power.kwk.isNone then resBusy s
  else if flags.getLsbD 5 ∧ boundaryLate s at_ impr then
    resLate s.imprNum.toNat (boundaryNum s (boundaryAt s (at_ + TURN_CUTOFF + 1))).toNat s
  else
    match slotOf s serial with
    | some h => resConflict 8 h s
    | none =>
      resOk [] (updTerm g (fun t => { t with
        serial := serial, rate := rate.toNat, allocs := l, auto := flags.getLsbD 6,
        pkey := if flags.getLsbD 5 then some wrap else none, pkeyImpr := impr, pkeyOn := false }) s)

/-- Some terminal of tree n is in DISCOVERED, RANGED, ACTIVE or POPUP (R140). -/
def treeBusy (s : State) (n : Nat) : Bool :=
  s.terms.any (fun e => e.1 / 128 = n && (e.2.st = .discovered || e.2.st = .ranged || e.2.st = .active || e.2.st = .popup))

def settingsRun (n : Nat) (x : TreeSet) (s : State) : Res :=
  let c := (tree s n).set
  if treeBusy s n ∧ (x.rtdMin ≠ c.rtdMin ∨ x.reach ≠ c.reach) then resBusy s
  else resOk [] (updTree n (fun t => { t with set := { t.set with rtdMin := x.rtdMin, reach := x.reach }, setNext := some x }) s)

def opTermAdd (h : Hdr) (tr sl : BitVec 8) (a : TermArg) : Op where
  bad s :=
    if !treeOk s tr.toNat then 16
    else match a with
      | .slot f r n a0 a1 a2 a3 i w =>
        if 127 < sl.toNat then 17 else slotBad s (slotIx tr sl) f r n [a0.toNat, a1.toNat, a2.toNat, a3.toNat] i w
      | .settings m r d l g b x k td tp => if sl ≠ 0xFF then 17 else settingsBad m r d l g b x k td tp
  run s :=
    match a with
    | .slot f r n a0 a1 a2 a3 i w => slotRun h (slotIx tr sl) f r n [a0.toNat, a1.toNat, a2.toNat, a3.toNat] i w s
    | .settings m r d l g b x k td tp =>
      settingsRun tr.toNat { rtdMin := m.toNat, reach := r.toNat, discEn := d = 1, discLimit := l.toNat, rogueTrig := g.toNat,
                             rogueBisect := b = 1, driftStep := x.toNat, tAck := k.toNat, tDisc := td.toNat, tPopup := tp.toNat } s

/-! ### The other terminal opcodes (Table 4.3, R108, R127, R154) -/

/-- Checks common to commands naming a terminal slot. -/
def slotChecks (s : State) (tr sl : BitVec 8) : List (Nat × Bool) := [(16, treeOk s tr.toNat), (17, sl.toNat ≤ 127)]

/-- TERM_RANGE (Table 4.3, Table 4.7): a drift correction pending is abandoned. -/
def opTermRange (tr sl : BitVec 8) : Op where
  bad s := firstBad (slotChecks s tr sl)
  run s :=
    let g := slotIx tr sl
    match (term s g).st with
    | .discovered => resOk [] (queueBand g s)
    | .ranged | .active | .popup =>
      let s := if pendingKind s g (fun k => k = .rangingTime true) then driftTo g (term s g).eqdAck s else s
      let s := updTerm g (fun t => { t with rcHeld := false }) s
      resOk [] (queueBand g (moveTerm g .discovered 0 s))
    | _ => resBusy s

/-- The activation messages from the first unacknowledged one on, in their order (R474). -/
def actFrom (wasActive : Bool) (left : List PKind) : List PKind :=
  let all : List PKind := [.burstProfile 0 false, .burstProfile 1 false, .burstProfile 2 false, .burstProfile 3 false]
    ++ (if wasActive then [] else [.assignAlloc 0, .assignAlloc 1, .assignAlloc 2, .assignAlloc 3])
  all.dropWhile (fun k => !left.contains k)

def opTermActivate (tr sl : BitVec 8) : Op where
  bad s := firstBad (slotChecks s tr sl)
  run s :=
    let g := slotIx tr sl
    let t := term s g
    if t.st ≠ .ranged then resBusy s
    else
      let s := updTerm g (fun t => { t with actAsked := true }) s
      if !t.actFailed then resOk [] (actStep g s)
      else
        let l := actFrom t.wasActive t.actLeft
        let now := l.filter (fun k => t.allocsSent || (match k with | .assignAlloc _ => false | _ => true))
        let s := updTerm g (fun t => { t with actFailed := false, actLeft := l }) s
        resOk [] (actStep g (now.foldl (fun s k => sendAct g k s) s))

def opTermDisable (tr sl action : BitVec 8) : Op where
  bad s := firstBad (slotChecks s tr sl ++ [(18, decide (action.toNat ≤ 2))])
  run s :=
    let g := slotIx tr sl
    let t := term s g
    let up := t.st = .discovered ∨ t.st = .ranged ∨ t.st = .active ∨ t.st = .popup ∨ (t.st = .unseen ∧ t.serial ≠ 0)
    if action = 1 ∧ up then resOk [] (moveTerm g .disabled 0 s)
    else if action = 0 ∧ t.st = .disabled ∨ action = 2 ∧ t.st = .rogue then resOk [] (moveTerm g .unseen 0 s)
    else resBusy s

/-- The configured rate written; a change invalidates the tap entry (R115). -/
def newRate (g r : Nat) (s : State) : State :=
  updTerm g (fun t => { t with rate := r, rateNext := none }) (if (term s g).rate ≠ r then dropTaps g s else s)

/-- TERM_RATE (R108). A change whose acknowledgement an earlier one still awaits takes that one's place (log 81); while the engaged plate holds bursts of
the terminal, a rate named anew is answered as a change is (DESIGN CHOICE, log 139). -/
def opTermRate (tr sl rate : BitVec 8) : Op where
  bad s := firstBad (slotChecks s tr sl ++ [(18, rateOk s rate.toNat)])
  run s :=
    let g := slotIx tr sl
    let t := term s g
    if t.serial = 0 then resBusy s
    else if t.st = .ranged ∨ t.st = .active ∨ t.st = .popup then
      if plateBursts s g ≠ [] then resBusy s
      else
        let s := updTerm g (fun t => { t with rateNext := some rate.toNat }) (dropMsgs g isChange s)
        resOk [] (sendProfiles g [0, 1, 2] true rate.toNat s)
    else resOk [] (newRate g rate.toNat s)

def opPloamSend (tr sl type : BitVec 8) (content : List Byte) : Op where
  bad s := firstBad [(16, treeOk s tr.toNat), (17, sl.toNat ≤ 127 ∨ sl = 0xFF), (18, !deviceTypes.contains type.toNat)]
  run s :=
    let t := tree s tr.toNat
    if 64 ≤ t.hostMsgs.length then resBusy s
    else
      let m : PMsg := { slot := if sl = 0xFF then none else some sl.toNat, kind := .host type.toNat, seq := t.ploamSeq, value := 0,
                        content := content }
      resOk [] (setTree tr.toNat { t with hostMsgs := t.hostMsgs ++ [m], ploamSeq := t.ploamSeq + 1,
                                          hostSeqs := t.hostSeqs.filter (· ≠ t.ploamSeq) ++ [t.ploamSeq] } s)

/-! ### Keys (R126 to R130, R134) -/

/-- The slot a load writes: the slot not CURRENT; slot 0 when both are EMPTY; where neither is CURRENT and not both are EMPTY, the STAGED one, else
the one not DRAINING (log 82). -/
def loadSlot (k : KeySet) : Bool :=
  if k.st0 = .current then true
  else if k.st1 = .current then false
  else if k.st1 = .staged then true
  else k.st0 = .draining

def slotSt (k : KeySet) (b : Bool) : KeySt := if b then k.st1 else k.st0
def setSlot (k : KeySet) (b : Bool) (st : KeySt) (v : BitVec 192) : KeySet :=
  if b then { k with st1 := st, key1 := v } else { k with st0 := st, key0 := v }

/-- The boundary a switch or clear names: TARGET, or the earliest under ASAP when TARGET is 0 (R127, R389); none where it is late. -/
def keyBoundary (s : State) (h : Hdr) (target : Word) : Option (BitVec 32) :=
  let t := checkTime s h
  let early := boundaryNum s (boundaryAt s (t + TURN_CUTOFF + 1))
  if target = 0 ∧ asap h then some early
  else if boundaryLate s t target then none
  else some target

def opTermKey (h : Hdr) (tr dom dir action : BitVec 8) (target : Word) (wrapped : BitVec 192) : Op where
  bad s := firstBad [(16, treeOk s tr.toNat), (17, dom.toNat < (if featOn s 3 then 64 else 16)), (18, dir.toNat ≤ 1), (19, action.toNat ≤ 2),
    (24, action ≠ 0 ∨ s.power.kwk.all (fun k => unwrapOk k wrapped))]
  run s :=
    let i := keyIx tr.toNat dom.toNat (dir = 1)
    let k := keySet s i
    let early := boundaryNum s (boundaryAt s (checkTime s h + TURN_CUTOFF + 1))
    if action = 0 then
      let b := loadSlot k
      -- the key slots lie in the tree's domain (R19, Table 14.1); R19 answers BUSY at the board port, the model at every port (DESIGN CHOICE, log 140)
      if s.power.kwk.isNone ∨ !pwrOn s tr.toNat ∨ slotSt k b = .draining then resBusy s
      else resOk (beBytes 1 b.toNat ++ rsv 3) (post (.keyLoad i b wrapped) s)
    else if action = 1 ∧ k.st0 ≠ .staged ∧ k.st1 ≠ .staged then resBad 19 s
    else
      match keyBoundary s h target with
      | none => resLate s.imprNum.toNat early.toNat s
      | some b =>
        let s := setKey i { k with pends := k.pends ++ [(decide (action = 1), b, false)] } s
        if action = 1 then resOk (beBytes 1 (decide (k.st1 = .staged)).toNat ++ rsv 3) s
        else
          let (v, s) := fresh s
          resOk (beBytes 1 (v % 2) ++ rsv 3) s

/-- A load takes hold at its stroke boundary (R22, R133); a slot that has meanwhile become CURRENT or DRAINING keeps its key (log 83). -/
def keyLoadLand (i : Nat) (slot : Bool) (wrapped : BitVec 192) (s : State) : State :=
  let k := keySet s i
  if slotSt k slot = .current ∨ slotSt k slot = .draining then s else setKey i { setSlot k slot .staged wrapped with encrypt := true } s

/-- Requests still pending know that a clear or an error has emptied a STAGED slot (R128). -/
def stagedLost (k : KeySet) : KeySet := { k with pends := k.pends.map (fun x => (x.1, x.2.1, true)) }

/-- A switch or clear at its boundary (R127, R128); `lost`: a clear or an error has emptied a STAGED slot since its acceptance. A clear that finds both
slots EMPTY and ENCRYPT 0 without such an event has no effect and is reported too (DESIGN CHOICE, log 141). -/
def keyAct (i : Nat) (sw : Bool) (b : BitVec 32) (lost : Bool) (s : State) : State :=
  let k := keySet s i
  let fail := event 0x0211 1 (i / 128) (beBytes 1 (i % 128 / 2) ++ beBytes 1 (i % 2) ++ rsv 2 ++ beBytes 4 b.toNat) s
  if sw then
    if k.st0 = .staged ∨ k.st1 = .staged then
      let st := decide (k.st1 = .staged)
      let old := slotSt k !st
      let k := setSlot k st .current (if st then k.key1 else k.key0)
      let k := if old = .current then setSlot k (!st) .draining (if st then k.key0 else k.key1) else k
      setKey i { k with switchedAt := s.imprCount } s
    else fail
  else if (k.st0 ≠ .staged ∧ k.st1 ≠ .staged ∧ lost) ∨ (k.st0 = .empty ∧ k.st1 = .empty ∧ !k.encrypt) then fail
  else
    let k' := { k with encrypt := false, st0 := .empty, st1 := .empty, key0 := 0, key1 := 0 }
    setKey i (if k.st0 = .staged ∨ k.st1 = .staged then stagedLost k' else k') s

/-- Requests of every key set due at the boundary of impression b. -/
def keyBoundaryAll (b : BitVec 32) (s : State) : State :=
  s.keys.foldl (fun s e =>
    let due := e.2.pends.filter (fun x => seqLe x.2.1 b)
    let (s, _) := due.foldl (fun x r =>
      let was := keySet x.1 e.1
      let s := keyAct e.1 r.1 r.2.1 (r.2.2 || x.2) x.1
      (s, x.2 || (!r.1 && (was.st0 = .staged || was.st1 = .staged)))) (s, false)
    if due = [] then s
    else setKey e.1 { keySet s e.1 with pends := (keySet s e.1).pends.filter (fun x => !seqLe x.2.1 b) } s) s

/-- KEY_DRAIN: two impressions after the switch boundary a DRAINING slot empties (Table 3.6). -/
def keyDrain (i : Nat) (s : State) : State :=
  let k := keySet s i
  if s.imprCount < k.switchedAt + 2 then s
  else
    let k := if k.st0 = .draining then setSlot k false .empty 0 else k
    let k := if k.st1 = .draining then setSlot k true .empty 0 else k
    setKey i k s

/-- KEY_ECC (R134, R216): the slot empties; with XTRIG bit 3 it is an internal trigger of its tree. ECC_UNCORR names the word 2 i + slot (log 84). -/
def keyEcc (n d : Nat) (up slot : Bool) (s : State) : State :=
  let i := keyIx n d up
  let k := keySet s i
  let k' := setSlot k slot .empty 0
  let s := setKey i (if slotSt k slot = .staged then stagedLost k' else k') s
  let s := eccEvent 3 (2 * i + slot.toNat) s
  let s := event 0x0210 1 n (beBytes 1 d ++ beBytes 1 up.toNat ++ beBytes 1 slot.toNat) s
  if (tree s n).xtrig.getLsbD 3 then askTrigger n 0xFF s else s

def opKwkSet (key : BitVec 128) : Op where
  bad _ := 0
  run s :=
    if regBit s aLOCKS 7 then resLocked aLOCKS s
    else if s.keys.any (fun e => e.2.st0 ≠ .empty || e.2.st1 ≠ .empty) || s.terms.any (fun e => e.2.pkey.isSome) || s.pair.contact then resBusy s
    else resOk (beBytes 3 (kcv key).toNat ++ rsv 1) { s with power := { s.power with kwk := some key } }

def execTermAdd (h : Hdr) (t l : BitVec 8) (a : TermArg) (s : State) := command (.termAdd h t l a) (opTermAdd h t l a) s
def execTermRange (h : Hdr) (t l : BitVec 8) (s : State) := command (.termRange h t l) (opTermRange t l) s
def execTermActivate (h : Hdr) (t l : BitVec 8) (s : State) := command (.termActivate h t l) (opTermActivate t l) s
def execTermDisable (h : Hdr) (t l a : BitVec 8) (s : State) := command (.termDisable h t l a) (opTermDisable t l a) s
def execTermKey (h : Hdr) (t d r a : BitVec 8) (g : Word) (w : BitVec 192) (s : State) :=
  command (.termKey h t d r a g w) (opTermKey h t d r a g w) s
def execPloamSend (h : Hdr) (t l y : BitVec 8) (c : List Byte) (s : State) := command (.ploamSend h t l y c) (opPloamSend t l y c) s
def execTermRate (h : Hdr) (t l r : BitVec 8) (s : State) := command (.termRate h t l r) (opTermRate t l r) s
def execKwkSet (h : Hdr) (k : BitVec 128) (s : State) := command (.kwkSet h k) (opKwkSet k) s
def execKeyDrain (t d : Fin 64) (r : Bool) (s : State) := live s (keyDrain (keyIx t.val d.val r) s)
def execKeyEcc (t d : Fin 64) (r l : Bool) (s : State) := live s (keyEcc t.val d.val r l s)

/-! ### Windows (R65, R146, R147, R155, R159) -/

/-- The message owed a slot still awaits acknowledgement, and its terminal has no burst to answer in (R155). -/
def slotOwed (s : State) (n : Nat) (x : Nat × BitVec 8) : Bool :=
  (term s (128 * n + x.1)).awaits.any (fun a => a.msg.seq = x.2) && !ploamuOk s (128 * n + x.1)

/-- The windows of tree n planned or open now. -/
def openWindows (s : State) (n : Nat) : List Window :=
  (tree s n).plans ++ ((tree s n).window.filter (fun w => decide (s.now < w.start + w.len))).toList

/-- A window planned or open serves terminal k by a probe or a band ranging. -/
def served (s : State) (n k : Nat) : Bool :=
  (openWindows s n).any (fun w => w.packed.contains (k, true) || w.band.any (fun x => x.1 = k))

/-- The PLOAM-only slots to be granted in the frame composed next: for messages of frames before it (R155). -/
def ploamOnly (s : State) (n : Nat) : List (Nat × BitVec 8) := (tree s n).slotsDue.filter (slotOwed s n)

/-- POPUP terminals to be probed, oldest entry first: those not queued for band ranging (Table 4.3) and not served already. -/
def probeList (s : State) (n : Nat) : List Nat :=
  let t := tree s n
  t.popupQ.filter (fun k => !t.bandQ.contains k && (term s (128 * n + k)).activeDue.isNone && !served s n k)

/-- Terminals to be band ranged, in order of joining, that no window serves already (R147). -/
def bandList (s : State) (n : Nat) : List Nat := (tree s n).bandQ.filter (fun k => !served s n k)

/-- A ranging, probe or PLOAM response is pending (R146). -/
def rangingDue (s : State) (n : Nat) : Bool := bandList s n ≠ [] || probeList s n ≠ [] || ploamOnly s n ≠ []

/-- The prior band of a terminal, 1/40 mc, clipped to [RTD_MIN, T_EQ] (R147). -/
def priorBand (s : State) (g : Nat) : Nat × Nat :=
  let t := term s g
  let lo := if t.rcHeld then t.rtd - 40 * RAND_SPAN else t.rtd - 40 * 3110
  let hi := if t.rcHeld then t.rtd else t.rtd + 40 * 3110
  (max lo (rtdLo s (g / 128)), min hi (tEq s (g / 128)))

/-- S of a band ranging of terminal g in a window at w, 1/40 mc (R147). -/
def bandStart (s : State) (g w : Nat) : Nat := 40 * (w + 20) + tEq s (g / 128) - (term s g).eqd - (priorBand s g).1 / 40 * 40

/-- Slots that a ranging window of a length holds (R147). -/
def slotRoom (len : Nat) : Nat := (List.range 128).countP (fun k => 20 + k * 3787 + 3743 ≤ len)

/-- What a ranging window of tree n at [w, w + len) serves: packed slots if a probe or PLOAM response is pending, else one band ranging; grants to the
terminals of `held` are withheld (R147, R159). -/
def planRanging (s : State) (n w len : Nat) (held : List Nat) : Window :=
  let probes := ((probeList s n).filter (fun k => !held.contains k)).take (slotRoom len)
  let owed := ((ploamOnly s n).filter (fun x => !held.contains x.1)).take (slotRoom len - probes.length)
  let slots := probes.map (fun k => (k, true)) ++ owed.map (fun x => (x.1, false))
  { purpose := 1, start := w, len := len, packed := slots,
    band := if slots ≠ [] then none
      else ((bandList s n).find? (fun k => !held.contains k)).map (fun k =>
        (k, bandStart s (128 * n + k) w, (priorBand s (128 * n + k)).1, (priorBand s (128 * n + k)).2)) }

/-- Request_Registration goes to every terminal that a window probes or ranges, before it opens (Table 4.5, log 85). -/
def requestAll (n : Nat) (w : Window) (s : State) : State :=
  (((w.packed.filter (·.2)).map (·.1)) ++ (w.band.map (·.1)).toList).foldl (fun s k => queueMsg n (some k) .requestReg 0 s) s

/-- The messages that PLOAM-only slots of a window answer are owed no further slot. -/
def slotsGiven (n : Nat) (w : Window) (held : List Nat) (s : State) : State :=
  let owed := ((ploamOnly s n).filter (fun x => !held.contains x.1)).take (w.packed.countP (fun x => !x.2))
  updTree n (fun t => { t with slotsDue := t.slotsDue.filter (fun x => !owed.contains x && slotOwed s n x) }) s

/-- One window of a frame of tree n as its composition fixes it: a serial-number grant where DISC_EN is 1 and no rogue procedure runs (R150, R159), what
a ranging window serves. Purpose 3: a discovery window that serves nothing. -/
def planWindow (n : Nat) (held : List Nat) (x : List Window × State) (p : Nat × Nat × Nat) : List Window × State :=
  let (l, s) := x
  let t := tree s n
  if p.1 = 1 then
    let w := planRanging s n p.2.1 p.2.2 held
    (l ++ [w], updTree n (fun t => { t with plans := t.plans ++ [w] }) (requestAll n w (slotsGiven n w held s)))
  else
    let w : Window := { purpose := if p.1 = 2 then 2 else if t.set.discEn && !t.rogue.running then 0 else 3,
                        start := p.2.1, len := p.2.2, packed := [], band := none }
    (l ++ [w], if p.1 = 2 then s else updTree n (fun t => { t with plans := t.plans ++ [w] }) s)

/-- The first window planned on tree n that `f` picks opens: no response has come in it, and the receiver has the default taps (R148). -/
def openWindow (n : Nat) (f : Window → Bool) (s : State) : State :=
  match (tree s n).plans.find? f with
  | none => s
  | some w => updTree n (fun t => { t with window := some w, plans := t.plans.erase w, discSeen := if w.purpose = 1 then t.discSeen else [],
                                           respEnds := [], live := none }) (advance w.start s)

/-- DISCOVERY_WINDOW: an occurrence opens (R150). -/
def discoveryWindow (n : Nat) (s : State) : State := openWindow n (fun w => w.purpose ≠ 1) s

/-- RANGING_WINDOW: an occurrence opens (R147). -/
def rangingWindow (n : Nat) (s : State) : State := openWindow n (fun w => w.purpose = 1) s

def execDiscoveryWindow (n : Fin 64) (s : State) := live s (discoveryWindow n.val s)
def execRangingWindow (n : Fin 64) (s : State) := live s (rangingWindow n.val s)

/-! ### Discovery responses (R150, R151) -/

def muted (s : State) (serial : BitVec 64) : Bool := s.power.muted.any (fun e => e.1 = serial)

/-- An accepted discovery response handled by its serial number, with Rc in 1/40 mc (R150). -/
def handleSerial (n : Nat) (serial : BitVec 64) (rc : Nat) (s : State) : State :=
  match slotOf s serial with
  | none =>
    if muted s serial then s
    else
      event 0x0207 1 n (beBytes 8 serial.toNat ++ beBytes 4 (rc / 40))
        { s with power := { s.power with muted := s.power.muted ++ [(serial, s.imprCount)] } }
  | some g =>
    let clash := event 0x0206 1 n (beBytes 8 serial.toNat ++ beBytes 2 g) s
    if g / 128 ≠ n then clash
    else match (term s g).st with
      | .unseen | .popup => discover g rc s
      | .disabled | .rogue => queueMsg n (some (g % 128)) (.disableSn false) 0 (bump (cbTree n 10) 1 s)
      | _ => clash

/-- SERIAL_NUMBER_ONU: one response in the open discovery window; delim is A_d in 1/40 mc. -/
def serialNumberOnu (n : Nat) (serial : BitVec 64) (delim : Nat) (seen : BitVec 160) (cwOk : Bool) (mic : MicKey) (s : State) : State :=
  let t := tree s n
  match t.window with
  | none => s
  | some w =>
    if w.purpose ≠ 0 ∨ !respSeen s n seen then s
    else if !decides s then respFound n delim s
    else
      let a := (delim : Int) - 40 * skewOf s n
      let lo : Int := 40 * (w.start + PRE_X - 20 : Nat)
      let hi : Int := 40 * (w.start + t.set.reach * RTT_PER_100M + RAND_SPAN + PRE_X + 20 : Nat)
      let s := respFound n delim s
      if a < lo ∨ hi ≤ a then bump (cbTree n 7) 1 s
      else if !cwOk then bump (cbTree n 8) 1 s
      else if mic ≠ .dflt then bump (cbTree n 13) 1 s
      else if t.set.discLimit ≤ t.discCount then bump (cbTree n 11) 1 s
      else if t.discSeen.contains serial then bump (cbTree n 9) 1 (updTree n (fun t => { t with discCount := t.discCount + 1 }) s)
      else
        let s := updTree n (fun t => { t with discCount := t.discCount + 1, discSeen := serial :: t.discSeen }) s
        let sg : Int := 40 * (w.start + t.set.reach * RTT_PER_100M + PRE_X : Nat)
        handleSerial n serial (a - sg + tEq s n).toNat s

def execSerialNumberOnu (n : Fin 64) (serial : BitVec 64) (d : Delim) (c : Bool) (m : MicKey) (s : State) :=
  live s (serialNumberOnu n.val serial d.at_ d.seen c m s)

/-! ### Ranging responses (R145, R148) -/

/-- FEEDER_SKEW locked at the first measurement: this unit's delimiter time minus the HOME unit's (R206). -/
def setSkew (n : Nat) (v : Int) (s : State) : State :=
  if -248 ≤ v ∧ v ≤ 248 then updTree n (fun t => { t with skew := v, skewLocked := true }) s
  else event 0x0212 1 n (beBytes 2 (twos 16 v)) s

/-- This unit measures FEEDER_SKEW on tree n: paired, not HOME, no value locked (R206). -/
def measures (s : State) (n : Nat) : Bool :=
  s.pair.contact && pairMode s = 2 && s.pair.st ≠ .solo && !(tree s n).skewLocked && decide ((regBit s aPAIR_CFG 29).toNat ≠ (tree s n).home)

/-- R206, measurement: at a response that both units receive, the non-HOME unit takes the difference of the delimiter times where no value is
locked. Whether the partner received it, and when, reaches the unit in no stated field: free values. -/
def measureSkew (n : Nat) (s : State) : State :=
  if measures s n then
    let (v, s) := fresh s
    if v % 2 = 0 then s else setSkew n ((v / 2 % 1001 : Nat) - 500) s
  else s

/-- A response as found in a search of [lo, hi], 1/40 mc, widened by 248 mc while FEEDER_SKEW is measured: the response and its delimiter time without
FEEDER_SKEW (R148, R205, R206). -/
def respHit (s : State) (n : Nat) (lo hi : Int) (r : Option RegResp) : Option (RegResp × Int) :=
  match r with
  | some x =>
    let a := (x.delim : Int) - 40 * skewOf s n
    let w : Int := if measures s n then 40 * 248 else 0
    if lo - w ≤ a ∧ a ≤ hi + w ∧ respSeen s n x.seen then some (x, a) else none
  | none => none

/-- A response found: a BRST pulse follows it, and FEEDER_SKEW may be measured at it. -/
def respTaken (n : Nat) (hit : Option (RegResp × Int)) (s : State) : State :=
  match hit with
  | some (x, _) => measureSkew n (respFound n x.delim s)
  | none => s

/-- The response of terminal g decodes, names it and passes its MIC (R148, R139). -/
def respOk (s : State) (g : Nat) (x : RegResp) : Bool := x.cwOk && x.onu = g % 128 && x.mic = integrity s g s.now

/-- A found response that is not valid: RANGE_REJECT, and PLOAM_MIC_ERR where its MIC fails (R148, R157). -/
def respReject (g : Nat) (x : RegResp) (s : State) : State :=
  let s := if x.cwOk ∧ x.mic ≠ integrity s g s.now then bump (cbTree (g / 128) 13) 1 s else s
  bump (cbTree (g / 128) 6) 1 s

/-- The delimiter time expected of packed slot k, 1/40 mc. -/
def slotExpect (w : Window) (k : Nat) : Int := 40 * (w.start + 20 + k * 3787 + PRE_X : Nat)

/-- A probe in packed slot k (R148): absent, invalid or valid; RTD by R145, with S the slot's expected first preamble bit and EqD_cur the EQD
(log 86). -/
def probeResp (g k : Nat) (w : Window) (hit : Option (RegResp × Int)) (s : State) : State :=
  let n := g / 128
  if (term s g).st ≠ .popup then (if hit.isSome then bump (cbTree n 6) 1 s else s)
  else match hit with
    | none => queueBand g s
    | some (x, a) =>
      let rtd : Int := a - slotExpect w k + tEq s n - (term s g).eqd
      let (lo, hi) := priorBand s g
      if respOk s g x ∧ (lo : Int) ≤ rtd ∧ rtd ≤ hi then updTerm g (fun t => { t with activeDue := some 2 }) s
      else respReject g x s

/-- The delimiter time of a band ranging of S sg whose round trip is 0, 1/40 mc (R145). -/
def bandBase (s : State) (g sg : Nat) : Int := (sg : Int) + (term s g).eqd - tEq s (g / 128) + 40 * PRE_X

/-- A band ranging of S sg and prior band [lo, hi], 1/40 mc (R145, R148). -/
def bandResp (g sg lo hi : Nat) (hit : Option (RegResp × Int)) (s : State) : State :=
  let n := g / 128
  let t := term s g
  if t.st ≠ .discovered ∧ t.st ≠ .popup then (if hit.isSome then bump (cbTree n 6) 1 s else s)
  else match hit with
    | none => rangeMiss g true s
    | some (x, a) =>
      let base := bandBase s g sg
      let rtd := (a - base).toNat
      if respOk s g x ∧ base ≤ a ∧ lo ≤ rtd ∧ rtd ≤ hi then ranged g rtd s
      else rangeMiss g true (respReject g x s)

/-- REGISTRATION of terminal g in the window in progress; a slot served is marked (128, false). -/
def registration (g : Nat) (r : Option RegResp) (s : State) : State :=
  let n := g / 128
  match (tree s n).window with
  | none => s
  | some w =>
    match w.band, w.packed.findIdx? (fun x => x.1 = g % 128 && x.2) with
    | some (k, sg, lo, hi), _ =>
      if k = g % 128 then
        let base := bandBase s g sg
        let hit := respHit s n (base + lo - 800) (base + hi + 800) r
        let s := respTaken n hit s
        if decides s then bandResp g sg lo hi hit (updTree n (fun t => { t with window := some { w with band := none } }) s) else s
      else s
    | none, some i =>
      let e := slotExpect w i
      let hit := respHit s n (e - 800) (e + 800) r
      let s := respTaken n hit s
      if decides s then
        probeResp g i w hit (updTree n (fun t => { t with window := some { w with packed := w.packed.map (fun x =>
          if x = (g % 128, true) then (128, false) else x) } }) s)
      else s
    | none, none => s

def execRegistration (n : Fin 64) (k : Fin 128) (r : Option RegResp) (s : State) := live s (registration (128 * n.val + k.val) r s)

/-! ### Acknowledgements and timers (R143, R157, Tables 4.4, 4.6) -/

/-- An acknowledged message's effect (Table 4.3, R108). -/
def acked (g : Nat) (m : PMsg) (s : State) : State :=
  match m.kind with
  | .rangingTime drift =>
    tellTerm g (actStep g (updTerm g (fun t => { t with eqdAck := m.value, rangeAcked := t.rangeAcked || !drift }) s))
  | .burstProfile _ true =>
    match (term s g).rateNext with
    | some r =>
      if pendingKind s g isChange then s else newRate g r s
    | none => s
  | k => actStep g (updTerm g (fun t => { t with actLeft := t.actLeft.filter (· ≠ k) }) s)

/-- The PLOAM-only slot of terminal g in the window in progress about which a delimiter stands (R117, R148, R205), and the window without it. -/
def ploamSlot (s : State) (g : Nat) (d : Delim) : Option Window :=
  match (tree s (g / 128)).window with
  | none => none
  | some w =>
    let a := (d.at_ : Int) - 40 * skewOf s (g / 128)
    ((List.range w.packed.length).find? (fun i => w.packed[i]? = some (g % 128, false)
      && decide ((a - slotExpect w i).natAbs ≤ 800) && respSeen s (g / 128) d.seen)).map (fun i => { w with packed := w.packed.set i (128, false) })

/-- The last granted burst of terminal g with PLOAMU = 1, found, whose first codeword decoded and whose one PLOAMu has not been taken (R102). -/
def ploamBurst (s : State) (g : Nat) : Option Grant :=
  (tree s (g / 128)).grants.reverse.find? (fun x => x.term = g % 128 && x.ploamu && !x.ploamTaken && x.found.isSome && x.decoded ≠ 0 && !x.erased.contains 0)

/-- The burst that carried a PLOAM message of terminal g: its end, none where there is no such burst; and the state in which its PLOAMu has been taken,
or a PLOAM-only slot answered, a response found (R102, R124, R147, R155, R158). -/
def ploamCarrier (g : Nat) (d : Option Delim) (s : State) : Option Nat × State :=
  match d with
  | none =>
    match ploamBurst s g with
    | none => (none, s)
    | some x => (some (grantEnd x), updTree (g / 128) (fun t =>
        { t with grants := t.grants.map (fun y => if y.term = x.term && y.start = x.start then { y with ploamTaken := true } else y) }) s)
  | some d =>
    match ploamSlot s g d with
    | none => (none, s)
    | some w => (some (respEnd d.at_), respFound (g / 128) d.at_ (updTree (g / 128) (fun t => { t with window := some w }) s))

/-- A message for the host, whose burst ended at counter value e (R158). -/
def ploamPush (g e : Nat) (msg : List Byte) (s : State) : State :=
  hopPushN 1 (fun q => beBytes 4 q.toNat ++ beBytes 8 (e % 2 ^ 64) ++ beBytes 1 (g / 128) ++ beBytes 1 (g % 128) ++ rsv 2 ++ bytesAt msg 0 48) s

/-- A message that came in a burst and passes its MIC is handled by `f`, given the burst's end; one that fails it is discarded and counted (R157).
What no burst carried is no message. -/
def ploamTake (g : Nat) (v : PloamVia) (f : Nat → State → State) (s : State) : State :=
  match ploamCarrier g v.delim s with
  | (none, s) => s
  | (some e, s) =>
    if v.mic ≠ integrity s g s.now then (if decides s then bump (cbTree (g / 128) 13) 1 s else s) else f e s

/-- An acknowledgement: of the device's own message by its sequence number, else for the host where the number was given to a host message (Table
4.5, R157). -/
def acknowledgement (g : Nat) (seq : BitVec 8) (msg : List Byte) (e : Nat) (s : State) : State :=
  if !decides s then s
  else
    match (term s g).awaits.find? (fun a => a.msg.seq = seq) with
    | none => if (tree s (g / 128)).hostSeqs.contains seq then ploamPush g e msg s else s
    | some a =>
      let s := updTerm g (fun t => { t with awaits := t.awaits.filter (fun x => x.msg.seq ≠ seq) }) s
      let s := updTree (g / 128) (fun t => { t with msgs := t.msgs.filter (fun m => !(m.seq = seq && m.slot = some (g % 128))) }) s
      acked g a.msg s

def execAcknowledgement (n : Fin 64) (k : Fin 128) (q : BitVec 8) (b : PloamBody) (s : State) :=
  live s (ploamTake (128 * n.val + k.val) b.via (acknowledgement (128 * n.val + k.val) q b.msg) s)

/-- ACT_FAIL with a message type. -/
def actFailEvent (g : Nat) (k : PKind) (s : State) : State := event 0x0202 2 g (beBytes 1 (ploamType k)) s

/-- The failure action after three resends (Table 4.6). EqD_cur of a ranging that follows is EQD, as after TERM_RANGE (log 86). -/
def ackFailed (g : Nat) (m : PMsg) (s : State) : State :=
  match m.kind with
  | .rangingTime false =>
    if (term s g).st = .ranged then
      let s := moveTerm g .discovered 7 s
      let s := rangeMiss g (term s g).auto s
      s
    else s
  | .rangingTime true =>
    let s := updTerm g (fun t => { t with driftOk := 0 }) (driftTo g (term s g).eqdAck s)
    let s := event 0x020C 2 g (beBytes 4 (term s g).eqdAck) s
    tellTerm g (if (term s g).st = .active ∨ (term s g).st = .popup then defSet 2 g TM_DRIFT s else s)
  | .burstProfile _ true =>
    let t := term s g
    let s := dropMsgs g isChange (actFailEvent g m.kind s)
    if t.rateNext.isSome then sendProfiles g [0, 1, 2] true t.rate (updTerm g (fun t => { t with rateNext := none }) s) else s
  | k =>
    if isActKind k ∧ !(term s g).actFailed then
      dropMsgs g isActKind (updTerm g (fun t => { t with actFailed := true }) (actFailEvent g k s))
    else s

/-- T_ACK of the message with sequence number seq: resent, or failed after three resends (Table 4.4). -/
def tAck (g : Nat) (seq : BitVec 8) (s : State) : State :=
  let n := g / 128
  match (term s g).awaits.find? (fun a => a.msg.seq = seq) with
  | none => s
  | some a =>
    if !decides s ∨ s.imprCount < a.since + (tree s n).set.tAck ∨ (tree s n).msgs.any (fun m => m.seq = seq && m.slot = a.msg.slot) then s
    else if a.resends < 3 then
      let s := updTerm g (fun t => { t with awaits := t.awaits.map (fun x => if x.msg.seq = seq then { x with resends := x.resends + 1 } else x) }) s
      updTree n (fun t => { t with msgs := t.msgs ++ [a.msg] }) s
    else
      let s := updTerm g (fun t => { t with awaits := t.awaits.filter (fun x => x.msg.seq ≠ seq) }) s
      ackFailed g a.msg s

def tDisc (g : Nat) (s : State) : State :=
  if decides s ∧ (term s g).st = .discovered ∧ (tree s (g / 128)).set.tDisc ≤ (term s g).timer then rangeFail g 3 s else s

def tPopup (g : Nat) (s : State) : State :=
  if decides s ∧ (term s g).st = .popup ∧ (tree s (g / 128)).set.tPopup ≤ (term s g).timer then
    event 0x0203 2 g [] (moveTerm g .unseen 3 s)
  else s

def tRedisable (g : Nat) (s : State) : State :=
  if decides s ∧ (term s g).st = .rogue ∧ 100 ≤ (term s g).timer then
    queueMsg (g / 128) (some (g % 128)) (.disableSn false) 0 (updTerm g (fun t => { t with timer := 0 }) s)
  else s

def tSnMute (serial : BitVec 64) (s : State) : State :=
  { s with power := { s.power with muted := s.power.muted.filter (fun e => !(e.1 = serial && e.2 + 100 ≤ s.imprCount)) } }

def execTDisc (n : Fin 64) (k : Fin 128) (s : State) := live s (tDisc (128 * n.val + k.val) s)
def execTAck (n : Fin 64) (k : Fin 128) (q : BitVec 8) (s : State) := live s (tAck (128 * n.val + k.val) q s)
def execTPopup (n : Fin 64) (k : Fin 128) (s : State) := live s (tPopup (128 * n.val + k.val) s)
def execTRedisable (n : Fin 64) (k : Fin 128) (s : State) := live s (tRedisable (128 * n.val + k.val) s)
def execTSnMute (serial : BitVec 64) (s : State) := live s (tSnMute serial s)

/-- Upstream types the device owns: Serial_Number_ONU, Registration, Acknowledgement (Table 4.5; codes of log 31). -/
def upTypes : List (BitVec 8) := [0x01, 0x02, 0x09]

/-- PLOAM_IN (R154, R157, R158): an upstream message that the device does not own; Sleep_Request (0x10) and Tuning_Response (0x1A) are
discarded. -/
def ploamIn (g : Nat) (type : BitVec 8) (msg : List Byte) (e : Nat) (s : State) : State :=
  if type = 0x10 ∨ type = 0x1A then bump (cbTree (g / 128) 12) 1 s
  else if upTypes.contains type then s
  else ploamPush g e msg s

def execPloamIn (n : Fin 64) (k : Fin 128) (y : BitVec 8) (m : List Byte) (v : PloamVia) (s : State) :=
  live s (ploamTake (128 * n.val + k.val) v (ploamIn (128 * n.val + k.val) y m) s)

/-! ### Rogue terminals (R159 to R161) -/

/-- Tree n has rogue probe windows: ranging windows of its own while LIT (R146), the plate's while SERVING. -/
def hasProbes (s : State) (n : Nat) : Bool :=
  (tree s n).st = .lit || (((engaged s).map Plate.quiets).getD []).any (fun q => q.tree = n && q.purpose = 2)

/-- A step of the rogue procedure decided here; the partner is told (R159, R333). -/
def rogueStep (n : Nat) (f : Rogue → Rogue) (s : State) : State :=
  let r := f (tree s n).rogue
  streamPush (.rogue n r.running r.quiet r.named r.cands r.withheld r.suspect) (updTree n (fun t => { t with rogue := r }) s)

def unlocated (n : Nat) (s : State) : State := event 0x020A 1 n [] s

/-- The number of events that starts the procedure has been reached in this impression. -/
def rogueDue (s : State) (n : Nat) : Bool :=
  let t := tree s n
  t.set.rogueTrig ≤ t.oogImpr || t.set.rogueTrig ≤ t.idMisImpr

/-- A trigger in one of the two impressions after a disable: the device identifies again (R160). -/
def rogueAgain (n : Nat) (s : State) : State :=
  updTree n (fun t =>
    let r := t.rogue
    { t with rogue := { r with again := r.again || (r.suspect.isSome && decide (r.disabledAt < s.imprCount) && decide (s.imprCount ≤ r.disabledAt + 2)) } }) s

/-- ROGUE_TRIGGER. -/
def rogueTrigger (n : Nat) (s : State) : State :=
  let t := tree s n
  if !rogueDue s n ∨ !decides s ∨ t.st = .off ∨ t.st = .dark then s
  else if t.rogue.running then rogueAgain n s
  else
    let s := rogueStep n (fun _ => { running := true }) s
    let s := defSet 1 n TR_ROGUE (event 0x0208 1 n [] s)
    if hasProbes s n then s else unlocated n s

/-- ROGUE_CLEAR after two consecutive impressions without a trigger. -/
def rogueClear (n : Nat) (s : State) : State :=
  let t := tree s n
  if t.rogue.running ∧ 2 ≤ t.rogue.quiet ∧ decides s then
    defClear 1 n TR_ROGUE 0 (event 0x0209 1 n [] (rogueStep n (fun _ => {}) s))
  else s

/-- No identification goes on: none has begun, or a suspect is disabled and no trigger has come since, in the two impressions R160 gives it. -/
def rogueIdle (r : Rogue) : Bool := r.suspect.isSome && !r.again

/-- A stage names a terminal (R159 stage 3, R160). -/
def rogueNamed (n k stage : Nat) (s : State) : State :=
  let g := 128 * n + k
  let t := term s g
  let first := (tree s n).rogue.suspect
  let s := rogueStep n (fun r => { r with named := none, cands := [], withheld := [], heldAt := none }) s
  if first = some k then
    (if t.st = .disabled then event 0x0204 2 g [] (moveTerm g .rogue 6 s) else s)
  else if t.serial = 0 ∨ t.st = .disabled ∨ t.st = .rogue then s
  else
    let s := moveTerm g .disabled 6 s
    let s := rogueStep n (fun r => { r with suspect := some k, disabledAt := s.imprCount, again := false }) s
    event 0x0205 2 g (beBytes 1 stage) s

/-- Bisection fails: ROGUE_UNLOCATED; a suspect disabled before is then confirmed (R160). -/
def rogueLost (n : Nat) (s : State) : State :=
  let s := unlocated n (rogueStep n (fun r => { r with named := none, cands := [], withheld := [], heldAt := none }) s)
  match (tree s n).rogue.suspect with
  | some k =>
    let g := 128 * n + k
    if (term s g).st = .disabled then event 0x0204 2 g [] (moveTerm g .rogue 6 s) else s
  | none => s

/-- The next step over candidates l: nothing left, one to be withheld alone, or the lower half withheld, in the frame of the next occurrence. -/
def bisectNext (n : Nat) (l : List Nat) (s : State) : State :=
  if l = [] then rogueLost n s
  else rogueStep n (fun r => { r with
    cands := l, withheld := if l.length = 1 then l else l.take (ceilDiv l.length 2), heldAt := none, heard := false }) s

/-- Candidates of R159 stage 2, in slot order. -/
def rogueCands (s : State) (n : Nat) : List Nat :=
  (s.terms.filter (fun e => e.1 / 128 = n && (e.2.st = .discovered || e.2.st = .ranged || e.2.st = .active || e.2.st = .popup))).map
    (fun e => e.1 % 128)

/-- ROGUE_PROBE: one occurrence of a rogue probe window; onu is the ONU-ID of a burst that decoded. -/
def rogueProbe (n : Nat) (onu : Option Nat) (energy sd : Bool) (s : State) : State :=
  let t := tree s n
  let r := t.rogue
  if t.st = .off ∨ t.st = .dark then s
  else if !r.running then (if energy ∧ decides s then oogEvent n s else s)
  else if !decides s then s
  else
    let s := if r.heldAt.isSome ∧ r.heldSpan.1 ≤ s.now then updTree n (fun x => { x with rogue := { x.rogue with heard := x.rogue.heard || sd } }) s else s
    if rogueIdle r then s
    else match onu with
    | some k =>
      if (term s (128 * n + k)).serial ≠ 0 ∧ k < 128 ∧ r.named = some k then rogueNamed n k 1 s
      else rogueStep n (fun r => { r with named := some k }) s
    | none =>
      let s := rogueStep n (fun r => { r with named := none }) s
      if r.cands = [] ∧ energy ∧ t.set.rogueBisect then bisectNext n (rogueCands s n) s else s

/-- The end, by counter value e, of a frame from which grants were withheld and of its probe windows (R159): silent where the frame shows no OOG event and
the windows no SD. -/
def rogueVerdict (n e : Nat) (s : State) : State :=
  let t := tree s n
  let r := t.rogue
  match r.heldAt with
  | none => s
  | some b =>
    if e < max (b + FRAME) r.heldSpan.2 ∨ !decides s then s
    else
      let silent := !r.heard
      let s := updTree n (fun x => { x with rogue := { x.rogue with heldAt := none, heard := false } }) s
      match r.cands with
      | [] => s
      | [k] => if silent then rogueNamed n k 2 s else rogueLost n s
      | l => bisectNext n (if silent then r.withheld else l.filter (fun k => !r.withheld.contains k)) s

def execRogueTrigger (n : Fin 64) (s : State) := live s (rogueTrigger n.val s)
def execRogueProbe (n : Fin 64) (o : Option Nat) (d : SdSeen) (s : State) := live s (rogueProbe n.val o d.energy d.any s)
def execRogueClear (n : Fin 64) (s : State) := live s (rogueClear n.val s)

/-! ### Energy outside the grant mask (R125) -/

/-- One sample of the SD ball at counter value t: eight in a row asserted outside the mask count one event, then none until eight deasserted. -/
def sdSample (n t : Nat) (level : Bool) (s : State) : State :=
  let s := advance t s
  let up := level != regBit s (aTREE n + 0x0C) 24
  let x := tree s n
  let run := if up && !inMask s n t then x.sdRun + 1 else 0
  let low := if up then 0 else x.sdLow + 1
  let held := x.sdHeld && decide (low < 8)
  let event := decide (8 ≤ run) && !held
  let s := updTree n (fun x => { x with sdNow := up, sdRun := run, sdLow := low, sdHeld := held || event }) s
  if event then oogEvent n s else s

/-- Samples from counter value t on, one every CK_SLOW cycle. -/
def sdSamples (n t : Nat) : List Bool → State → State
  | [], s => s
  | l :: ls, s => sdSamples n (t + 8) ls (sdSample n t l s)

/-- OOG: SD sampled on a receiver that is not OFF. -/
def execOog (w : SdRun) (s : State) :=
  live s (if (tree s w.tree.val).st = .off then s else sdSamples w.tree.val w.at_ w.levels s)

end Sys2Proof.Machine
end

