-- ==== Sys2Proof/Machine/Tribs.lean ====
section
/-! DEFINITION. Tributary entries, the mapper and the occurrence decision (R171 to R183, R190, Tables 5.3 to 5.7). -/

namespace Sys2Proof.Machine

/-! ### Entries (R171 to R173, R190) -/

/-- Table 5.3. -/
def readTrib (e : List Byte) : TCfg :=
  let b2 := natAt e 2 1
  { enable := fld b2 7 7 = 1, kindPacket := fld b2 6 6 = 1, upFail := fld b2 5 5 = 1, retEn := fld b2 4 4 = 1, vtags := fld b2 3 2,
    k := natAt e 3 1, payLen := natAt e 4 2, retFlow := natAt e 6 2, da := BitVec.ofNat 48 (natAt e 8 6), sa := BitVec.ofNat 48 (natAt e 14 6),
    tag0 := BitVec.ofNat 32 (natAt e 20 4), tag1 := BitVec.ofNat 32 (natAt e 24 4), roeFlow := natAt e 28 1 }

def tribBytes (f : Nat) (t : Trib) : List Byte :=
  if !t.present then beBytes 2 f ++ rsv 30
  else
    let c := t.cfg
    beBytes 2 f ++ beBytes 1 (c.enable.toNat * 128 + c.kindPacket.toNat * 64 + c.upFail.toNat * 32 + c.retEn.toNat * 16 + c.vtags * 4)
      ++ beBytes 1 c.k ++ beBytes 2 c.payLen ++ beBytes 2 c.retFlow ++ beBytes 6 c.da.toNat ++ beBytes 6 c.sa.toNat ++ e32 c.tag0
      ++ e32 c.tag1 ++ beBytes 1 c.roeFlow ++ rsv 3

def opTribSet (h : Hdr) (e : List Byte) : Op where
  bad _ :=
    let c := readTrib e
    firstBad [(18, decide (natAt e 2 1 % 4 = 0)), (18, c.vtags ≠ 3), (19, 1 ≤ c.k ∧ c.k ≤ 16),
      (19, c.k * (c.payLen + 10) ≤ 9600), (20, 66 ≤ c.payLen ∧ c.payLen ≤ 4096), (20, c.kindPacket || c.payLen + 26 + 4 * c.vtags ≤ 9600), (45, natAt e 29 3 = 0)]
  run s :=
    let f := natAt e 0 2
    let t := trib s f
    resOk [] (setTrib f { t with next := t.next ++ [(readTrib e, checkTime s h)] } s)

/-- Table 5.7, as sampled at the last stroke boundary (R25). -/
def tribStatus (s : State) (f : Nat) : List Byte :=
  let t := trib (sampled s) f
  let oof := t.align ≠ 2
  beBytes 1 (t.held.toNat * 128 + (declared s 3 f TB_AMB).toNat * 64 + t.align * 16 + t.ais.toNat * 8 + t.rdi.toNat * 4 + t.slm.toNat * 2
      + (decide oof).toNat)
    ++ beBytes 1 t.lastLabel ++ beBytes 1 (storeDepth t) ++ rsv 13
    ++ (List.range 14).flatMap (fun i => e64 (cntSeen s (xFlow f i)).v)

def opTribGet (f : BitVec 16) : Op where
  bad _ := 0
  run s := resOk (tribBytes f.toNat (trib s f.toNat) ++ tribStatus s f.toNat) s

def execTribSet (h : Hdr) (e : List Byte) (s : State) := command (.tribSet h e) (opTribSet h e) s
def execTribGet (h : Hdr) (f : BitVec 16) (s : State) := command (.tribGet h f) (opTribGet f) s

/-- A tributary starts as R171 states for an entry taking effect: every field of its engines at reset, its status counters at 0. -/
def tribStart (f : Nat) (c : TCfg) (s : State) : State :=
  let s := setTrib f { cfg := c, present := true, held := (trib s f).held, next := (trib s f).next } (defLeave 3 f s)
  (List.range 14).foldl (fun s i => cntRestart (xFlow f i) s) s

/-- Entries accepted at least TURN_CUTOFF before boundary b take effect (R171). -/
def tribEffects (b : Nat) (s : State) : State :=
  s.tribs.foldl (fun s e =>
    match (e.2.next.filter (fun x => x.2 + Config.TURN_CUTOFF ≤ b)).getLast? with
    | some (c, _) =>
      let s := setTrib e.1 { trib s e.1 with next := e.2.next.filter (fun x => b < x.2 + Config.TURN_CUTOFF) } s
      tribStart e.1 c s
    | none => s) s

/-- The first condition of Table 5.4 that a tributary flow fails, or 0. -/
def tribFails (s : State) (p : Plate) (r : Flow) : Nat :=
  let t := trib s r.id
  let c := t.cfg
  let kindOk := if 0xF0 ≤ r.label then true else c.kindPacket = (r.label ≠ 3)
  let ret := (flowIn p c.retFlow).any (fun x => x.trib && x.up ≠ r.up && x.tree = r.tree && x.term = r.term)
  if !(t.present && c.enable) then 1
  else if !kindOk then 2
  else if r.maxFrame < max (tribC c) (tribUmax c) then 3
  else if tribUmin c < r.minFrame then 4
  else if (if !r.up then decide (r.fpb < (c.k + 1) * tribUmax c) else decide (r.fpb < max (tribC c) (c.k * tribUmax c))) then 5
  else if c.retEn && !ret then 6
  else 0

/-- Every tributary flow of the engaged plate judged (R172, R173); tributaries no longer in service lose their defects (R194). -/
def tribCheckAll (s : State) : State :=
  let fs := (((engaged s).map Plate.flows).getD []).filter (·.trib)
  let s := s.tribs.foldl (fun s e =>
    if fs.any (fun r => r.id = e.1) then s else setTrib e.1 { trib s e.1 with held := false } (defLeave 3 e.1 s)) s
  match engaged s with
  | none => s
  | some p =>
    fs.foldl (fun s r =>
      let c := tribFails s p r
      let t := trib s r.id
      if c = 0 then setTrib r.id { t with held := false } s
      else if t.held then s
      else event 0x0300 3 r.id (beBytes 1 c) (setTrib r.id { t with held := true } (defLeave 3 r.id s))) s

/-! ### The mapper (R174 to R178) -/

/-- Every port that the flow is classified from has UL_LOS or UL_LOF (R177): the ports in service that have fed it, or while none has, every port in
service (log 131). -/
def feedLost (s : State) (t : Trib) : Bool :=
  let fed := t.fedBy.filter (portOn s)
  (if fed = [] then (List.range 32).filter (portOn s) else fed).all (fun p => declared s 4 p UL_LOS || declared s 4 p UL_LOF)

/-- One place taken from the store: the payload, or none for an AIS frame, whose packet is late if it comes (Table 5.8). -/
def takePlace (f : Nat) (s : State) : Option (List Byte) × State :=
  let t := trib s f
  match t.store with
  | x :: r => (x, setTrib f { t with store := r } s)
  | [] => if t.cfg.kindPacket then (some [], s)
    else (none, bump (xFlow f 9) 1 (setTrib f { t with expect := t.expect.map (· + 1) } s))

/-- k tributary frames of flow r built from the store (R174, R177). -/
def mapFrames (r : Flow) (rdi lost : Bool) : Nat → State → List Byte × State
  | 0, s => ([], s)
  | n + 1, s =>
    let (x, s) := takePlace r.id s
    let t := trib s r.id
    let c := t.cfg
    let s := setTrib r.id { t with fcnt := t.fcnt + 1 } s
    let (b, s) := match (if lost then none else x) with
      | some y => (tribFrame r.label false rdi t.fcnt (if c.kindPacket then itemPayload c.payLen y else y), s)
      | none => (tribFrame 0xFF true rdi t.fcnt (List.replicate c.payLen 0xFF), bump (xFlow r.id 11) 1 s)
    let (l, s) := mapFrames r rdi lost n s
    (b ++ l, s)

/-! ### The occurrence decision (R179 to R183) -/

/-- A run of conditions in consecutive CRC-passing frames judged for a defect (Table 6.2); masked, its integration starts afresh. -/
def runDefect (f code set_ clr n : Nat) (s : State) : State :=
  if masked s 3 f code then s
  else if n ≤ set_ then defSet 3 f code s
  else if n ≤ clr then defClear 3 f code 0 s
  else s

/-- Conditions of a CRC-passing frame with expected label (R182). -/
def tribConds (f label : Nat) (b : List Byte) (s : State) : State :=
  let t := trib s f
  let lb := natAt b 4 1
  let fl := natAt b 5 1
  let fc := BitVec.ofNat 16 (natAt b 6 2)
  let s := if t.lastFcnt.any (fun x => fc ≠ x + 1) then bump (xFlow f 1) 1 s else s
  let ais := fld fl 7 7 = 1 ∨ lb = 0xFF
  let rdi := fld fl 6 6 = 1
  let slm := lb ≠ label ∧ lb ≠ 0xFF
  let up := fun (c : Prop) [Decidable c] (n : Nat) => if c then n + 1 else 0
  let s := setTrib f { t with
      ais := ais, rdi := rdi, slm := slm, lastLabel := lb, lastFcnt := some fc, aisRun := up ais t.aisRun, aisClr := up (¬ais) t.aisClr,
      rdiRun := up rdi t.rdiRun, rdiClr := up (¬rdi) t.rdiClr, slmRun := up slm t.slmRun, slmClr := up (lb = label) t.slmClr } s
  let t := trib s f
  let s := runDefect f TB_AIS t.aisRun t.aisClr 3 s
  let s := runDefect f TB_RDI t.rdiRun t.rdiClr 5 s
  let s := runDefect f TB_SLM t.slmRun t.slmClr 5 s
  let z := fun (c : Nat) (s : State) (g : Trib → Trib) => if masked s 3 f c then setTrib f (g (trib s f)) s else s
  let s := z TB_AIS s (fun t => { t with aisRun := 0, aisClr := 0 })
  let s := z TB_RDI s (fun t => { t with rdiRun := 0, rdiClr := 0 })
  z TB_SLM s (fun t => { t with slmRun := 0, slmClr := 0 })

/-- A RoE packet of the flow with a payload and orderInfo (R183). -/
def roePacket (c : TCfg) (order : BitVec 32) (p : List Byte) : List Byte :=
  withFcs (beBytes 6 c.da.toNat ++ beBytes 6 c.sa.toNat ++ (if 1 ≤ c.vtags then e32 c.tag0 else []) ++ (if c.vtags = 2 then e32 c.tag1 else [])
    ++ beBytes 2 0xFC3D ++ beBytes 1 roeSub ++ beBytes 1 c.roeFlow ++ beBytes 2 c.payLen ++ e32 order ++ p)

/-- A frame sent toward the uplink on its through-flow (R183, R225). -/
def tribSend (r : Flow) (b : List Byte) (s : State) : State :=
  let fr : Frame := { flow := r.id, dom := r.dom, len := b.length, point := nextPoint s r.id none, chaff := false, data := b }
  let s := { s with mill := { s.mill with through := mupd [] s.mill.through r.id (· ++ [fr]), points := mput 0 s.mill.points r.id fr.point } }
  setTrib r.id { trib s r.id with out := (trib s r.id).out ++ [b] } s

/-- One output: the payload of a completed frame, or none for fill or a replaced payload. -/
def streamOut (r : Flow) (p : Option (List Byte)) (s : State) : State :=
  let t := trib s r.id
  let s := setTrib r.id { t with order := t.order + 1 } s
  if p.isNone ∧ t.cfg.upFail then s else tribSend r (roePacket t.cfg t.order (p.getD (List.replicate t.cfg.payLen 0xFF))) s

/-- The item of a frame of a packet tributary (R170, R183). -/
def packetOut (r : Flow) (b : List Byte) (s : State) : State :=
  let c := (trib s r.id).cfg
  let n := natAt b 8 2 % 2 ^ 14
  if n = 0 then s
  else if n < 64 ∨ c.payLen - 2 < n then bump (xFlow r.id 12) 1 s
  else tribSend r (bytesAt b 10 n) s

/-- A completed frame of the chosen alignment: conditions, then its output while fewer than K are out (R182, R183). -/
def frameDone (r : Flow) (fr : TFrame) (room : Nat) (s : State) : State :=
  let s := if fr.crcOk then tribConds r.id r.label fr.bytes s else s
  let t := trib s r.id
  let alarm := fr.crcOk && (t.ais || t.slm)
  if room = 0 then bump (xFlow r.id 4) 1 s
  else if t.cfg.kindPacket then (if fr.crcOk && !alarm then packetOut r fr.bytes s else s)
  else streamOut r (if alarm || fr.ambFail then none else some (bytesAt fr.bytes 8 t.cfg.payLen)) s

/-- TB_LOF judged from the out-of-frame condition at a decision (Table 6.2). -/
def lofJudge (f : Nat) (s : State) : State :=
  let t := trib s f
  if masked s 3 f TB_LOF then setTrib f { t with oofSince := none, oofDecisions := 0, syncSince := none } s
  else if t.oofSince.any (fun x => decide (x + 3732480 ≤ s.now)) && decide (2 ≤ t.oofDecisions) then defSet 3 f TB_LOF s
  else if t.syncSince.any (fun x => decide (x + 3732480 ≤ s.now)) then defClear 3 f TB_LOF 0 s
  else s

/-- The bytes an occurrence appends (R179), and the frames counted in TRIB_LEN_ERR. -/
def occBytes (c : TCfg) (l : List (List Byte)) : List Byte × Nat :=
  let ok := (l.head?).any (fun x => x.length = tribC c)
  (if ok then (l.head?).getD [] else List.replicate (tribC c) 0xFF, if ok then l.length - 1 else l.length)

/-- OCCURRENCE_DECISION. A held flow's deframer takes no bytes: what its stream does meanwhile the rules leave open (R173, R179; log 126). -/
def occurrenceDecision (f : Nat) (s : State) : State :=
  match flowOf s f with
  | none => s
  | some r =>
    let t := trib s f
    if !r.trib || !r.up || t.held then s
    else
      let (new, errs) := occBytes t.cfg t.occ
      let s := bump (xFlow f 5) errs s
      let d := deframe (if featOn s 10 then 2 else 0) { t with occ := [], out := [] } new
      let sync := d.t.align = 2
      let s := setTrib f { d.t with
          oofSince := if sync then none else some (t.oofSince.getD s.now), oofDecisions := if sync then 0 else t.oofDecisions + 1,
          syncSince := if sync then some (t.syncSince.getD s.now) else none } s
      let s := d.counts.foldl (fun s i =>
        if i = ambRaised then defSet 3 f TB_AMB s
        else if i = ambCleared then defClear 3 f TB_AMB 0 s
        else let s := bump (xFlow f i) 1 s; if i = 3 then event 0x0302 3 f [] s else s) s
      let s := if d.t.shadows ≠ [] then defSet 3 f TB_AMB s else defClear 3 f TB_AMB 0 s
      let k := t.cfg.k
      let s := ((List.range d.done.length).zip d.done).foldl (fun s x => frameDone r x.2 (k - x.1) s) s
      let s := if t.cfg.kindPacket then s else (List.range (k - d.done.length)).foldl (fun s _ => streamOut r none s) s
      lofJudge f s

def execOccurrenceDecision (f : BitVec 16) (s : State) := live s (occurrenceDecision f.toNat s)

/-- TB_LOF: the span of 3 ms ends at a decision. -/
def execTbLof (f : BitVec 16) (s : State) :=
  live s (match flowOf s f.toNat with
    | some r => if r.trib && r.up && !(trib s f.toNat).held then lofJudge f.toNat s else s
    | none => s)

end Sys2Proof.Machine
end

