-- ==== Sys2Proof/Machine/Save.lean ====
section
/-! DEFINITION. The sag save, resets, the boot ROM and restarts (R30, R34, R46, R48, R57, R163, R193, R252, R278, R295, R304, R324,
R435 to R445, R448, R449, Tables 14.3 to 14.7). -/

namespace Sys2Proof.Machine

open Config

/-! ### What a restart keeps -/

/-- Registers of the always-on domain, and the locks: LOCKS, the PMU, timing and time blocks, the pins (Table 14.1, R403). -/
def regAlways (a : Nat) : Bool := a = aLOCKS || (0x10000 ≤ a && a < 0x40000) || (0x90000 ≤ a && a < 0x90040)

/-- Registers of the configuration area: the command-port block but RUN and its events, the uplink quads, TREE_CTL (R278, R437, R442). -/
def regConfig (a : Nat) : Bool :=
  (0x60000 ≤ a && a < 0x60100) || (0x400000 ≤ a && a < 0x480000) || (0x800000 ≤ a && a < 0xC00000 && a % 0x10000 = 0)

/-- A privilege map whose LOCK is set is kept by every reset but PORST_N (R375, R403). -/
def privLocked (s : State) (a : Nat) : Bool := (a = aPRIV_HOST || a = aPRIV_INBAND) && regBit s a 31

/-- Settings of a tree port that the configuration area holds (Tables 4.2, 6.5), those accepted for the next boundary among them (R435, R44). Device
messages queued and not yet sent are not among them: they are lost (DESIGN CHOICE, log 143). -/
def treeProv (t : Tree) : Tree :=
  let p : Tree := { set := t.setNext.getD t.set, protTypeB := t.protTypeB, home := t.home, skew := t.skew, skewCfg := t.skewCfg,
                    skewLocked := t.skewLocked, losBursts := t.losBursts, xtrig := t.xtrig }
  match t.protNext with
  | none => p
  | some (tb, h, k, l, x) =>
    { p with protTypeB := tb, home := h, skew := k, skewCfg := k, skewLocked := false, losBursts := l, xtrig := x }

/-- Settings of an uplink port that the configuration area holds; settings to come are in it. -/
def portProv (u : UPort) : UPort := { spare := (u.protNext.map Prod.fst).getD u.spare, utrig := (u.protNext.map Prod.snd).getD u.utrig }

/-- Estimator settings, those accepted for the next boundary in place (R197). -/
def estProv (d : Defects) : EstCfg × EstCfg × EstCfg :=
  d.next.foldl (fun c x => if x.1 = 0 then (x.2, c.2) else if x.1 = 1 then (c.1, x.2, c.2.2) else (c.1, c.2.1, x.2)) (d.cfgTree, d.cfgTerm, d.cfgPort)

/-- Tributary entries: of each flow the one in force, or the last accepted and not yet in force (R193; DESIGN CHOICE, log 150). -/
def tribProv (m : Map Trib) : Map TCfg :=
  (m.filter (fun e => e.2.present || !e.2.next.isEmpty)).map (fun e => (e.1, ((e.2.next.getLast?).map Prod.fst).getD e.2.cfg))

/-- The configuration area's content: what the provisioning is now, with what has been accepted for a boundary to come
(of a TRIB_SET entry: DESIGN CHOICE, log 150). -/
def provOf (s : State) : Prov :=
  let m := s.mill
  { regs := s.regs.filter (fun e => regConfig e.1), terms := s.terms, trees := mmap {} (fun _ t => treeProv t) s.trees,
    queues := m.queues, termNodes := m.terms, doms := m.doms, portNodes := m.ports,
    allocs := mmap {} (fun _ (a : ACfg) => { a with reported := 0, granted := 0 }) m.allocs, sflows := m.sflows,
    gens := (m.gens.filter (fun e => e.2.isSome)).map (·.1), tribs := tribProv s.tribs,
    screens := s.screens.map (fun x => { x with recov := none, marked := [], lastPass := 0, told := false, lastRx := none }),
    ports := mmap {} (fun _ u => portProv u) s.ports, est := estProv s.defects }

/-- The configuration area at a stop: what it holds stands in rescue mode, where no firmware has restored it (R442, R449). -/
def configNow (s : State) : Prov := if s.power.rescue then s.power.config else provOf s

/-! ### The save (R434 to R438) -/

/-- The identity and bank of the ENGAGED plate; a bank already TURNING counts when its boundary is D (Table 1.5). -/
def savePlate (s : State) : Option Bool × BitVec 128 :=
  let due := s.plates.turn.any (fun t => t.at_ ≤ s.now && (bank s t.bank).st = .turning)
  let b := if due then s.plates.turn.map Turn.bank
    else if s.plates.bank0.st = .engaged then some false else if s.plates.bank1.st = .engaged then some true else none
  (b, ((b.bind (fun b => (bank s b).plate)).map Plate.id).getD 0)

/-- Next and last-released numbers of the event, PLOAM_IN and time-stamp hoppers (R46). -/
def hopNumbers (s : State) : List (BitVec 32 × BitVec 32) :=
  ([0, 1] ++ (List.range 8).map (· + 0x10)).map (fun h => ((hopOf s h).map (fun (x : Hopper) => (x.wr, x.rel))).getD (0, 0))

/-- The save set at D (Table 14.3); the hoppers' numbers are taken again when the save completes. -/
def saveSet (cause : Nat) (s : State) : Save :=
  let (b, i) := savePlate s
  { num := s.power.saveNum + 1, cause := cause, featD := s.cmd.featD, devLast := s.cmd.devLast, locLast := s.cmd.locLast,
    devEff := s.cmd.devEff, locEff := s.cmd.locEff, at_ := s.now, impr := s.imprNum, imprMc := s.now - s.imprAt, plateId := i, bank := b,
    epoch := s.pair.epoch, pairCfg := regRaw s aPAIR_CFG, prot := s.defects.prot, terms := s.terms,
    keys := mmap {} (fun _ (k : KeySet) => { k with pends := [] }) s.keys, domA := s.time.domA, domB := s.time.domB, sel := s.time.sel,
    k := s.time.k, kAt := s.time.kAt, dpll := s.timing.dpll, steer := s.timing.steer, model := modelOf s.timing,
    hoppers := hopNumbers s,
    counters := (s.cnt.filter (fun e => cntSaved e.1)).map (fun e => (e.1, { e.2 with wrap := e.2.wrap || s.cntWrap })) }

/-- What the sections of a save set hold, as numbers, in the order of Table 14.3: header; per terminal slot STATE, EQD, RTD, WAS_ACTIVE, TRIES and the
configured rate; key states; keys; time; holdover record; hopper numbers; counters. The fault log tail is the firmware's own. -/
def sectionItems (v : Save) (k : Nat) : List Nat :=
  match k with
  | 1 => [v.format, v.num.toNat, v.cause, v.featD.toNat, v.devEff.toNat, v.locEff.toNat, v.at_, v.impr.toNat, v.imprMc, v.plateId.toNat,
          match v.bank with | none => 0xFF | some b => b.toNat, v.epoch.toNat, v.pairCfg.toNat, v.prot]
  | 2 => v.terms.flatMap (fun e => [e.1, termCode e.2.st, e.2.eqd, e.2.rtd, e.2.wasActive.toNat, e.2.tries, e.2.rate])
  | 3 => v.keys.flatMap (fun e => [e.1, keyCode e.2.st0, keyCode e.2.st1, e.2.encrypt.toNat])
  | 4 => v.keys.flatMap (fun e => (if e.2.st0 = .empty then [] else [2 * e.1, e.2.key0.toNat])
      ++ (if e.2.st1 = .empty then [] else [2 * e.1 + 1, e.2.key1.toNat]))
  | 5 => [twos 128 v.domA.tau, twos 128 v.domA.r, twos 128 v.domB.tau, twos 128 v.domB.r, v.sel.toNat, twos 128 v.k, v.kAt, dpllCode v.dpll,
          twos 64 v.steer]
  | 6 => [twos 64 v.model.a, twos 64 v.model.b, twos 64 v.model.g, v.model.aValid.toNat, v.model.bValid.toNat, v.model.gValid.toNat]
  | 7 => v.hoppers.flatMap (fun e => [e.1.toNat, e.2.toNat])
  | 8 => v.counters.flatMap (fun e => [e.1, e.2.v.toNat, e.2.wrap.toNat + 2 * e.2.preset.toNat])
  | _ => [v.num.toNat]

/-- Sections of Table 14.3 with their largest sizes in KiB. -/
def saveSections : List (Nat × Nat) := [(1, 4), (2, 128), (3, 4), (4, 264), (5, 1), (6, 4), (7, 1), (8, 32), (9, 8)]

/-- The save set as it lies in its area: each section within its size, closed by a CRC-32C (R437). -/
def saveImage (v : Save) : List Byte :=
  saveSections.flatMap (fun e =>
    let b := (Config.saveSection e.1 (sectionItems v e.1)).take (1024 * e.2 - 4)
    b ++ beBytes 4 (crc32c b).toNat)

/-- A counter that counts from the next run of the firmware, as counters are frozen or not yet running (R48; DESIGN CHOICE, log 135). -/
def owe (o : Nat) (s : State) : State := { s with power := { s.power with owed := s.power.owed ++ [o] } }

/-- A PMU counter counts: at once, or when firmware next runs. -/
def pmuCount (o : Nat) (s : State) : State := if s.power.phase = .running then bump (cPmu o) 1 s else owe o s

/-- An event of the PMU: at once, or by the firmware when it runs. -/
def pmuEvent (code : Nat) (d : List Byte) (s : State) : State :=
  if s.power.phase = .running then event code 0 0 d s
  else { s with power := { s.power with late := s.power.late ++ [(code, d)] } }

/-- What the firmware holds ends at D: commands in hand, effects not yet landed or due at a boundary and timed commands are dropped without a reply, and
their credit is gone (R44, R435). -/
def dropCommands (s : State) : State :=
  let drop := fun (p : PortState) => { p with queue := [], used := 0, replies := p.replies.map (fun r => { r with credit := false }) }
  let c := s.cmd
  { s with
    mill := { s.mill with landing := [] },
    cmd := { c with
      board := drop c.board, host := drop c.host, inband := drop c.inband, pair := drop c.pair
      timed := [], waiting := [], ackWait := [], effAt := [] } }

/-- CAUSE of the release that a sag brings (R353): the sag, or the loss of every supply, which the unit cannot tell apart: free (log 34). -/
def sagRelease (s : State) : Nat × State := let (v, s) := fresh s; (if v % 2 = 0 then 1 else 9, s)

/-- A sag in the mill cycle in which a UV alert has begun the save: one save, cause sag (Table 14.8). -/
def sagTogether (s : State) : State :=
  let fix := fun (i : HItem) => match i with
    | .entry q b => if natAt b 14 2 = 0x0900 ∧ natAt b 4 8 = s.now % 2 ^ 64 then .entry q (b.take 20 ++ [0] ++ b.drop 21) else i
    | i => i
  { s with
    evt := { s.evt with items := s.evt.items.map fix }
    power := { s.power with
      cause := 0, pendingSave := s.power.pendingSave.map (fun v => { v with cause := 0 })
      late := s.power.late.map (fun e => if e.1 = 0x0900 then (e.1, [0]) else e) } }

/-- D in a run (R435, R436): counters freeze, intake closes, what the firmware holds ends, the unit feathers and releases or leaves, every datapath
domain goes off. A save is written only where SAG_SAVE is agreed, and not while the save of a restart in progress waits to be consumed (R442, Table 14.8). -/
def sagRunning (cause vhold : Nat) (s : State) : State :=
  let s := if cause ≤ 1 then bump (cPmu 0x100) 1 s else s
  let s := event 0x0900 0 0 (beBytes 1 cause) s
  let mid := s.power.restored && !s.power.consumed
  let keep := s.cmd.featFixed && featOn s 8 && !mid
  let set := saveSet cause s
  let s := dropCommands s
  let s := { s with power := { s.power with
      phase := .saving, boot := .warm, cause := cause, sagAt := s.now, vholdD := vhold, config := configNow s, useSave := keep || mid
      onAtD := (List.range 78).filter (fun d => pwrOn s d), pendingSave := if keep then some set else none } }
  let (rel, s) := if cause = 2 then (2, s) else if cause = 3 then (1, s) else sagRelease s
  let s := stopUnit rel s
  let s := if s.pair.sails then feather s else s
  let s := { s with power := { s.power with doms := [], fwVerify := none } }
  if keep then s else { s with power := { s.power with phase := .saved } }

/-- D while no firmware runs yet (R434, Table 14.8): nothing is saved, the start ends, and the next restart uses the same save. -/
def sagBooting (cause vhold : Nat) (s : State) : State :=
  let s := if cause ≤ 1 then owe 0x100 s else s
  let s := pmuEvent 0x0900 (beBytes 1 cause) s
  { s with power := { s.power with phase := .saved, cause := cause, sagAt := s.now, vholdD := vhold, fwTrial := false, doms := [] } }

/-- A sag in mill cycle D. During a save it changes nothing (R440) but the cause of one that an alert began in this cycle. -/
def startSave (cause vhold : Nat) (s : State) : State :=
  match s.power.phase with
  | .running => sagRunning cause vhold s
  | .booting => sagBooting cause vhold s
  | .porst => s
  | _ => if cause = 0 ∧ s.power.cause = 1 ∧ s.power.sagAt = s.now then sagTogether s else s

/-- A save whose D no event gave a reading of VHOLD: SAVE_VHOLD AT_D is open (Table 14.9, log 110). -/
def startSaveOpen (cause : Nat) (s : State) : State :=
  let (v, s) := fresh s
  startSave cause (v % 65536) s

/-- The save set that the device was writing is cut short: its area holds none, and the pointer stays on the previous save (R438). -/
def tearSave (p : Power) : Power :=
  { p with pendingSave := none, lastTorn := true, useSave := false
           area0 := if p.area then none else p.area0
           area1 := if p.area then p.area1 else none }

/-- The save is complete: its area written, then the pointer's copy 0 and copy 1 name it, CONSUMED = 0 (R438). -/
def writeSave (v : Save) (p : Power) : Power :=
  let x : SavePtr := { area := !p.area, num := v.num, consumed := false }
  { p with pendingSave := none, lastTorn := false, ptr0 := some x, ptr1 := some x
           area0 := if p.area then some v else p.area0
           area1 := if p.area then p.area1 else some v }

/-- SAVE_DONE (R438, Table 14.4): pointer copy 0 is written, or VHOLD fell first and the save is torn. -/
def saveDone (torn : Bool) (cycles vhold : Nat) (s : State) : State :=
  match s.power.phase, s.power.pendingSave with
  | .saving, some v =>
    let s := advance (s.power.sagAt + cycles) s
    if torn then
      let s := event 0x0902 0 0 (beBytes 4 v.num.toNat) (owe 0x110 s)
      { s with power := { tearSave s.power with phase := .saved } }
    else
      let s := event 0x0901 0 0 (beBytes 4 v.num.toNat ++ beBytes 4 cycles) (owe 0x108 s)
      { s with
        power := { writeSave { v with hoppers := hopNumbers s } s.power with phase := .saved, saveTime := min cycles 0xFFFFF, vholdEnd := vhold }
        timing := { s.timing with recordLater := false } }
  | _, _ => s

def execSagDetection (vhold : BitVec 16) (s : State) : Host.Outcome State Fault Refusal := .next (startSave 0 vhold.toNat s)

/-- ROOT_PLL_LOSS (R30, R304): BREAKS counts it; during a save the save continues (Table 1.5). -/
def rootPllLoss (s : State) : State :=
  if s.power.phase = .porst then s
  else startSaveOpen 2 { s with time := { s.time with breaks := min 255 (s.time.breaks + 1), lost := true } }
def execRootPllLoss (s : State) : Host.Outcome State Fault Refusal := .next (rootPllLoss s)
def execSaveDone (torn : Bool) (cycles : Nat) (vhold : BitVec 16) (s : State) : Host.Outcome State Fault Refusal :=
  .next (saveDone torn cycles vhold.toNat s)

/-! ### Resets (R440, R444, R445) -/

/-- The board port through a reset of the control complex: its replies stay readable, its session and queue end (log 49). -/
def boardKept (p : PortState) : PortState := { replies := p.replies.map (fun r => { r with credit := false }) }

/-- MRAM and what is fused: what survives PORST_N, with what boundary scan holds. A save it cuts short is torn (R438, R450). -/
def mramKept (s : State) : Power :=
  let p := if s.power.pendingSave.isSome then tearSave s.power else s.power
  { area0 := p.area0, area1 := p.area1, ptr0 := p.ptr0, ptr1 := p.ptr1, lastTorn := p.lastTorn, onAtD := p.onAtD, fwA := p.fwA, fwB := p.fwB,
    kwk := p.kwk, config := p.config, jtag := p.jtag, cells := p.cells
    owed := p.owed ++ (if s.power.pendingSave.isSome then [0x110] else []) }


/-- PORST_N low (R444): everything is reset; MRAM holds the save areas, the configuration area, the firmware slots, the key-wrapping key, the plate
copy, the holdover record with its LOCKED history (R288) and SAG_CFG (R129, R292, R438, R446, R451). A running unit of a pair sends its RELEASE or LEAVE on both paths before it stops:
they are the last it sends on LEASE_TX and on the pair link (R217, R339). -/
def porstReset (s : State) : State :=
  let cfg := if s.power.phase = .running then configNow s else s.power.config
  let last := if s.power.phase = .running then stopUnit 6 { s with pair := { s.pair with sent := [], leaseTx := none } } else {}
  { ({} : State) with
    pending := s.pending, free := s.free, fuse := s.fuse, regs := s.regs.filter (fun e => e.1 = aSAG_CFG),
    plates := { mram := s.plates.mram }, timing := { record := s.timing.record, recordLater := s.timing.recordLater, history := s.timing.history },
    pair := { leaseTx := last.pair.leaseTx, leaseWord := last.pair.leaseWord, leaseOut := last.pair.leaseOut, sent := last.pair.sent },
    power := { mramKept s with phase := .porst, config := cfg } }

/-- The grid carried past the present: the first boundary after it, its number and its count (R31). -/
def rollGrid (s : State) : State :=
  if s.now < s.imprNext then s
  else
    let k := (s.now - s.imprNext) / IMPRESSION + 1
    { s with imprNext := s.imprNext + k * IMPRESSION, imprAt := s.imprNext + (k - 1) * IMPRESSION, imprNum := s.imprNum + BitVec.ofNat 32 k,
             imprCount := s.imprCount + k }

/-- The key of a defect of a reference: the timing unit runs on through a reset (R440). -/
def refDefect (e : Nat × Bool) : Bool := e.1 / 0x1000000 = 6

/-- A time domain through a reset: it runs on; what its master's messages and the stroke in hand have given is gone. -/
def domKept (d : TDom) : TDom := { d with foreign := [], due := none, pathDue := false, lostDue := false, skip := 0, masterId := none }

/-- A reset of every domain but the always-on domain (R440): the time counter, the timing unit, the PMU, the lease logic, the fences, the board port
and the locks stay. -/
def domainsReset (s : State) : State :=
  let p := s.pair
  let s' : State :=
    { ({} : State) with
      pending := s.pending, free := s.free, fuse := s.fuse, now := s.now, imprNext := s.imprNext, imprNum := s.imprNum, imprAt := s.imprAt,
      imprCount := s.imprCount, phaseOff := s.phaseOff, regs := s.regs.filter (fun e => regAlways e.1 || privLocked s e.1), snapNum := s.snapNum, bwStatus := s.bwStatus,
      cmd := { featD := s.cmd.featD, featFixed := s.cmd.featFixed, board := boardKept s.cmd.board, spiAborted := s.cmd.spiAborted,
               spiNotTaken := s.cmd.spiNotTaken, devLast := s.cmd.devLast, locLast := s.cmd.locLast, devEff := s.cmd.devEff,
               locEff := s.cmd.locEff, lastDseq := s.cmd.lastDseq },
      plates := { mram := s.plates.mram }, timing := s.timing, time := { s.time with awaiting := [], stamped := [], selNext := none, domA := domKept s.time.domA, domB := domKept s.time.domB },
      defects := { on := s.defects.on.filter refDefect, hist := s.defects.hist.filter refDefect },
      pair := { epoch := p.epoch, fencedLease := p.fencedLease, fencedCmd := p.fencedCmd, fencedPin := p.fencedPin, fencedScan := p.fencedScan,
                fenceEpoch := p.fenceEpoch, causeForm := p.causeForm, causeCode := p.causeCode, causeTree := p.causeTree, leaseTx := p.leaseTx, leaseWord := p.leaseWord, leaseOut := p.leaseOut,
                sbGood := p.sbGood, sbAt := p.sbAt, skew := p.skew, resyncs := p.resyncs },
      power := { s.power with doms := [], pendingSave := none, fwVerify := none, fwTrial := false, rescue := false, restored := false, muted := [] } }
  let s' := rollGrid s'
  { s' with strokeNext := strokeAt s' s'.now }

/-- RESET KIND 1 (R445): like PORST_N, a running unit's RELEASE or LEAVE included (R217), but keeping the always-on domain, the counter, the locks, D, the firmware slots and the learning record; the
configuration area is cleared, any save consumed, the grid starts afresh on the counter (R31). -/
def coldReset (s : State) : State :=
  let u := stopUnit 6 { s with pair := { s.pair with sent := [] } }
  let t := domainsReset u
  { t with
    cmd := { t.cmd with devLast := 0, locLast := 0x80000000, devEff := 0, locEff := 0, lastDseq := 0 },
    pair := { t.pair with sent := u.pair.sent }
    imprNum := BitVec.ofNat 32 (t.now / IMPRESSION), imprAt := t.now / IMPRESSION * IMPRESSION, imprNext := (t.now / IMPRESSION + 1) * IMPRESSION,
    strokeNext := ceilDiv t.now STROKE * STROKE, phaseOff := false, plates := {}, cntWrap := true,
    power := { t.power.consume with phase := .booting, boot := .cold, config := {} } }

/-! ### The restore (Table 14.5) -/

/-- Every hopper of R46 restarts at its saved next number behind one marker. -/
def restoreHoppers (v : Save) (s : State) : State :=
  (v.hoppers.zip ([0, 1] ++ (List.range 8).map (· + 0x10))).foldl (fun s e =>
    match hopOf s e.2 with
    | some x => setHop e.2 (hopRestart s.now e.1.1 e.1.2 x) s
    | none => s) s

/-- A terminal of the provisioning with the ranging and state of the save set; timers and runs are not saved (R163). Its integrity key is in use once
the boundary named has passed, `impr` being the present impression number (R139). -/
def restoreTerm (v : Save) (impr : BitVec 32) (g : Nat) (t : Term) : Term :=
  let o := mget {} v.terms g
  let base : Term := { serial := t.serial, rate := t.rate, allocs := t.allocs, auto := t.auto, pkey := t.pkey, pkeyImpr := t.pkeyImpr,
                       pkeyOn := t.pkeyOn || (t.pkey.isSome && seqLe t.pkeyImpr impr) }
  if o.serial ≠ t.serial then base
  else
    { base with
      st := o.st, eqd := o.eqd, eqdAck := o.eqdAck, rtd := o.rtd, rcHeld := o.rcHeld, wasActive := o.wasActive, tries := o.tries,
      awaits := o.awaits, rangeAcked := o.rangeAcked, actLeft := o.actLeft, actFailed := o.actFailed, actAsked := o.actAsked, allocsSent := o.allocsSent,
      rateNext := o.rateNext }

/-- Configuration area restored: registers, provisioning and every entry table (R193, R252, R278, R442). -/
def restoreProv (v : Save) (impr : BitVec 32) (s : State) : State :=
  let c := s.power.config
  let s := { s with
    regs := c.regs.foldl (fun m e => if privLocked s e.1 then m else mput 0 m e.1 e.2) s.regs,
    terms := mmap {} (fun g t => restoreTerm v impr g t) c.terms, trees := c.trees, screens := c.screens, ports := c.ports,
    keys := mmap {} (fun _ (k : KeySet) => { k with switchedAt := s.imprCount }) v.keys,
    mill := { s.mill with
      queues := c.queues, terms := c.termNodes, doms := c.doms, ports := c.portNodes, allocs := c.allocs, sflows := c.sflows,
      gens := c.gens.foldl (fun m f => mput none m f (some 0)) [] },
    defects := { s.defects with cfgTree := c.est.1, cfgTerm := c.est.2.1, cfgPort := c.est.2.2 } }
  c.tribs.foldl (fun s e => tribStart e.1 e.2 s) s

/-- Domains that were on at D are on, and PWR_DONE names each (R428); their trees are DARK and move toward their TARGET (R92). -/
def restoreDomains (s : State) : State :=
  let s := s.power.onAtD.foldl (fun s d => domOn d s) s
  (List.range 64).foldl (fun s n =>
    if pwrOn s n then treeDecide n (updTree n (fun t => { t with st := .dark }) s) else treeDecide n s) s

/-- R295: the DPLL enters HOLDOVER or FREERUN, with DPLL_HIST (R288): it holds over from the saved steering where it was LOCKED or HOLDOVER; references qualify 2 s free of defects; outputs restart
as when enabled. -/
def restoreTiming (dpll : Dpll) (steer : Int) (model : HoldRec) (s : State) : State :=
  -- of the hourly record and that of the save set the later governs (R301)
  let g := takeModel (if s.timing.recordLater then s.timing.record else model) s.timing
  let hold := decide (dpll = .locked ∨ dpll = .holdover)
  let old := s.timing.dpll
  let s := { s with timing := { g with
      dpll := if hold then .holdover else .freerun, fStart := if hold then steer else g.fStart, tStart := g.tempNow, sStart := s.now,
      steer := if hold then steer else 0, lockFrom := none, tickNext := (s.now / 155520 + 1) * 155520,
      refs := refIxs.foldl (fun m r => mput {} m r { mget {} g.refs r with wtr := s.now + 2 * secMc, qual := false, restarting := true }) [],
      pulses := (List.range 6).foldl (fun m o => mput {} m o { wantAnchor := regBit s (aPCFG o) 31 }) [],
      clks := (List.range 4).foldl (fun m k => mput {} m k
        { den := (mget {} g.clks k).den, wantSync := regBit s (aCCFG k) 31 && regBit s (aCCFG k) 28 }) [] } }
  event 0x0601 0 0 (beBytes 1 (dpllCode old) ++ beBytes 1 (dpllCode s.timing.dpll) ++ beBytes 1 (dpllSrc s)) s

/-- R304, R324: after a loss of lock TIME_LOST, and every domain that is not UNSET is STEP_ARMED; otherwise TRACKING and BRIDGING resume in HOLD. -/
def restoreTime (lost : Bool) (s : State) : State :=
  let live_ := fun (b : Bool) (s : State) => (tdom s b).st ≠ .unset
  if lost then
    let s := [false, true].foldl (fun s b => if live_ b s then moveDom1 b .stepArmed 5 s else s) s
    event 0x0702 0 0 [] { s with time := { s.time with lost := false } }
  else
    [false, true].foldl (fun s b =>
      let st := (tdom s b).st
      if st = .tracking ∨ st = .bridging then
        moveDom1 b .hold 5 (setTdom b { tdom s b with holdPath := decide (st = .bridging) } s)
      else s) s

/-- R327, R442: MODE as saved; a unit alone raises at once, a paired unit starts JOINING and FEATHERED. -/
def restorePair (s : State) : State :=
  if pairMode s = 1 then
    let s := { s with pair := { s.pair with st := .solo } }
    if isFenced s then s else { s with pair := { s.pair with sails := true } }
  else s

/-- R57: the MRAM copy is proved again into its bank, or PLATE_LOST; without a plate to restore the save is consumed (R442). -/
def restorePlate (v : Save) (s : State) : State :=
  let used := fun (s : State) => { s with power := s.power.consume }
  match v.bank, s.plates.mram with
  | none, _ => used s
  | some _, none => event 0x0103 0 0 [] (used s)
  | some b, some (p, m) =>
    if p.id = v.plateId then
      setBank b { st := .proving, feats := s.cmd.featD, image := m } { s with plates := { s.plates with restore := some b } }
    else event 0x0103 0 0 [] (used s)

/-- A time domain restored across PORST_N: its saved set is in force from the present counter value on (R319, R443). -/
def domSaved (now : Nat) (d : TDom) : TDom :=
  domKept { d with past := [(now, now, d.tau, d.r, decide (d.st = .unset))], cb := now, rates := [(now, d.r, false)] }

/-- What firmware that runs has of the start: the saves count (R438), and FW_TRIAL_FAILED of each slot whose trial failed in this boot comes ahead of
every other event (R448), of RESTARTED too, which R44 has come first (DESIGN CHOICE, log 149). -/
def trialEvents (s : State) : State :=
  let t := s.power.owed.foldl (fun s o => bump (cPmu o) 1 s) { s with power := { s.power with trialFailed := [], owed := [] } }
  s.power.trialFailed.foldl (fun s b => event 0x090B 0 0 (beBytes 1 b.toNat) s) t

/-- Events of the PMU from before the firmware ran. -/
def lateEvents (s : State) : State :=
  s.power.late.foldl (fun s e => event e.1 0 0 e.2 s) { s with power := { s.power with late := [] } }

/-- The state restored from save v, over a reset state (R44, R46, R48, R406, R440 to R443). `por`: the counter started again at 0. -/
def restore (por : Bool) (v : Save) (s : State) : State :=
  let s := { s with power := { s.power with phase := .running, restored := true } }
  let s := { s with
    cmd := { s.cmd with featD := v.featD, featFixed := true, devLast := v.devLast, locLast := v.locLast, devEff := v.devEff, locEff := v.locEff },
    hold := v.counters, holdWrap := 2, cntWrap := true, snapAt := BitVec.ofNat 64 v.at_, pair := { s.pair with epoch := v.epoch } }
  let s := setRaw aPAIR_CFG v.pairCfg s
  let s := if por then
      { s with time := { s.time with domA := domSaved s.now v.domA, domB := domSaved s.now v.domB, sel := v.sel } }
    else { s with power := { s.power with restartCause := if v.cause ≤ 1 then 1 else v.cause, warmCount := min 0xFFFF (s.power.warmCount + 1) } }
  let s := trialEvents (restoreHoppers v s)
  let s := lateEvents (event 0x0001 0 0 (beBytes 4 v.devEff.toNat ++ beBytes 4 v.locEff.toNat ++ beBytes 1 s.power.restartCause) s)
  let s := restoreTime (por || s.time.lost) (restoreTiming v.dpll v.steer v.model (restoreProv v (if por then v.impr else s.imprNum) s))
  let s := restorePair s
  let s := restartTerms (restoreDomains s)
  restorePlate v s

/-- The boundary-scan instruction takes the balls (R465). -/
def ballTaking : Jtag → Bool
  | .extest | .extestPulse | .extestTrain | .clamp | .highz => true
  | _ => false

/-! ### The boot ROM (R448, R449) -/

/-- Slot of a firmware bank. -/
def fwSlot (s : State) (b : Bool) : FwSlot := if b then s.power.fwB else s.power.fwA
def setFw (b : Bool) (x : FwSlot) (s : State) : State :=
  { s with power := if b then { s.power with fwB := x } else { s.power with fwA := x } }

/-- The first slot in a state. -/
def slotIn (s : State) (x : FwSt) : Option Bool :=
  if (fwSlot s false).st = x then some false else if (fwSlot s true).st = x then some true else none

/-- The boot ROM's choice: PENDING, ACTIVE, VALID. -/
def bootSlot (s : State) : Option Bool :=
  match slotIn s .pending with
  | some b => some b
  | none => match slotIn s .active with
    | some b => some b
    | none => slotIn s .valid

/-- The first section of a save that cannot be read: 0 for a format other than 1 (R448), else what the start has found (R442). -/
def saveFails (s : State) (v : Save) : Option Nat := if v.format ≠ 1 then some 0 else s.power.bad

/-- The firmware runs: what the start leads to (R442, R443, R445, R448); a warm restart without a usable save keeps time as R304 and R324 have it. -/
def bootDone (s : State) : State :=
  let run := fun (s : State) => lateEvents (trialEvents { s with power := { s.power with phase := .running } })
  let warm := fun (s : State) =>
    restoreTime s.time.lost (run { s with power := { s.power with restartCause := if s.power.cause ≤ 1 then 1 else s.power.cause } })
  let from_ := fun (por : Bool) (cold : State → State) =>
    match s.power.save with
    | none => cold s
    | some v =>
      match saveFails s v with
      | none => restore por v s
      | some k => event 0x0903 0 0 (beBytes 1 k) (cold { s with power := s.power.consume })
  match s.power.boot with
  | .cold => run { s with power := { s.power with restartCause := 4 } }
  | .por => if regBit s aSAG_CFG 7 && !s.power.consumed then from_ true run else run s
  | .warm => if s.power.useSave && !s.power.consumed then from_ false warm else warm s

/-- Rescue mode: no slot verifies. -/
def rescueMode (s : State) : State := (fun s => lateEvents (trialEvents s)) { s with power := { s.power with phase := .running, rescue := true, fwTrial := false } }

/-- The boot ROM over at most n slots: a bad signature fails its slot; a PENDING slot runs as a trial. -/
def bootRom (sig : Bool → Bool) : Nat → State → State
  | 0, s => rescueMode s
  | n + 1, s =>
    match bootSlot s with
    | none => rescueMode s
    | some b =>
      if !sig b then bootRom sig n (setFw b { fwSlot s b with st := .failed } s)
      else if (fwSlot s b).st = .pending then
        { s with power := { s.power with phase := .booting, fwTrial := true, fwRun := b, bootSig := sig !b } }
      else
        bootDone (setFw b { fwSlot s b with st := .active } { s with power := { s.power with fwRun := b } })

def sigOf (a b : Bool) (x : Bool) : Bool := if x then b else a

/-- VOUT_MODE reports the ULINEAR16 format (R431; its code is PMBus's: PRESUMED, log 154). -/
def ulinear16 (m : BitVec 8) : Bool := m.toNat / 32 = 0

/-- The ULINEAR16 word of a voltage in mV: in units of 2^N V with N the five-bit two's complement exponent of VOUT_MODE, to the nearest (log 154). -/
def voutWord (m : BitVec 8) (mv : Nat) : BitVec 16 :=
  let n := sgn 5 (m.toNat % 32)
  BitVec.ofNat 16 (if n ≤ 0 then (mv * 2 ^ n.natAbs + 500) / 1000 else (mv + 500 * 2 ^ n.natAbs) / (1000 * 2 ^ n.natAbs))

/-- The packet error code of SMBus: the CRC-8 of x^8 + x^2 + x + 1 over the bytes of a message (PRESUMED, log 154). -/
def pecBits : Nat → BitVec 8 → BitVec 8
  | 0, c => c
  | n + 1, c => pecBits n (if c.msb then (c <<< 1) ^^^ 0x07 else c <<< 1)
def pec (l : List Byte) : Byte := l.foldl (fun c b => pecBits 8 (c ^^^ b)) 0

/-- A PMBus transaction at ADDR: PAGE first where one is set, then the message, each write closed by its PEC where PEC_EN is set (R432). `cmd` is the
command code; the regulator's own bytes of a read are not in it. -/
def pmbTalk (cmd : Nat) (data : List Byte) (read : Bool) (s : State) : State :=
  let addr := BitVec.ofNat 8 (2 * regFld s aAVS_CFG 29 23)
  let page := regFld s aAVS_CFG 22 15
  let close := fun (l : List Byte) => if regBit s aAVS_CFG 30 then l ++ [pec l] else l
  let msg := if read then [addr, BitVec.ofNat 8 cmd, addr + 1] else close ([addr, BitVec.ofNat 8 cmd] ++ data)
  { s with power := { s.power with pmbOut := (if page = 0xFF then [] else [close [addr, 0x00, BitVec.ofNat 8 page]]) ++ [msg] } }

/-- VOUT_COMMAND is written with a voltage: command code and byte order are PMBus's (R431; log 154). -/
def voutWrite (mv : Nat) (s : State) : State :=
  let w := voutWord s.power.voutMode mv
  let s := pmbTalk 0x21 [w.setWidth 8, (w >>> 8).setWidth 8] false s
  pmuCount 0x128 { s with power := { s.power with vddCmd := mv, voutCmd := some w } }

/-- START_UP: PORST_N has risen, or RESET KIND 1 has run (Table 14.6). The counter started when the root PLL locked; after PORST_N the PMU reads VOUT_MODE
and AVS starts from the fused voltage, and a boundary-scan instruction that holds the balls fences the unit (R465). -/
def startUp (a : Bool) (o : StartObs) (s : State) : State :=
  if s.power.phase = .porst then
    let s := { s with
      power := { s.power with phase := .booting, boot := .por, voutMode := o.voutMode, bad := o.bad }
      pair := { s.pair with fencedScan := ballTaking s.power.jtag } }
    bootRom (sigOf a o.sigB) 2 (if ulinear16 o.voutMode then voutWrite s.fuse.startMv s else s)
  else if s.power.phase = .booting ∧ !s.power.fwTrial then bootRom (sigOf a o.sigB) 2 { s with power := { s.power with bad := o.bad } }
  else s

/-- FW_TRIAL (R448): the self-check of the slot on trial. -/
def fwTrialDone (pass : Bool) (s : State) : State :=
  let b := s.power.fwRun
  if !(s.power.phase = .booting && s.power.fwTrial) then s
  else
    let s := { s with power := { s.power with fwTrial := false } }
    if pass then
      let o := fwSlot s !b
      let s := if o.st = .active then setFw (!b) { o with st := .valid } s else s
      bootDone (setFw b { fwSlot s b with st := .active } s)
    else
      bootRom (fun x => x ≠ b && s.power.bootSig) 2
        (setFw b { fwSlot s b with st := .failed } { s with power := { s.power with trialFailed := s.power.trialFailed ++ [b] } })

/-- WARM_RESTART at P (R440, Table 14.5): after a sag P is 10 ms after D at the earliest; every domain but the always-on domain is reset; the
firmware boots, then the save is read: section `bad` of Table 14.3 is the first that fails. A start after PORST_N that a sag ended begins again
(Table 14.8). -/
def warmRestart (bad : Option Nat) (a b : Bool) (s : State) : State :=
  if s.power.phase ≠ .saved then s
  else
    let s := if s.power.cause ≤ 1 then advance (s.power.sagAt + 12441600) s else s
    let t := domainsReset s
    bootRom (sigOf a b) 2 { t with
      cntWrap := true
      power := { t.power with phase := .booting, bad := bad, boot := if t.power.boot = .por then .por else .warm } }

def execPorstNAssert (s : State) : Host.Outcome State Fault Refusal := .next (porstReset s)
def execStartUp (a : Bool) (o : StartObs) (s : State) : Host.Outcome State Fault Refusal := .next (startUp a o s)
def execFwTrial (p : Bool) (s : State) : Host.Outcome State Fault Refusal := .next (fwTrialDone p s)
def execWarmRestart (bad : Option Nat) (a b : Bool) (s : State) : Host.Outcome State Fault Refusal := .next (warmRestart bad a b s)

/-- RESET takes effect at its stroke boundary, after its reply (R445). -/
def landReset (cold : Bool) (s : State) : State := if cold then coldReset s else startSaveOpen 3 s

end Sys2Proof.Machine
end

