-- ==== Sys2Proof/Machine/Power.lean ====
section
/-! DEFINITION. Power-domain commands, adaptive voltage, firmware slots, RESET, the fault log, I2C (R18, R390, R427 to R432, R445 to R449). -/

namespace Sys2Proof.Machine

/-! ### Domains (R18, R427 to R429, Table 14.1) -/

/-- A tree above OFF whose number satisfies f. -/
def treeAbove (s : State) (f : Nat → Bool) : Option Nat :=
  (List.range 64).find? (fun n => f n && ((tree s n).st ≠ .off || (tree s n).moving.isSome))

/-- A bank that is not EMPTY and satisfies f. -/
def bankHeld (s : State) (f : Bank → Bool) : Option Nat :=
  if s.plates.bank0.st ≠ .empty && f s.plates.bank0 then some 0
  else if s.plates.bank1.st ≠ .empty && f s.plates.bank1 then some 1 else none

/-- A bank's plate or image uses the lanes of group g. -/
def bankUses (g : Nat) (x : Bank) : Bool :=
  (match x.plate with
   | some p => calGroups p.millrace
   | none => imageGroups x.image).contains g

/-- What holds domain d on (Table 14.1): HOLDER_KIND and HOLDER_INDEX. -/
def offHolder (s : State) (d : Nat) : Option (Nat × Nat) :=
  if d < 72 then ((List.range 32).find? (fun p => portOn s p && decide (p / 4 ≤ d - 64) && decide (4 * (d - 64) < p + portLanes s p))).map (fun p => (2, p))
  else if d = 72 then
    match treeAbove s (fun _ => true), (List.range 8).find? (fun g => pwrOn s (64 + g)), bankHeld s (fun _ => true) with
    | some n, _, _ => some (1, n)
    | none, some g, _ => some (2, ((List.range 4).map (4 * g + ·)).find? (portOn s) |>.getD (4 * g))
    | none, none, some b => some (3, b)
    | none, none, none => none
  else if d < 76 then
    match treeAbove s (fun n => treeGroup n = d - 72), bankHeld s (bankUses (d - 72)) with
    | some n, _ => some (1, n)
    | none, some b => some (3, b)
    | none, none => none
  else (bankHeld s (fun _ => true)).map (fun b => (3, b))

/-- Registers of an uplink quad at 0: what they read when the quad next comes on (R427, R430); QUAD_CFG stays. -/
def quadZero (g : Nat) (s : State) : State :=
  let lo := aQUAD g
  let s := { s with regs := s.regs.filter (fun e => !(decide (lo < e.1) && decide (e.1 < lo + 0x10000))) }
  (List.range 4).foldl (fun s j => setRaw (aPORT (4 * g + j)) 0 (setRaw (aPORT (4 * g + j) + 4) 0 s)) s

/-- A half of the millpond is lost: every frame of the millpond or a weir with a cell in it, and its retired cells (R427; log 42). -/
def loseHalf (h : Nat) (s : State) : State :=
  let m := s.mill
  let keep := fun (x : Frame) => !Config.frameHalf h x.flow x.point.toNat
  let used := ((m.pond.flatMap (·.2)).filter (fun x => !keep x)).foldl (fun u x => mupd 0 u x.dom (· - cellsOf x.len)) m.used
  clearIdle { s with mill := { m with
    pond := mmap [] (fun _ l => l.filter keep) m.pond, used := used, lanes := mmap {} (fun _ l => { l with weir := l.weir.filter keep }) m.lanes
    retiredCells := m.retiredCells.filter (fun c => decide (c % 16 / 8 ≠ h)) } }

/-- Domain d goes off: its stores, registers, hoppers and counters hold nothing any more (R427); a reply that waits on a port of it goes with its
credit (R365). -/
def landDomOff (d : Nat) (s : State) : State :=
  let s := domOff d s
  if d < 72 then
    let g := d - 64
    let s := quadZero g { s with tsHops := mput tsHop0 s.tsHops g tsHop0 }
    (List.range 4).foldl (fun s j => updPort (4 * g + j) portFresh (dropReply (4 * g + j) s)) s
  else if d < 76 then
    (List.range 6).foldl (fun s j => setLane (6 * (d - 72) + j) {} s) s
  else loseHalf (d - 76) s

/-- PWR_SET (R428, R429): switching off takes hold at the stroke boundary of the command, switching on begins there. -/
def opPwrSet (d st : BitVec 8) : Op where
  bad _ := firstBad [(16, 64 ≤ d.toNat ∧ d.toNat ≤ 77), (17, st.toNat ≤ 1)]
  run s :=
    let n := d.toNat
    if st = 1 then
      if pwrOf s n = .off then resAcc [] (pwrUp n s) else resOk [] s
    else if pwrOf s n = .off then resOk [] s
    else match offHolder s n with
      | some (k, i) => resConflict k i s
      | none => resOk [] (landDomOff n s)

/-- PWR_DONE: a ramping domain is on. -/
def pwrDone (d : Nat) (s : State) : State := if pwrOf s d = .ramping then domOn d s else s

def pwrCode : PwrSt → Nat
  | .off => 0 | .ramping => 1 | .on => 2

def opPwrInfo : Op where
  bad _ := 0
  run s := resOk ((List.range 80).flatMap (fun d => beBytes 1 (pwrCode (pwrOf s d))) ++ beBytes 2 s.power.vout ++ rsv 2
    ++ beBytes 4 (s.power.vout * s.power.iout / 10)) s

def execPwrSet (h : Hdr) (d st : BitVec 8) (s : State) := command (.pwrSet h d st) (opPwrSet d st) s
def execPwrInfo (h : Hdr) (s : State) := command (.pwrInfo h) opPwrInfo s
def execPwrDone (d : Fin 80) (s : State) := live s (pwrDone d.val s)

/-! ### Adaptive voltage (R431, R432) -/

/-- An event of the PMU: the PMU runs from the lock of the root PLL on (Table 14.6). -/
def pmuLive (s t : State) : Host.Outcome State Fault Refusal := .next (if s.power.phase = .running ∨ s.power.phase = .booting then t else s)

/-- A PMBus transaction failed its third time: counted, AVS held, reported (R432). -/
def avsFail (s : State) : State :=
  let s := pmuCount 0x118 s
  pmuEvent 0x0905 [] { s with power := { s.power with avs := 2 } }

/-- VOUT_COMMAND is tried with a voltage: written and AVS goes on in state st, or its third try has failed. A regulator whose VOUT_MODE is another format
is not commanded (R431, log 154). -/
def voutTry (mv st : Nat) (ack : Bool) (s : State) : State :=
  if !ulinear16 s.power.voutMode then s
  else if ack then (fun s => { s with power := { s.power with avs := st } }) (voutWrite mv s)
  else avsFail (pmbTalk 0x21 [(voutWord s.power.voutMode mv).setWidth 8, (voutWord s.power.voutMode mv >>> 8).setWidth 8] false s)

/-- AVS_ADJUST: the monitors' timers ask for a change; `below`: some monitor lies below its margin; `twice`: every one has kept twice its margin. -/
def avsAdjust (below twice ack : Bool) (s : State) : State :=
  let p := s.power
  if p.avs = 2 then s
  else if !regBit s aAVS_CFG 31 then
    if p.avs = 3 then s else voutTry 800 3 ack s
  else
    let v := if below then min 800 (p.vddCmd + 10) else if twice then max 700 (p.vddCmd - 5) else p.vddCmd
    if v = p.vddCmd then { s with power := { p with avs := 1 } } else voutTry v 1 ack s

/-- PMBUS_POLL: READ_VOUT and READ_IOUT every 10 ms. -/
def pmbusPoll (ack : Bool) (vout iout : Nat) (s : State) : State :=
  let s := pmbTalk 0x8C [] true (pmbTalk 0x8B [] true s)
  if !ack then avsFail s
  else
    let p := s.power
    let off := decide (15 < ((vout : Int) - p.vddCmd).natAbs)
    let n := if off then p.vddBad + 1 else 0
    let s := { s with power := { p with vout := vout, iout := iout, vddBad := n } }
    if n = 3 then pmuEvent 0x0906 (beBytes 2 p.vddCmd ++ beBytes 2 vout) s else s

/-- AVS_RETRY: VOUT_COMMAND is tried again each second while AVS is held. -/
def avsRetry (ack : Bool) (s : State) : State := if s.power.avs = 2 then voutTry s.power.vddCmd 1 ack s else s

/-- PMB_ALERT: STATUS_WORD read and reported, or its read has failed (R432); VOUT_UV_FAULT or OFF is a sag in every respect. -/
def pmbAlert (w : Option (BitVec 16)) (s : State) : State :=
  if s.power.phase ≠ .running ∧ s.power.phase ≠ .booting then s
  else
    let s := pmbTalk 0x79 [] true (pmuCount 0x120 s)
    match w with
    | none => avsFail s
    | some w =>
      let s := pmuEvent 0x0907 (beBytes 2 w.toNat) s
      if Config.statusUvOff w then startSaveOpen 1 s else s

def execAvsAdjust (b t a : Bool) (s : State) := pmuLive s (avsAdjust b t a s)
def execPmbusPoll (a : Bool) (v i : BitVec 16) (s : State) := pmuLive s (pmbusPoll a v.toNat i.toNat s)
def execAvsRetry (a : Bool) (s : State) := pmuLive s (avsRetry a s)
def execPmbAlert (w : Option (BitVec 16)) (s : State) : Host.Outcome State Fault Refusal := .next (pmbAlert w s)

/-! ### SAG_CFG (R434, R451) -/

def opSagCfg (th : BitVec 8) : Op where
  bad _ := firstBad [(16, 90 ≤ th.toNat ∧ th.toNat ≤ 114)]
  run s := if regBit s aLOCKS 3 then resLocked aLOCKS s
    else resOk [] (setRaw aSAG_CFG ((regRaw s aSAG_CFG &&& 0x80) ||| th.setWidth 32) s)
def execSagCfg (h : Hdr) (th : BitVec 8) (s : State) := command (.sagCfg h th) (opSagCfg th) s

/-! ### Firmware slots (R446, R447) -/

/-- Bytes of a slot. -/
def slotSize : Nat := 6291456

/-- A firmware command under LK_FW. -/
def fwLocked (s : State) (r : Res) : Res := if regBit s aLOCKS 1 then resLocked aLOCKS s else r

/-- The slot runs, or its image is being verified. -/
def fwHeld (s : State) (b : Bool) : Bool := (!s.power.rescue && s.power.fwRun = b) || s.power.fwVerify = some b

def opFwOpen (slot : BitVec 8) : Op where
  bad _ := firstBad [(16, slot.toNat ≤ 1)]
  run s :=
    let b : Bool := slot = 1
    fwLocked s (if fwHeld s b then resBusy s else resOk [] (setFw b { st := .writing } s))

def opFwData (slot : BitVec 8) (off : Word) (data : List Byte) : Op where
  bad _ := firstBad [(16, slot.toNat ≤ 1), (20, off.toNat % 16 = 0), (20, off.toNat + data.length ≤ slotSize),
    (24, data.length % 16 = 0 ∧ 16 ≤ data.length ∧ data.length ≤ 4080)]
  run s :=
    let b : Bool := slot = 1
    let x := fwSlot s b
    fwLocked s (if x.st ≠ .writing ∨ s.power.fwVerify = some b then resBusy s
      else resOk [] (setFw b { x with image := imgWrite x.image off.toNat data } s))

def opFwCommit (slot : BitVec 8) : Op where
  bad _ := firstBad [(16, slot.toNat ≤ 1)]
  run s :=
    let b : Bool := slot = 1
    fwLocked s (if (fwSlot s b).st ≠ .writing ∨ s.power.fwVerify.isSome then resBusy s
      else resAcc [] { s with power := { s.power with fwVerify := some b } })

/-- FW_COMMITTED: the signature of the slot being verified is good or bad. -/
def fwCommitted (b good : Bool) (s : State) : State :=
  if s.power.fwVerify ≠ some b then s
  else
    let s := setFw b { fwSlot s b with st := if good then .pending else .failed } { s with power := { s.power with fwVerify := none } }
    event (if good then 0x0909 else 0x090A) 0 0 (beBytes 1 b.toNat) s

def fwCode : FwSt → Nat
  | .empty => 0 | .writing => 1 | .valid => 2 | .pending => 3 | .active => 4 | .failed => 5

/-- STATE, VERSION, LENGTH of a slot: its header's; 0 for a slot never written; open for a slot whose image no FW_DATA wrote. -/
def fwInfoOf (s : State) (b : Bool) : List Byte × State :=
  let x := fwSlot s b
  let head := beBytes 1 (fwCode x.st) ++ rsv 3
  if x.image ≠ [] then (head ++ beBytes 4 (imgNat x.image 4 4) ++ beBytes 4 (imgNat x.image 8 4), s)
  else if x.st = .empty ∨ x.st = .writing then (head ++ rsv 8, s)
  else
    let (v, s) := fresh s
    (head ++ beBytes 4 (fwVersion s b).toNat ++ beBytes 4 v, s)

def opFwInfo : Op where
  bad _ := 0
  run s :=
    let (a, s) := fwInfoOf s false
    let (b, s) := fwInfoOf s true
    resOk (a ++ b ++ beBytes 1 s.power.fwRun.toNat ++ rsv 3) s

def execFwOpen (h : Hdr) (b : BitVec 8) (s : State) := command (.fwOpen h b) (opFwOpen b) s
def execFwData (h : Hdr) (b : BitVec 8) (o : Word) (d : List Byte) (s : State) := command (.fwData h b o d) (opFwData b o d) s
def execFwCommit (h : Hdr) (b : BitVec 8) (s : State) := command (.fwCommit h b) (opFwCommit b) s
def execFwInfo (h : Hdr) (s : State) := command (.fwInfo h) opFwInfo s
def execFwCommitted (b g : Bool) (s : State) := live s (fwCommitted b g s)

/-! ### RESET, LOG_READ (R445) -/

/-- RESET: the reply is sent before the reset, which lands at the next stroke boundary. -/
def opReset (h : Hdr) (kind : BitVec 8) : Op where
  bad _ := firstBad [(16, kind.toNat ≤ 1)]
  run s := if regBit s aLOCKS 2 ∧ h.port ≠ .board then resLocked aLOCKS s else resOk [] (post (.reset (kind = 1)) s)
def execReset (h : Hdr) (k : BitVec 8) (s : State) := command (.reset h k) (opReset h k) s

/-- LOG_READ: the log's content is the firmware's own. -/
def opLogRead (off : Word) (len : BitVec 16) : Op where
  bad _ := firstBad [(20, len.toNat ≤ 4096)]
  run s := resOk (pad4 ((List.range len.toNat).map (fun i => Config.faultLog (off.toNat + i)))) s
def execLogRead (h : Hdr) (o : Word) (l : BitVec 16) (s : State) := command (.logRead h o l) (opLogRead o l) s

/-! ### I2C (R293, R390) -/

def opI2cXfer (h : Hdr) (bus addr : BitVec 8) : Op where
  bad _ := firstBad [(16, bus.toNat ≤ 7), (17, addr.toNat ≤ 127)]
  run s := if regBit s aLOCKS 6 ∧ h.port = .host then resLocked aLOCKS s else resWait s
def execI2cXfer (h : Hdr) (b a w r : BitVec 8) (d : List Byte) (s : State) := command (.i2cXfer h b a w r d) (opI2cXfer h b a) s

/-- RLEN of a waiting I2C_XFER on a bus. -/
def i2cWaits (bus : Nat) (w : Waiting) : Option Nat :=
  match w.pkt.cmd with
  | some (.i2cXfer _ b _ _ r _) => if b.toNat = bus then some r.toNat else none
  | _ => none

/-- I2C_DONE: the oldest transfer waiting on the bus replies: its data, BUSY after 100 ms, or BAD_PARAM with CAUSE 1. -/
def i2cDone (bus : Nat) (ok busy : Bool) (rdata : List Byte) (s : State) : State :=
  match s.cmd.waiting.find? (fun w => (i2cWaits bus w).isSome) with
  | none => s
  | some w =>
    let s := { s with cmd := { s.cmd with waiting := s.cmd.waiting.filter (fun x => x.pkt.dseq ≠ w.pkt.dseq) } }
    if ok then finish w.pkt true 0 (pad4 (bytesAt rdata 0 ((i2cWaits bus w).getD 0))) (markEff w.pkt.dseq s)
    else if busy then finish w.pkt true 0x0A [] s
    else finish w.pkt true 4 (resBadCause 17 1 s).params s
def execI2cDone (bus : Fin 8) (ok busy : Bool) (d : List Byte) (s : State) := live s (i2cDone bus.val ok busy d s)

end Sys2Proof.Machine
end

