-- ==== Sys2Proof/Machine/RegRead.lean ====
section
/-! DEFINITION. What a register read returns: the stored bits, the fields hardware keeps, counters and their holding copies, the high-half
latches and the bit aliases (R394 to R400, R406, R410, R411, R426, R430 and the register tables of each chapter). -/

namespace Sys2Proof.Machine

open Config

/-- A word from its bits. -/
def wordOf (f : Nat → Bool) : Nat := (List.range 32).foldl (fun v i => v + (f i).toNat * 2 ^ i) 0

/-- Global block (Table 13.6). -/
def globalVal (s : State) (o : Nat) : Nat :=
  match o with
  | 0x00 => (if s.fuse.trees = 64 then 0x8164 else if s.fuse.trees = 48 then 0x8148 else 0x8132) * 0x10000
      + (if s.fuse.speed5 then 0x5EB0 else 0x2EB0)
  | 0x04 => 0x0301
  | 0x08 => OFFER.toNat % 2 ^ 32
  | 0x0C => OFFER.toNat / 2 ^ 32
  | 0x10 => s.cmd.featD.toNat % 2 ^ 32
  | 0x14 => s.cmd.featD.toNat / 2 ^ 32
  | 0x18 => s.pair.fencedCmd.toNat * 4 + s.defects.prot % 4
  | 0x1C => min 0xFFFF s.power.warmCount * 0x10000 + s.power.restartCause % 16
  | _ => 0

/-- PMU block (Table 14.9). -/
def pmuVal (s : State) (o : Nat) : Nat :=
  let p := s.power
  match o with
  | 0x00 => wordOf (fun i => pwrOn s i)
  | 0x04 => wordOf (fun i => pwrOn s (32 + i))
  | 0x08 => wordOf (fun i => i < 16 && pwrOn s (64 + i))
  | 0x14 => p.avs % 4 * 2 ^ 30 + p.vddCmd % 1024
  | 0x18 => p.iout % 0x10000 * 0x10000 + p.vout % 0x10000
  | 0x24 => (p.save.isSome && !p.consumed).toNat * 2 ^ 31 + p.area.toNat * 2 ^ 30 + p.lastTorn.toNat * 2 ^ 29 + p.restored.toNat * 2 ^ 28
  | 0x28 => p.saveNum.toNat
  | 0x2C => p.saveTime % 2 ^ 20
  | 0x30 => p.vholdD % 0x10000 * 0x10000 + p.vholdEnd % 0x10000
  | _ => 0

/-- REF_STATUS (Table 9.6). -/
def refStatus (s : State) (r : Nat) : Nat :=
  (declared s 6 r RF_LOS).toNat * 2 ^ 31 + (declared s 6 r RF_FREQ).toNat * 2 ^ 30 + (declared s 6 r RF_PHASE).toNat * 2 ^ 29
    + (declared s 6 r RF_TIE).toNat * 2 ^ 28 + (refQual s r).toNat * 2 ^ 27 + (decide ((refOf s r).wtr ≠ 0)).toNat * 2 ^ 26
    + (decide (s.timing.cur = some r)).toNat * 2 ^ 25 + refQl s r * 2 ^ 20 + twos 20 ((refOf s r).f - localEst s s.now)

/-- PSTATUS of pulse output o (Table 9.8, R297, R298; log 50). -/
def pulseStatus (s : State) (o : Nat) : Nat :=
  let s := settlePulse o s
  let en := regBit s (aPCFG o) 31
  let sq := en && squelched s (regFld s (aPCFG o) 26 25)
  let x := pulseOf s o
  let inp := decide (pulseSrc s o ≤ 1)
  let edge := (nextPulse s o s.now).isSome
  (en && !sq && edge).toNat * 2 ^ 31 + sq.toNat * 2 ^ 30 + (en && edge && decide (x.slew = 0) && !x.stepHeld).toNat * 2 ^ 29
    + (en && inp && declared s 6 (4 + pulseSrc s o) RF_LOS).toNat * 2 ^ 28 + x.stepHeld.toNat * 2 ^ 27 + twos 16 x.lastDelta

/-- CSTATUS of clock output k (Table 9.8, R299). -/
def clkStatus (s : State) (k : Nat) : Nat :=
  let en := regBit s (aCCFG k) 31
  let sq := en && squelched s (regFld s (aCCFG k) 30 29)
  (en && !sq).toNat * 2 ^ 31 + sq.toNat * 2 ^ 30 + (clkOf s k).synced.toNat * 2 ^ 29

/-- Timing block (Tables 9.6 to 9.8); REALIGN and WTR_CLR read 1 until they are done (WS, Table 0.6). -/
def timingVal (s : State) (o : Nat) : Nat :=
  let g := s.timing
  if 0x200 ≤ o ∧ o < 0x260 ∧ o % 0x10 = 0 then (pulseOf (settlePulse ((o - 0x200) / 0x10) s) ((o - 0x200) / 0x10)).realign.toNat * 2 ^ 23
  else if o < 0x100 then (if o % 0x10 = 8 then refStatus s (o / 0x10) else 0)
  else if 0x200 ≤ o ∧ o < 0x260 then (if o % 0x10 = 0xC then pulseStatus s ((o - 0x200) / 0x10) else 0)
  else if 0x300 ≤ o ∧ o < 0x340 then (if o % 0x10 = 8 then clkStatus s ((o - 0x300) / 0x10) else 0)
  else match o with
    | 0x100 => g.wtrClr.toNat * 2 ^ 23
    | 0x10C => dpllCode g.dpll * 2 ^ 30 + dpllSrc s % 32 * 2 ^ 25 + g.modelValid.toNat * 2 ^ 24 + g.aValid.toNat * 2 ^ 23
        + g.bValid.toNat * 2 ^ 22 + g.gValid.toNat * 2 ^ 21 + twos 20 (g.steer / 16)
    | 0x120 => twos 32 g.a
    | 0x124 => twos 32 g.b
    | 0x128 => twos 32 g.g
    | 0x12C => twos 16 g.t0 * 0x10000 + twos 16 g.tempNow
    | _ => 0

/-- A signed 32-bit field that saturates. -/
def sat32 (i : Int) : Nat := twos 32 (clampI (-(2 ^ 31)) (2 ^ 31 - 1) i)

/-- SEC_HI, SEC_LO, NS and FRAC words of a time. -/
def timeWord (t : Int) (i : Nat) : Nat :=
  match i with
  | 0 => twos 48 (t / secU) / 2 ^ 32
  | 1 => twos 48 (t / secU) % 2 ^ 32
  | 2 => (t / nsU % 1000000000).toNat
  | _ => (t % nsU).toNat

/-- A domain's registers (Table 10.5). -/
def domVal (s : State) (b : Bool) (o : Nat) : Nat :=
  let d := tdom s b
  match o with
  | 0x04 => domCode d.st * 2 ^ 29 + d.pathStep.toNat * 2 ^ 28 + d.masterOk.toNat * 2 ^ 27 + d.slave % 32 * 2 ^ 22
  | 0x08 => twos 32 d.r
  | 0x0C => twos 32 d.mpd
  | 0x10 => sat32 d.offset
  | 0x14 => twos 32 d.asym
  | 0x18 => timeWord (if b then s.time.capB else s.time.capA) 0
  | 0x1C => timeWord (if b then s.time.capB else s.time.capA) 1
  | 0x20 => timeWord (if b then s.time.capB else s.time.capA) 2
  | 0x24 => timeWord (if b then s.time.capB else s.time.capA) 3
  | _ => 0

/-- Time block (Tables 10.4, 10.5). -/
def timeVal (s : State) (o : Nat) : Nat :=
  let t := s.time
  if 0x100 ≤ o ∧ o < 0x200 then domVal s false (o - 0x100)
  else if 0x200 ≤ o ∧ o < 0x300 then domVal s true (o - 0x200)
  else match o with
    | 0x00 => (decide (kNow s s.now ≠ 0)).toNat * 4 + (t.sel && twoDom s).toNat * 2
    | 0x04 => min 255 t.breaks
    | 0x10 => t.capCnt % 2 ^ 32
    | 0x14 => t.capCnt / 2 ^ 32 % 2 ^ 32
    | 0x18 => t.capCnt / 2 ^ 64 % 2 ^ 32
    | 0x20 => timeWord t.capOut 0
    | 0x24 => timeWord t.capOut 1
    | 0x28 => timeWord t.capOut 2
    | 0x2C => timeWord t.capOut 3
    | 0x30 => sat32 (kNow s s.now / 4096)
    | _ => 0

/-- Pair block (Tables 11.10, 11.11). -/
def pairVal (s : State) (o : Nat) : Nat :=
  match o with
  | 0x04 => (pairStatus s).toNat
  | 0x08 => s.pair.epoch.toNat
  | 0x0C => (leaseExp s).1.toNat
  | 0x10 => (leaseExp s).2.toNat
  | 0x14 => twos 64 s.pair.deltaC % 2 ^ 32
  | 0x18 => twos 64 s.pair.deltaC / 2 ^ 32
  | _ => 0

/-- Command-port block (Table 12.12). -/
def cpVal (s : State) (o : Nat) : Nat :=
  match o with
  | 0x20 => s.cmd.cmdHead % 1024
  | 0x40 => s.cmd.rplHead % 1024
  | 0x48 => s.cmd.ringRun.toNat
  | 0x50 => freeCredits s .pair % 256 * 2 ^ 24 + freeCredits s .inband % 256 * 2 ^ 16 + freeCredits s .host % 256 * 2 ^ 8
      + freeCredits s .board % 256
  | 0x54 => s.cmd.lastDseq.toNat
  | _ => 0

/-- WR, RD, MARK, REL, HWM, READABLE and OPEN_MARKER of a hopper; the state stream and the lane hoppers count their own units, all of them
read when pushed (Tables 13.9, 13.12; log 51). -/
def hopStat (s : State) (h : Nat) : Nat × Nat × Nat × Nat × Nat × Nat × Bool :=
  match hopOf s h with
  | some x => (x.wr.toNat, x.rd.toNat, x.mark.toNat, x.rel.toNat, x.hwm, hopReadable x, hopOpen x)
  | none =>
    if h = 0x20 then
      let w := s.pair.streamWr
      (w.toNat, w.toNat, s.pair.streamMark.toNat, s.pair.streamRel.toNat, s.pair.streamHwm, 0, (streamOpen s.pair.sent).isSome)
    else
      let l := lane s (h - 0x30)
      let m := (l.nextSeq - BitVec.ofNat 32 l.hopper.length).toNat
      (l.nextSeq.toNat, l.nextSeq.toNat, m, m, l.hwm, 0, false)

/-- Hopper block (Table 13.12). -/
def hopVal (s : State) (o : Nat) : Nat :=
  let h := o / 0x40
  let (wr, rd, mark, rel, hwm, rdb, opn) := hopStat (sampled s) h
  match o % 0x40 with
  | 0x00 => match hopOf s h with
    | some x => x.owner.toNat * 2 ^ 30 + x.level % 2 ^ 20
    | none => 3 * 2 ^ 30
  | 0x04 => (s.cmd.featFixed && !featOn s 0).toNat * 2 ^ 31 + opn.toNat * 2 ^ 30 + rdb % 2 ^ 20
  | 0x08 => wr
  | 0x0C => rd
  | 0x10 => mark
  | 0x14 => rel
  | 0x18 => hwm % 2 ^ 20
  | _ => 0

/-- Counter block control and rates (Table 13.7). -/
def cbVal (s : State) (o : Nat) : Nat :=
  match o with
  | 0x00 => 3 * (copyPending s).toNat
  | 0x04 => s.snapNum.toNat
  | 0x08 => s.snapAt.toNat % 2 ^ 32
  | 0x0C => s.snapAt.toNat / 2 ^ 32
  | 0x14 => s.bwStatus.toNat
  | 0x18 => s.bwAt % 2 ^ 32
  | 0x1C => s.bwAt / 2 ^ 32 % 2 ^ 32
  | _ =>
    if 0x1000 ≤ o ∧ o < 0x1200 ∧ !firstLane s ((o - 0x1000) / 0x10) then 0
    else if 0x1000 ≤ o then (mget 0 s.rates (0x80000 + o)).toNat else 0

/-- PORT_STATUS of the port of first lane p (Table 8.10). -/
def portStatus (s : State) (p : Nat) : Nat :=
  let u := uport s p
  (portUp s p).toNat * 128 + u.rfRx.toNat * 64 + u.lfRx.toNat * 32 + u.rfTx.toNat * 16 + (decide (s.now < u.pausedTo)).toNat * 8
    + u.rehashed.toNat * 4 + ((List.range 32).any (fun r => portOn s r && regBit s (aPORT r) 26 && regFld s (aPORT r) 25 21 = p)).toNat * 2
    + (firstLane s p).toNat

/-- Tree states as TARGET codes. -/
def treeCode : TreeSt → Nat
  | .off => 0 | .dark => 1 | .lit => 2 | .serving => 3

/-- The tree's transmitter emits (R95). -/
def txOn (s : State) (n : Nat) : Bool :=
  let t := tree s n
  (t.st = .lit || t.st = .serving) && emitting s && t.txValid ≤ s.now

/-- TREE_STATE (Table 3.8). -/
def treeState (s : State) (n : Nat) : Nat :=
  let t := tree s n
  t.sdNow.toNat * 16 + (txOn s n).toNat * 8 + t.moving.isSome.toNat * 4 + treeCode t.st

/-- The GPIO that holds function f (R463). -/
def gpioHolder (s : State) (f : Nat) : Option Nat := (List.range 16).find? (fun k => regFld s (aGPIO k) 31 28 = f)

/-- SAG_N is low from D to P, and while no save has completed since a torn one (Table 15.7). -/
def sagLow (s : State) : Bool := s.power.phase = .saving || s.power.phase = .saved || s.power.lastTorn

/-- The level GPIO k is driven to, after POL (Table 15.7); none while boundary scan or PORST_N has the ball or it is an input (Table 15.8). -/
def gpioDrive (s : State) (k : Nat) : Option Bool :=
  if ballTaking s.power.jtag ∨ s.power.phase = .porst then none
  else match regFld s (aGPIO k) 31 28 with
    | 1 => some (regBit s (aGPIO k) 24)
    | 2 => some (emitting s)
    | 3 => some (!sagLow s)
    | 5 => some (s.defects.prot = 0)
    | _ => none

/-- IN of GPIO k, after POL (R460, Table 15.6): the level a driven ball has; at the ball of FENCE_IN_N the level last seen for 8 samples; elsewhere
what stands at the ball from outside. -/
def gpioSample (s : State) (k : Nat) : Bool :=
  match gpioDrive s k with
  | some v => v
  | none => xor (if gpioHolder s 4 = some k then s.power.gpioIn.getLsbD k else Config.gpioLevel k s.now) (regBit s (aGPIO k) 25)

/-- What hardware puts beside the stored bits of the register at a. -/
def hwVal (s : State) (a : Nat) : Nat :=
  let o := a % 0x10000
  if a < 0x10000 then globalVal s o
  else if a < 0x20000 then pmuVal s o
  else if a < 0x30000 then timingVal s o
  else if a < 0x40000 then timeVal s o
  else if a < 0x60000 then pairVal s o
  else if a < 0x70000 then cpVal s o
  else if a < 0x80000 then hopVal s o
  else if a < 0x90000 then cbVal s o
  else if a < 0xA0000 then (gpioSample s (o / 4)).toNat
  else if 0x100000 ≤ a ∧ a < 0x110000 then (if o = 4 then s.mill.mwErr % 4 * 4 else 0)
  else if 0x400000 ≤ a ∧ a < 0x480000 then
    (if (o - 0x10) % 0x20 = 0x14 ∧ 0x10 ≤ o ∧ o < 0x90 then portStatus (sampled s) (4 * ((a - 0x400000) / 0x10000) + (o - 0x10) / 0x20) else 0)
  else if 0x800000 ≤ a ∧ a < 0xC00000 then (if o = 4 then treeState (sampled s) ((a - 0x800000) / 0x10000) else 0)
  else 0

/-- The bits and the value of an access at a: an alias access covers one bit of its register (R400). -/
def accMask (a : Nat) : Word := if isAlias a then 1 <<< aliasBit a else 0xFFFFFFFF
def accVal (a : Nat) (v : Word) : Word := if isAlias a then (v &&& 1) <<< aliasBit a else v

/-- Half of a 64-bit value: bit 2 of the address selects the high half. -/
def half (v : BitVec 64) (hi : Bool) : Word := if hi then BitVec.ofNat 32 (v.toNat / 2 ^ 32) else BitVec.ofNat 32 v.toNat

/-- a lies in the region that holds registers, below the aliases (R394). -/
def inRegs (a : Nat) : Bool := a < 0x1000000

/-- The word at an aligned address outside the alias region. -/
def readWord (s : State) (a : Nat) : Word :=
  if !inRegs a || !regHere s a || !quadHere s a || !treeHere s a then 0
  else if isCounter s (a / 8 * 8) then half (cntSeen s (a / 8 * 8)).v (a % 8 = 4)
  else match holdSlot a with
    | some (c, off) =>
      let x := holdOf s c
      if !isCounter s c then 0 else if off < 8 then half x.v (off = 4) else if off = 8 then BitVec.ofNat 32 (x.wrap.toNat + 2 * x.preset.toNat) else 0
    | none =>
      match regInfo a with
      | none => 0
      | some _ => (regRaw s a &&& ~~~regMirror a) ||| BitVec.ofNat 32 (hwVal s a)

/-- The aligned 32-bit word at a, in the alias region the bit (R400). -/
def readAny (s : State) (a : Nat) : Word :=
  if isAlias a then (if (readWord s (regBase a)).getLsbD (aliasBit a) then 1 else 0) else readWord s a

/-- Low half of a declared 64-bit register that the register space reaches (R399). -/
def wide (s : State) (a : Nat) : Bool := inRegs a && is64 s a

/-- Either half of one. -/
def inWide (s : State) (a : Nat) : Bool := wide s (a / 8 * 8)

/-- The latch of a path replaced (R398). -/
def setLatch (path : Nat) (l : Option (Nat × Word)) (s : State) : State :=
  let rest := s.cmd.latches.filter (fun e => e.1 ≠ path)
  { s with cmd := { s.cmd with latches := match l with
      | some (a, v) => (path, a, v) :: rest
      | none => rest } }

/-- An aligned read of w bytes on a path: 0 to 3 the command ports, 4 BAR0 (R397, R398). -/
def readAt (path a w : Nat) (s : State) : Nat × State :=
  if w = 8 then ((readAny s a).toNat + (readAny s (a + 4)).toNat * 2 ^ 32, s)
  else if w = 4 then
    if wide s a then ((readWord s a).toNat, setLatch path (some (a + 4, readWord s (a + 4))) s)
    else if a % 8 = 4 ∧ inWide s a then
      match s.cmd.latches.find? (fun e => e.1 = path && e.2.1 = a) with
      | some (_, _, v) => (v.toNat, setLatch path none s)
      | none => ((readWord s a).toNat, s)
    else ((readAny s a).toNat, s)
  else ((readAny s (a / 4 * 4)).toNat / 2 ^ (8 * (a % 4)) % 2 ^ (8 * w), s)

/-- COUNT registers from a, at steps of max(w, 4) (R388). -/
def readMany (path a w : Nat) : Nat → State → List Byte × State
  | 0, s => ([], s)
  | n + 1, s =>
    let (v, s) := readAt path a w s
    let (l, s) := readMany path (a + max w 4) w n s
    (beBytes (max w 4) v ++ l, s)

/-- REG_RD (R388, R397, R400). -/
def opRegRd (h : Hdr) (addr : Word) (width : BitVec 8) (count : BitVec 16) : Op where
  bad _ := 0
  run s :=
    let a := addr.toNat
    let w := width.toNat
    let n := count.toNat
    if !([1, 2, 4, 8].contains w) then resWidth a s
    else if n = 0 ∨ 4096 < n * max w 4 then resBad 22 s
    else if a % w ≠ 0 then resAlign a s
    else if w ≠ 4 ∧ (List.range n).any (fun i => isAlias (a + i * max w 4)) then resWidth a s
    else
      let (l, s) := readMany (portNo h.port) a w n s
      resOk l s

def execRegRd (h : Hdr) (a : Word) (w : BitVec 8) (c : BitVec 16) (s : State) := command (.regRd h a w c) (opRegRd h a w c) s

/-- BAR0 accesses wait for their stroke boundary: a read behind them completes after they have taken hold (R395). -/
def barWaits (s : State) : Bool :=
  s.mill.landing.any (fun x => match x.eff with | .bar .. | .barRead .. => true | _ => false)

/-- A BAR0 read of w bytes at a completes with its data (R395, R397, R398). One of the alias region but an aligned 32-bit word returns no bit and is
reported (R400); what any other width or a misaligned address returns is open (log 8). -/
def barReadNow (a w : Nat) (s : State) : State :=
  let done := fun (v : Nat) (s : State) => { s with cmd := { s.cmd with barRead := some (BitVec.ofNat 64 v) } }
  if isAlias a ∧ !(w = 4 ∧ a % 4 = 0) then done 0 (event 0x0005 0x0B 1 (beBytes 4 a ++ beBytes 1 w) s)
  else if [1, 2, 4, 8].contains w ∧ a % w = 0 then (fun (v, s) => done v s) (readAt 4 a w s)
  else (fun (v, s) => done v s) (fresh s)

/-- HIGH_HALF_LATCH: a read on a path: of BAR0, which completes behind the BAR0 writes before it (R395), or of a command port, whose REG_RD it is a
word of. -/
def highHalfLatch (path : Option Port) (rd : BarRead) (s : State) : State :=
  match path with
  | none => if barWaits s then post (.barRead rd.addr.toNat rd.width) s else barReadNow rd.addr.toNat rd.width s
  | some p => if [1, 2, 4, 8].contains rd.width ∧ rd.addr.toNat % rd.width = 0 then (readAt (portNo p) rd.addr.toNat rd.width s).2 else s
def execHighHalfLatch (path : Option Port) (rd : BarRead) (s : State) := live s (highHalfLatch path rd s)

end Sys2Proof.Machine
end

