-- ==== Sys2Proof/Machine/Access.lean ====
section
/-! DEFINITION. Register writes: access codes, locks and privilege, the ranges each block admits, REG_WR, REG_RMW, BAR0 writes and the bit aliases
(R302, R326, R376, R384, R387, R388, R399 to R404, R408, R451, R463). -/

namespace Sys2Proof.Machine

open Config

/-! ### Locks (R375, R376, R403) -/

/-- Bits of the register at a that a set lock covers. -/
def lockedBits (s : State) (a : Nat) : Word :=
  if a = aPRIV_HOST ∨ a = aPRIV_INBAND then (if regBit s a 31 then 0x7FF else 0)
  else if a = aPAIR_CFG then (if regBit s aLOCKS 4 then 0x30000000 else 0)
  else if a = aSAG_CFG then (if regBit s aLOCKS 3 then 0x7F else 0)
  else 0

/-- Bits that class 1 may not write: the privilege maps and the LK fields (R376). -/
def classBits (a : Nat) : Word :=
  ((regInfo a).map RegInfo.lk).getD 0 ||| (if a = aPRIV_HOST ∨ a = aPRIV_INBAND then 0x7FF else 0)

/-! ### Values a block admits (R285, R286, R296, R302, R326, R408, R451) -/

/-- Every listed field lies in its range. -/
def inRange (v : Word) (l : List (Nat × Nat × Nat × Nat)) : Bool :=
  l.all (fun x => x.2.2.1 ≤ fld v.toNat x.1 x.2.1 && fld v.toNat x.1 x.2.1 ≤ x.2.2.2)

/-- A quality level of Table 9.2, or the two ends of its range (R275). -/
def qlOk (q : Nat) : Bool := q ≠ 4 && !(9 ≤ q && q ≤ 14)

/-- The value is admitted in the timing register at a (Tables 9.6 to 9.8). -/
def timingOk (a : Nat) (v : Word) : Bool :=
  let o := a % 0x10000
  let n := v.toNat
  if o < 0x100 then
    (if o % 0x10 = 0 then qlOk (fld n 26 23)
     else if o % 0x10 = 4 ∧ o < 0x40 then 1000 ≤ fld n 29 0 && decide (fld n 29 0 ≤ 800000000) else true)
  else if 0x200 ≤ o ∧ o < 0x260 then
    let out := (o - 0x200) / 0x10
    match o % 0x10 with
    | 0x0 => (fld n 30 28 ≤ 3 || (fld n 30 28 = 4 && 4 ≤ out)) && decide (fld n 26 25 ≤ 2)
    | 0x4 => decide (v.toInt.natAbs ≤ 622080000)
    | 0x8 => 1 ≤ fld n 23 0 && decide (fld n 23 0 < pulsePeriod out)
    | _ => true
  else match o with
    | 0x100 => (fld n 31 27 = 31 || refIxs.contains (fld n 31 27)) && qlOk (fld n 22 19) && decide (fld n 9 0 ≤ 720)
    | 0x104 => inRange v [(31, 22, 1, 1000), (21, 8, 10, 10000), (7, 0, 1, 255)]
    | 0x108 => inRange v [(29, 23, 1, 100), (22, 16, 1, 60), (15, 8, 1, 255), (7, 0, 1, 255)]
    | 0x118 => inRange v [(17, 8, 1, 600), (7, 0, 1, 168)]
    | _ => true

/-- The value is admitted in DOM_CFG of a domain (Table 10.5, R313). -/
def domCfgOk (s : State) (b : Bool) (v : Word) : Bool :=
  inRange v [(31, 26, 24, 43), (25, 16, 10, 1000), (13, 0, 1, 10000)] && fld v.toNat 31 26 ≠ regFld s (aDOM_CFG (!b)) 31 26

/-! ### Writes with behaviour of their own -/

/-- An input edge in the mill cycle of a REALIGN write anchors the output (Table 9.5); one captured before it does not. -/
def edgeNow (o : Nat) (s : State) : State :=
  if (refOf s (4 + pulseSrc s o)).edgeAt = some s.now ∧ pulseSrc s o ≤ 1 then edgeFor (pulseSrc s o = 1) o s else s

/-- A timing register takes w (R285, R292, R297, R299): ws are its WS bits written 1. -/
def timingStore (a : Nat) (w ws m : Word) (s : State) : State :=
  let o := a % 0x10000
  if 0x300 ≤ o ∧ o < 0x340 ∧ o % 0x10 = 0 then ccfg ((o - 0x300) / 0x10) w s
  else if !timingOk a w then timingRefused a s
  else
    let old := regRaw s a
    let s := setRaw a w s
    if o < 0x100 ∧ o % 0x10 = 0 ∧ old.getLsbD 31 ∧ !w.getLsbD 31 then refLeave (o / 0x10) s
    else if o = 0x100 then
      { s with timing := { s.timing with
          wtrClr := s.timing.wtrClr || decide (ws ≠ 0),
          manNew := if m &&& 0xF8000000 = 0 then s.timing.manNew else decide (fld w.toNat 31 27 ≠ 31) } }
    else if o = 0x114 then (if xor (old.getLsbD 31) (w.getLsbD 31) then tempSrcMoved s else s)
    else if 0x200 ≤ o ∧ o < 0x260 ∧ o % 0x10 = 0 ∧ (ws ≠ 0 ∨ (!old.getLsbD 31 ∧ w.getLsbD 31)) then
      let k := (o - 0x200) / 0x10
      let s := settlePulse k s
      let x := pulseOf s k
      edgeNow k (setPulse k { x with wantAnchor := true, stepHeld := false, grid := if old.getLsbD 31 then x.grid else none, slew := 0, due := none,
                                     realign := decide (ws ≠ 0) } s)
    else s

/-- TIME_CTL (R308, R318): SEL_DOM where the write covers it. -/
def timeCtlStore (w ws m : Word) (s : State) : State :=
  let s := setRaw aTIME_CTL (w &&& 8) s
  let b := w.getLsbD 1
  let s := if m.getLsbD 1 ∧ !(b && !twoDom s) then askSel b s else s
  if ws ≠ 0 then capture s else s

/-- A hopper's HWM takes the held count (Table 13.12). -/
def hwmClear (h : Nat) (s : State) : State :=
  match hopOf s h with
  | some x => setHop h { x with hwm := x.items.length } s
  | none =>
    if h = 0x20 then { s with pair := { s.pair with streamHwm := s.pair.sent.length } }
    else setLane (h - 0x30) { lane s (h - 0x30) with hwm := (lane s (h - 0x30)).hopper.length } s

/-- HCFG (R417, R426): an OWNER of 3 names no port and changes nothing. -/
def hcfgStore (h : Nat) (w ws m : Word) (s : State) : State :=
  let o : BitVec 2 := BitVec.ofNat 2 (fld w.toNat 31 30)
  let s := if 1 < h then s
    else
      let s := setLevel h (fld w.toNat 19 0) s
      if (m &&& 0xC0000000) = 0 ∨ o = 3 then s else setOwner h o s
  if ws ≠ 0 then hwmClear h s else s

/-- FENCE_IN_N has left the ball of GPIO k that was asserted: the ball's fence ends (R462, Table 15.9). -/
def pinFenceEnds (k : Option Nat) (s : State) : State :=
  if s.pair.fencedPin ∧ gpioHolder s 4 ≠ k then
    fenceLifted { s with pair := { s.pair with fencedPin := false }, power := { s.power with fenceIn := false } }
  else s

/-- The ring registers that RUN holds fixed: bases and sizes (R384). -/
def ringFixed (a : Nat) : Bool := [0x60010, 0x60014, 0x60018, 0x60030, 0x60034, 0x60038].contains a

/-- RING_CTL (R384, R387): RESET is accepted only while RUN is 0. -/
def ringStore (w ws m : Word) (s : State) : State :=
  let s := if ws ≠ 0 ∧ !s.cmd.ringRun then { s with cmd := { s.cmd with cmdHead := 0, rplHead := 0 } } else s
  if m.getLsbD 0 then { s with cmd := { s.cmd with ringRun := w.getLsbD 0 } } else s

/-- The stored bits of the register at a become w; ws are the WS bits written 1 and m the bits the write covers. -/
def regStore (a : Nat) (w ws m : Word) (s : State) : State :=
  if 0x20000 ≤ a ∧ a < 0x30000 then timingStore a w ws m s
  else if a = aTIME_CTL then timeCtlStore w ws m s
  else if a = aDOM_CFG false then (if domCfgOk s false w then setRaw a w s else timingRefused a s)
  else if a = aDOM_CFG true then (if domCfgOk s true w then setRaw a w s else timingRefused a s)
  else if a = aPAIR_CFG then pairCfgWrite w s
  else if a = aSAG_CFG then (if 90 ≤ fld w.toNat 6 0 ∧ fld w.toNat 6 0 ≤ 114 then setRaw a w s else event 0x0908 0 0 (beBytes 4 a) s)
  else if ringFixed a then
    (if s.cmd.ringRun ∨ (a % 0x20 = 0x18 ∧ !inRange w [(3, 0, 4, 10)]) then s else setRaw a w s)
  else if a = aRING_CTL then ringStore w ws m s
  else if 0x70000 ≤ a ∧ a < 0x80000 then hcfgStore (a % 0x10000 / 0x40) w ws m s
  else if a = 0x80000 then (if ws ≠ 0 then snapshotAll s else s)
  else if a = aBW_CFG then (if windowOk (fld w.toNat 13 0) then setRaw a w s else timingRefused a s)
  else if a = aMW_CMD then (if ws ≠ 0 then (if w.getLsbD 1 then mwWrite s else mwRead s) else setRaw a w s)
  else if 0x90000 ≤ a ∧ a < 0xA0000 then pinFenceEnds (gpioHolder s 4) (setRaw a w s)
  else if 0x400000 ≤ a ∧ a < 0x480000 then
    let g := (a - 0x400000) / 0x10000
    let o := a % 0x10000
    if o = 0 then quadWrite g (fld w.toNat 1 0) s
    else if 0x10 ≤ o ∧ o < 0x90 ∧ (o - 0x10) % 0x20 = 0 then portCfgWrite (4 * g + (o - 0x10) / 0x20) w s
    else setRaw a w s
  else if 0x800000 ≤ a ∧ a < 0xC00000 ∧ a % 0x10000 = 0 then treeCtl ((a - 0x800000) / 0x10000) (BitVec.ofNat 2 (fld w.toNat 1 0)) s
  else setRaw a w s

/-- The register at a admits a write now. -/
def writable (s : State) (a : Nat) : Bool := inRegs a && regHere s a && quadHere s a && treeHere s a

/-- a is PORT_CFG of a first lane whose quad domain is off: a write of ENABLE = 1 there is reported (R429). -/
def portCfgOff (s : State) (a : Nat) : Bool :=
  0x400000 ≤ a && a < 0x480000 && 0x10 ≤ a % 0x10000 && a % 0x10000 < 0x90 && (a % 0x10000 - 0x10) % 0x20 = 0 && regHere s a && !quadHere s a

/-- A write of v to the bits m of the 32-bit register at a, by the access codes of its fields (R402 to R404). An SC register takes whole
writes only. -/
def regWrite (a : Nat) (v m : Word) (s : State) : State :=
  match regInfo a with
  | none => s
  | some i =>
    if !writable s a then
      (if portCfgOff s a && (v &&& m).getLsbD 31 then ulRefused (4 * ((a - 0x400000) / 0x10000) + (a % 0x10000 - 0x10) / 0x20) a s else s)
    else if i.sc ≠ 0 then (if m = 0xFFFFFFFF then setRaw a (scWrite (regRaw s a) v i.sc) s else s)
    else if i.rw = 0 ∧ i.lk = 0 ∧ i.ws = 0 then s
    else
      let rw := i.rw &&& m
      let w := ((regRaw s a &&& ~~~regMirror a ||| BitVec.ofNat 32 (hwVal s a)) &&& i.rw &&& ~~~rw) ||| (v &&& rw)
      if i.lk ≠ 0 then setRaw a (w ||| (regRaw s a &&& i.lk) ||| (v &&& i.lk &&& m)) s
      else regStore a w (v &&& i.ws &&& m) m s

/-- What a counter has gained in the present cycle: of one that has restarted in it, all it holds. -/
def cntGain (a : Nat) (s : State) : BitVec 64 :=
  let o := (mget {} s.cyc a).v
  let c := (cntOf s a).v
  if c.toNat < o.toNat ∧ o.toNat < 2 ^ 63 ∧ a % 0x40 ≠ 0x28 then c else c - o

/-- A preset of the counter at a (R405): the value and the increments of the cycle, in which no wrap is recorded (Table 13.2). -/
def presetCnt (a : Nat) (v : BitVec 64) (s : State) : State :=
  if isCounter s a && writable s a then
    { s with cnt := mput {} s.cnt a { cntOf s a with v := v + cntGain a s, wrap := (mget {} s.cyc a).wrap, preset := true },
             bwSrc := if bwSource a then mput 0 s.bwSrc a (2 ^ 64) else s.bwSrc }
  else s

/-- One 32-bit write at an address, without the bits `not_`. -/
def write32 (a : Nat) (v not_ : Word) (s : State) : State := regWrite (regBase a) (accVal a v) (accMask a &&& ~~~not_) s

/-! ### GPIO functions (R463) -/

/-- The first function of 2 to 5 that a write would give to a second GPIO: the function, the GPIO that holds it now, and the other. -/
def gpioClash (before after : State) : Option (Nat × Nat × Nat) :=
  ([2, 3, 4, 5].map (fun f =>
    let l := (List.range 16).filter (fun k => regFld after (aGPIO k) 31 28 = f)
    match l with
    | x :: y :: _ =>
      let held := (l.find? (fun k => regFld before (aGPIO k) 31 28 = f)).getD x
      if l.all (fun k => regFld before (aGPIO k) 31 28 = f) then none else some (f, held, if held = x then y else x)
    | _ => none)).findSome? id

/-! ### REG_WR and REG_RMW (R376, R388, R403, R463) -/

/-- Widths that a register write may not have: 32 bits to a half of a 64-bit register, 64 bits to anything else (R399). -/
def badWidth (s : State) (a w : Nat) : Bool :=
  if isAlias a then w ≠ 4 else if w = 8 then !wide s a else inWide s a

/-- Width, alignment, privilege and locks of a write to the registers `as_`: none if it may go ahead. -/
def writeBars (h : Hdr) (op w : Nat) (as_ : List Nat) (s : State) : Option Res :=
  match as_.find? (fun a => a % w ≠ 0) with
  | some a => some (resAlign a s)
  | none =>
    match as_.find? (fun a => badWidth s a w) with
    | some a => some (resWidth a s)
    | none =>
      if h.port = .host ∧ as_.any (fun a => classBits (regBase a) ≠ 0) then some (resPriv h.port op s)
      else match (if h.port = .board then as_.find? (fun a => lockedBits s (regBase a) ≠ 0) else none) with
        | some a => some (resLocked (regBase a / 4 * 4) s)
        | none => none

/-- The address names QUAD_CFG of a quad. -/
def isQuadCfg (a : Nat) : Bool := 0x400000 ≤ regBase a && regBase a < 0x480000 && regBase a % 0x10000 = 0

/-- The writes applied in address order, bits under a set lock left out; the ENABLE writes apply before the MODE write of one cycle (R277). -/
def writeAll (l : List (Nat × BitVec 64)) (w : Nat) (s : State) : State :=
  (l.filter (fun x => !isQuadCfg x.1) ++ l.filter (fun x => isQuadCfg x.1)).foldl (fun s x =>
    if w = 8 then presetCnt x.1 x.2 s else write32 x.1 (x.2.setWidth 32) (lockedBits s (regBase x.1)) s) s

/-- The addresses and values of a REG_WR. -/
def wrList (a w n : Nat) (data : List Byte) : List (Nat × BitVec 64) :=
  (List.range n).map (fun i => (a + i * w, BitVec.ofNat 64 (natAt data (i * w) w)))

/-- The result stands unless two GPIOs would hold one function. -/
def gpioJudge (reply : List Byte) (before after : State) : Res :=
  match gpioClash before after with
  | some (_, k, _) => resConflict 5 k before
  | none => resOk reply after

def opRegWr (h : Hdr) (addr : Word) (width : BitVec 8) (count : BitVec 16) (data : List Byte) : Op where
  bad _ := 0
  run s :=
    let w := width.toNat
    let l := wrList addr.toNat w count.toNat data
    if w ≠ 4 ∧ w ≠ 8 then resWidth addr.toNat s
    else if count = 0 then resBad 22 s
    else match writeBars h 0x101 w (l.map Prod.fst) s with
      | some r => r
      | none => gpioJudge [] s (writeAll l w s)

def opRegRmw (h : Hdr) (addr mask value : Word) : Op where
  bad _ := 0
  run s :=
    let a := addr.toNat
    match writeBars h 0x102 4 [a] s with
    | some r => r
    | none =>
      let old := readAny s a
      let new := (old &&& ~~~mask) ||| (value &&& mask)
      gpioJudge (beBytes 4 old.toNat) s (writeAll [(a, new.setWidth 64)] 4 s)

def execRegWr (h : Hdr) (a : Word) (w : BitVec 8) (c : BitVec 16) (d : List Byte) (s : State) :=
  command (.regWr h a w c d) (opRegWr h a w c d) s
def execRegRmw (h : Hdr) (a m v : Word) (s : State) := command (.regRmw h a m v) (opRegRmw h a m v) s

/-! ### BAR0 writes (R374, R376, R399, R403, R463) -/

/-- A write by the host to one 32-bit register arrives, one through an alias being a write of its register (R400): bits it may not write, or that are locked, are reported and left out, and the
rest waits for the stroke boundary (R374, R376, R403). -/
def barOne (a : Nat) (v : Word) (s : State) : State :=
  let b := regBase a
  let m := accMask a
  let no := classBits b
  let lk := lockedBits s b &&& ~~~no
  let s := if no ≠ 0 then event 0x0004 0x0B 1 (beBytes 4 a) s else s
  let s := if lk ≠ 0 then event 0x0006 0x0B 1 (beBytes 4 a) s else s
  if (no ||| lk) &&& m = m then s else post (.bar a 4 (v.setWidth 64) (no ||| lk)) s

/-- A BAR0 write takes hold at its stroke boundary (R374): a counter preset, or a register write, mirrored where it is shared (R354) and
discarded where two GPIOs would hold one function (R463); bits locked since it arrived are reported and left out (Table 13.2). The record carries the bits left out as they stand. -/
def landBar (a w : Nat) (v : BitVec 64) (no : Word) (s : State) : State :=
  if w = 8 then presetCnt a v s
  else
    let lk := lockedBits s (regBase a) &&& ~~~no
    let s := if lk &&& accMask a ≠ 0 then event 0x0006 0x0B 1 (beBytes 4 a) s else s
    let no := no ||| lk
    let t := write32 a (v.setWidth 32) no s
    match gpioClash s t with
    | some (f, k, j) => event 0x000B 0x0E j (beBytes 1 f ++ beBytes 1 k) s
    | none => mirrorBar a (if isAlias a then v.setWidth 32 else v.setWidth 32 &&& ~~~no ||| regRaw s a &&& no) t

/-- Lock bits take hold (R403). -/
def landLock (a : Nat) (v : Word) (s : State) : State :=
  let w := regRaw s a ||| (v &&& ((regInfo a).getD {}).lk)
  mirrorBar a w (setRaw a w s)

/-- The address names a register (R394). -/
def regThere (s : State) (a : Nat) : Bool :=
  isAlias a || (inRegs a && ((regInfo (a / 4 * 4)).isSome || isCounter s (a / 8 * 8) || (holdSlot a).any (fun x => isCounter s x.1)))

/-- BAR0 write of w bytes at a. -/
def barWrite (a w : Nat) (v : BitVec 64) (s : State) : State :=
  let lo : Word := v.setWidth 32
  let hi : Word := (v >>> 32).setWidth 32
  if !regThere s a then s
  else if a % 4 = 0 ∧ w = 4 ∧ !(badWidth s a 4) then barOne a lo s
  else if a % 8 = 0 ∧ w = 8 ∧ !isAlias a ∧ wide s a then post (.bar a 8 v 0) s
  else if a % 8 = 0 ∧ w = 8 ∧ !isAlias a ∧ !inWide s a then barOne (a + 4) hi (barOne a lo s)
  else event 0x0005 0x0B 1 (beBytes 4 a ++ beBytes 1 w) s

/-- CMD_TAIL, RPL_TAIL and RING_CTL escape LK_BARWR (Table 13.6). -/
def barExempt (a : Nat) : Bool := [aCMD_TAIL, aRPL_TAIL, aRING_CTL].contains (regBase a)

/-- A BAR0 write of host software. -/
def barStep (a w : Nat) (v : BitVec 64) (s : State) : Host.Outcome State Fault Refusal :=
  if barExempt a then .next (if s.power.phase = .running ∧ !s.power.rescue then barWrite a w v s else s)
  else liveBar a s (barWrite a w v s)

/-- A BAR0 write of a whole 32-bit register. -/
def bar32 (a : Nat) (v : Word) (s : State) : Host.Outcome State Fault Refusal := barStep a 4 (v.setWidth 64) s

/-- Alias address of bit b of the register at a (R400). -/
def aliasOf (a b : Nat) : Nat := 0x20000000 + a * 32 + b * 4

/-- The register at a with the bits m taken from v. -/
def withBits (s : State) (a : Nat) (m v : Word) : Word := (readWord s a &&& ~~~m) ||| (v &&& m)

def execRegisterWrite (a : Word) (w : Nat) (v : BitVec 64) (s : State) := barStep a.toNat w v s
/-- BIT_ALIAS: an address outside the alias region is no alias. -/
def execBitAlias (a v : Word) (s : State) : Host.Outcome State Fault Refusal := if isAlias a.toNat then bar32 a.toNat v s else .next s
def execSequenceClear (a v : Word) (s : State) := bar32 a.toNat v s
/-- LOCK: LK fields are written from class 0 (R403), whatever the rest of the register. -/
def execLock (a v : Word) (s : State) :=
  live s (if ((regInfo a.toNat).getD {}).lk ≠ 0 then post (.lock a.toNat v) s else s)
def execTreeCtl (n : Fin 64) (g : BitVec 2) (s : State) := bar32 (aTREE n.val) (g.setWidth 32) s
def execMwRead (s : State) := bar32 aMW_CMD 1 s
def execMwWrite (s : State) := bar32 aMW_CMD 3 s
/-- CAPTURE alone of TIME_CTL: SEL_DOM is not written. -/
def execCapture (s : State) := bar32 (aliasOf aTIME_CTL 0) 1 s
def execSelDom (b : Bool) (s : State) := bar32 aTIME_CTL (withBits s aTIME_CTL 2 (if b then 2 else 0)) s
def execSnapCtlGo (s : State) := bar32 0x80000 1 s
def execOwner (hop : Fin 2) (o : BitVec 2) (s : State) :=
  bar32 (aHCFG hop.val) (withBits s (aHCFG hop.val) 0xC0000000 (o.setWidth 32 <<< 30)) s
/-- HWM_CLR of a hopper of Table 13.9. -/
def execHwmClr (hop : BitVec 8) (s : State) : Host.Outcome State Fault Refusal :=
  if hopListed hop.toNat then bar32 (aHCFG hop.toNat) (withBits s (aHCFG hop.toNat) 0x20000000 0x20000000) s else .next s
def execRingReset (s : State) := bar32 aRING_CTL (withBits s aRING_CTL 2 2) s
def execRun (on : Bool) (s : State) := bar32 aRING_CTL (if on then 1 else 0) s
def execCmdTail (t : BitVec 10) (s : State) := bar32 aCMD_TAIL (t.setWidth 32) s
def execRplTail (t : BitVec 10) (s : State) := bar32 aRPL_TAIL (t.setWidth 32) s
def execRealign (o : Fin 6) (s : State) := bar32 (aPCFG o.val) (withBits s (aPCFG o.val) 0x800000 0x800000) s
/-- WTR_CLR alone of SEL_CFG: MANUAL_REF is not written (R286). -/
def execWtrClr (s : State) := bar32 (aliasOf aSEL_CFG 23) 1 s
def execManualRef (r : BitVec 5) (s : State) := bar32 aSEL_CFG (withBits s aSEL_CFG 0xF8000000 (r.setWidth 32 <<< 27)) s
def execCcfg (k : Fin 4) (v : Word) (s : State) := bar32 (aCCFG k.val) v s
def execMode (v : Word) (s : State) := bar32 aPAIR_CFG v s
def execQuadCfg (g : Fin 8) (m : BitVec 2) (s : State) := bar32 (aQUAD g.val) (m.setWidth 32) s
def execPortEnable (l : Fin 32) (on : Bool) (s : State) :=
  bar32 (aPORT l.val) (withBits s (aPORT l.val) 0x80000000 (if on then 0x80000000 else 0)) s
def execTwinEn (l : Fin 32) (on : Bool) (q : BitVec 5) (s : State) :=
  bar32 (aPORT l.val) (withBits s (aPORT l.val) 0x07E00000 ((if on then 0x04000000 else 0) ||| (q.setWidth 32 <<< 21))) s
def execGpioCfg (k : Fin 16) (v : Word) (s : State) := bar32 (aGPIO k.val) v s

end Sys2Proof.Machine
end

