-- ==== Sys2Proof/Machine/Pins.lean ====
section
/-! DEFINITION. Pins: FENCE_IN_N, boundary scan, and the levels of the function balls (R382, R461 to R465, Tables 15.7, 15.8). -/

namespace Sys2Proof.Machine

/-! ### FENCE_IN_N (R462) -/

/-- The sampled level of GPIO k after POL becomes v. -/
def setSample (k : Nat) (v : Bool) (s : State) : State :=
  let raw : BitVec 16 := 1 <<< k
  let hi := xor v (regBit s (aGPIO k) 25)
  { s with power := { s.power with gpioIn := if hi then s.power.gpioIn ||| raw else s.power.gpioIn &&& ~~~raw } }

/-- FENCE_IN_ASSERT: 8 low samples on the ball of function 4. Outside a run the fence holds without further effect (R436). -/
def fencePinOn (s : State) : State :=
  match gpioHolder s 4 with
  | none => s
  | some k =>
    let s := setSample k false { s with power := { s.power with fenceIn := true } }
    if s.pair.fencedPin ∨ s.power.phase = .porst then s
    else
      let s := if s.power.phase = .running then fenceOn 2 s else s
      { s with pair := { s.pair with fencedPin := true } }

/-- FENCE_IN_DEASSERT: 8 high samples; it lifts only the ball's fence. -/
def fencePinOff (s : State) : State :=
  match gpioHolder s 4 with
  | none => s
  | some k =>
    let s := setSample k true { s with power := { s.power with fenceIn := false } }
    if s.pair.fencedPin then fenceLifted { s with pair := { s.pair with fencedPin := false } } else s

def execFenceInAssert (s : State) : Host.Outcome State Fault Refusal := .next (fencePinOn s)
def execFenceInDeassert (s : State) : Host.Outcome State Fault Refusal := .next (fencePinOff s)

/-! ### Boundary scan (R465) -/

/-- INSTRUCTION_LOAD: one that takes the balls while PORST_N is high fences the unit until PORST_N and releases its lease; during a save, whose
release has been made, it only fences (Table 15.9). What the tester has shifted into the boundary cells is its own: a free value. -/
def loadInstr (i : Jtag) (s : State) : State :=
  let (v, s) := fresh s
  let s := { s with power := { s.power with jtag := i, cells := v } }
  if !ballTaking i ∨ s.power.phase = .porst ∨ s.pair.fencedScan then s
  else
    let s := if s.power.phase = .running then fenceEvent 4 (stopUnit 8 s) else s
    { s with pair := { s.pair with fencedScan := true, fenceEpoch := some s.pair.epoch } }

def execInstructionLoad (i : Jtag) (s : State) : Host.Outcome State Fault Refusal := .next (loadInstr i s)
/-- TRST: TRST_N low or test-logic-reset loads BYPASS; the fence stays. -/
def execTrst (s : State) : Host.Outcome State Fault Refusal := .next { s with power := { s.power with jtag := .bypass } }

/-! ### Levels of the output balls -/

/-- The level at the ball: POL inverts it. -/
def gpioBall (s : State) (k : Nat) : Option Bool := (gpioDrive s k).map (fun v => xor v (regBit s (aGPIO k) 25))

/-- EVENT of SPI_STATUS: hopper 0 is the board's and has reached its level (R382, R418). -/
def spiEvent (s : State) : Bool := s.evt.owner = 0 && s.evt.level ≠ 0 && s.evt.level ≤ hopReadable s.evt

/-- INT_N is driven low (R382, Table 13.6); in rescue mode it is released (R458, Table 15.8). -/
def intLow (s : State) : Bool :=
  s.power.phase ≠ .porst && !s.power.rescue && !ballTaking s.power.jtag
    && (!s.cmd.board.replies.isEmpty || spiEvent s || (regBit s aINT_CFG 3 && regRaw s aGLB_EVT &&& 0x7F ≠ 0))

end Sys2Proof.Machine
end

