-- ==== Sys2Proof/Machine/Digest.lean ====
section
/-! DEFINITION. The digest of the canonical state: its serialisation, its two CRCs, and the comparison (R336, Table 11.3). The widths and the order
within an item are the model's (log 53). -/

namespace Sys2Proof.Machine

/-- One bit step, n times, of a CRC-64 taken most significant bit first. -/
def crc64Bits (poly : BitVec 64) : Nat → BitVec 64 → BitVec 64
  | 0, c => c
  | n + 1, c => crc64Bits poly n (if c.getLsbD 63 then (c <<< (1 : Nat)) ^^^ poly else c <<< (1 : Nat))

/-- CRC-64 of a byte string from 0. -/
def crc64 (poly : BitVec 64) (l : List Byte) : BitVec 64 :=
  l.foldl (fun (c : BitVec 64) (b : Byte) => crc64Bits poly 8 (c ^^^ (b.setWidth 64 <<< (56 : Nat)))) 0

/-- ECMA-182 and ISO 3309 polynomials. -/
def polyEcma : BitVec 64 := 0x42F0E1EBA9EA3693
def polyIso : BitVec 64 := 0x000000000000001B

/-- n bytes of an integer in two's complement. -/
def iBytes (n : Nat) (i : Int) : List Byte := beBytes n (twos (8 * n) i)

/-- A Boolean as a byte. -/
def bByte (b : Bool) : List Byte := beBytes 1 b.toNat

/-- Pair item. -/
def digPair (s : State) : List Byte :=
  let bk := fun (b : Bool) => beBytes 16 (((bank s b).plate.map Plate.id).getD 0).toNat ++ beBytes 1 (bankCode (bank s b).st)
  let t := match s.plates.turn with
    | some t => bByte true ++ bByte t.bank ++ e32 t.target
    | none => bByte false
  e32 s.imprNum ++ e32 s.pair.epoch ++ bk false ++ bk true ++ t

/-- Terminals item: one slot. -/
def digTerm (t : Term) : List Byte :=  e64 t.serial ++ beBytes 1 (termCode t.st) ++ beBytes 4 t.eqd ++ beBytes 4 t.rtd ++ t.allocs.flatMap (beBytes 2 ·)
    ++ bByte t.wasActive ++ beBytes 1 t.tries

/-- Keys item: one key set. -/
def digKey (kwk : BitVec 128) (k : KeySet) : List Byte :=
  let one := fun (st : KeySt) (v : BitVec 192) => beBytes 1 (keyCode st) ++ (if st = .empty then [] else e32 (keyCrc kwk v))
  bByte k.encrypt ++ one k.st0 k.key0 ++ one k.st1 k.key1

/-- A node's configuration. -/
def digNode (c : NodeCfg) : List Byte := beBytes 4 c.quantum ++ bByte c.sluEn ++ beBytes 4 c.rate ++ beBytes 4 c.burst

/-- Configuration item. -/
def digCfg (s : State) : List Byte :=
  let m := s.mill
  m.queues.flatMap (fun e => beBytes 4 e.1 ++ bByte e.2.enable ++ beBytes 1 e.2.dom ++ beBytes 1 e.2.port ++ beBytes 4 e.2.qlimit ++ digNode e.2.node)
    ++ (m.terms ++ m.doms ++ m.ports).flatMap (fun e => beBytes 4 e.1 ++ digNode e.2)
    ++ m.allocs.flatMap (fun e => beBytes 4 e.1 ++ bByte e.2.dynEn ++ beBytes 1 e.2.dom ++ beBytes 1 e.2.poll ++ digNode e.2.node)
    ++ m.sflows.flatMap (fun e => beBytes 2 e.1 ++ bByte e.2.valid ++ bByte e.2.dir ++ beBytes 1 e.2.tree ++ beBytes 1 e.2.term ++ beBytes 1 e.2.queue)
    ++ s.screens.flatMap screenBytes
    ++ s.tribs.flatMap (fun e => tribBytes e.1 e.2)
    ++ m.gens.flatMap (fun e => beBytes 2 e.1 ++ beBytes 2 ((e.2.getD 0).toNat))
    ++ (List.range 64).flatMap (fun n =>
      let t := tree s n
      beBytes 1 (treeTarget s n) ++ bByte t.protTypeB ++ beBytes 1 t.home ++ iBytes 2 t.skewCfg ++ beBytes 1 t.losBursts
        ++ beBytes 1 t.xtrig.toNat)
    ++ (List.range 32).flatMap (fun p => beBytes 1 ((uport s p).spare.getD 0xFF) ++ bByte (uport s p).utrig)

/-- Datapath item. -/
def digPath (s : State) : List Byte :=
  let m := s.mill
  m.points.flatMap (fun e => beBytes 2 e.1 ++ e32 e.2)
    ++ m.used.flatMap (fun e => beBytes 1 e.1 ++ beBytes 4 e.2)
    ++ m.pond.flatMap (fun e => beBytes 4 e.1 ++ beBytes 4 (queueCells s e.1))
    ++ m.nodes.flatMap (fun e => beBytes 5 e.1 ++ beBytes 4 e.2.deficit ++ iBytes 8 e.2.tokens ++ beBytes 5 e.2.cursor)
    ++ m.lanes.flatMap (fun e => beBytes 1 e.1 ++ beBytes 2 e.2.weir.length)
    ++ m.flumes.flatMap (fun e => beBytes 1 e.1 ++ beBytes 2 (flumeFree s e.1))
    ++ s.tribs.flatMap (fun e => beBytes 2 e.1 ++ beBytes 2 e.2.fcnt.toNat ++ e32 e.2.order ++ beBytes 1 (storeDepth e.2))

/-- Time item: C_b in the SAILS_ON unit's counter. -/
def digTime (s : State) : List Byte :=
  let one := fun (b : Bool) =>
    let d := tdom s b
    beBytes 1 (domCode d.st) ++ iBytes 16 d.tau ++ iBytes 8 d.r ++ iBytes 12 ((d.cb : Int) - (if s.pair.sails then 0 else s.pair.deltaC))
  one false ++ one true ++ bByte s.time.sel ++ iBytes 8 s.time.k

/-- The serialisation, in the order of Table 11.3. -/
def digBytes (s : State) : List Byte :=
  digPair s ++ (List.range 8192).flatMap (fun g => digTerm (term s g))
    ++ (List.range 8192).flatMap (fun i => digKey (s.power.kwk.getD 0) (keySet s i)) ++ digCfg s ++ digPath s ++ digTime s

/-- The digest. -/
def digestOf (s : State) : BitVec 128 := crc64 polyEcma (digBytes s) ++ crc64 polyIso (digBytes s)

/-- Both digests of one boundary held: equal on a JOINING pair whose quick tier is complete, ELIGIBLE; different, PL_DIGEST and the standby out of
step (R336, Table 11.1). -/
def digestCompare (s : State) : State :=
  match s.pair.digestOwn, s.pair.digestPartner with
  | some (i, a), some (j, b) =>
    if i ≠ j then s
    else
      let s := { s with pair := { s.pair with digestOwn := none, digestPartner := none } }
      if a = b then
        if s.pair.st = .joining ∧ s.pair.quickDone then
          { s with pair := { s.pair with st := .eligible, tier := 2, tierDone := 0, quickDone := false, tierAt := s.now, repaired := 0 } }
        else s
      else outOfStep 1 (defSet 5 0 PL_DIGEST (bump (cPair 0x120) 1 s))
  | _, _ => s

/-- The unit computes and sends its digest of boundary b, of number i. -/
def digestSend (b : Nat) (i : BitVec 32) (s : State) : State :=
  let d := digestOf s
  let s := { s with pair := { s.pair with digestOwn := some (i, d), digestAt := b } }
  digestCompare (sendRecs [{ stroke := b, body := .digest i d }] s)

/-- Boundary b comes on a unit of a pair with contact that is past the quick tier: the SAILS_ON unit computes its digest, the standby owes its own till
it reaches b in its lag (R336). -/
def digestAt (b : Nat) (s : State) : State :=
  if !(s.pair.contact && s.pair.st ≠ .solo && (s.pair.st ≠ .joining || s.pair.quickDone)) then s
  else if isStandby s then { s with pair := { s.pair with digestDue := some (b, s.imprNum) } }
  else digestSend b s.imprNum s

/-- The standby at counter value t: its digest of a boundary PAIR_LAG past is computed once no record of a stroke up to it is left (R336). -/
def digestLag (t : Nat) (s : State) : State :=
  match s.pair.digestDue with
  | some (b, i) => if b + Config.PAIR_LAG ≤ t ∧ s.pair.lag.all (fun r => b < r.stroke) then digestSend b i { s with pair := { s.pair with digestDue := none } } else s
  | none => s

end Sys2Proof.Machine
end

