-- ==== Sys2Proof/Machine/Frames.lean ====
section
/-! DEFINITION. Composition of the next PON frame of a tree: PLOAM messages, plate bursts, polls and dynamic bursts, powered receiver time
(R64, R67, R96 to R99, R155, R156, R247, R248, R433). -/

namespace Sys2Proof.Machine

open Config

/-! ### The frame composed next -/

/-- Start of the frame of tree n whose composition comes next: DS_BUILD ahead, and after the one last composed (R99). -/
def composeAt (s : State) (n : Nat) : Nat :=
  let t := tree s n
  let b := frameBoundary s s.now
  if t.frameAt = 0 then b else max b (t.frameAt + FRAME)

/-- Number of the frame that starts at counter value b, 0 to 79. -/
def frameIx (s : State) (b : Nat) : Nat :=
  if nextBoundary s ≤ b then (b - nextBoundary s) / FRAME % 80 else (b - s.imprAt) / FRAME % 80

/-- The plate in force in a frame that starts at b: the one a turn has engaged by then, or none after a disengage without such a turn (R56, R84). -/
def plateAt (s : State) (b : Nat) : Option Plate :=
  if b < nextBoundary s then engaged s
  else match s.plates.turn.filter (fun t => decide (t.at_ ≤ b)) with
    | some t => (bank s t.bank).plate
    | none => if s.plates.disengage.any (· ≤ b) then none else engaged s

/-- The plate and the number of a frame that starts at b, of this impression or of the one before it. -/
def framePlate (s : State) (b : Nat) : Option Plate := if b < s.imprAt then s.plates.prev else plateAt s b
def frameNo (s : State) (b : Nat) : Nat := if b < s.imprAt then 80 - (s.imprAt - b) / FRAME else frameIx s b

/-- Start of the frame that counter value t lies in. -/
def frameFloor (s : State) (t : Nat) : Nat :=
  if t < s.imprAt then s.imprAt - ceilDiv (s.imprAt - t) FRAME * FRAME else s.imprAt + (t - s.imprAt) / FRAME * FRAME

/-- State of the port in a frame that starts at b: a transition decided for then has taken place (R92). -/
def stAt (s : State) (n b : Nat) : TreeSt :=
  let t := tree s n
  let x := match t.moving with
    | some (x, c) => if c ≤ b then x else t.st
    | none => t.st
  if x = .serving ∧ !(plateAt s b).any (fun p => plateNames p n) then .lit else x

/-! ### PLOAM (R99, R155, R156) -/

/-- System_Profile and Channel_Profile go out in frame 0 of every impression (Table 4.5). -/
def queueProfiles (n f : Nat) (s : State) : State :=
  let has := fun (k : PKind) => (tree s n).msgs.any (fun m => m.kind = k)
  if f ≠ 0 then s
  else
    let s := if has .systemProfile then s else queueMsg n none .systemProfile 0 s
    if has .channelProfile then s else queueMsg n none .channelProfile 0 s

/-- The messages of a frame: at most 20, by class, in queue order within a class. -/
def pickMsgs (t : Tree) : List PMsg := (sortBy (fun m => ploamClass m.kind) (t.msgs ++ t.hostMsgs)).take 20

/-- A message sent: one that awaits acknowledgement starts its T_ACK, and is owed a PLOAM-only slot where no burst answers (R155). -/
def sentMsg (n : Nat) (m : PMsg) (s : State) : State :=
  match m.slot with
  | none => s
  | some k =>
    if !awaitsAck m.kind then s
    else
      let s := updTree n (fun t => { t with slotsDue := t.slotsDue.filter (· ≠ (k, m.seq)) ++ [(k, m.seq)] }) s
      updTerm (128 * n + k) (fun t =>
        if t.awaits.any (fun a => a.msg.seq = m.seq) then
          { t with awaits := t.awaits.map (fun a => if a.msg.seq = m.seq then { a with since := s.imprCount } else a) }
        else { t with awaits := t.awaits ++ [{ msg := m, resends := 0, since := s.imprCount }] }) s

/-- The PLOAM messages of frame f of tree n, which starts at b, leave their queues, each with the integrity key of its addressee (R139). -/
def composePloam (n f b : Nat) (s : State) : State :=
  let s := queueProfiles n f s
  let l := pickMsgs (tree s n)
  let sent := l.map (fun m => { m with mic := (m.slot.map (fun k => integrity s (128 * n + k) b)).getD .dflt })
  let s := updTree n (fun t => { t with msgs := t.msgs.filter (fun m => !l.contains m), hostMsgs := t.hostMsgs.filter (fun m => !l.contains m),
                                        sent := sent }) s
  l.foldl (fun s m => sentMsg n m s) s

/-! ### Grants (R64, R67) -/

/-- The terminal may be granted in a frame that starts at b: ACTIVE by then, and not withheld in a frame that holds a rogue probe occurrence
(R64, R160, R161, Table 4.3). -/
def grantable (s : State) (n k b : Nat) (probe : Bool) : Bool :=
  let t := term s (128 * n + k)
  (t.st = .active || (nextBoundary s ≤ b && t.activeDue.isSome && decides s))
    && !(probe && (tree s n).rogue.heldAt = some b && (tree s n).rogue.withheld.contains k)

/-- A burst time as this unit expects it: FEEDER_SKEW later than the plate states (R205). -/
def skewed (s : State) (n t : Nat) : Nat := ((t : Int) + skewOf s n).toNat

/-- Superframe counter of the frame composed next. -/
def nextSuperframe (s : State) (n : Nat) : Nat := ((tree s n).superframe + 1) % 2 ^ 32

/-- Plate bursts of tree n in frame f, granted. -/
def plateGrants (s : State) (p : Plate) (n f at_ : Nat) (probe : Bool) : List Grant :=
  ((groupBursts p.bursts).filter (fun g => g.head.tree = n && occursIn g.head.period g.head.phase f && grantable s n g.head.term at_ probe)).map
    (fun g => { term := g.head.term, rate := g.head.rate, pclass := g.head.pclass, start := skewed s n (at_ + g.head.start),
                len := g.end_ - g.head.start, allocs := g.recs.map (fun r => (r.alloc, r.dbru)), ploamu := g.head.ploamu, dynamic := false,
                base := at_, plateStart := at_ + g.head.start, superframe := nextSuperframe s n,
                firstCw := g.recs.map (fun r => (r.alloc, if r.chain then (r.start - (g.head.start + PRE g.head.pclass + DELIM)) / CW r.rate else 0)),
                xgem := xgemBytes ((g.end_ - g.head.start - (PRE g.head.pclass + DELIM)) / CW g.head.rate) g.head.ploamu
                  (g.recs.countP (·.dbru)) })

/-- Intervals of the plate's bursts of tree n in frame f, whether granted or not. -/
def burstTimes (p : Plate) (n f at_ : Nat) : List (Nat × Nat) :=
  ((groupBursts p.bursts).filter (fun g => g.head.tree = n && occursIn g.head.period g.head.phase f)).map
    (fun g => (at_ + g.head.start, at_ + g.end_))

/-- A burst [a, e) keeps GUARD_MIN and BANK_DRAIN with respect to the others, given by start and end in time order (R67, Table 2.13). -/
def burstFits (others : List (Nat × Nat)) (a e : Nat) : Bool :=
  let before := (others.filter (fun x => x.1 ≤ a)).reverse
  let after := others.filter (fun x => a < x.1)
  before.all (fun x => x.2 + GUARD_MIN ≤ a) && after.all (fun x => e + GUARD_MIN ≤ x.1)
    && ((before.drop 1).head?).all (fun x => x.2 + BANK_DRAIN ≤ a)
    && ((after.drop 1).head?).all (fun x => e + BANK_DRAIN ≤ x.1)
    && (match before.head?, after.head? with
        | some x, some y => decide (x.2 + BANK_DRAIN ≤ y.1)
        | _, _ => true)

/-- The earliest start at or after t that keeps both distances. -/
def earliest (others : List (Nat × Nat)) (t : Nat) : Nat :=
  let cands := t :: (others.flatMap (fun x => [x.2 + GUARD_MIN, x.2 + BANK_DRAIN])).filter (fun c => t ≤ c)
  ((sortBy id cands).find? (fun c => burstFits others c c)).getD t

/-- Start, class and most codewords of a dynamic burst of terminal g at or after t in a window that ends at w (R67, R247). -/
def dynPlace (s : State) (others : List (Nat × Nat)) (g t w : Nat) : Nat × Nat × Nat :=
  let a := earliest others t
  let tap := mget {} s.taps g
  let rate := (term s g).rate
  let cls := if tap.valid && tap.rate = rate && stampAge a tap.stamp ≤ TAP_STALE then 0 else 1
  let room := (w - a) / CW rate
  let ok := fun (k : Nat) => a + PRE cls + DELIM + k * CW rate ≤ w && burstFits others a (a + PRE cls + DELIM + k * CW rate)
  (a, cls, ((List.range (room + 1)).filter ok).foldl max 0)

/-- Allocations under a root. -/
def allocsUnder (s : State) (n : Nat) (dom : Option Nat) : List (Nat × ACfg) :=
  s.mill.allocs.filter (fun e => e.1 / 512 = n && dom.all (· = e.2.dom))

/-- The allocation may be granted in a frame that starts at b. -/
def allocLive (s : State) (n b : Nat) (probe : Bool) (e : Nat × ACfg) : Bool := e.2.dynEn && grantable s n (e.1 / 4 % 128) b probe

/-- A dynamic burst of k codewords for allocation a: counted, its allocation's GRANTED_SINCE raised, its poll count begun again (R247, R248). -/
def dynGrant (n b a at_ cls k : Nat) (s : State) : Grant × State :=
  let rate := (term s (a / 4)).rate
  let len := PRE cls + DELIM + k * CW rate
  let gr : Grant := { term := a / 4 % 128, rate := rate, pclass := cls, start := at_, len := len, allocs := [(a % 4, true)], ploamu := false,
                      base := b, plateStart := ((at_ : Int) - skewOf s n).toNat, superframe := nextSuperframe s n, dynamic := true, xgem := xgemBytes k false 1 }
  let s := { s with mill := { s.mill with allocs := mupd {} s.mill.allocs a (fun c =>
    { c with granted := c.granted + xgemBytes k false 1, needOld := c.needOld - xgemBytes k false 1, polledAt := s.imprCount }) } }
  (gr, bump (cbSlack n 1) len s)

/-- What a window occurrence has come to: the bursts placed in it, the next start, the state. -/
structure Filling where
  t : Nat
  got : List Grant
  s : State

/-- Bursts of a tree in time order with those of a filling. -/
def allTimes (others : List (Nat × Nat)) (got : List Grant) : List (Nat × Nat) :=
  sortBy Prod.fst (others ++ got.map (fun g => (g.start, grantEnd g)))

/-- Polls (R248), in allocation index order, each charged on its path only while that conforms (R241); nodes so left without need are cleared (R244). -/
def pollOne (n b w : Nat) (probe : Bool) (others : List (Nat × Nat)) (x : Filling) (e : Nat × ACfg) : Filling :=
  if !allocLive x.s n b probe e ∨ e.2.poll = 0 ∨ x.s.imprCount < e.2.polledAt + e.2.poll ∨ !((96 + n) :: allocPath x.s e.1).all (conforms x.s) then x
  else
    let (a, cls, k) := dynPlace x.s (allTimes others x.got) (e.1 / 4) x.t w
    if k = 0 then x
    else
      let (g, s) := dynGrant n b e.1 a cls 1 x.s
      { t := grantEnd g + GUARD_MIN, got := x.got ++ [g], s := clearAlloc e.1 (chargeTokens ((96 + n) :: allocPath s e.1) g.xgem s) }

/-- The loop of R247. -/
def dynLoop (n b w : Nat) (dom : Option Nat) (probe : Bool) (others : List (Nat × Nat)) : Nat → Filling → Filling
  | 0, x => x
  | fuel + 1, x =>
    let s := x.s
    let root := match dom with | some d => keyDom (96 + n) d | none => 96 + n
    let place := fun (a : Nat) => dynPlace s (allTimes others x.got) (a / 4) x.t w
    let kOf := fun (a : Nat) (c : ACfg) => min (ceilDiv (need s c + 12) 1824) (place a).2.2
    let hs := (allocsUnder s n dom).map (fun e =>
      let path := allocPath s e.1
      let path := if dom.isSome then path.tail else path
      -- an allocation without a head is passed over as ineligible (R244)
      if allocLive s n b probe e && decide (0 < need s e.2) then (path, xgemBytes (kOf e.1 e.2) false 1, path.all (conforms s))
      else (path, 0, false))
    if dom.isSome ∧ !conforms s (96 + n) then x
    else match drrPick root hs s with
      | (none, s) => { x with s := s }
      | (some (leaf, ch), s) =>
        let a := leaf - 0x200000000
        let k := kOf a (mget {} s.mill.allocs a)
        if k = 0 then { x with s := s }
        else
          let (at_, cls, _) := place a
          let path := allocPath s a
          let s := serveCharge (if dom.isSome then path.tail else path) ((96 + n) :: path) ch s
          let (g, s) := dynGrant n b a at_ cls k s
          dynLoop n b w dom probe others fuel { t := grantEnd g + GUARD_MIN, got := x.got ++ [g], s := clearAlloc a s }

/-- One occurrence of an upstream slack window (R247). -/
def fillWindow (n at_ : Nat) (probe : Bool) (others : List (Nat × Nat)) (x : List Grant × State) (q : SlackUp) : List Grant × State :=
  let w := skewed x.2 n (at_ + q.start + q.len)
  let dom := if q.shared then none else some q.dom
  let s := bump (cbSlack n 0) q.len x.2
  let f : Filling := { t := skewed x.2 n (at_ + q.start), got := x.1, s := s }
  let f := (allocsUnder s n dom).foldl (pollOne n at_ w probe others) f
  let f := dynLoop n at_ w dom probe others (q.len / 600 + 2) f
  (f.got, f.s)

/-- Every burst granted with DBRU restarts its allocation's poll count (R248). -/
def polledBy (n : Nat) (g : Grant) (s : State) : State :=
  g.allocs.foldl (fun s a => if a.2 then
    { s with mill := { s.mill with allocs := mupd {} s.mill.allocs (4 * (128 * n + g.term) + a.1) (fun c => { c with polledAt := s.imprCount }) } } else s) s

/-- Frame f of tree n holds a rogue probe occurrence: the plate's, or a ranging window that it opens of itself while LIT (R146, R159). -/
def probeFrame (s : State) (n f : Nat) (p : Option Plate) : Bool :=
  match p with
  | some p => p.quiets.any (fun q => q.tree = n && q.purpose = 2 && occursIn q.period q.phase f)
  | none => (tree s n).rogue.running && 2 ≤ f && rangingDue s n

/-- First start and last end of the rogue probe windows among a frame's windows, as this unit sees them (R146, R159, R205). -/
def probeSpan (s : State) (p : Option Plate) (n : Nat) (ws : List (Nat × Nat × Nat)) : Nat × Nat :=
  let l := ws.filter (fun w => w.1 = if p.isSome then 2 else 1)
  let at_ := fun (t : Nat) => if p.isSome then skewed s n t else t
  (((leastOf (l.map (fun w => w.2.1))).map at_).getD 0, at_ ((l.map (fun w => w.2.1 + w.2.2)).foldl max 0))

/-- The frame that starts at b holds the next occurrence: its grants are those withheld (R159). -/
def withholdIn (n b : Nat) (probe : Bool) (span : Nat × Nat) (s : State) : State :=
  updTree n (fun t =>
    if probe ∧ t.rogue.withheld ≠ [] ∧ t.rogue.heldAt.isNone then
      { t with rogue := { t.rogue with heldAt := some b, heard := false, heldSpan := span } }
    else t) s

/-- The grants of frame f of a SERVING tree, in StartTime order (R64, R98). -/
def composeGrants (n f at_ : Nat) (p : Plate) (s : State) : List Grant × State :=
  let probe := probeFrame s n f (some p)
  let fixed := plateGrants s p n f at_ probe
  let s := fixed.foldl (fun s g => polledBy n g s) s
  let others := (tree s n).grants.map (fun g => (g.start, grantEnd g)) ++ burstTimes p n f (skewed s n at_)
    ++ ((plateAt s (at_ + FRAME)).map (fun q => burstTimes q n ((f + 1) % 80) (skewed s n (at_ + FRAME)))).getD []
  let ws := p.slackups.filter (fun q => q.tree = n && occursIn q.period q.phase f)
  let (dyn, s) := ws.foldl (fillWindow n at_ probe others) ([], s)
  let l := sortBy Grant.start (fixed ++ dyn)
  (l, bump (cTree n 0x118) l.length s)

/-! ### The bandwidth map (R98, R103, R105, R107) -/

/-- Allocation ID of an allocation index of terminal k. -/
def allocId (s : State) (n k a : Nat) : Nat := ((term s (128 * n + k)).allocs[a]?).getD 0

/-- The structures of a burst's records: the first carries PLOAMU, a chained one 0 (R103); a record's data ends where the next one's begins. -/
def burstEntries (s : State) (n : Nat) (g : BurstG) : List MapEntry :=
  g.recs.map (fun r =>
    let d := if r.chain then r.start else r.start + PRE r.pclass + DELIM
    { use := .alloc (allocId s n r.term r.alloc), rate := r.rate, profile := r.pclass, data := d, len := r.start + r.len - d,
      ploamu := r.ploamu && !r.chain, dbru := r.dbru })

/-- The structures of a window of the frame that starts at counter value at_, one codeword at 12.4416 Gb/s with profile index 3 (R145): the serial-number
grant with S = W + REACH_DIFF × 1,219; the directed grant of a band ranging to the default allocation, whose ID is the terminal's ONU-ID (R137, R147); or
one such grant for each PLOAM-only slot packed, a response length apart (R148, R155); the unassigned ID where the window serves nothing (log 87). -/
def windowEntries (s : State) (n at_ : Nat) (w : Window) : List MapEntry :=
  let at40 := fun (id : MapUse) (start : Nat) (ploamu : Bool) =>
    { use := id, rate := 2, profile := 3, ploamu := ploamu, dbru := false, data := (start + 19) / 40 - at_ + PRE_X + DELIM, len := CW 2 : MapEntry }
  match w.purpose, w.band, w.packed with
  | 0, _, _ => [at40 .discovery (40 * (w.start + (tree s n).set.reach * RTT_PER_100M)) true]
  | 1, some (k, sg, _, _), _ => [at40 (.alloc k) sg true]
  | 1, none, x :: r => (indexed (x :: r)).map (fun e => at40 (.alloc e.2.1) (40 * (w.start + 20 + DISC_RESP * e.1)) true)
  | _, _, _ => [{ use := .unassigned, rate := 2, profile := 3, ploamu := false, dbru := false, data := w.start - at_, len := 0 }]

/-- ceil(LENGTH / 635) structures of an upstream slack window: its dynamic bursts, the rest with the unassigned ID at the window's end (log 87). -/
def slackEntries (s : State) (n at_ : Nat) (q : SlackUp) (dyn : List Grant) : List MapEntry :=
  let mine := dyn.filter (fun g => decide (at_ + q.start ≤ g.plateStart) && decide (g.plateStart < at_ + q.start + q.len))
  let used := mine.map (fun g =>
    let d := g.plateStart - at_ + PRE g.pclass + DELIM
    { use := .alloc (allocId s n g.term ((g.allocs.map Prod.fst).headD 0)), rate := g.rate, profile := g.pclass, data := d,
      len := g.plateStart - at_ + g.len - d, ploamu := false, dbru := true : MapEntry })
  used ++ List.replicate (ceilDiv q.len 635 - used.length)
    { use := .unassigned, rate := 0, profile := 0, data := q.start + q.len, len := 0, ploamu := false, dbru := false }

/-- The bandwidth map of frame f of a SERVING tree: one structure per item, in increasing StartTime order. A burst record that is not granted keeps
its place with the unassigned ID (log 87). -/
def plateMap (s : State) (p : Plate) (n f at_ : Nat) (grants : List Grant) (ws : List Window) : List MapEntry :=
  let bursts := ((groupBursts p.bursts).filter (fun g => g.head.tree = n && occursIn g.head.period g.head.phase f)).flatMap (fun g =>
    let l := burstEntries s n g
    if grants.any (fun x => !x.dynamic && x.plateStart = at_ + g.head.start) then l
    else l.map (fun e => { e with use := .unassigned, ploamu := false, dbru := false }))
  let slacks := (p.slackups.filter (fun q => q.tree = n && occursIn q.period q.phase f)).flatMap (fun q =>
    slackEntries s n at_ q (grants.filter (·.dynamic)))
  sortBy MapEntry.data (bursts ++ ws.flatMap (windowEntries s n at_) ++ slacks)

/-- Windows that a LIT tree opens of itself in frame f (R146): purpose, start, length. -/
def litWindows (s : State) (n f : Nat) : List (Nat × Nat × Nat) :=
  let t := (tree s n).set
  if f = 0 ∧ t.discEn then [(0, 4000, t.reach * RTT_PER_100M + DISC_RESP + RAND_SPAN)]
  else if 2 ≤ f ∧ rangingDue s n then [(1, 4000, QUIET_RANGE_MIN)]
  else []

/-- The windows of frame f, which starts at counter value at_, in order: the plate's QUIET records, or the tree's own while LIT (R146). -/
def windowsIn (s : State) (p : Option Plate) (n f at_ : Nat) : List (Nat × Nat × Nat) :=
  match p with
  | some p => sortBy (fun w => w.2.1) ((p.quiets.filter (fun q => q.tree = n && occursIn q.period q.phase f)).map
      (fun q => (q.purpose, at_ + q.start, q.len)))
  | none => (litWindows s n f).map (fun w => (w.1, at_ + w.2.1, w.2.2))

/-- Quiet windows and slack windows of frame f as [start, end) (R124, R125). -/
def quietsIn (s : State) (p : Option Plate) (n : Nat) (ws : List Window) : List (Nat × Nat) :=
  ws.map (fun w => if p.isSome then (skewed s n w.start, skewed s n (w.start + w.len)) else (w.start, w.start + w.len))
def slacksIn (s : State) (p : Option Plate) (n f at_ : Nat) : List (Nat × Nat) :=
  match p with
  | some p => (p.slackups.filter (fun q => q.tree = n && occursIn q.period q.phase f)).map (fun q =>
      (skewed s n (at_ + q.start), skewed s n (at_ + q.start + q.len)))
  | none => []

/-! ### Powered receiver time (R83, R433) -/

/-- BURST_GATING as agreed for the engaged plate's session, else for the device. -/
def gating (s : State) : Bool :=
  let b := fun (x : Bank) => x.st = .engaged && x.feats.getLsbD 7
  if s.plates.bank0.st = .engaged ∨ s.plates.bank1.st = .engaged then b s.plates.bank0 || b s.plates.bank1 else featOn s 7

/-- Powered intervals of the bursts and windows of tree n that begin in the frame that starts at counter value b, moved by `up` (R83): under the plate
of that frame, so that the new plate's intervals that begin before a turn's boundary pre-wake (Table 2.15). -/
def frameSpans (s : State) (n b up : Nat) : List (Nat × Nat) :=
  let f := frameNo s b
  let one := fun (period phase st e : Nat) => if occursIn period phase f then [(b + up + st - PREWAKE, b + up + e + GATE)] else []
  match framePlate s b with
  | none => []
  | some p =>
    (groupBursts p.bursts).flatMap (fun g => if g.head.tree = n then one g.head.period g.head.phase g.head.start g.end_ else [])
      ++ p.quiets.flatMap (fun q => if q.tree = n then one q.period q.phase q.start (q.start + q.len) else [])
      ++ p.slackups.flatMap (fun q => if q.tree = n then one q.period q.phase q.start (q.start + q.len) else [])

/-- Powered intervals of the frame of a SERVING tree that starts at b: those that begin in it, in the two frames before it, which a window may run
from, and before the start of the next (R83). Times are moved by two frames, so that none lies below 0. -/
def poweredIn (s : State) (n b : Nat) : List (Nat × Nat) :=
  let up := 2 * FRAME
  let lo := b + up
  mergeSpans (([0, 1, 2, 3].flatMap (fun k => if b + k * FRAME < up then [] else frameSpans s n (b + k * FRAME - up) up)).filterMap (fun x =>
    let a := max x.1 lo
    let e := min x.2 (lo + FRAME)
    if a < e then some (a, e) else none))

/-- Mill cycles of frame f, which starts at b, in which the FFE and DFE of tree n are clocked; counted when the frame is composed (log 52). -/
def rxPowered (s : State) (n b : Nat) (st : TreeSt) (ws : List Window) : Nat :=
  if !gating s then FRAME
  else if st = .serving then ((poweredIn s n b).map (fun x => x.2 - x.1)).sum
  else (ws.map (fun w => w.len + PREWAKE + GATE)).sum

/-! ### FRAME_COMPOSE -/

/-- Composition of the next frame of tree n begins (R99): on a LIT tree only PLOAM and its own windows. -/
def frameCompose (n : Nat) (s : State) : State :=
  let b := composeAt s n
  let st := stAt s n b
  if !(st = .lit || st = .serving) then s
  else
    let s := advance (b - DS_BUILD) s
    let f := frameIx s b
    let p := if st = .serving then plateAt s b else none
    let s := updTree n (fun t => { t with grants := t.grants.filter (fun g => b ≤ g.start + FRAME || s.now ≤ grantEnd g + T_UP_FRONT),
                                          plans := t.plans.filter (fun w => decide (s.now < w.start + w.len)) }) s
    let s := withholdIn n b (probeFrame s n f p) (probeSpan s p n (windowsIn s p n f b)) s
    let held := if (tree s n).rogue.heldAt = some b then (tree s n).rogue.withheld else []
    let (ws, s) := (windowsIn s p n f b).foldl (planWindow n held) ([], s)
    let s := composePloam n f b s
    let (new, s) := match p with
      | some p => composeGrants n f b p (rdiCapture p n b s)
      | none => ([], s)
    let s := bump (cbRx n) (rxPowered s n b st ws) s
    let map := match p with
      | some p => plateMap s p n f b new ws
      | none => ws.flatMap (windowEntries s n b)
    let keep := fun (l : List (Nat × Nat)) => l.filter (fun x => decide (s.now < x.2 + FRAME))
    updTree n (fun t => { t with
      grants := t.grants ++ new, frame := f, frameAt := b, superframe := (t.superframe + 1) % 2 ^ 32,
      quietSpans := keep t.quietSpans ++ quietsIn s p n ws, slackSpans := keep t.slackSpans ++ slacksIn s p n f b,
      lineNext := some { at_ := b, superframe := (t.superframe + 1) % 2 ^ 32, map := map, msgs := t.sent,
                         extra := (ws.flatMap (windowEntries s n b)).length - ws.length } }) s

def execFrameCompose (n : Fin 64) (s : State) := live s (frameCompose n.val s)

end Sys2Proof.Machine
end

