-- ==== Sys2Proof/Machine/Down.lean ====
section
/-! DEFINITION. The downstream composer: through-flow frames, tributary payloads and slack frames placed in the composable bytes of a PON frame
(R68, R100, R101, R131, R184, R185). -/

namespace Sys2Proof.Machine

open Config

/-! ### Sending one frame downstream -/

/-- Frames of domain d on tree n must be encrypted and no key is CURRENT (R131). -/
def keyAbsent (s : State) (n d : Nat) : Bool :=
  let k := keySet s (keyIx n d false)
  k.encrypt && k.st0 ≠ .current && k.st1 ≠ .current

/-- Key index and wrapped key of domain d's frames on tree n: the CURRENT slot, 0 in clear (R126, R131). -/
def downKey (s : State) (n d : Nat) : Nat × BitVec 192 :=
  let k := keySet s (keyIx n d false)
  if !k.encrypt then (0, 0) else if k.st0 = .current then (1, k.key0) else (2, k.key1)

/-- Bytes k to k + len of a frame placed with an XGEM header at composable byte q of tree n, under the key in force (R131, R164): composed on both units
of a pair (R95), counted by the one that emits; the last fragment delivers the frame. -/
def downPlace (n q k len : Nat) (fr : Frame) (s : State) : State :=
  let (ix, w) := downKey s n fr.dom
  let plain := (fr.data.drop k).take len
  let data := if ix = 0 then plain else xgemCrypt s.power.kwk w false (((tree s n).lineNow.map Comp.superframe).getD 0) q plain
  let last := decide (fr.len ≤ k + len)
  let s := updTree n (fun t => { t with placed := t.placed ++ [{ pos := q, portId := fr.flow, key := ix, last := last, data := data }] }) s
  if emitting s then bump (cbTree n 0) (len + 8) (if last then delivers fr.flow fr.point s else s) else s

/-- A frame of tree n that has a key at composable byte q: chaff is discarded by the unit that emits (R334), any other is placed. -/
def downSend (n q : Nat) (fr : Frame) (s : State) : State :=
  if fr.chaff then (if emitting s then bump (cPair 0x148) 1 s else s) else downPlace n q 0 fr.len fr s

/-- The first composable byte after what is placed. -/
def placedEnd (x : Placed) : Nat := x.pos + (if x.idle = 0 then 8 + x.data.length else x.idle)

/-- Idle XGEM frames over the bytes [a, b): as few as the header's length field allows (R101, log 118). -/
def idlePieces (a b : Nat) : List Placed :=
  (List.range (ceilDiv (b - a) 16391)).map (fun i => { pos := a + 16391 * i, idle := min 16391 (b - (a + 16391 * i)) })

/-- Composition goes on at composable byte q: what lies before it and holds nothing carries idle XGEM frames (R101). -/
def setComp (n q : Nat) (s : State) : State :=
  updTree n (fun t => { t with compPos := q, placed := t.placed ++ idlePieces (max t.compPos ((t.placed.getLast?.map placedEnd).getD 0)) q }) s

/-- The allowance of a flow is whole again once its occurrence is past (R70). -/
def occPassed (f : Nat) (s : State) : State := { s with mill := { s.mill with usedFpb := mput 0 s.mill.usedFpb f 0 } }

/-! ### DOWN slots (R184) -/

/-- A tributary's mapped payload sent in its slot d of tree n, whose composable bytes hold nothing (R174, R184). -/
def slotSend (n : Nat) (r : Flow) (d : Down) (s : State) : State :=
  let t := trib s r.id
  let fr : Frame := { flow := r.id, dom := r.dom, len := t.mapped.length, point := nextPoint s r.id none - 1, chaff := false, data := t.mapped }
  let s := setTrib r.id { t with mapped := [] } s
  if d.len < fr.len + 8 then s
  else if keyAbsent s n r.dom then bump (cTree n 0x140) 1 s
  else downSend n d.off fr s

/-- One decision in a DOWN slot occurrence of tree n; bytes before `lim` may be decided now. -/
def downSlot (p : Plate) (n lim : Nat) (d : Down) (s : State) : State :=
  let pos := (tree s n).compPos
  let stop := d.off + d.len
  let leave := fun (s : State) => setComp n stop (occPassed d.flow s)
  match flowIn p d.flow with
  | none => leave s
  | some r =>
    if r.trib then
      let t := trib s r.id
      if t.held then leave (setTrib r.id { t with mapped := [] } s)
      else if t.mapped = [] ∨ pos ≠ d.off then leave s
      else leave (slotSend n r d s)
    else
      match mget [] s.mill.tail r.id with
      | [] => if stop ≤ lim then leave s else setComp n lim s
      | fr :: rest =>
        let s' := { s with mill := { s.mill with tail := mput [] s.mill.tail r.id rest } }
        if keyAbsent s n fr.dom then bump (cTree n 0x140) 1 s'
        else if stop < pos + fr.len + 8 then leave s
        else
          let s := downSend n pos fr s'
          let q := pos + fr.len + 8
          if q = stop then leave s else setComp n q s

/-! ### Gaps (R101, R185) -/

/-- The first frame waiting in the flume of a draw target leaves it. -/
def flumePop (t : Nat) (rest : List Frame) (s : State) : State := { s with mill := { s.mill with flumes := mput [] s.mill.flumes t rest } }

/-- One decision in a gap [pos, gapEnd) of tree n: `area` bytes are composable, and the next frame begins with `nextGap` bytes outside every DOWN
slot. A frame is fragmented only where its rest fits those bytes (R185, log 119). -/
def downGap (n lim area nextGap gapEnd : Nat) (s : State) : State :=
  let pos := (tree s n).compPos
  match mget [] s.mill.flumes n with
  | [] => setComp n (min lim gapEnd) s
  | fr :: rest =>
    let left := gapEnd - pos
    if keyAbsent s n fr.dom then bump (cTree n 0x140) 1 (flumePop n rest s)
    else if fr.len + 8 ≤ left then setComp n (pos + fr.len + 8) (downSend n pos fr (flumePop n rest s))
    else if gapEnd = area ∧ 8 < left ∧ fr.len - (left - 8) + 8 ≤ nextGap then
      let s := flumePop n rest s
      let s := if fr.chaff then s else downPlace n pos 0 (left - 8) fr s
      setComp n area (updTree n (fun t => { t with carry := fr.len - (left - 8) + 8, carryOf := some (fr, left - 8) }) s)
    else setComp n gapEnd s

/-- Decisions until the cursor reaches `lim`. -/
def downLoop (p : Plate) (n lim area nextGap : Nat) (ds : List Down) : Nat → State → State
  | 0, s => s
  | fuel + 1, s =>
    let pos := (tree s n).compPos
    if lim ≤ pos then s
    else
      let s' := match ds.find? (fun d => d.off ≤ pos && pos < d.off + d.len) with
        | some d => downSlot p n lim d s
        | none => downGap n lim area nextGap (((ds.find? (fun d => pos < d.off)).map Down.off).getD area) s
      downLoop p n lim area nextGap ds fuel s'

/-- The rest of a slack frame opens the PON frame that starts at ft, under the key in force there (R131, R185). -/
def downRest (n ft : Nat) (s : State) : State :=
  let x := tree s n
  let s := updTree n (fun x => { x with compPos := 0, compAt := ft, carry := 0, carryOf := none, placed := [] }) s
  setComp n x.carry (match x.carryOf with
  | none => s
  | some (fr, k) =>
    if fr.chaff then (if emitting s then bump (cPair 0x148) 1 s else s)
    else if keyAbsent s n fr.dom then bump (cTree n 0x140) 1 s
    else downPlace n 0 k (fr.len - k) fr s)

/-- DOWN slots of tree n in frame f, by offset. -/
def downsIn (p : Plate) (n f : Nat) : List Down := sortBy Down.off (p.downs.filter (fun d => d.tree = n && occursIn d.period d.phase f))

/-- Composable bytes of a frame. -/
def compArea (p : Plate) (n f : Nat) : Nat := 655360 - mapBytes p n f

/-- Bytes at the start of a frame that lie outside every DOWN slot. -/
def firstGap (p : Plate) (n f : Nat) : Nat := ((downsIn p n f).head?.map Down.off).getD (compArea p n f)

/-- Composition on tree n of what the tailrace hands over in the mill's stroke at counter value t (R68: tx, DS_COMMIT): on a standby that of the stroke
PAIR_LAG before (R252). -/
def downStroke (t n : Nat) (s : State) : State :=
  let t := t - millLag s
  let ft := frameFloor s t
  match framePlate s ft with
  | none => s
  | some p =>
    if (tree s n).st ≠ .serving then s
    else
      let f := frameNo s ft
      let area := compArea p n f
      let lim := min area (ceilDiv (38 * (t - ft + STROKE + DS_COMMIT)) 9 - (1280 + mapBytes p n f))
      let nextGap := ((framePlate s (ft + FRAME)).map (fun q => firstGap q n ((f + 1) % 80))).getD 0
      let s := if (tree s n).compAt ≠ ft then downRest n ft s else s
      let waiting := (mget [] s.mill.flumes n).length + (s.mill.tail.map (fun e => e.2.length)).sum
      downLoop p n lim area nextGap (downsIn p n f) (2 * p.downs.length + lim / 72 + waiting + 4) s

/-! ### TRIB_MAP (R174) -/

/-- Slot time of the first composable byte of record d in the frame of tree n that starts at ft (R68). -/
def slotTime (p : Plate) (s : State) (n ft : Nat) (d : Down) : Nat := ft + (1280 + mapBytes p n (frameNo s ft) + d.off) * 9 / 38

/-- The next occurrence of flow f on tree n that is still to be mapped: start of its frame, its first DOWN record, its slot time. -/
def nextSlot (s : State) (n f : Nat) : Option (Nat × Down × Nat) :=
  let lag := millLag s
  let ft0 := frameFloor s (s.now - lag)
  (List.range 82).findSome? (fun i =>
    let ft := ft0 + i * FRAME
    (framePlate s ft).bind (fun p =>
      ((downsIn p n (frameNo s ft)).find? (fun d => d.flow = f)).bind (fun d =>
        let tx := slotTime p s n ft d
        if (trib s f).mapAt < tx ∧ s.now + DS_COMMIT ≤ tx + lag then some (ft, d, tx) else none)))

/-- The idle pieces give up composable bytes [a, b). -/
def carveIdle (a b : Nat) (l : List Placed) : List Placed :=
  l.flatMap (fun x => if x.idle ≠ 0 ∧ x.pos < b ∧ a < x.pos + x.idle then idlePieces x.pos a ++ idlePieces b (x.pos + x.idle) else [x])

/-- A payload mapped in the stroke whose composition has passed its slot takes its bytes there. -/
def tribLate (n : Nat) (r : Flow) (d : Down) (s : State) : State :=
  let k := (trib s r.id).mapped.length + 8
  let s' := slotSend n r d s
  if (tree s' n).placed = (tree s n).placed then s'
  else updTree n (fun x => { x with placed := sortBy Placed.pos (carveIdle d.off (d.off + k) x.placed) }) s'

/-- TRIB_MAP: the XGEM payload of the flow's next occurrence, DS_COMMIT before its slot (R174); what the store holds by then counts (R191). The stroke in
progress composes the slot: it stands in the frame at once where that stroke's decisions are made, else it waits for them. -/
def tribMap (f : Nat) (s : State) : State :=
  match (canonPlate s).bind (flowIn · f) with
  | none => s
  | some r =>
    if !(r.trib && !r.up) || (trib s f).held || (tree s r.tree).st ≠ .serving then s
    else match nextSlot s r.tree f with
      | none => s
      | some (ft, d, tx) =>
        let s := advance (tx + millLag s - DS_COMMIT) s
        let (b, s) := mapFrames r (rdiAt s r tx) (feedLost s (trib s f)) (trib s f).cfg.k s
        let s := setTrib f { trib s f with mapped := b, mapAt := tx } s
        let x := tree s r.tree
        if x.compAt = ft ∧ d.off + d.len ≤ x.compPos then tribLate r.tree r d s else s

def execTribMap (f : BitVec 16) (s : State) := live s (tribMap f.toNat s)

/-- The frame of tree n that starts at t is sent: it is on the line, with its superframe counter and TstampN (R323). The unit that is not HOME sends
it FEEDER_SKEW earlier (R205), and its value equals the HOME unit's: the output time at t on both (log 124). What a standby composes belongs to
earlier frames (R252). -/
def frameSent (t n : Nat) (s : State) : State :=
  let x := tree s n
  if (x.st = .lit ∨ x.st = .serving) ∧ x.frameAt = t then
    let o := outTime s t
    updTree n (fun x => { x with
      sentTimes := ((x.superframe, o) :: x.sentTimes).take 64, lineNow := x.lineNext, lineAt := (t : Int) - skewOf s n,
      placed := if millLag s = 0 then [] else x.placed }) s
  else s

/-- TOD_GET commands whose frame has left are answered (R323). -/
def todReplies (s : State) : State :=
  s.cmd.waiting.foldl (fun s w =>
    match w.pkt.cmd with
    | some (.todGet _ tr sf) =>
      match (tree s tr.toNat).sentTimes.find? (fun e => e.1 = sf.toNat) with
      | some e =>
        let s := { s with cmd := { s.cmd with waiting := s.cmd.waiting.filter (fun x => x.pkt.dseq ≠ w.pkt.dseq) } }
        finish w.pkt true 0 (timeBytes (e.2 + todAdj s tr.toNat)) (markEff w.pkt.dseq s)
      | none => s
    | _ => s) s

end Sys2Proof.Machine
end

