-- ==== Sys2Proof/Machine/Egress.lean ====
section
/-! DEFINITION. Uplink egress: through, slack and device frames of a port in one stroke, twins, transmit time-stamps (R73, R187, R214, R219, R261,
R269 to R273, R276, R321, R322). -/

namespace Sys2Proof.Machine

open Config

/-! ### Calendars -/

/-- EGRESS block of a port in the plate whose calendars run: on a standby that of PAIR_LAG before (R252). -/
def egressOf (s : State) (p : Nat) : Option Egress := (canonPlate s).bind (fun x => x.egress.find? (fun e => e.first = p))

/-- The port whose tailrace output the MAC of port q carries: the port q is the spare of, none on a rehashed port, else its own (R214). -/
def feeds (s : State) (q : Nat) : Option Nat :=
  match (List.range 32).find? (fun p => (uport s p).rehashed && decide ((uport s p).spare = some q)) with
  | some p => some p
  | none => if (uport s q).rehashed then none else some q

/-- The port whose calendar says when the MAC of q is free: the one it carries, or as a twin the one whose output the port it copies carries
(R270). -/
def calPort (s : State) (q : Nat) : Option Nat :=
  if regBit s (aPORT q) 26 then some ((feeds s (regFld s (aPORT q) 25 21)).getD (regFld s (aPORT q) 25 21)) else feeds s q

/-- Entries of the calendar of port q; a port without a block has IDLE in every stroke. -/
def entsOf (s : State) (q : Nat) : List (Nat × Nat) := (((calPort s q).bind (egressOf s)).map Egress.ents).getD (List.replicate 1944 (0, 0))

/-- A stroke that carries no through frame. -/
def freeEnt (e : Nat × Nat) : Bool := e.1 = 0 || e.1 = 2

/-- Bytes of the longest run of strokes that satisfy f. -/
def runBytes (f : Nat × Nat → Bool) (ents : List (Nat × Nat)) (bps : Nat) : Nat := longestRun f ents * bps

/-! ### Frames sent -/

/-- A frame of len bytes sent by the MAC of port q. -/
def txCount (q len : Nat) (s : State) : State := bump (cPort q 0x78) len (bump (cPort q 0x70) 1 s)

/-- The twins of a frame of port p that the MAC of q sends: of p, and of its spare where that carries it (R270). -/
def twinsOf (s : State) (p q : Nat) : List Nat :=
  (List.range 32).filter (fun t =>
    portOn s t && regBit s (aPORT t) 26 && (regFld s (aPORT t) 25 21 = p || decide (regFld s (aPORT t) 25 21 = q)))

/-- A frame padded to 64 bytes before its FCS (R258). -/
def padFrame (l : List Byte) : List Byte := if l.length < 64 then withFcs (body l ++ List.replicate (60 - (body l).length) 0) else l

/-- A frame sent by the MAC of port q. -/
def txBytes (q : Nat) (l : List Byte) (s : State) : State := updPort q (fun u => { u with txFrame := l }) (txCount q l.length s)

/-- A twin sends its copy, or discards it while Remote Fault is received or sent, while it honours a pause, or while a trigger of its own stands (R261, R270,
R276); the discarded copy counts in PORT_DOWN in each case (log 132). -/
def twinSend (t : Nat) (l : List Byte) (s : State) : State :=
  if (uport s t).rfRx || (uport s t).rfTx || decide (s.now < (uport s t).pausedTo) || portTrig s t then bump (cPort t 0xA0) 1 s else txBytes t l s

/-- A through or slack frame of port p leaves by the MAC of q, with the next number of its flow where GEN is set (R269, R270). -/
def egressSend (p q : Nat) (thr : Bool) (fr : Frame) (s : State) : State :=
  let gen := if thr then mget none s.mill.gens fr.flow else none
  let s := match gen with
    | some n => { s with mill := { s.mill with gens := mput none s.mill.gens fr.flow (some (n + 1)) } }
    | none => s
  let l := padFrame (match gen with | some n => addRtag fr.data n | none => fr.data)
  if !emitting s then s
  else if fr.chaff then bump (cPair 0x148) 1 s
  else
    let s := delivers fr.flow fr.point (txBytes q l s)
    if gen.isSome then (twinsOf s p q).foldl (fun s t => twinSend t l s) s else s

/-- Bytes a frame takes on the wire: tagged, padded, and 20 (R256). -/
def wireLen (s : State) (thr : Bool) (fr : Frame) : Nat := max 64 (fr.len + (if thr && (mget none s.mill.gens fr.flow).isSome then 6 else 0)) + 20

/-! ### Device frames (R271 to R273, R321) -/

/-- The Ethernet frame of an in-band reply. -/
def replyFrame (s : State) (q : Nat) (x : Reply × BitVec 48 × List Byte) : List Byte :=
  let b := beBytes 6 x.2.1.toNat ++ beBytes 6 (portMac s q) ++ x.2.2 ++ beBytes 2 (regFld s aINBAND_CFG 15 0) ++ replyBytes s x.1
  withFcs (b ++ List.replicate (60 - b.length) 0)

/-- Table 10.2. -/
def tsEntry (s : State) (p : Nat) (b : Bool) (msg seq at_ : Nat) (q : BitVec 32) : List Byte :=
  let t := domTime s b at_
  beBytes 4 q.toNat ++ beBytes 1 p ++ beBytes 1 (b.toNat * 128 + msg) ++ beBytes 2 seq ++ beBytes 12 at_
    ++ beBytes 6 (twos 48 (t / secU)) ++ beBytes 4 (t / nsU % 1000000000).toNat ++ beBytes 2 (t % nsU).toNat

/-- The transmit time-stamp of a two-step message: its crossing lies after the stroke by a path delay no rule gives, a free value. A message whose
entry is dropped awaits nothing, and the exchange of a Delay_Req among them is skipped (R322). -/
def tsPush (p : Nat) (l : List Byte) (s : State) : State :=
  let msg := natAt l 14 1 % 16
  let seq := natAt l 44 2
  match s.time.awaiting.find? (fun x => x.1 = p && natAt l 18 1 = ptpNum s x.2.1 && x.2.2.1 = msg && x.2.2.2 = seq) with
  | none => s
  | some (_, b, _, _) =>
    let (v, s) := fresh s
    let at_ := (((s.now + v % 4096 : Nat) : Int) + txTrim s p).toNat
    let g := 0x10 + p / 4
    let full := (hopOf s g).any (fun x => !hopRoom x)
    let s := hopPushN g (tsEntry s p b msg seq at_) s
    if !full then s
    else
      let s := { s with time := { s.time with awaiting := s.time.awaiting.filter (· ≠ (p, b, msg, seq)) } }
      if msg = 1 then setTdom b { tdom s b with skip := (tdom s b).skip + 1 } s else s

/-- The device frame of port q that goes next: 0 PTP, 1 ESMC, 2 reply, with its bytes; replies only on a unit that emits (R278). -/
def devNextFrame (s : State) (q : Nat) : Option (Nat × List Byte) :=
  let u := uport s q
  if mute s then none else
  match u.devPtp, u.devEsmc, u.devReply with
  | some l, _, _ => some (0, l)
  | none, some l, _ => some (1, l)
  | none, none, some x => if emitting s then some (2, replyFrame s q x) else none
  | none, none, none => none

/-- The device frame of a kind leaves its place on port q. -/
def devTake (q kind : Nat) (s : State) : State :=
  match kind with
  | 0 => updPort q (fun u => { u with devPtp := none }) s
  | 1 => updPort q (fun u => { u with devEsmc := none }) s
  | _ =>
    let s := if ((uport s q).devReply).any (fun x => x.1.credit) then freeCredit .inband s else s
    updPort q (fun u => { u with devReply := none }) s

/-- A one-step Sync gets its time-stamp as it leaves, its FCS anew (R273): that of its crossing of the balls, after a path delay v no rule gives
(R272); no other frame changes. -/
def oneStep (s : State) (v q kind : Nat) (l : List Byte) : List Byte :=
  if kind = 0 ∧ natAt l 14 1 % 16 = 0 ∧ natAt l 20 1 / 2 % 2 = 0 then
    let t := outTime s (((s.now + v % 4096 : Nat) : Int) + txTrim s q).toNat
    withFcs (l.take 48 ++ beBytes 6 (twos 48 (t / secU)) ++ beBytes 4 (t / nsU % 1000000000).toNat ++ (body l).drop 58)
  else l

/-- A device frame sent. -/
def devSend (q kind : Nat) (l : List Byte) (s : State) : State :=
  let (v, s) := fresh s
  let s := devTake q kind (updPort q (fun u => { u with txOf := none }) (txBytes q (oneStep s v q kind l) s))
  if kind = 0 ∧ natAt l 20 1 / 2 % 2 = 1 then tsPush q l s else s

/-- Device frames that no run of the port fits are discarded (R271): PTP and ESMC need a run of two strokes. -/
def devPurge (q : Nat) (ents : List (Nat × Nat)) (bps : Nat) : Nat → State → State
  | 0, s => s
  | n + 1, s =>
    match devNextFrame s q with
    | none => s
    | some (k, l) =>
      if runBytes freeEnt ents bps < l.length + 20 ∨ (k < 2 ∧ longestRun freeEnt ents < 2) then
        devPurge q ents bps n (devTake q k (bump (cPort q 0x98) 1 s))
      else s

/-! ### One stroke of a port -/

/-- The source of frames in a stroke: a through-flow's tailrace, or the slack flume of the port. -/
def srcHead (s : State) (src : Nat ⊕ Nat) : Option (Frame × List Frame) :=
  match (match src with | .inl f => mget [] s.mill.tail f | .inr t => mget [] s.mill.flumes t) with
  | [] => none
  | fr :: r => some (fr, r)

def srcPut (src : Nat ⊕ Nat) (l : List Frame) (s : State) : State :=
  match src with
  | .inl f => { s with mill := { s.mill with tail := mput [] s.mill.tail f l } }
  | .inr t => flumePop t l s

/-- Frames due in a stroke discarded and counted in PORT_DOWN (R219, Table 8.5). -/
def portDown (p : Nat) (src : Nat ⊕ Nat) (s : State) : State :=
  let n := match src with | .inl f => (mget [] s.mill.tail f).length | .inr t => (mget [] s.mill.flumes t).length
  if n = 0 then s else srcPut src [] (bump (cPort p 0xA0) n s)

/-- Slack frames that no SLACK run of the port holds, discarded (R187). -/
def slackPurge (p : Nat) (ents : List (Nat × Nat)) (bps : Nat) : Nat → State → State
  | 0, s => s
  | n + 1, s =>
    match srcHead s (.inr (64 + p)) with
    | none => s
    | some (fr, r) =>
      if runBytes (fun e => e.1 = 2) ents bps < fr.len + 20 then
        let s := bump (cbEgress p 0) 1 (flumePop (64 + p) r s)
        let s := if s.mill.egressTold.contains p then s
          else event 0x0307 4 p (beBytes 2 fr.len) { s with mill := { s.mill with egressTold := p :: s.mill.egressTold } }
        slackPurge p ents bps n s
      else s

/-- Bytes `need` taken by the MAC of q with `room` left of the stroke; room after it. -/
def macTake (q room need : Nat) (s : State) : Nat × State :=
  if need ≤ room then (room - need, s) else (0, updPort q (fun u => { u with txLeft := need - room }) s)

/-- Frames started by port p in the MAC of q while the run holds them: `ahead` bytes of the run follow the stroke. -/
def sendLoop (p q : Nat) (src : Nat ⊕ Nat) (ahead : Nat) : Nat → Nat → State → Nat × State
  | 0, room, s => (room, s)
  | n + 1, room, s =>
    if room = 0 then (room, s)
    else match srcHead s src with
      | none => (room, s)
      | some (fr, r) =>
        let need := wireLen s src.isLeft fr
        if room + ahead < need then (room, s)
        else
          let was := mget none s.mill.deliveredPts fr.flow
          let (room, s) := macTake q room need (egressSend p q src.isLeft fr (srcPut src r s))
          let s := updPort q (fun u => { u with txOf := if u.txLeft = 0 then none else some (fr.flow, was) }) s
          sendLoop p q src ahead n room s

/-- Device frames started by the MAC of q. -/
def devLoop (q ahead : Nat) : Nat → Nat → State → Nat × State
  | 0, room, s => (room, s)
  | n + 1, room, s =>
    match devNextFrame s q with
    | none => (room, s)
    | some (k, l) =>
      if room = 0 ∨ room + ahead < l.length + 20 then (room, s)
      else
        let (room, s) := macTake q room (l.length + 20) (devSend q k l s)
        devLoop q ahead n room s

/-- The MAC of port q in stroke st of its calendar. Remote Fault received replaces frames by Idle; Remote Fault sent leaves no room for any (R218, R276):
through, slack and device frames then wait, where R276 says no more (DESIGN CHOICE, log 148). -/
def macStroke (st q : Nat) (s : State) : State :=
  if !portOn s q then s
  else
    let bps := bytesPerStroke (quadMode s (q / 4))
    let ents := entsOf s q
    let u := uport s q
    let used := min bps u.txLeft
    let room := bps - used
    let s := updPort q (fun u => { u with txLeft := u.txLeft - used, txOf := if u.txLeft ≤ used then none else u.txOf }) s
    let s := devPurge q ents bps 3 s
    let s := match (if regBit s (aPORT q) 26 ∨ (canonPlate s).isNone then none else feeds s q) with
      | some p => slackPurge p ents bps ((mget [] s.mill.flumes (64 + p)).length + 1) s
      | none => s
    let ent := (ents[st]?).getD (0, 0)
    let ahead := fun (f : Nat × Nat → Bool) => bps * (runAhead f (ents.drop st) - 1)
    let paused := decide (s.now < u.pausedTo)
    let twin := regBit s (aPORT q) 26
    match (if twin then none else feeds s q), ent.1 with
    | some p, 1 =>
      -- a spare in use whose own triggers stand is a port with a trigger and no spare in use (R219, Table 6.7)
      match (canonPlate s).bind (fun x => x.flows[ent.2]?) with
      | none => s
      | some f =>
        if u.rfRx || portTrig s q then portDown p (.inl f.id) s
        else if u.rfTx || paused then s
        else (sendLoop p q (.inl f.id) (ahead (fun e => e = ent)) ((mget [] s.mill.tail f.id).length + 1) room s).2
    | src, k =>
      if k = 1 then s
      else
        let x := if u.rfTx || paused then (room, s)
          else if u.rfRx then
            match devNextFrame s q with
            | some (j, _) => (room, devTake q j (bump (cPort q 0xA0) 1 s))
            | none => (room, s)
          else devLoop q (ahead freeEnt) 3 room s
        match src, k with
        | some p, 2 =>
          let s := x.2
          if u.rfRx then portDown p (.inr (64 + p)) s
          else if u.rfTx || paused || portTrig s q then s
          else
            let y := sendLoop p q (.inr (64 + p)) (ahead (fun e => e = ent)) ((mget [] s.mill.flumes (64 + p)).length + 1) x.1 s
            if 0 < used ∨ y.1 < x.1 then bump (cbEgress p 1) 1 y.2 else y.2
        | _, _ => x.2

/-! ### In-band replies (R271, R385) -/

/-- Replies of the in-band port go to their uplink ports as these have room, in order; one whose destination no row gave is sent at once, and one whose
port is no longer enabled is dropped, its credit free again (R365). -/
def inbandReplies (s : State) : State :=
  s.cmd.inband.replies.foldl (fun s r =>
    let drop := fun (s : State) => setPortSt .inband { s.cmd.inband with replies := s.cmd.inband.replies.erase r } s
    match s.cmd.inbandTo.find? (fun x => x.1 = r.dseq) with
    | none => if r.credit then freeCredit .inband (drop s) else drop s
    | some x =>
      let q := x.2.1
      if !portOn s q then
        let s := drop { s with cmd := { s.cmd with inbandTo := s.cmd.inbandTo.erase x } }
        if r.credit then freeCredit .inband s else s
      else if (uport s q).devReply.isSome then s
      else
        let s := { s with cmd := { s.cmd with inbandTo := s.cmd.inbandTo.erase x } }
        updPort q (fun u => { u with devReply := some (r, x.2.2) }) (drop s)) s

/-! ### The time engine's hoppers (R321, R322) -/

/-- The device takes what its transmit time-stamp hopper g holds. -/
def tsConsume (g : Nat) (s : State) : State :=
  let x := tsHop s g
  let (l, y) := hopRead s.now x x.items.length false
  if l = [] then s
  else
    l.foldl (fun s i => match i with
      | .entry _ b =>
        let key := (natAt b 4 1 % 32, decide (natAt b 5 1 / 128 = 1), natAt b 5 1 % 16, natAt b 6 2)
        if s.time.awaiting.contains key then
          { s with time := { s.time with
              awaiting := s.time.awaiting.erase key,
              stamped := if key.2.2.1 = 0 then s.time.stamped ++ [((key.1, key.2.1, key.2.2.2), natAt b 8 12)] else s.time.stamped } }
        else bump (cTime 0x48) 1 s
      | .marker f e _ _ => bump (cTime 0x40) ((e - f).toNat + 1) s) (setHop (0x10 + g) (hopRelease y (y.rd - 1)) s)

end Sys2Proof.Machine
end

