-- ==== Sys2Proof/Machine/Stream.lean ====
section
/-! DEFINITION. The state stream as it arrives: STREAM, and the records that take no mirrored command: frames, terminals, time, bursts, defects,
delivered points, digests, lease messages (R206, R207, R266, R333 to R337, R343, R351, Table 11.2). -/

namespace Sys2Proof.Machine

open Config

/-! ### Content of canonical frames (R333, R334) -/

/-- A repair, as it arrives: the frame's content is held for the INGRESS record of its flow and sequence point, in place of an own copy. -/
def repairRec (f : BitVec 16) (q : BitVec 32) (data : List Byte) (s : State) : State :=
  let fr : Frame := { flow := f.toNat, dom := 0, len := data.length, point := q, chaff := false, data := data,
                      repair := true }
  bump (cPair 0x138) 1 { s with pair := { s.pair with copies := fr :: s.pair.copies } }

/-- The copy an INGRESS record names: of its flow and length, and of its sequence point where the copy has one. -/
def copyOf (s : State) (f len : Nat) (q : BitVec 32) : Option Frame :=
  s.pair.copies.find? (fun x => x.flow = f && x.len = len && (x.point = q || x.point = 0))

/-- Recovery state of a screen after it passes sequence number q (R266). -/
def recovPass (x : Screen) (q : BitVec 16) (now : Nat) : Screen :=
  match x.recov with
  | none => { x with recov := some q, marked := [0], lastPass := now }
  | some r =>
    let d := (q - r).toInt
    if 0 < d then
      { x with recov := some q, marked := 0 :: (x.marked.map (· + d.toNat)).filter (· < x.histLen), lastPass := now }
    else { x with marked := d.natAbs :: x.marked, lastPass := now }

/-- The screen that the SAILS_ON unit judged a frame of flow f on: by the key of the copy, of a frame this unit does not hold the first of the flow
(R266, log 123). -/
def recovScreen (s : State) (f : Nat) (own : Option Frame) : Option Screen :=
  (match own with
  | some x => screenOf s x.data
  | none => s.screens.find? (fun x => x.recEn && x.flow = f)).filter (·.recEn)

/-- On the standby, the screen of a frame from an uplink passes it at canonical stroke st as it passed on the SAILS_ON unit: a reset that was due
first, the low 16 bits of the point as its number, or for a frame without an R-TAG, which comes as a REPAIR, the time alone (R266, R278, R334). -/
def recovTake (st f : Nat) (q : BitVec 32) (own : Option Frame) (s : State) : State :=
  match recovScreen s f own with
  | none => s
  | some x =>
    let key := keyOfScreen x
    let s := if x.recov.isSome ∧ x.lastPass + x.resetMs * 1244160 ≤ st then frerReset key 0 s else s
    { s with screens := s.screens.map (fun y =>
        if keyOfScreen y ≠ key then y
        else if own.any (·.repair) then { y with lastPass := st }
        else recovPass y (q.setWidth 16) st) }

/-- The route of the frame of an INGRESS record of canonical stroke st on headrace lane k, under the plate that classified it (R89). The unit's own copy
says which plate, and the direction. Without one the lane tells the direction, and time the plate: a downstream frame taken before the last boundary names
that boundary's stroke at the latest; an upstream one lies in a burst that the earlier plate granted while a decoder still holds such bursts, on the
partner FEEDER_SKEW later (R205), which a newly granted one cannot leave so soon. -/
def ingressRoute (st k f : Nat) (own : Option Frame) (s : State) : Route :=
  let plate := fun (old : Bool) => if old then s.plates.prev else engaged s
  let down := routeIn (plate (decide (st ≤ s.imprAt))) s true f
  let up := routeIn (plate (decide (st < s.imprAt + T_UP_FRONT + 248 + STROKE))) s false f
  match own.filter (fun x => !x.repair) with
  | some x => routeIn (plate (x.cls ≠ s.imprAt)) s x.src.isNone f
  | none =>
    if down = .none_ ∨ (up ≠ .none_ ∧ routeLane down ≠ k ∧ routeLane up = k) then up else down

/-- The copies left once an INGRESS record has taken x: a repair replaces the own copy, which goes with it. -/
def copiesAfter (s : State) (x : Frame) : List Frame :=
  let l := s.pair.copies.erase x
  if x.repair then (match l.find? (fun y => y.flow = x.flow && y.len = x.len && (y.point = x.point || y.point = 0) && !y.repair) with
    | some y => l.erase y
    | none => l)
  else l

/-- The burst whose allowance a frame of an INGRESS record is charged to (R70): that of the own copy; else the last of the flow's terminal that began
before the record's stroke. -/
def ingressBurst (st : Nat) (r : Route) (own : Option Frame) (s : State) : Option (Nat × Nat × Nat × Nat) :=
  match own.bind Frame.src, r with
  | some x, _ => some x
  | none, .through y =>
    if !y.up then none
    else ((tree s y.tree).grants.reverse.find? (fun g => g.term = y.term && decide (g.start < st))).map (fun g => (128 * y.tree + y.term, g.start, 0, 0))
  | none, _ => none

/-- INGRESS: the standby enters its own copy, or chaff, on the lane the record names; frames before the quick tier's end are chaff (R333, R334, R347). A
frame repaired because it carries no R-TAG leaves the history alone; chaff counts as tagged (R266, log 123). -/
def ingressRec (st k : Nat) (f : BitVec 16) (len : Nat) (q : BitVec 32) (s : State) : State :=
  let n := f.toNat
  let own := if s.pair.st = .joining ∧ !s.pair.quickDone then none else copyOf s n len q
  let s := match own with
    | some x => { s with pair := { s.pair with copies := copiesAfter s x } }
    | none => bump (cPair 0x140) 1 s
  let r := ingressRoute st k n own s
  let up : Bool := match r with | .through x => x.up | _ => own.any (·.src.isSome)
  let fr : Frame := { flow := n, dom := routeDom s r, len := len, point := q, chaff := own.isNone,
                      data := (own.map Frame.data).getD (List.replicate (match r with | .through x => if x.trib && x.up then len else 0 | _ => 0) 0),
                      queue := routeQueue r }
  let s := match r with
    | .through x =>
      let b := ingressBurst st r own s
      if x.trib && x.up && overAllowance s x len b then oversize n x.dom len s else allowTake n len b s
    | _ => s
  let s := enterAt k r (own.bind Frame.port) fr s
  if up then s else recovTake st n q own s

/-! ### Adopted decisions (R333, R346) -/

def termOfCode : Nat → TermSt
  | 0 => .unseen | 1 => .discovered | 2 => .ranged | 3 => .active | 4 => .popup | 5 => .disabled | _ => .rogue

/-- The queues of a tree as a state entered leaves them (R147): POPUP in order of entry; a DISCOVERED terminal with AUTO waits for its band ranging. -/
def queuesTake (g : Nat) (new : TermSt) (s : State) : State :=
  let k := g % 128
  let s := updTree (g / 128) (fun x =>
    { x with bandQ := x.bandQ.filter (· ≠ k), popupQ := x.popupQ.filter (· ≠ k) ++ (if new = .popup then [k] else []) }) s
  if new = .discovered ∧ (term s g).auto then queueBand g s else s

/-- TERMINAL: the terminal as the SAILS_ON unit decided it; taps as R115 has them. A change of state is reported with a cause that no record carries, a
free value (log 153). The record carries no rate: the terminal keeps the rate configured here, of a change acknowledged too (DESIGN CHOICE, log 142). -/
def terminalRec (g st eqd rtd : Nat) (was : Bool) (tries : Nat) (s : State) : State :=
  if 8192 ≤ g then s
  else
    let old := term s g
    let new := termOfCode st
    let found := new = .discovered ∧ (old.st = .unseen ∨ (old.st = .popup ∧ !was))
    let s := updTerm g (fun t => { t with st := new, eqd := eqd, eqdAck := if new = .active then eqd else t.eqdAck, rtd := rtd, wasActive := was,
                                          rcHeld := found || (t.rcHeld && new = .discovered),
                                          tries := tries, timer := if new = old.st then t.timer else 0 }) s
    let s := if new = old.st then s
      else
        let (v, s) := fresh (termService g new (queuesTake g new s))
        event 0x0200 2 g (beBytes 1 (termCode old.st) ++ beBytes 1 (termCode new) ++ beBytes 1 (v % 256)) s
    if (new ≠ old.st ∧ (new = .unseen ∨ new = .disabled ∨ new = .rogue)) ∨ (new = .ranged ∧ eqd ≠ old.eqd) then dropTaps g s else s

/-- A drift correction as decided (R152, R153). -/
def driftRec (g eqd : Nat) (s : State) : State := if 8192 ≤ g then s else driftTo g eqd s

/-- A step of a tree's rogue procedure as decided (R159, R160). -/
def rogueRec (n : Nat) (run : Bool) (quiet : Nat) (named : Option Nat) (cands held : List Nat) (suspect : Option Nat) (s : State) : State :=
  if !treeOk s n then s
  else updTree n (fun t =>
    let r := t.rogue
    { t with rogue := { r with running := run, quiet := quiet, named := named, cands := cands, withheld := held, suspect := suspect,
                               heldAt := if held = r.withheld ∧ run then r.heldAt else none, heard := held = r.withheld && r.heard,
                               disabledAt := if suspect = r.suspect then r.disabledAt else s.imprCount } }) s

def domOfCode : Nat → DomSt
  | 0 => .unset | 1 => .stepArmed | 2 => .tracking | 3 => .bridging | _ => .hold

/-- TIME: a time domain as the SAILS_ON unit holds it, C_b converted by Δ_C. -/
def timeRec (at_ : Nat) (b : Bool) (st cb : Nat) (tau r mpd asym kb : Int) (sel : Bool) (k : Int) (s : State) : State :=
  let c := ((cb : Int) + s.pair.deltaC).toNat
  let d := tdom s b
  let d := { d with st := domOfCode st, pathStep := decide (st = 3) || (d.pathStep && decide (st = 4)),
                    holdPath := decide (st = 4) && (d.holdPath || decide (d.st = .bridging)), cb := c, tau := tau, r := r, mpd := mpd, asym := asym, kb := kb,
                    past := ((at_, c, tau, r, decide (st = 0)) :: d.past).take 256 }
  let s := noteRate b (adoptDom b d s)
  { s with time := { s.time with sel := sel, k := k, kAt := at_ } }

/-! ### Records handled as they arrive -/

/-- Codewords of a burst of k that a BURST record's mask names, the first in the highest of k bits; of a burst not found, all. -/
def maskCws (k : Nat) (found : Bool) (mask : Nat) : List Nat := (List.range k).filter (fun j => !found || mask.testBit (k - 1 - j))

/-- A frame lies in a codeword of the burst of terminal g at START a that the list names. -/
def frameHit (g a : Nat) (l : List Nat) (x : Frame) : Bool := x.src.any (fun y => y.1 = g && y.2.1 = a && l.any (fun c => y.2.2.1 ≤ c && c ≤ y.2.2.2))

/-- The grant of terminal t whose first allocation is a, begun before stroke st: the burst a record names. -/
def burstNamed (st n t a : Nat) (s : State) : Option Grant :=
  (tree s n).grants.reverse.find? (fun x => decide (x.term = t) && (x.allocs.map (·.1)).headD 0 = a && decide (x.start < st))

/-- f applied to that grant. -/
def burstUpd (st n t a : Nat) (f : Grant → Grant) (s : State) : State :=
  match burstNamed st n t a s with
  | none => s
  | some g => updTree n (fun y => { y with grants := y.grants.map (fun z => if z = g then f z else z) }) s

/-- A REPAIR of the codeword c that the partner has lost: its 1,824 data bytes as this unit has decoded them (R334, log 99). -/
def codewordSend (n t a c : Nat) (s : State) : State :=
  let (v, s) := fresh s
  repairSend (.repairCw n t a c (bytesAt (Config.codewordBytes v) 0 1824)) s

/-- A codeword's data bytes brought by a REPAIR, in place of what this unit has lost: XGEM frames within it count as received (R121, R333). -/
def repairCwRec (st n t a c : Nat) (data : List Byte) (s : State) : State :=
  bump (cPair 0x138) 1 (burstUpd st n t a (fun g => { g with repaired := g.repaired ++ [(c, data)] }) s)

/-- BURST (Table 11.2): the partner's delimiter offset, for R206, and the codewords it lost of the burst. A standby discards its own copies of frames
that lie in them; the SAILS_ON unit sends repairs of those it has decoded itself. -/
def burstRec (st n t a : Nat) (found : Bool) (off : Int) (mask : Nat) (s : State) : State :=
  if !treeOk s n then s
  else
    let g := 128 * n + t
    let o := off * (40 / lineBits (term s g).rate : Nat)
    let s := if found then updTree n (fun x => { x with partnerDlm := (x.partnerDlm.1 + o, x.partnerDlm.2 + 1) }) s else s
    match burstNamed st n t a s with
    | none => s
    | some x =>
      let lost := maskCws (grantCws x) found mask
      let s := burstUpd st n t a (fun z => { z with partnerErased := some lost }) s
      if isStandby s then { s with pair := { s.pair with copies := s.pair.copies.filter (fun y => !frameHit g x.start lost y) } }
      else if s.pair.sails && x.found.isSome then
        (lost.filter (fun c => decide (c < x.decoded) && !x.erased.contains c)).foldl (fun s c => codewordSend n t a c s) s
      else s

/-- DELIVERED: the partner's last delivered point of a flow (R343). -/
def deliveredRec (f : BitVec 16) (q : BitVec 32) (s : State) : State :=
  { s with mill := { s.mill with deliveredPts := mput none s.mill.deliveredPts f.toNat (some q) } }

/-- The partner has declared TR_LOS on tree n in stroke st: a feeder handover that this unit has ordered for the tree's TR_LOS of that stroke does not
take place (Table 6.7, log 122). -/
def sameLos (st n : Nat) (s : State) : State :=
  if s.pair.orderedAt = st ∧ s.pair.handover.any (fun x => x.2.1 = 6 && x.2.2.1 = TR_LOS && x.2.2.2 = n) then dropHandover s else s

/-- DEFECT: the standby's state of a tree defect, at the SAILS_ON unit (R207). With its last trigger on the now FEATHERED unit the tree may trigger again
(R210). -/
def defectRec (st n code : Nat) (on : Bool) (s : State) : State :=
  if !treeOk s n then s
  else
    let s := updTree n (fun t =>
      let l := t.partnerDefects.filter (· ≠ code)
      let t := { t with partnerDefects := if on then l ++ [code] else l
                        partnerLosAt := if code = TR_LOS then (if on then st else 0) else t.partnerLosAt }
      { t with triggered := t.triggered && partnerTrig t }) s
    if on ∧ code = TR_LOS then sameLos st n s else s

/-- DIGEST: the partner's digest of a boundary; a standby that still owes its own computes it first (R336). -/
def digestRec (i : BitVec 32) (v : BitVec 128) (s : State) : State :=
  let s := match s.pair.digestDue with
    | some (b, j) => if j = i ∧ isStandby s then digestSend b j { s with pair := { s.pair with digestDue := none } } else s
    | none => s
  digestCompare { s with pair := { s.pair with digestPartner := some (i, v) } }

/-- A lease message (R337, R338, R340); an IDLE one comes on LEASE_RX alone, whose path is then good (R341; log 100). -/
def leaseRec (k : LeaseKind) (num : Nat) (epoch : BitVec 32) (e : Nat) (s : State) : State :=
  match k with
  | .idle => epochSeen epoch (sideband s)
  | .renew => renewRx num epoch e s
  | .grant => grantRx num epoch s
  | .release => releaseRx epoch (if e = 0 then none else some e) s
  | .fenced => fencedRx epoch s
  | .leave => leaveRx epoch s

/-- A gap marker of the stream (R335). -/
def gapRec (s : State) : State := outOfStep 3 s

/-- The standby executes records: it is past taking the sections of a copy (R347). -/
def executes (s : State) : Bool := isStandby s && (s.pair.st ≠ .joining || s.pair.taken)

/-- A record that waits for its canonical stroke: on a standby it enters the lag; past its execution stroke, once the standby is PAIR_LAG behind, it is a
LAG_MISS (R335). Of a unit that joins, records from before the cut are none of its copy (R347). -/
def lagRec (r : StreamRec) (s : State) : State :=
  if !isStandby s ∨ (s.pair.st = .joining ∧ s.pair.cutAt.any (fun c => r.stroke < c)) then s
  else if r.stroke + PAIR_LAG < s.now ∧ (s.pair.st ≠ .joining ∨ s.pair.quickDone) then outOfStep 2 (bump (cPair 0x130) 1 s)
  else { s with pair := { s.pair with lag := s.pair.lag ++ [r] } }

/-- Canonical input comes only from a SAILS_ON unit whose pair joins or has joined: a FEATHERED unit with contact, neither fenced nor detached, joins, and
takes the record's stroke for the cut it has not seen (R347, R348; log 107). -/
def streamJoins (st : Nat) (s : State) : State :=
  if s.pair.detached then s
  else
    let s := copyJoins s
    if s.pair.resyncLimit then s else copyCut st s

/-- One record of a STREAM packet. A digest that the standby has not reached in its lag waits there for it. -/
def streamRec (s : State) (r : StreamRec) : State :=
  match r.body with
  | .burst n t a found off mask _ => burstRec r.stroke n t a found off mask s
  | .delivered f q => deliveredRec f q s
  | .defect n code on => if s.pair.sails then defectRec r.stroke n code on s else s
  | .digest i v => if executes s ∧ s.pair.digestDue.any (fun x => x.2 = i) then { s with pair := { s.pair with lag := s.pair.lag ++ [r] } } else digestRec i v s
  | .lease k num epoch e => leaseRec k num epoch e s
  | .gap .. => gapRec s
  | .repair f q d => if isStandby s then repairRec f q d s else s
  | .repairCw n t a c d => if isStandby s then repairCwRec r.stroke n t a c d s else s
  | .ingress .. | .command .. | .terminal .. | .drift .. | .rogue .. | .time .. => lagRec r (streamJoins r.stroke s)

/-- Numbers of the commands whose records are in a stream. -/
def streamCmds (l : List StreamRec) : List (BitVec 32) :=
  l.filterMap (fun r => match r.body with | .command q _ => some q | _ => none)

/-- The partner has acknowledged the records of every stroke up to v (R335): they are released, and the replies that waited for one of them go out
(R24); the mark follows, but for a copy that this unit sends, which holds it at its cut (R347). -/
def ackTo (v : Nat) (s : State) : State :=
  let l := s.pair.sent.dropWhile (fun r => decide (r.stroke ≤ v))
  let rel := s.pair.streamWr - BitVec.ofNat 32 l.length
  let (hold, go) := s.cmd.ackWait.partition (fun r => (streamCmds l).contains r.dseq)
  let s := { s with
    cmd := { s.cmd with ackWait := hold }
    pair := { s.pair with sent := l, streamRel := rel, streamMark := if s.pair.sails && s.pair.tier ≠ 0 then s.pair.streamMark else rel } }
  go.foldl (fun s r => postReply r s) s

/-- How far the partner has come it says in its replies; by its next STREAM it is a stroke of its choice: a free value (log 24). -/
def ackAll (s : State) : State := let (v, s) := fresh s; ackTo v s

/-- STREAM: records taken in order; the reply gives the low 32 bits of the last stroke acknowledged. -/
def opStream (recs : List StreamRec) : Op where
  bad _ := 0
  run s :=
    let s := recs.foldl streamRec (ackAll s)
    let s := match recs.getLast? with
      | some r => { s with pair := { s.pair with lastAck := r.stroke } }
      | none => s
    resOk (beBytes 4 (s.pair.lastAck % 2 ^ 32)) s

def execStream (h : Hdr) (recs : List StreamRec) (s : State) := command (.stream h recs) (opStream recs) s

/-- STREAM_REWIND: a block error on the pair link; the sender rewinds to its mark and sends again, in order, what it holds from there. A mark whose
records have been released is stale, and the standby is out of step (R335, R350; log 25). -/
def streamRewind (s : State) : State :=
  if !s.pair.contact then s
  else
    let s := bump (cPair 0x158) 1 s
    if seqLt s.pair.streamMark s.pair.streamRel then outOfStep 4 s else s
def execStreamRewind (s : State) := live s (streamRewind s)

/-- DIGEST_TIMEOUT: no digest from the partner by B + 311,040 mc while contact holds (R336). -/
def digestTimeout (s : State) : State :=
  match s.pair.digestOwn with
  | none => s
  | some (i, _) =>
    if s.pair.contact ∧ s.pair.digestPartner.all (fun x => x.1 ≠ i) then
      outOfStep 1 (defSet 5 0 PL_DIGEST { advance (s.pair.digestAt + 311040) s with pair := { s.pair with digestOwn := none } })
    else s
def execDigestTimeout (s : State) := live s (digestTimeout s)

/-! ### Rows of single records -/

/-- The counter value at which a record of the lag executes: PAIR_LAG after its canonical stroke (R333). -/
def atStroke (r : StreamRec) (s : State) : State := advance (r.stroke + PAIR_LAG) s

/-- A record of a row executes with f at its stroke on a standby that executes records, and waits on one that joins. -/
def lagged (r : StreamRec) (f : State → State) (s : State) : State :=
  if executes s then f (atStroke r s) else if isStandby s then lagRec r s else s

def execIngress (r : StreamRec) (s : State) := live s (match r.body with
  | .ingress k f len q => lagged r (ingressRec r.stroke k f len q) s
  | _ => s)

def execRepair (r : StreamRec) (s : State) := live s (match r.body with
  | .repair f q d => if isStandby s then repairRec f q d s else s
  | .repairCw n t a c d => if isStandby s then repairCwRec r.stroke n t a c d s else s
  | _ => s)

def execTerminalRecord (r : StreamRec) (s : State) := live s (match r.body with
  | .terminal g st eqd rtd was tries => lagged r (terminalRec g st eqd rtd was tries) s
  | .drift g eqd => lagged r (driftRec g eqd) s
  | .rogue n run quiet named cands held suspect => lagged r (rogueRec n run quiet named cands held suspect) s
  | _ => s)

def execTimeRecord (r : StreamRec) (s : State) := live s (match r.body with
  | .time b st cb tau rr mpd asym kb sel k => lagged r (timeRec r.stroke b st cb tau rr mpd asym kb sel k) s
  | _ => s)

def execBurstRecord (r : StreamRec) (s : State) := live s (match r.body with
  | .burst n t a found off mask _ => if s.pair.contact then burstRec r.stroke n t a found off mask s else s
  | _ => s)

def execDelivered (r : StreamRec) (s : State) := live s (match r.body with
  | .delivered f q => if isStandby s then deliveredRec f q s else s
  | _ => s)

def execDefectRecord (r : StreamRec) (s : State) := live s (match r.body with
  | .defect n code on => if s.pair.contact && s.pair.sails then defectRec r.stroke n code on s else s
  | _ => s)

def execDigestRecord (r : StreamRec) (s : State) := live s (match r.body with
  | .digest i v => if s.pair.contact then digestRec i v s else s
  | _ => s)

end Sys2Proof.Machine
end

