-- ==== Sys2Proof/Machine/Transports.lean ====
section
/-! DEFINITION. Packets as the transports bring them, replies as they take them away, and the interpreter's own steps (R357, R358, R362, R364 to R368,
R382 to R385, Tables 12.5, 12.8, 12.11). -/

namespace Sys2Proof.Machine

/-- The checks and effect of a command that is a Casut opcode; anything else is refused at its PLEN. -/
def opOf : Instr → Op
  | .nop _ => opNop
  | .hello h o b u f r k => opHello h o b u f r k
  | .features h set m => opFeatures h set m
  | .fence _ a => opFence a
  | .bye h => opBye h
  | .regRd h a w c => opRegRd h a w c
  | .regWr h a w c d => opRegWr h a w c d
  | .regRmw h a m v => opRegRmw h a m v
  | .snapshot _ => opSnapshot
  | .plateOpen h b => opPlateOpen h b
  | .plateData h b o d => opPlateData h b o d
  | .plateProof h b => opPlateProof h b
  | .plateTurn h b i t => opPlateTurn h b i t
  | .plateAbort h b => opPlateAbort h b
  | .plateInfo h b => opPlateInfo h b
  | .termAdd h t l a => opTermAdd h t l a
  | .termRange _ t l => opTermRange t l
  | .termActivate _ t l => opTermActivate t l
  | .termDisable _ t l a => opTermDisable t l a
  | .termKey h t d r a g w => opTermKey h t d r a g w
  | .ploamSend _ t l y c => opPloamSend t l y c
  | .termRate _ t l r => opTermRate t l r
  | .millSet _ t i d => opMillSet t i d
  | .millGet _ t i => opMillGet t i
  | .tribSet h e => opTribSet h e
  | .tribGet _ f => opTribGet f
  | .screenSet _ e => opScreenSet e
  | .screenGet _ e => opScreenGet e
  | .genSet _ f g => opGenSet f g
  | .genGet _ f => opGenGet f
  | .timeArm _ d => opTimeArm d
  | .timeSet _ d c n => opTimeSet d c n
  | .timeDisable _ d => opTimeDisable d
  | .timeSel _ d => opTimeSel d
  | .acceptPathStep _ d a => opAcceptPathStep d a
  | .timeConv _ d c => opTimeConv d c
  | .todGet _ t n => opTodGet t n
  | .pairJoin _ => opPairJoin
  | .pairLeave _ => opPairLeave
  | .pairSwitch _ => opPairSwitch
  | .pairVerdict _ v e => opPairVerdict v e
  | .pairInfo _ => opPairInfo
  | .protCfg _ a => opProtCfg a
  | .protSwitch _ p => opProtSwitch p
  | .stream _ recs => opStream recs
  | .copy _ t c o d => opCopy t c o d
  | .pwrSet _ d st => opPwrSet d st
  | .pwrInfo _ => opPwrInfo
  | .sagCfg _ th => opSagCfg th
  | .fwOpen _ b => opFwOpen b
  | .fwData _ b o d => opFwData b o d
  | .fwCommit _ b => opFwCommit b
  | .fwInfo _ => opFwInfo
  | .reset h k => opReset h k
  | .logRead _ o l => opLogRead o l
  | .i2cXfer h b a _ _ _ => opI2cXfer h b a
  | .kwkSet _ k => opKwkSet k
  | .cntRead _ a c => opCntRead a c
  | .defectGet _ c f i => opDefectGet c f i
  | .defectCfg _ k sd sf a b => opDefectCfg k sd sf a b
  | .bwWindow _ ms => opBwWindow ms
  | .hopRead h p c f => opHopRead h p c f
  | .hopMark h p => opHopMark h p
  | .hopRewind h p => opHopRewind h p
  | .hopRelease h p q => opHopRelease h p q
  | .hopCfg h p o l => opHopCfg h p o l
  | _ => { bad := fun _ => 6, run := resBad 6 }

/-- Checks and effect of an accepted packet; one whose parameters spell no command fails on its first bad field. -/
def opOfPkt (c : Option Instr) : Op := (c.map opOf).getD { bad := fun _ => 0, run := resBad 6 }

/-! ### Intake of raw packets (R357, R362) -/

/-- A refusal for a CRC mismatch, with CMD_CRC where the port takes the packet. -/
def refuseCrc (p : Port) (op : Nat) (tag : BitVec 16) (s : State) : State :=
  let room := decide (refusalsHeld s p < refusalSpace)
  let s := refuseIntake p op tag 0x10 [] s
  if room then event 0x0008 0x0B (portNo p) (beBytes 2 op ++ e16 tag) s else s

/-- A packet complete at a port: intake checks 1 and 2 on its bytes, then those that follow. -/
def receive (p : Port) (l : List Byte) (s : State) : State :=
  let op := pktOpcode l
  let h := pktHdr p l
  let bad := fun (o : Nat) => refuseIntake p op h.tag 4 (beBytes 2 o ++ rsv 2) s
  if notReady p s then s
  else if !pktCrcOk l then refuseCrc p op h.tag s
  else if natAt l 0 1 ≠ 3 then bad 0
  else if h.flags &&& 0x2F ≠ 0 then bad 1
  else if pktPlen l % 4 ≠ 0 ∨ 4096 < pktPlen l ∨ 20 + pktPlen l < l.length then bad 6
  else
    let (c, at_) := decodePacket p l
    if op = 3 then deliverFence h op c at_ (opOfPkt c) s else deliver h op c at_ (opOfPkt c) s

/-! ### The board port (R382, R383) -/

/-- SPI_STATUS (Table 12.8). -/
def spiStatus (s : State) : Nat :=
  (!s.cmd.board.replies.isEmpty).toNat * 128 + (spiEvent s).toNat * 64 + s.cmd.spiAborted.toNat * 32 + s.cmd.spiNotTaken.toNat * 16 + freeCredits s .board

/-- SPI_MISO of a transaction. -/
def spiAnswer (l : List Byte) (s : State) : State := { s with cmd := { s.cmd with spiOut := l } }

/-- WRITE: a partial packet is discarded, ABORTED set and SPI_ABORT reported; bytes after the last one that PLEN implies are ignored. -/
def spiWrite (l : List Byte) (s : State) : State :=
  let n := 20 + pktPlen l
  let s := spiAnswer (beBytes 1 (spiStatus s)) s
  if l.length < n then
    event 0x0009 0x0B 0 (beBytes 2 l.length) { s with cmd := { s.cmd with spiAborted := true } }
  else receive .board (l.take n) s

/-- A transaction reaches the device once it accepts packets on the board port. -/
def spiLive (s t : State) : Host.Outcome State Fault Refusal := .next (if notReady .board s then s else t)

def execWriteTransaction (l : List Byte) (s : State) := spiLive s (spiWrite l s)

/-- READ: the oldest reply; it leaves once its last byte, number 3 + L, has been clocked out, and its credit returns. -/
def spiRead (n : Nat) (s : State) : State :=
  match s.cmd.board.replies with
  | [] => spiAnswer (beBytes 1 (spiStatus s) ++ beBytes 2 0) s
  | r :: rest =>
    let b := replyBytes s r
    let s := spiAnswer ((beBytes 1 (spiStatus s) ++ beBytes 2 b.length ++ b).take (n - 1)) s
    if n < 4 + b.length then s
    else
      let s := setPortSt .board { s.cmd.board with replies := rest } s
      if r.credit then freeCredit .board s else s

def execReadTransaction (n : Nat) (s : State) := spiLive s (spiRead n s)

/-- STATUS: ABORTED and NOT_TAKEN are cleared once returned. -/
def spiStat (s : State) : State :=
  let s := spiAnswer (beBytes 1 (spiStatus s)) s
  { s with cmd := { s.cmd with spiAborted := false, spiNotTaken := false } }

def execStatusTransaction (s : State) := spiLive s (spiStat s)

/-! ### The host port (R384) -/

/-- Entries of a ring whose size register is a. -/
def ringSize (s : State) (a : Nat) : Nat := 2 ^ regFld s a 3 0

/-- A command descriptor is fetched: RUN set, the ring not empty, room for a refusal, and fewer than 132 replies waiting. -/
def fetchReady (s : State) : Bool :=
  s.cmd.ringRun && !notReady .host s && s.cmd.cmdHead % 1024 ≠ regFld s aCMD_TAIL 9 0 && refusalsHeld s .host < refusalSpace
    && s.cmd.host.replies.length < 132

/-- COMMAND_FETCH: a descriptor out of range or a fetch that fails is answered BAD_PARAM under OFFSET 0xFFFF with no echo. -/
def commandFetch (ok : Bool) (len : Nat) (l : List Byte) (s : State) : State :=
  if !fetchReady s then s
  else
    let s := { s with cmd := { s.cmd with cmdHead := (s.cmd.cmdHead + 1) % ringSize s aCMD_SIZE } }
    if !ok ∨ len < 20 ∨ 4116 < len then refuseIntake .host 0 0 4 (beBytes 2 0xFFFF ++ rsv 2) s
    else receive .host (l.take len) s

def execCommandFetch (ok : Bool) (len : BitVec 16) (l : List Byte) (s : State) : Host.Outcome State Fault Refusal :=
  .next (commandFetch ok len.toNat l s)

/-- REPLY_WRITE: the oldest reply into the next posted descriptor of length cap, DONE, RPL_HEAD, MSI-X vector 0.
RLEN of a cut reply is the length written (log 137). -/
def replyWrite (cap : Nat) (s : State) : State :=
  match s.cmd.host.replies with
  | [] => s
  | r :: rest =>
    if !s.cmd.ringRun || notReady .host s || s.cmd.rplHead % 1024 = regFld s aRPL_TAIL 9 0 then s
    else
      let b := replyBytes s r
      let cut := decide (cap < b.length)
      let out := if cut then b.take 16 else b
      let s := setPortSt .host { s.cmd.host with replies := rest } s
      let s := if r.credit then freeCredit .host s else s
      sigMsix 0 { s with cmd := { s.cmd with hostWrote := some (out, out.length, cut), rplHead := (s.cmd.rplHead + 1) % ringSize s aRPL_SIZE } }

def execReplyWrite (cap : BitVec 16) (s : State) : Host.Outcome State Fault Refusal := .next (replyWrite cap.toNat s)

/-! ### Starting and timed execution (R364, R366 to R368) -/

/-- A started packet leaves its port's queue. -/
def dequeue (k : Pkt) (s : State) : State :=
  setPortSt k.hdr.port { portSt s k.hdr.port with queue := (portSt s k.hdr.port).queue.filter (fun x => x.ord ≠ k.ord) } s

/-- COMMAND_START: the oldest packet that may start, while fewer than 16 commands execute. -/
def commandStart (s : State) : State :=
  if 16 ≤ executing s then s
  else match oldestStartable s with
    | none => s
    | some k => start k (opOfPkt k.cmd) (dequeue k s)

def execCommandStart (s : State) := live s (commandStart s)

/-- The timed command next to take effect: least execution time, acceptance order on equal times. -/
def nextTimed (s : State) : Option Timed :=
  s.cmd.timed.foldl (fun b x => match b with
    | none => some x
    | some y => if x.at_ < y.at_ ∨ (x.at_ = y.at_ ∧ x.pkt.ord < y.pkt.ord) then some x else b) none

/-- TIMED_EXECUTION: a timed command takes effect at the first stroke boundary at or after its execution time (R368), in acceptance order with what
else lands there (R23). An impression boundary at that stroke comes first (Table 1.5). -/
def timedExecution (s : State) : State :=
  match nextTimed s with
  | none => s
  | some x =>
    let b := max s.strokeNext (strokeAt s (max s.now x.at_))
    if nextBoundary s ≤ b then s
    else
      postCmd true x.pkt (advance b { s with cmd := { s.cmd with timed := s.cmd.timed.filter (fun y => y.pkt.ord ≠ x.pkt.ord) } })

def execTimedExecution (s : State) := live s (timedExecution s)

end Sys2Proof.Machine
end

