-- ==== Sys2Proof/Machine/UplinkRx.lean ====
section
/-! DEFINITION. Reception at an uplink port: FEC counts, the MAC's checks, the receive order, keys and screens, sequence recovery (R257, R258, R260 to
R267, R271, R275, R313, R385, Tables 8.2, 8.3). -/

namespace Sys2Proof.Machine

open Config

/-! ### The MAC (R257, R258) -/

/-- Codewords completed: FEC_CW, FEC_CORR_SYM, FEC_UNCORR, and the estimator of UL_SD (R201). -/
def fecCount (p : Nat) (cws : List (Option Nat)) (s : State) : State :=
  let bad := cws.countP (·.isNone)
  estAdd 4 p bad cws.length <| bump (cPort p 0x90) bad (bump (cPort p 0x88) (cws.filterMap id).sum (bump (cPort p 0x80) cws.length s))

/-- The counter offset of the check of R258 a frame fails; none for a frame that passes. -/
def macFails (s : State) (p len : Nat) (fcsOk : Bool) : Option Nat :=
  if len < 64 then some 0x18 else if maxLen s p < len then some 0x20 else if !fcsOk then some 0x10 else none

/-! ### MAC control (R261) -/

/-- pause_time of a PAUSE, or the largest among the enabled classes of a PFC; the control frame's EtherType at byte e. -/
def pauseTime (l : List Byte) (e : Nat) : Nat :=
  if natAt l (e + 2) 2 = 1 then natAt l (e + 4) 2
  else ((List.range 8).map (fun i => if natAt l (e + 5) 1 / 2 ^ i % 2 = 1 then natAt l (e + 6 + 2 * i) 2 else 0)).foldl max 0

/-- Mill cycles of n × 512 bit times at the port's rate. -/
def pauseMc (mode n : Nat) : Nat := ceilDiv (n * 512 * 124416) (10 ^ 7 * 2 ^ mode)

/-- A MAC control frame. -/
def macControl (p e : Nat) (l : List Byte) (s : State) : State :=
  let op := natAt l (e + 2) 2
  if op ≠ 1 ∧ op ≠ 0x101 then bump (cPort p 0x38) 1 s
  else
    let s := bump (cPort p (if op = 1 then 0x28 else 0x30)) 1 s
    if regBit s (aPORT p) 27 && !hasThroughEgress s p then
      let n := pauseTime l e
      updPort p (fun u => { u with pausedTo := if n = 0 then 0 else s.now + pauseMc (quadMode s (p / 4)) n }) s
    else s

/-! ### In-band packets (R271, R385) -/

/-- A reply to the in-band packet q may still come. -/
def inbandDue (s : State) (q : BitVec 32) : Bool :=
  s.cmd.inband.replies.any (fun r => r.dseq = q) || s.cmd.inband.queue.any (fun k => k.dseq = q) || s.cmd.ackWait.any (fun r => r.dseq = q)
    || s.cmd.timed.any (fun x => x.pkt.dseq = q) || s.cmd.waiting.any (fun x => x.pkt.dseq = q)

/-- An in-band packet: the payload up to byte 19 + PLEN; its reply goes back to the frame's source, on its port, under its VLAN tags. -/
def inbandRx (p e : Nat) (l : List Byte) (s : State) : State :=
  let pay := (body l).drop (e + 2)
  let t := receive .inband (pay.take (20 + pktPlen pay)) { s with cmd := { s.cmd with inbandLane := p } }
  let q := if t.cmd.ord = s.cmd.ord then 0 else t.cmd.lastDseq
  let told := (q, p, BitVec.ofNat 48 (natAt l 6 6), (l.drop 12).take (tagsLen l))
  let keep := t.cmd.inbandTo.filter (fun x => inbandDue t x.1)
  let more := if q = 0 then s.cmd.inband.replies.length < t.cmd.inband.replies.length else inbandDue t q
  { t with cmd := { t.cmd with inbandTo := if more then keep ++ [told] else keep } }

/-! ### Sequence recovery (R266, R267) -/

/-- What recovery decides on a frame of screen x with its R-TAG number: pass or not, and the counter offset to advance with its count. -/
def recovJudge (x : Screen) (q : BitVec 16) : Bool × Option (Nat × Nat) :=
  match x.recov with
  | none => (true, none)
  | some r =>
    let d := (q - r).toInt
    if x.histLen ≤ d ∨ d ≤ -(x.histLen : Int) then (false, some (0x58, 1))
    else if 0 < d then (true, some (0x60, d.toNat - 1))
    else if x.marked.contains d.natAbs then (false, some (0x50, 1))
    else (true, none)

/-- A frame that passed recovery, or needed none, is admitted; a standby keeps its reception as content only. -/
def screenAdmit (p f : Nat) (l : List Byte) (s : State) : State :=
  takeIn { down := true, tag := rtagOf l, port := some p } (engaged s) (cPort p 0xA8) f (dropRtag l) s

/-- The frame last admitted to flow f came, of two copies, by port p and not by p'. -/
def portMoved (f p p' : Nat) (s : State) : State :=
  { s with mill := { s.mill with through := mupd [] s.mill.through f (fun l =>
      l.dropLast ++ (l.getLast?.map (fun x => if x.port = some p' then { x with port := some p } else x)).toList) } }

/-- Counter b gives n of its counts to counter a. -/
def moveCount (a b n : Nat) (s : State) : State := bump a n (unbump b n s)

/-- A second copy ends in the mill cycle of the first, on a lower first lane: it is judged first and passes, so the other port counts the duplicate and
this one what the pass counted (Table 8.6). -/
def sameCycle (x : Screen) (p : Nat) (q : BitVec 16) (now : Nat) : Option (Nat × Nat) :=
  match x.lastRx with
  | some (t, p', q', lost) => if t = now ∧ q' = q ∧ p < p' then some (p', lost) else none
  | none => none

/-- A frame on screen x. -/
def screenRx (p : Nat) (x : Screen) (l : List Byte) (s : State) : State :=
  -- a reset by RESET_MS in the cycle of a frame, or before it, applies first (Table 8.6)
  let late := !isStandby s && x.recEn && x.recov.isSome && decide (x.lastPass + x.resetMs * 1244160 ≤ s.now)
  let s := if late then frerReset (keyOfScreen x) 0 s else s
  let x := if late then { x with recov := none, marked := [], told := true } else x
  if !x.recEn ∨ isStandby s then screenAdmit p x.flow l s
  else
    let set := fun (f : Screen → Screen) (s : State) => { s with screens := s.screens.map (fun y => if keyOfScreen y = keyOfScreen x then f y else y) }
    match rtagOf l with
    | none => screenAdmit p x.flow l (bump (cPort p 0x68) 1 (set (fun y => { y with lastPass := s.now }) s))
    | some q =>
      let (pass, c) := recovJudge x q
      match sameCycle x p q s.now, pass with
      | some (p', lost), false => portMoved x.flow p p' (bump (cPort p' 0x50) 1 (moveCount (cPort p 0x60) (cPort p' 0x60) lost s))
      | _, _ =>
        let s := match c with | some (o, n) => bump (cPort p o) n s | none => s
        let lost := match c with | some (0x60, n) => n | _ => 0
        if pass then screenAdmit p x.flow l (set (fun y => { recovPass y q s.now with lastRx := some (s.now, p, q, lost) }) s) else s

/-- Step 5 of Table 8.2: the screen of the frame's key, or NO_FLOW. -/
def sortFrame (p : Nat) (l : List Byte) (s : State) : State :=
  if (keyKind l).isNone then bump (cPort p 0xB0) 1 s
  else match screenOf s l with
    | none => bump (cPort p 0xA8) 1 s
    | some x => screenRx p x l s

/-! ### The receive order (R260, Table 8.2) -/

/-- A frame that passed R258. -/
def frameRx (p : Nat) (l : List Byte) (s : State) : State :=
  let e := etherAt l
  let ty := etherType l
  let da := natAt l 0 6
  let cfg := fun (i : Nat) => regBit s (aPORT p) i
  if ty = 0x8808 then macControl p e l s
  else if ty = 0x8809 then
    (if cfg 29 ∧ natAt l (e + 2) 1 = 0x0A ∧ natAt l (e + 3) 3 = 0x0019A7 then esmcRx p e l s else bump (cPort p 0x40) 1 s)
  else if ty = 0x88F7 ∧ cfg 30 ∧ (da = 0x011B19000000 ∨ da = 0x0180C200000E) then
    (if 24 ≤ natAt l (e + 6) 1 ∧ natAt l (e + 6) 1 ≤ 43 then ptpRx p (e + 2) (natAt l (e + 6) 1) l s else bump (cPort p 0x48) 1 s)
  else if ty = regFld s aINBAND_CFG 15 0 ∧ da = portMac s p ∧ cfg 28 then inbandRx p e l s
  else sortFrame p l s

/-- The frame that comes with a run of codewords overlaps an uncorrectable one (R257): among the newest codewords, the last of the run before included. -/
def fecHits (last : Bool) (r : FecRun) : Bool := ((last :: r.cws.map Option.isNone).reverse.take r.overlap).any id

/-- UPLINK_FRAME_RX: the frame, its FCS, and the codewords completed since the frame before it; over an uncorrectable one the FCS check fails (R257). -/
def uplinkRx (lane : Nat) (l : List Byte) (fcsOk : Bool) (r : FecRun) (s : State) : State :=
  let p := portOf s lane
  if !portOn s p then s
  else
    let hit := fecHits (uport s p).lastBad r
    let s := fecCount p r.cws (updPort p (fun u => { u with lastBad := (r.cws.getLast?.map Option.isNone).getD u.lastBad }) s)
    match macFails s p l.length (fcsOk && !hit) with
    | some o => bump (cPort p o) 1 s
    | none => frameRx p l (bump (cPort p 8) l.length (bump (cPort p 0) 1 s))

def execUplinkFrameRx (lane : Fin 32) (l : List Byte) (fcsOk : Bool) (r : FecRun) (s : State) := live s (uplinkRx lane.val l fcsOk r s)

end Sys2Proof.Machine
end

