-- ==== Sys2Proof/Machine/Replay.lean ====
section
/-! DEFINITION. The standby executing the stream, and the points at which sails change hands (R33, R209, R333, R338, R343 to R346, R349, R358, R393). -/

namespace Sys2Proof.Machine

open Config

/-! ### COMMAND records (R33, R333, R358, R360) -/

/-- The device series goes on from the highest number given or executed (R360). -/
def takeDev (q : BitVec 32) (s : State) : State :=
  if q ≠ 0 ∧ (s.cmd.devLast = 0 ∨ numAfter s.cmd.devLast q) then { s with cmd := { s.cmd with devLast := q } } else s

/-- Effects posted since a state held n of them cross at the canonical stroke itself: the record names the stroke of effect (Table 11.2). -/
def atCanonical (n : Nat) (s : State) : State :=
  { s with mill := { s.mill with landing := s.mill.landing.take n ++ (s.mill.landing.drop n).map (fun x => { x with at_ := 0 }) } }

/-- COMMAND: a mirrored packet executed without intake checks and without a reply. A turn is scheduled as the SAILS_ON unit scheduled it; whether this
unit holds the plate is judged at the turn (R33, R354). -/
def commandRec (q : BitVec 32) (packet : List Byte) (s : State) : State :=
  match decodePacket .board packet with
  | (none, _) => takeDev q s
  | (some c, at_) =>
    let s := takeDev q s
    let o := opOf c
    if at_ ≠ 0 ∨ o.bad s ≠ 0 then s
    else
      let n := s.mill.landing.length
      let r := match c with
        | .plateTurn h b id t => turnPlace h (b = 1) id t (checkTime s h) s
        | _ => o.run s
      let k : Pkt := { hdr := pktHdr .board packet, opcode := BitVec.ofNat 16 (opcodeOf c), cmd := some c, badAt := 0, dseq := q, sid := 0,
                       ord := s.cmd.ord, at_ := s.now }
      atCanonical n (if r.status ≤ 1 ∧ q ≠ 0 then tookEffect n k r.s else r.s)

/-! ### The lag (R333) -/

/-- A record of the lag executed. -/
def execRec (s : State) (r : StreamRec) : State :=
  match r.body with
  | .ingress k f len q => ingressRec r.stroke k f len q s
  | .command q p => commandRec q p s
  | .terminal g st eqd rtd was tries => terminalRec g st eqd rtd was tries s
  | .drift g eqd => driftRec g eqd s
  | .rogue n run quiet named cands held suspect => rogueRec n run quiet named cands held suspect s
  | .time b st cb tau rr mpd asym kb sel k => timeRec r.stroke b st cb tau rr mpd asym kb sel k s
  | .digest i v => digestRec i v s
  | .repair .. | .repairCw .. | .burst .. | .delivered .. | .defect .. | .lease .. | .gap .. => streamRec s r

/-- The record of least canonical stroke, the first received of them. -/
def lagFirst : List StreamRec → Option StreamRec
  | [] => none
  | r :: l => match lagFirst l with
    | some x => if x.stroke < r.stroke then some x else some r
    | none => some r

/-- The boundary whose digest the standby owes lies before canonical stroke t: the digest comes first (R336). -/
def digestBefore (t : Nat) (s : State) : State :=
  match s.pair.digestDue with
  | some (b, i) => if b < t then digestSend b i { s with pair := { s.pair with digestDue := none } } else s
  | none => s

/-- STREAM_EXECUTE: the next record of the lag, PAIR_LAG after its canonical stroke; a unit that joins has first to hold all sections (R347). -/
def streamExecute (s : State) : State :=
  if !executes s then s
  else match lagFirst s.pair.lag with
    | none => s
    | some r => execRec (digestBefore r.stroke (atStroke r { s with pair := { s.pair with lag := s.pair.lag.erase r } })) r

def execStreamExecute (s : State) := live s (streamExecute s)

def execCommandRecord (r : StreamRec) (s : State) := live s (match r.body with
  | .command q p => lagged r (commandRec q p) s
  | _ => s)

/-! ### Taking sails (R209, R338, R343 to R346, R349, R393) -/

/-- A mirrored timed command whose canonical stroke lies after X waits for it on the new unit. -/
def keepTimed (s : State) (r : StreamRec) : State :=
  match r.body with
  | .command q p =>
    match decodePacket .board p with
    | (some c, 0) =>
      let k : Pkt := { hdr := pktHdr .board p, opcode := BitVec.ofNat 16 (opcodeOf c), cmd := some c, badAt := 0, dseq := q, sid := 0,
                       ord := s.cmd.ord, at_ := s.now }
      let s := takeDev q s
      { s with cmd := { s.cmd with timed := s.cmd.timed ++ [{ pkt := k, at_ := r.stroke }], ord := s.cmd.ord + 1 } }
    | _ => takeDev q s
  | _ => s

/-- The records pending in the lag, in canonical order; those that name a stroke after X are mirrored timed commands. -/
def runLag (x : Nat) : Nat → State → State
  | 0, s => s
  | n + 1, s =>
    match lagFirst s.pair.lag with
    | none => s
    | some r =>
      let s := { s with pair := { s.pair with lag := s.pair.lag.erase r } }
      runLag x n (if x < r.stroke then keepTimed s r else execRec s r)

/-- The standby raises at X in a form: what is still pending in its lag runs first, over the sections of a copy where it is a cold takeover, so that
terminals, time domains and timed commands go on from the last record (R344, R346, R349, R393). -/
def raiseAt (x form cause tr : Nat) (s : State) : State :=
  let s := if form = 7 then coldSections s else s
  let s := runLag x s.pair.lag.length s
  takeSails form cause tr { s with pair := { s.pair with handover := none } }

/-- Sails change hands at X in a form: this unit gives them, or takes them. -/
def atX (x form cause tr : Nat) (s : State) : State :=
  let s := advance x s
  if s.pair.sails then giveSails form cause tr s
  else if isStandby s then raiseAt x form cause tr s
  else { s with pair := { s.pair with handover := none } }

/-- SWITCHOVER: the switchover that awaits its X. -/
def switchover (s : State) : State :=
  match s.pair.handover with
  | none => s
  | some (x, form, cause, tr) => atX x form cause tr s

def execSwitchover (s : State) := live s (switchover s)

/-- FEEDER_HANDOVER: a switchover of form 6. -/
def feederHandover (s : State) : State :=
  match s.pair.handover with
  | some (x, 6, cause, tr) => atX x 6 cause tr s
  | _ => s

def execFeederHandover (s : State) := live s (feederHandover s)

/-- A standby that has granted raises by itself at e_s + 124,400; with a witness it waits for a verdict (R338, R342). -/
def raises (s : State) : Bool := isStandby s && s.pair.granted && s.pair.expiry ≠ 0 && !regBit s aPAIR_CFG 27

/-- The form of a raise at an expiry: a cold takeover from JOINING (R349). -/
def expiryForm (s : State) : Nat := if s.pair.st = .joining then 7 else 2

/-- RAISE_POINT: the raise at e_s + 124,400; a release that falls on the same stroke governs (R338, R355). -/
def raisePoint (s : State) : State :=
  let x := s.pair.expiry + 124400
  if !raises s || s.pair.handover.any (fun y => y.1 ≤ x) then s else atX x (expiryForm s) 0 0 s

def execRaisePoint (s : State) := live s (raisePoint s)

/-- A raise that is due completes before contact is judged (Table 11.8). -/
def raiseFirst (s : State) : State :=
  if !isStandby s then s
  else match s.pair.handover with
    | some (x, form, cause, tr) => if x ≤ s.now then raiseAt x form cause tr s else s
    | none => if raises s ∧ s.pair.expiry + 124400 ≤ s.now then raiseAt (s.pair.expiry + 124400) (expiryForm s) 0 0 s else s

/-- The roles at contact (Table 11.1, R331, R340, R355): the unit that sails, or raises, sees the pair join; the other feathers, takes the pair time of
its partner and is of the pair. -/
def landContact (x : Bool × Bool × Bool × BitVec 32) (s0 : State) : State :=
  if !s0.pair.contact ∨ pairMode s0 ≠ 2 then s0
  else
    let s := raiseFirst s0
    let s := { s with pair := { s.pair with fencedLease := false, renewing := false, lostTold := false } }
    let top := topEpoch s x.2.2.2
    if (s.pair.sails && !s0.pair.sails) || wouldSail s x then
      if s.pair.sails then startJoin { s with pair := { s.pair with partnerSails := false } }
      else
        let s := raiseSails { s with pair := { s.pair with epoch := top } }
        if s.pair.resyncLimit then { s with pair := { s.pair with st := .solo } } else startQuick s
    else
      let s := if s.pair.sails then loseFrames (feather s) else s
      let s := adoptTime { s with pair := { s.pair with st := .joining, epoch := top, granted := false, expiry := 0 } }
      if regBit s aPAIR_CFG 26 && isStandby s then postCut s else s

end Sys2Proof.Machine
end

