-- ==== Sys2Proof/Machine/Boundary.lean ====
section
/-! DEFINITION. The stroke boundary, the impression boundary and the bandwidth window end (R22, R31, R56, R84 to R94, R143, R152, R159, R193 to R204,
R206, R215, R230, R240 to R248, R318, R336, R408, R409). -/

namespace Sys2Proof.Machine

open Config

/-! ### The stroke boundary -/

/-- Checks and effect of a command that takes effect at a stroke boundary (Table 12.16, column T of Tables 12.10, 12.13 to 12.15). -/
def strokeOf : Instr → Option Op
  | .regWr h a w c d => some (opRegWr h a w c d)
  | .regRmw h a m v => some (opRegRmw h a m v)
  | .fence _ a => some (opFence a)
  | .snapshot _ => some opSnapshot
  | .termAdd h t l a => some (opTermAdd h t l a)
  | .termRange _ t l => some (opTermRange t l)
  | .termActivate _ t l => some (opTermActivate t l)
  | .termDisable _ t l a => some (opTermDisable t l a)
  | .ploamSend _ t l y c => some (opPloamSend t l y c)
  | .termRate _ t l r => some (opTermRate t l r)
  | .millSet _ t i d => some (opMillSet t i d)
  | .screenSet _ e => some (opScreenSet e)
  | .genSet _ f g => some (opGenSet f g)
  | .timeArm _ d => some (opTimeArm d)
  | .timeSet _ d c n => some (opTimeSet d c n)
  | .timeDisable _ d => some (opTimeDisable d)
  | .timeSel _ d => some (opTimeSel d)
  | .acceptPathStep _ d a => some (opAcceptPathStep d a)
  | .protCfg _ a => some (opProtCfg a)
  | .protSwitch _ p => some (opProtSwitch p)
  | .pwrSet _ d st => some (opPwrSet d st)
  | .kwkSet _ k => some (opKwkSet k)
  | .defectCfg _ k sd sf a b => some (opDefectCfg k sd sf a b)
  | _ => none

/-- A command at its stroke boundary: checked, run and answered; a timed one, answered ACCEPTED before, pushes CMD_DONE with the status it comes to
(R367). -/
def landCmd (timed : Bool) (k : Pkt) (s : State) : State :=
  match k.cmd.bind strokeOf with
  | none => s
  | some o =>
    let n := s.mill.landing.length
    let r := if o.bad s ≠ 0 then resBad (o.bad s) s else if timed then o.run s else o.does k s
    if timed then
      event 0x0002 0x0B (portNo k.hdr.port) (e32 k.dseq ++ beBytes 1 r.status) (if r.status ≤ 1 then tookEffect n k r.s else r.s)
    else complete n k r

/-- An accepted effect lands (R22). -/
def landOne (x : Posted) (s : State) : State :=
  match x.eff with
  | .cmd timed => (x.pkt.map (fun k => landCmd timed k s)).getD s
  | .bar a w v no => landBar a w v no s
  | .barRead a w => barReadNow a w s
  | .lock a v => landLock a v s
  | .keyLoad i b w => keyLoadLand i b w s
  | .raise_ => landRaise s
  | .feather e => landFeather e s
  | .contact a b c e => landContact (a, b, c, e) s
  | .cut => landCut s
  | .sections => landSections s
  | .fenced => landFenced s
  | .largeOff => landLargeOff s
  | .liftFence => landLift s
  | .linkFence => leaseFence 3 3 s
  | .reset cold => landReset cold s

/-- An effect lands while the device runs; the number of the command that posted it has then taken effect (R44). -/
def landEffect (s : State) (x : Posted) : State :=
  if s.power.phase ≠ .running then s
  else
    let s := landOne x s
    match x.eff, x.pkt with
    | .cmd _, _ => s
    | _, some k => markEff k.dseq s
    | _, none => s

/-- The crossing of R27: handed over at the first stroke boundary at least 2 CK_CTL cycles, 6 mc, after posting. -/
def crosses (t : Nat) (x : Posted) : Bool := decide (x.at_ + 6 ≤ t)

/-- The 32-bit registers a posted effect writes. -/
def landsOn (x : Posted) : List Nat :=
  match x.eff, x.pkt.bind Pkt.cmd with
  | .bar a 4 _ _, _ => [regBase a]
  | .cmd _, some (.regWr _ a w n d) => if w = 4 then (wrList a.toNat 4 n.toNat d).map (fun e => regBase e.1) else []
  | .cmd _, some (.regRmw _ a _ _) => [regBase a.toNat]
  | _, _ => []

/-- The mill cycle of a posted effect: that of its packet's acceptance, or of the access. -/
def cycleOf (x : Posted) : Nat := (x.pkt.map Pkt.at_).getD x.at_

/-- The quad of QUAD_CFG, and of a PORT_CFG. -/
def modeQuad (a : Nat) : Option Nat := if isQuadCfg a then some ((a - 0x400000) / 0x10000) else none
def enableQuad (a : Nat) : Option Nat :=
  let o := a % 0x10000
  if 0x400000 ≤ a ∧ a < 0x480000 ∧ 0x10 ≤ o ∧ o < 0x90 ∧ (o - 0x10) % 0x20 = 0 then some ((a - 0x400000) / 0x10000) else none

/-- The place of an effect in its boundary: acceptance order (R23), but a MODE write comes after the ENABLE writes to its quad of its own cycle
(Table 8.6). -/
def landPlace (l : List Posted) (x : Posted) : Nat :=
  match (landsOn x).filterMap modeQuad with
  | [] => 2 * x.ord
  | gs => 2 * ((l.filter (fun y => cycleOf y = cycleOf x && ((landsOn y).filterMap enableQuad).any gs.contains)).map Posted.ord).foldl max x.ord + 1

/-- The effects handed over at the stroke boundary t land in their order. -/
def landAll (t : Nat) (s : State) : State :=
  let l := s.mill.landing.filter (crosses t)
  (sortBy (landPlace l) l).foldl landEffect { s with mill := { s.mill with landing := s.mill.landing.filter (fun x => !crosses t x) } }

/-- PROT_SWITCH reverts the ports whose stroke boundary has come (R215). -/
def revertPorts (t : Nat) (s : State) : State :=
  (List.range 32).foldl (fun s p =>
    let u := uport s p
    if u.revertAt ≠ 0 ∧ u.revertAt ≤ t then (updPort p (fun u => { u with revertAt := 0, rehashed := false }) s) else s) s

/-- The stroke boundary due next: the first at or after the present whose work is not done (log 54). -/
def nextStrokeAt (s : State) : Nat := max s.strokeNext (strokeAt s s.now)

/-- HOPPER_DROP of the state stream's hopper, once for each drop (R401, R414). -/
def streamTold (s : State) : State :=
  s.pair.streamDrop.foldl (fun s q => event 0x0010 0x0C 0x20 (beBytes 4 q.toNat) s) { s with pair := { s.pair with streamDrop := [] } }

/-- SC registers that hardware has updated in the cycle of a software write, EVT_SEQ having advanced since `old`: the write has cleared nothing
(Table 13.2). -/
def scKeeps (old s : State) : State :=
  old.regs.foldl (fun s e =>
    match regInfo e.1 with
    | none => s
    | some i =>
      let v := regRaw s e.1
      if i.sc = 0 ∨ fld v.toNat 15 8 = fld e.2.toNat 15 8 then s else setRaw e.1 (v ||| (e.2 &&& i.sc)) s) s

/-- The work of one stroke after its effects have landed. -/
def strokeWork (t : Nat) (ecc : List Nat) (s : State) : State :=
  let s := revertPorts t (judgeTriggers (streamTold (digestLag t (timeStroke s))))
  let s := (List.range 8).foldl (fun s g => tsConsume g s) s
  let edge := decide ((t - s.imprAt) % FRAME = 0)
  let s := (List.range 64).foldl (fun s n => if edge then frameSent t n (rogueVerdict n t (treeFrameEnd n t s)) else rogueVerdict n t s) s
  let s := millStroke t ecc s
  let s := (List.range 64).foldl (fun s n => downStroke t n s) s
  let s := (List.range 32).foldl (fun s q => macStroke (millIx s t) q s) (inbandReplies s)
  protStroke (todReplies s)

/-- STROKE_BOUNDARY (R243): refill, effects, then the decisions of the stroke; register reads see what it leaves (R25). The work of an impression boundary comes before that of the stroke
boundary it falls on. -/
def strokeBoundary (ecc : List Nat) (s : State) : State :=
  let t := nextStrokeAt s
  if nextBoundary s ≤ t then s
  else
    let n := (t + STROKE - s.strokeNext) / STROKE
    let old := refill n { advance t s with strokeNext := t + STROKE }
    let s := landAll t old
    if s.power.phase = .running then takeSample (scKeeps old (strokeWork t ecc s)) else s

def execStrokeBoundary (ecc : List Nat) (s : State) := live s (strokeBoundary ecc s)

/-! ### The impression boundary: terminals -/

/-- round(x / n), halves upward, for n > 0. -/
def roundDiv (x : Int) (n : Nat) : Int := (2 * x + n) / (2 * n)

/-- The drift evaluation of an ACTIVE terminal (R152, TM_DRIFT of Table 6.1). -/
def driftEval (g : Nat) (s : State) : State :=
  let t := term s g
  if t.st ≠ .active then s
  else
    let c := (cntOf s (cTerm g 0x30)).v.toNat
    let o := (cntOf s (cTerm g 0x28)).v.toInt
    let n := (c + 2 ^ 64 - t.dlmN) % 2 ^ 64
    let x := (o - t.dlmS) * (40 / lineBits t.rate : Nat)
    let s := updTerm g (fun t => { t with dlmN := c, dlmS := o }) s
    if n < 16 then s
    else
      let step := (tree s (g / 128)).set.driftStep
      let far := decide (step * n ≤ x.natAbs)
      let s := if far then
          let d := clampI (-160) 160 (roundDiv x n)
          let e : Int := (t.eqd : Int) - d
          if !decides s then s
          else if e < 0 ∨ ((tEq s (g / 128) : Int) - rtdLo s (g / 128)) < e then
            defSet 2 g TM_DRIFT (event 0x020B 2 g (beBytes 4 (twos 32 (roundDiv x n))) s)
          else sendRanging g true (driftTo g e.toNat s)
        else s
      let s := if 400 * n ≤ x.natAbs then defSet 2 g TM_DRIFT s else s
      let s := updTerm g (fun t => { t with driftOk := if far then 0 else t.driftOk + 1 }) s
      if 2 ≤ (term s g).driftOk then defClear 2 g TM_DRIFT 0 s else s

/-- One terminal at an impression boundary: its activation falls due, its timers count, its reports start afresh (R114, R143, Table 4.3). -/
def termBoundary (g : Nat) (s : State) : State :=
  let s := match (term s g).activeDue with
    | some c => if decides s then moveTerm g .active c s else s
    | none => s
  updTerm g (fun t =>
    let run := t.st = .discovered ∨ t.st = .popup ∨ t.st = .rogue
    { t with timer := if run then t.timer + 1 else t.timer, staleTold := false,
             pkeyOn := t.pkeyOn || (t.pkey.isSome && seqLe t.pkeyImpr s.imprNum) }) (driftEval g s)

/-! ### The impression boundary: trees -/

/-- R199: at the tenth boundary with TR_LOS declared every ACTIVE terminal declares TM_LOS. -/
def losBoundary (n : Nat) (s : State) : State :=
  if !declared s 1 n TR_LOS then s
  else
    let s := updTree n (fun t => { t with losBounds := t.losBounds + 1 }) s
    if 10 ≤ (tree s n).losBounds then
      (List.range 128).foldl (fun s k => if (term s (128 * n + k)).st = .active then termLos (128 * n + k) s else s) s
    else s

/-- FEEDER_SKEW trimmed on the unit that is not HOME (R206). -/
def trimSkew (n : Nat) (s : State) : State :=
  let t := tree s n
  let s := updTree n (fun t => { t with partnerDlm := (0, 0), ownDlm := (0, 0) }) s
  if !(s.pair.contact && pairMode s = 2 && s.pair.st ≠ .solo && decide ((regBit s aPAIR_CFG 29).toNat ≠ t.home))
      || t.partnerDlm.2 = 0 || t.ownDlm.2 = 0 then s
  else
    let d : Int := roundDiv t.ownDlm.1 t.ownDlm.2 - roundDiv t.partnerDlm.1 t.partnerDlm.2
    if d.natAbs ≤ 80 then s
    else
      let v := t.skew + clampI (-4) 4 (roundDiv d 40)
      if -248 ≤ v ∧ v ≤ 248 then updTree n (fun t => { t with skew := v }) s
      else event 0x0212 1 n (beBytes 2 (twos 16 v)) s

/-- Settings of a tree that apply from a boundary (R140, R197): with those of PROT_CFG the count of TR_LOS restarts and FEEDER_SKEW is unlocked (R206);
what triggers by them is judged with the next stroke (R207). -/
def setApply (n : Nat) (s : State) : State :=
  let s := updTree n (fun t => match t.setNext with | some x => { t with set := x, setNext := none } | none => t) s
  match (tree s n).protNext with
  | none => s
  | some (b, h, k, l, x) =>
    updTree n (fun t => { t with protTypeB := b, home := h, skew := k, skewCfg := k, skewLocked := false, losBursts := l, xtrig := x,
                                 losCount := 0, protNext := none }) s

/-- The state of tree n, a move that is due by now made. -/
def stateDue (s : State) (n : Nat) : TreeSt :=
  match (tree s n).moving with
  | some (x, t) => if t ≤ s.now then x else (tree s n).st
  | none => (tree s n).st

/-- A tree at an impression boundary, after any turn there: SERVING ends where no record names it; TREE_HELD once where records name it below
SERVING (R92, R94); the rogue procedure counts quiet impressions (R159). -/
def treeBoundary (n : Nat) (s : State) : State :=
  if !treeOk s n then s
  else
    let s := setApply n s
    let named := (engaged s).any (fun p => plateNames p n)
    let s := if (tree s n).st = .serving ∧ !named then treeEnter n .lit s else s
    let s := if named then s else updTree n (fun t => { t with heldTold := false }) s
    let s := if named ∧ stateDue s n ≠ .serving ∧ !(tree s n).heldTold then
        event 0x010B 1 n (rsv 4 ++ beBytes 4 s.imprNum.toNat) (updTree n (fun t => { t with heldTold := true }) s)
      else s
    let t := tree s n
    let trig := decide (t.set.rogueTrig ≤ t.oogImpr) || decide (t.set.rogueTrig ≤ t.idMisImpr)
    let s := if t.rogue.running ∧ decides s then rogueStep n (fun r => { r with
        again := r.again || (trig && r.suspect.isSome && decide (r.disabledAt + 1 < s.imprCount) && decide (s.imprCount ≤ r.disabledAt + 3)),
        quiet := if trig then 0 else r.quiet + 1 }) s
      else s
    let s := updTree n (fun t => { t with oogImpr := 0, idMisImpr := 0, discCount := 0, discSeen := [] }) s
    treeDecide n (trimSkew n (losBoundary n s))

/-! ### The impression boundary: the rest -/

/-- The grid and the number advance (R31): a first turn ends the impression in progress early, and does so where it then fails at its boundary (R90,
log 120). -/
def gridStep (s : State) : State :=
  let b := match s.plates.turn with
    | some t => if t.first ∧ t.at_ < s.imprNext then t.at_ else s.imprNext
    | none => s.imprNext
  { advance b s with imprNum := s.imprNum + 1, imprCount := s.imprCount + 1, imprAt := b, imprNext := b + IMPRESSION,
                     strokeNext := if s.strokeNext < b ∨ b < s.imprNext then b else s.strokeNext }

/-- A lease decision in the stroke of the boundary comes first (Table 1.5): the fence point of an active unit lies in the stroke that begins at b
(R338). -/
def leaseFirst (b : Nat) (s : State) : State :=
  if s.pair.sails ∧ s.pair.expiry ≠ 0 ∧ s.pair.expiry - 124400 < b + STROKE then leaseFence 0 2 s else s

/-- The turn or the disengage due at boundary b (Table 2.15, R56): a disengage due with a turn that fails takes place. Without either, frames are
classified under one plate again (R89). -/
def plateBoundary (b : Nat) (s : State) : State :=
  if s.plates.turn.any (fun t => t.at_ ≤ b) then
    let s := turnDue { s with plates := { s.plates with prev := engaged s } }
    disengageAt b s
  else if s.plates.disengage = some b then disengageAt b s
  else { s with plates := { s.plates with prev := engaged s } }

/-- IMPR_PHASE (R31): the boundary compared with the nearest radio frame boundary of the selected domain. -/
def phaseCheck (b : Nat) (s : State) : State :=
  let d := tdom s s.time.sel
  if !(d.st = .tracking || d.st = .hold) then s
  else
    let x := tauAt d.cb d.tau d.r b % radioU
    let off := if 2 * x ≤ radioU then -x else radioU - x
    let far := decide (80 * rateNum d.r < off.natAbs * rateDen)
    let s' := { s with phaseOff := far }
    if far ∧ !s.phaseOff then event 0x0105 0 0 (beBytes 4 (twos 32 (off * rateDen / rateNum d.r))) s' else s'

/-- AUTO_SEL (R318); the selection moves in the work of the stroke boundary, so a turn at this boundary uses the one in force before it (R325). -/
def autoSel (s : State) : State :=
  let o := !s.time.sel
  if decides s ∧ regBit s aTIME_CTL 3 ∧ (tdom s s.time.sel).st = .hold ∧ (tdom s o).st = .tracking then
    event 0x0707 0x0A o.toNat [] (askSel o s)
  else s

/-- Settings of a port that apply from this boundary (R197); a SPARE changed under a rehashed port ends its rehash (R215, log 121). -/
def portSettings (u : UPort) : UPort :=
  match u.protNext with
  | none => u
  | some (sp, t) => { u with spare := sp, utrig := t, protNext := none, rehashed := u.rehashed && decide (sp = u.spare),
                             revertAt := if sp = u.spare then u.revertAt else 0 }

/-- Defect settings that apply from this boundary, and those of the ports, by which a UL_SD that stands may become a trigger (R214); the integration they govern restarts at it (R197): its windows keep only what stands at a slot
boundary here. -/
def estSettings (s : State) : State :=
  let s := (List.range 32).foldl (fun s p => portChange p (updPort p portSettings) s) s
  let keep := fun (e : Estim) => { e with slots := if s.imprNum.toNat % 10 = 0 then e.slots.take 1 else [] }
  s.defects.next.foldl (fun s x =>
    let d := s.defects
    let d := if x.1 = 0 then { d with cfgTree := x.2 } else if x.1 = 1 then { d with cfgTerm := x.2 } else { d with cfgPort := x.2 }
    let cls := if x.1 = 0 then 1 else if x.1 = 1 then 2 else 4
    { s with defects := { d with est := mmap {} (fun i e => if i / 0x10000 = cls then keep e else e) d.est } })
    { s with defects := { s.defects with next := [] } }

/-- Estimator slots end at boundaries whose number is a multiple of 10 (R201). -/
def estBoundary (s : State) : State :=
  if s.imprNum.toNat % 10 ≠ 0 then s
  else
    let s := (List.range 64).foldl (fun s n =>
      if (tree s n).st = .lit ∨ (tree s n).st = .serving then estSlot 1 n TR_SD TR_SF s.defects.cfgTree s else s) s
    let s := (s.terms.map (·.1)).foldl (fun s g =>
      if (term s g).st = .active ∨ (term s g).st = .popup then estSlot 2 g TM_SD TM_SF s.defects.cfgTerm s else s) s
    (List.range 32).foldl (fun s p => if portOn s p then portChange p (estSlot 4 p UL_SD 0 s.defects.cfgPort) s else s) s

/-- Reports given once an impression may be given again (R187, R189, R230, R267). -/
def millBoundary (s : State) : State :=
  let m := s.mill
  { s with
    mill := { m with oversizeTold := [], egressTold := [], lanes := mmap {} (fun _ l => { l with fillTold := false }) m.lanes }
    screens := s.screens.map (fun x => { x with told := false }) }

/-- A pause ends on a port that the engaged plate gives a THROUGH entry (R261). -/
def pauseBoundary (s : State) : State :=
  (List.range 32).foldl (fun s p => if hasThroughEgress s p then updPort p (fun u => { u with pausedTo := 0 }) s else s) s

/-- DEGRADED ends (Table 6.4); the save that the unit restarted from is consumed once its plate is ENGAGED (R442). -/
def pairBoundary (s : State) : State :=
  let up := (engaged s).isSome && (List.range 64).all (fun n => treeTarget s n ≠ 3 || (tree s n).st = .serving)
    && !s.terms.any (fun e => e.2.wasActive && (e.2.st = .discovered || e.2.st = .popup))
  let s := if up then { s with pair := { s.pair with degraded := false } } else s
  if s.power.restored ∧ !s.power.consumed ∧ (engaged s).isSome then { s with power := s.power.consume } else s

/-- R332, R350: PAIR_SKEW of a standby that does not follow its partner's root is open; above 8 mc the unit is out of step. -/
def slipCheck (s : State) : State :=
  if !(isStandby s && s.pair.contact) then s
  else
    let (v, t) := fresh s
    let s := if s.timing.following then s else { t with pair := { t.pair with skew := (v % 65536 : Nat) - 32768 } }
    if 128 < s.pair.skew.natAbs then outOfStep 5 s else s

/-! ### Bandwidth windows (R408, R409) -/

/-- The window end that is due: of this impression, after the last one. -/
def bwDue (s : State) : Option Nat :=
  let w := s.bwMs
  if 10 ≤ w then (if s.imprNum.toNat % (w / 10) = 0 ∧ s.bwFrom < s.imprAt then some s.imprAt else none)
  else
    let t := if s.bwFrom < s.imprAt then s.imprAt else s.imprAt + ((s.bwFrom - s.imprAt) / (w * 1244160) + 1) * (w * 1244160)
    if t < nextBoundary s then some t else none

/-- Rate registers and their sources. -/
def bwRates : List (Nat × Nat) :=
  (List.range 32).flatMap (fun p => [(0x81000 + p * 0x10, cPort p 8), (0x81004 + p * 0x10, cPort p 0x78)])
    ++ (List.range 64).flatMap (fun n => [(0x81200 + n * 0x10, cbTree n 0), (0x81204 + n * 0x10, cbTree n 1)])

/-- A rate in kb/s; a source preset, restarted or wrapped gives all ones. -/
def bwRate (w old new : Nat) (restarted : Bool) : Word :=
  if restarted ∨ new < old then 0xFFFFFFFF else BitVec.ofNat 32 (8 * (new - old) / w)

/-- A window begins: every source as it stands. -/
def bwSample (s : State) : State :=
  { s with
    bwAll := false, bwFrom := s.now
    bwSrc := bwRates.foldl (fun m r => mput 0 m r.2 (cntOf s r.2).v.toNat) s.bwSrc }

/-- BW_WINDOW_END. Until the first end of a new W's grid no window of it has begun: that end only begins one. -/
def bwWindowEnd (s : State) : State :=
  match bwDue s with
  | none => s
  | some t =>
    let s := advance t s
    if s.bwPart then bwSample { s with bwPart := false }
    else
      let again := s.bwAll || decide (s.bwAt = 0 ∧ s.power.restartCause ≠ 0)
      let s' := bwRates.foldl (fun x r =>
        { x with rates := mput 0 x.rates r.1 (bwRate s.bwMs (mget 0 s.bwSrc r.2) (cntOf s r.2).v.toNat again) }) s
      bwSample { s' with bwStatus := s.bwStatus + 1, bwAt := t }

/-- A new W takes effect at an impression boundary (R409): a window of the old one that ends there ends first; the new one's first window begins here, or
at the first end of its grid. -/
def windowBoundary (s : State) : State :=
  let w := regFld s aBW_CFG 13 0
  if w = s.bwMs ∨ !windowOk w then s
  else
    let s := if bwDue s = some s.imprAt then bwWindowEnd s else s
    bwSample { s with bwMs := w, bwPart := decide (10 ≤ w) && decide (s.imprNum.toNat % (w / 10) ≠ 0) }

def execBwWindowEnd (s : State) := live s (bwWindowEnd s)

/-- Commands that take effect at this boundary have taken it (R44, R56, R84, R127). -/
def effectsDue (s : State) : State :=
  let due := s.cmd.effAt.filter (fun e => seqLe e.2 s.imprNum)
  due.foldl (fun s e => markEff e.1 s) { s with cmd := { s.cmd with effAt := s.cmd.effAt.filter (fun e => !seqLe e.2 s.imprNum) } }

/-- IMPRESSION_BOUNDARY. -/
def imprBoundary (s : State) : State :=
  let s := gridStep s
  let b := s.imprAt
  let s := plateBoundary b (leaseFirst b (tribEffects b s))
  let s := effectsDue (keyBoundaryAll s.imprNum s)
  let s := (s.terms.map (·.1)).foldl (fun s g => termBoundary g s) s
  let s := (List.range 64).foldl (fun s n => treeBoundary n s) s
  let s := pauseBoundary (millBoundary (sflowLimit (tribCheckAll s)))
  let s := twinJudge (estSettings (estBoundary s))
  let s := autoSel (phaseCheck b s)
  let s := windowBoundary s
  digestAt b (slipCheck (pairBoundary s))

def execImpressionBoundary (s : State) := live s (imprBoundary s)

end Sys2Proof.Machine
end

