-- ==== Sys2Proof/Machine/Dispatch.lean ====
section
/-! DEFINITION. One arm per command: a direct call of its meaning. -/

namespace Sys2Proof.Machine

/-- The effect of a command on everything but the queue. -/
def exec (i : Instr) (s : State) : Host.Outcome State Fault Refusal :=
  match i with
  | .nop x0 => Sys2Proof.Machine.execNop x0 s
  | .hello x0 x1 x2 x3 x4 x5 x6 => Sys2Proof.Machine.execHello x0 x1 x2 x3 x4 x5 x6 s
  | .features x0 x1 x2 => Sys2Proof.Machine.execFeatures x0 x1 x2 s
  | .fence x0 x1 => Sys2Proof.Machine.execFence x0 x1 s
  | .bye x0 => Sys2Proof.Machine.execBye x0 s
  | .regRd x0 x1 x2 x3 => Sys2Proof.Machine.execRegRd x0 x1 x2 x3 s
  | .regWr x0 x1 x2 x3 x4 => Sys2Proof.Machine.execRegWr x0 x1 x2 x3 x4 s
  | .regRmw x0 x1 x2 x3 => Sys2Proof.Machine.execRegRmw x0 x1 x2 x3 s
  | .snapshot x0 => Sys2Proof.Machine.execSnapshot x0 s
  | .plateOpen x0 x1 => Sys2Proof.Machine.execPlateOpen x0 x1 s
  | .plateData x0 x1 x2 x3 => Sys2Proof.Machine.execPlateData x0 x1 x2 x3 s
  | .plateProof x0 x1 => Sys2Proof.Machine.execPlateProof x0 x1 s
  | .plateTurn x0 x1 x2 x3 => Sys2Proof.Machine.execPlateTurn x0 x1 x2 x3 s
  | .plateAbort x0 x1 => Sys2Proof.Machine.execPlateAbort x0 x1 s
  | .plateInfo x0 x1 => Sys2Proof.Machine.execPlateInfo x0 x1 s
  | .termAdd x0 x1 x2 x3 => Sys2Proof.Machine.execTermAdd x0 x1 x2 x3 s
  | .termRange x0 x1 x2 => Sys2Proof.Machine.execTermRange x0 x1 x2 s
  | .termActivate x0 x1 x2 => Sys2Proof.Machine.execTermActivate x0 x1 x2 s
  | .termDisable x0 x1 x2 x3 => Sys2Proof.Machine.execTermDisable x0 x1 x2 x3 s
  | .termKey x0 x1 x2 x3 x4 x5 x6 => Sys2Proof.Machine.execTermKey x0 x1 x2 x3 x4 x5 x6 s
  | .ploamSend x0 x1 x2 x3 x4 => Sys2Proof.Machine.execPloamSend x0 x1 x2 x3 x4 s
  | .termRate x0 x1 x2 x3 => Sys2Proof.Machine.execTermRate x0 x1 x2 x3 s
  | .millSet x0 x1 x2 x3 => Sys2Proof.Machine.execMillSet x0 x1 x2 x3 s
  | .millGet x0 x1 x2 => Sys2Proof.Machine.execMillGet x0 x1 x2 s
  | .tribSet x0 x1 => Sys2Proof.Machine.execTribSet x0 x1 s
  | .tribGet x0 x1 => Sys2Proof.Machine.execTribGet x0 x1 s
  | .screenSet x0 x1 => Sys2Proof.Machine.execScreenSet x0 x1 s
  | .screenGet x0 x1 => Sys2Proof.Machine.execScreenGet x0 x1 s
  | .genSet x0 x1 x2 => Sys2Proof.Machine.execGenSet x0 x1 x2 s
  | .genGet x0 x1 => Sys2Proof.Machine.execGenGet x0 x1 s
  | .timeArm x0 x1 => Sys2Proof.Machine.execTimeArm x0 x1 s
  | .timeSet x0 x1 x2 x3 => Sys2Proof.Machine.execTimeSet x0 x1 x2 x3 s
  | .timeDisable x0 x1 => Sys2Proof.Machine.execTimeDisable x0 x1 s
  | .timeSel x0 x1 => Sys2Proof.Machine.execTimeSel x0 x1 s
  | .acceptPathStep x0 x1 x2 => Sys2Proof.Machine.execAcceptPathStep x0 x1 x2 s
  | .timeConv x0 x1 x2 => Sys2Proof.Machine.execTimeConv x0 x1 x2 s
  | .todGet x0 x1 x2 => Sys2Proof.Machine.execTodGet x0 x1 x2 s
  | .pairJoin x0 => Sys2Proof.Machine.execPairJoin x0 s
  | .pairLeave x0 => Sys2Proof.Machine.execPairLeave x0 s
  | .pairSwitch x0 => Sys2Proof.Machine.execPairSwitch x0 s
  | .pairVerdict x0 x1 x2 => Sys2Proof.Machine.execPairVerdict x0 x1 x2 s
  | .pairInfo x0 => Sys2Proof.Machine.execPairInfo x0 s
  | .protCfg x0 x1 => Sys2Proof.Machine.execProtCfg x0 x1 s
  | .protSwitch x0 x1 => Sys2Proof.Machine.execProtSwitch x0 x1 s
  | .stream x0 x1 => Sys2Proof.Machine.execStream x0 x1 s
  | .copy x0 x1 x2 x3 x4 => Sys2Proof.Machine.execCopy x0 x1 x2 x3 x4 s
  | .pwrSet x0 x1 x2 => Sys2Proof.Machine.execPwrSet x0 x1 x2 s
  | .pwrInfo x0 => Sys2Proof.Machine.execPwrInfo x0 s
  | .sagCfg x0 x1 => Sys2Proof.Machine.execSagCfg x0 x1 s
  | .fwOpen x0 x1 => Sys2Proof.Machine.execFwOpen x0 x1 s
  | .fwData x0 x1 x2 x3 => Sys2Proof.Machine.execFwData x0 x1 x2 x3 s
  | .fwCommit x0 x1 => Sys2Proof.Machine.execFwCommit x0 x1 s
  | .fwInfo x0 => Sys2Proof.Machine.execFwInfo x0 s
  | .reset x0 x1 => Sys2Proof.Machine.execReset x0 x1 s
  | .logRead x0 x1 x2 => Sys2Proof.Machine.execLogRead x0 x1 x2 s
  | .i2cXfer x0 x1 x2 x3 x4 x5 => Sys2Proof.Machine.execI2cXfer x0 x1 x2 x3 x4 x5 s
  | .kwkSet x0 x1 => Sys2Proof.Machine.execKwkSet x0 x1 s
  | .cntRead x0 x1 x2 => Sys2Proof.Machine.execCntRead x0 x1 x2 s
  | .defectGet x0 x1 x2 x3 => Sys2Proof.Machine.execDefectGet x0 x1 x2 x3 s
  | .defectCfg x0 x1 x2 x3 x4 x5 => Sys2Proof.Machine.execDefectCfg x0 x1 x2 x3 x4 x5 s
  | .bwWindow x0 x1 => Sys2Proof.Machine.execBwWindow x0 x1 s
  | .hopRead x0 x1 x2 x3 => Sys2Proof.Machine.execHopRead x0 x1 x2 x3 s
  | .hopMark x0 x1 => Sys2Proof.Machine.execHopMark x0 x1 s
  | .hopRewind x0 x1 => Sys2Proof.Machine.execHopRewind x0 x1 s
  | .hopRelease x0 x1 x2 => Sys2Proof.Machine.execHopRelease x0 x1 x2 s
  | .hopCfg x0 x1 x2 x3 => Sys2Proof.Machine.execHopCfg x0 x1 x2 x3 s
  | .writeTransaction x0 => Sys2Proof.Machine.execWriteTransaction x0 s
  | .readTransaction x0 => Sys2Proof.Machine.execReadTransaction x0 s
  | .statusTransaction => Sys2Proof.Machine.execStatusTransaction s
  | .commandFetch x0 x1 x2 => Sys2Proof.Machine.execCommandFetch x0 x1 x2 s
  | .replyWrite x0 => Sys2Proof.Machine.execReplyWrite x0 s
  | .commandStart => Sys2Proof.Machine.execCommandStart s
  | .timedExecution => Sys2Proof.Machine.execTimedExecution s
  | .registerWrite x0 x1 x2 => Sys2Proof.Machine.execRegisterWrite x0 x1 x2 s
  | .bitAlias x0 x1 => Sys2Proof.Machine.execBitAlias x0 x1 s
  | .highHalfLatch x0 x1 => Sys2Proof.Machine.execHighHalfLatch x0 x1 s
  | .sequenceClear x0 x1 => Sys2Proof.Machine.execSequenceClear x0 x1 s
  | .lock x0 x1 => Sys2Proof.Machine.execLock x0 x1 s
  | .treeCtl x0 x1 => Sys2Proof.Machine.execTreeCtl x0 x1 s
  | .treeTransition x0 => Sys2Proof.Machine.execTreeTransition x0 s
  | .mwRead => Sys2Proof.Machine.execMwRead s
  | .mwWrite => Sys2Proof.Machine.execMwWrite s
  | .capture => Sys2Proof.Machine.execCapture s
  | .selDom x0 => Sys2Proof.Machine.execSelDom x0 s
  | .snapCtlGo => Sys2Proof.Machine.execSnapCtlGo s
  | .owner x0 x1 => Sys2Proof.Machine.execOwner x0 x1 s
  | .hwmClr x0 => Sys2Proof.Machine.execHwmClr x0 s
  | .ringReset => Sys2Proof.Machine.execRingReset s
  | .run x0 => Sys2Proof.Machine.execRun x0 s
  | .cmdTail x0 => Sys2Proof.Machine.execCmdTail x0 s
  | .rplTail x0 => Sys2Proof.Machine.execRplTail x0 s
  | .realign x0 => Sys2Proof.Machine.execRealign x0 s
  | .wtrClr => Sys2Proof.Machine.execWtrClr s
  | .manualRef x0 => Sys2Proof.Machine.execManualRef x0 s
  | .ccfg x0 x1 => Sys2Proof.Machine.execCcfg x0 x1 s
  | .mode x0 => Sys2Proof.Machine.execMode x0 s
  | .quadCfg x0 x1 => Sys2Proof.Machine.execQuadCfg x0 x1 s
  | .portEnable x0 x1 => Sys2Proof.Machine.execPortEnable x0 x1 s
  | .twinEn x0 x1 x2 => Sys2Proof.Machine.execTwinEn x0 x1 x2 s
  | .gpioCfg x0 x1 => Sys2Proof.Machine.execGpioCfg x0 x1 s
  | .porstNAssert => Sys2Proof.Machine.execPorstNAssert s
  | .startUp x0 x1 => Sys2Proof.Machine.execStartUp x0 x1 s
  | .fwTrial x0 => Sys2Proof.Machine.execFwTrial x0 s
  | .fwCommitted x0 x1 => Sys2Proof.Machine.execFwCommitted x0 x1 s
  | .rootPllLoss => Sys2Proof.Machine.execRootPllLoss s
  | .sagDetection x0 => Sys2Proof.Machine.execSagDetection x0 s
  | .saveDone x0 x1 x2 => Sys2Proof.Machine.execSaveDone x0 x1 x2 s
  | .warmRestart x0 x1 x2 => Sys2Proof.Machine.execWarmRestart x0 x1 x2 s
  | .pmbAlert x0 => Sys2Proof.Machine.execPmbAlert x0 s
  | .avsAdjust x0 x1 x2 => Sys2Proof.Machine.execAvsAdjust x0 x1 x2 s
  | .pmbusPoll x0 x1 x2 => Sys2Proof.Machine.execPmbusPoll x0 x1 x2 s
  | .avsRetry x0 => Sys2Proof.Machine.execAvsRetry x0 s
  | .pwrDone x0 => Sys2Proof.Machine.execPwrDone x0 s
  | .fenceInAssert => Sys2Proof.Machine.execFenceInAssert s
  | .fenceInDeassert => Sys2Proof.Machine.execFenceInDeassert s
  | .instructionLoad x0 => Sys2Proof.Machine.execInstructionLoad x0 s
  | .trst => Sys2Proof.Machine.execTrst s
  | .impressionBoundary => Sys2Proof.Machine.execImpressionBoundary s
  | .turnCutoff => Sys2Proof.Machine.execTurnCutoff s
  | .turnLead => Sys2Proof.Machine.execTurnLead s
  | .plateProved x0 => Sys2Proof.Machine.execPlateProved x0 s
  | .mramCopy => Sys2Proof.Machine.execMramCopy s
  | .plateEcc x0 => Sys2Proof.Machine.execPlateEcc x0 s
  | .frameCompose x0 => Sys2Proof.Machine.execFrameCompose x0 s
  | .strokeBoundary x0 => Sys2Proof.Machine.execStrokeBoundary x0 s
  | .commit x0 x1 x2 => Sys2Proof.Machine.execCommit x0 x1 x2 s
  | .burstAnnounce x0 x1 x2 => Sys2Proof.Machine.execBurstAnnounce x0 x1 x2 s
  | .burstRx x0 x1 x2 => Sys2Proof.Machine.execBurstRx x0 x1 x2 s
  | .burstEnd x0 x1 => Sys2Proof.Machine.execBurstEnd x0 x1 s
  | .bankRelease x0 x1 => Sys2Proof.Machine.execBankRelease x0 x1 s
  | .upstreamXgem x0 x1 x2 => Sys2Proof.Machine.execUpstreamXgem x0 x1 x2 s
  | .fragTimeout x0 x1 x2 => Sys2Proof.Machine.execFragTimeout x0 x1 x2 s
  | .oog x0 => Sys2Proof.Machine.execOog x0 s
  | .discoveryWindow x0 => Sys2Proof.Machine.execDiscoveryWindow x0 s
  | .rangingWindow x0 => Sys2Proof.Machine.execRangingWindow x0 s
  | .serialNumberOnu x0 x1 x2 x3 x4 => Sys2Proof.Machine.execSerialNumberOnu x0 x1 x2 x3 x4 s
  | .registration x0 x1 x2 => Sys2Proof.Machine.execRegistration x0 x1 x2 s
  | .acknowledgement x0 x1 x2 x3 => Sys2Proof.Machine.execAcknowledgement x0 x1 x2 x3 s
  | .ploamIn x0 x1 x2 x3 x4 => Sys2Proof.Machine.execPloamIn x0 x1 x2 x3 x4 s
  | .tDisc x0 x1 => Sys2Proof.Machine.execTDisc x0 x1 s
  | .tAck x0 x1 x2 => Sys2Proof.Machine.execTAck x0 x1 x2 s
  | .tPopup x0 x1 => Sys2Proof.Machine.execTPopup x0 x1 s
  | .tRedisable x0 x1 => Sys2Proof.Machine.execTRedisable x0 x1 s
  | .tSnMute x0 => Sys2Proof.Machine.execTSnMute x0 s
  | .rogueTrigger x0 => Sys2Proof.Machine.execRogueTrigger x0 s
  | .rogueProbe x0 x1 x2 => Sys2Proof.Machine.execRogueProbe x0 x1 x2 s
  | .rogueClear x0 => Sys2Proof.Machine.execRogueClear x0 s
  | .keyDrain x0 x1 x2 => Sys2Proof.Machine.execKeyDrain x0 x1 x2 s
  | .keyEcc x0 x1 x2 x3 => Sys2Proof.Machine.execKeyEcc x0 x1 x2 x3 s
  | .tribMap x0 => Sys2Proof.Machine.execTribMap x0 s
  | .occurrenceDecision x0 => Sys2Proof.Machine.execOccurrenceDecision x0 s
  | .tbLof x0 => Sys2Proof.Machine.execTbLof x0 s
  | .uplinkFrameRx x0 x1 x2 x3 => Sys2Proof.Machine.execUplinkFrameRx x0 x1 x2 x3 s
  | .pauseExpiry x0 => Sys2Proof.Machine.execPauseExpiry x0 s
  | .frerReset x0 => Sys2Proof.Machine.execFrerReset x0 s
  | .esmcTimeout x0 => Sys2Proof.Machine.execEsmcTimeout x0 s
  | .esmcInfo x0 => Sys2Proof.Machine.execEsmcInfo x0 s
  | .ulLos x0 => Sys2Proof.Machine.execUlLos x0 s
  | .ulLof x0 => Sys2Proof.Machine.execUlLof x0 s
  | .ulRdi x0 => Sys2Proof.Machine.execUlRdi x0 s
  | .ulClear x0 => Sys2Proof.Machine.execUlClear x0 s
  | .rehash x0 => Sys2Proof.Machine.execRehash x0 s
  | .feederHandover => Sys2Proof.Machine.execFeederHandover s
  | .handoverHeld => Sys2Proof.Machine.execHandoverHeld s
  | .internalUncorrectable x0 x1 => Sys2Proof.Machine.execInternalUncorrectable x0 x1 s
  | .renewal => Sys2Proof.Machine.execRenewal s
  | .renew x0 x1 x2 => Sys2Proof.Machine.execRenew x0 x1 x2 s
  | .grant x0 x1 => Sys2Proof.Machine.execGrant x0 x1 s
  | .fencePoint => Sys2Proof.Machine.execFencePoint s
  | .raisePoint => Sys2Proof.Machine.execRaisePoint s
  | .release x0 x1 => Sys2Proof.Machine.execRelease x0 x1 s
  | .fencedNotice x0 => Sys2Proof.Machine.execFencedNotice x0 s
  | .leave => Sys2Proof.Machine.execLeave s
  | .sbLost => Sys2Proof.Machine.execSbLost s
  | .switchover => Sys2Proof.Machine.execSwitchover s
  | .streamExecute => Sys2Proof.Machine.execStreamExecute s
  | .ingress x0 => Sys2Proof.Machine.execIngress x0 s
  | .repair x0 => Sys2Proof.Machine.execRepair x0 s
  | .commandRecord x0 => Sys2Proof.Machine.execCommandRecord x0 s
  | .terminalRecord x0 => Sys2Proof.Machine.execTerminalRecord x0 s
  | .timeRecord x0 => Sys2Proof.Machine.execTimeRecord x0 s
  | .burstRecord x0 => Sys2Proof.Machine.execBurstRecord x0 s
  | .delivered x0 => Sys2Proof.Machine.execDelivered x0 s
  | .defectRecord x0 => Sys2Proof.Machine.execDefectRecord x0 s
  | .digestRecord x0 => Sys2Proof.Machine.execDigestRecord x0 s
  | .digestTimeout => Sys2Proof.Machine.execDigestTimeout s
  | .streamRewind => Sys2Proof.Machine.execStreamRewind s
  | .quickTier => Sys2Proof.Machine.execQuickTier s
  | .slowTier => Sys2Proof.Machine.execSlowTier s
  | .plLos => Sys2Proof.Machine.execPlLos s
  | .plLosClear => Sys2Proof.Machine.execPlLosClear s
  | .decisionTick x0 x1 x2 => Sys2Proof.Machine.execDecisionTick x0 x1 x2 s
  | .wtrExpiry x0 => Sys2Proof.Machine.execWtrExpiry x0 s
  | .dpllLock => Sys2Proof.Machine.execDpllLock s
  | .refDefectClear x0 x1 => Sys2Proof.Machine.execRefDefectClear x0 x1 s
  | .refLosTimeout x0 => Sys2Proof.Machine.execRefLosTimeout x0 s
  | .holdoverSample => Sys2Proof.Machine.execHoldoverSample s
  | .holdoverRecord => Sys2Proof.Machine.execHoldoverRecord s
  | .tempRead x0 => Sys2Proof.Machine.execTempRead x0 s
  | .inputEdge x0 => Sys2Proof.Machine.execInputEdge x0 s
  | .ptpSend x0 x1 x2 x3 x4 => Sys2Proof.Machine.execPtpSend x0 x1 x2 x3 x4 s
  | .ptpExchange x0 x1 x2 x3 => Sys2Proof.Machine.execPtpExchange x0 x1 x2 x3 s
  | .masterLost x0 x1 => Sys2Proof.Machine.execMasterLost x0 x1 s
  | .bwWindowEnd => Sys2Proof.Machine.execBwWindowEnd s
  | .noRenew => Sys2Proof.Machine.execNoRenew s
  | .remoteFault x0 x1 => Sys2Proof.Machine.execRemoteFault x0 x1 s
  | .localFault x0 x1 => Sys2Proof.Machine.execLocalFault x0 x1 s
  | .outputPulse x0 => Sys2Proof.Machine.execOutputPulse x0 s
  | .i2cDone x0 x1 x2 x3 => Sys2Proof.Machine.execI2cDone x0 x1 x2 x3 s

end Sys2Proof.Machine
end

