-- ==== Sys2Proof/Safety.lean ====
section
/-! DEFINITION. The words in which the statements speak: when a unit runs, when a command starts at once, what an accepted command leaves before
its effect and what its answer adds; the fused part that never changes; canonical tables. -/

namespace Sys2Proof.Machine

/-- The unit runs: firmware up, no save and no reset in progress (Table 14.6, R435). -/
def Running (s : State) : Prop := s.power.phase = .running

/-- Host software's BAR0 writes take hold: the unit runs, not in rescue mode, and LK_BARWR is not set (R403, R449). -/
def BarOpen (s : State) : Prop := s.power.phase = .running ∧ s.power.rescue = false ∧ barLocked s = false

/-- Nothing holds back a command of header h (R43, R366): a place among the 16 is free, no queued command may start before it, and no ORDERED
command of its port is under way. -/
def Unblocked (h : Hdr) (s : State) : Prop :=
  executing s < 16 ∧ oldestStartable s = none ∧ ∀ x ∈ underWay s, x.hdr.port = h.port → ordered x.hdr = false

/-- A packet of opcode op under header h takes effect at once: EXEC is 0, and ASAP is clear or, for PLATE_TURN and TERM_KEY, has the meaning of the
opcode's own rule (R368 to R370). -/
def Immediate (op : Nat) (h : Hdr) : Prop := h.exec = 0 ∧ (asap h = true → opAsap op = true ∧ opTimed op = false)

/-- Command i, of header h, passes every check of Table 12.5 in state s. -/
def Accepted (i : Instr) (h : Hdr) (s : State) : Prop :=
  hdrOf i = some h ∧ notReady h.port s = false ∧ intake h (opcodeOf i) (some i) s = none

/-- Command i, of header h, is accepted in state s and starts at once. -/
def Starts (i : Instr) (h : Hdr) (s : State) : Prop := Accepted i h s ∧ Unblocked h s ∧ Immediate (opcodeOf i) h

/-- The accepted packet of command i: its DSEQ, session and order of acceptance (R360, R362). -/
def takenPkt (i : Instr) (h : Hdr) (s : State) : Pkt := (accept h (opcodeOf i) (some i) 0 s).1

/-- The state an accepted command starts on: s with the credit held and the number given (R360, R365). -/
def taken (i : Instr) (h : Hdr) (s : State) : State := (accept h (opcodeOf i) (some i) 0 s).2

/-- The state the effect of command i, accepted in s, begins on where nothing refuses it: `taken`, and for a mirrored opcode with its COMMAND record
sent to the standby, which names the present stroke (R354, R371). -/
def begun (i : Instr) (h : Hdr) (s : State) : State := told (takenPkt i h s) (taken i h s)

/-- State t with the answer of command i, accepted in s: the reply and, where it succeeded, the number of the last command with effect
(R44, R359, R360). -/
def answered (i : Instr) (h : Hdr) (s : State) (st : Nat) (ps : List Byte) (t : State) : State :=
  finish (takenPkt i h s) true st ps (if st ≤ 1 then tookEffect s.mill.landing.length (takenPkt i h s) t else t)

/-- The outcome of a command that succeeds: status OK with reply parameters ps, and t its effect. -/
def answersOk (i : Instr) (h : Hdr) (s : State) (ps : List Byte) (t : State) : Host.Outcome State Fault Refusal := .next (answered i h s 0 ps t)

/-- The outcome of a command refused after acceptance: its status and detail, and no effect (R361, R363). -/
def answersNot (i : Instr) (h : Hdr) (s : State) (st : Nat) (ps : List Byte) : Host.Outcome State Fault Refusal :=
  .next (answered i h s st ps (taken i h s))

/-- The state in which command i, accepted in s and one that changes the datapath, waits for the stroke boundary of its effect (R22, R27). -/
def waits (i : Instr) (h : Hdr) (s : State) : State := postCmd false (takenPkt i h s) (taken i h s)

/-- State b with the COMMAND record of packet k, an accepted mirrored command that takes its effect on b (R354). -/
def mirrored (i : Instr) (h : Hdr) (s b : State) : State := told (takenPkt i h s) b

/-- State t with the answer of packet k, whose command came to t at a stroke boundary from state b. -/
def settled (k : Pkt) (b : State) (st : Nat) (ps : List Byte) (t : State) : State :=
  finish k true st ps (if st ≤ 1 then tookEffect b.mill.landing.length k t else t)

/-- Command i, accepted in s, waits for its stroke boundary, and from whatever state b that boundary finds it comes to status st, reply parameters ps
and effect t (R22, Table 12.16). That a boundary lands what waits is Obligations.StrokeBoundaryLands. -/
def Comes (i : Instr) (h : Hdr) (s b : State) (st : Nat) (ps : List Byte) (t : State) : Prop :=
  exec i s = .next (waits i h s) ∧ landCmd false (takenPkt i h s) b = settled (takenPkt i h s) b st ps t

/-- The BAR0 write that i makes in s, of w bytes of value v at address a, waits for its stroke boundary, and from whatever state b that boundary finds
it comes to t (R22, R374). -/
def BarComes (i : Instr) (a w : Nat) (v : BitVec 64) (s b t : State) : Prop :=
  exec i s = .next (post (.bar a w v 0) s) ∧ landBar a w v 0 b = t

/-- The same for a write of a whole 32-bit register or of an alias. -/
def Bars (i : Instr) (a : Nat) (v : Word) (s b t : State) : Prop := BarComes i a 4 (v.setWidth 64) s b t

/-- Nothing but the report of events lies between s and t: the event hopper, the sequence-cleared registers, counters, MSI-X signals and the index
of free values may have moved (R401, R418 to R420). -/
def Reports (s t : State) : Prop :=
  t = { s with regs := t.regs, cnt := t.cnt, evt := t.evt, evtRun := t.evtRun, free := t.free, cmd := { s.cmd with msix := t.cmd.msix } }

/-- The same, and the protection status may have been reported anew (R204). -/
def ReportsProt (s t : State) : Prop := Reports { s with defects := { s.defects with prot := t.defects.prot } } t

/-- The registers and what is sent to the partner may differ, with the drop counter of the state stream's hopper; nothing else. -/
def RegsOnly (s t : State) : Prop :=
  t = { s with regs := t.regs, cnt := t.cnt, pair := { s.pair with
    sent := t.pair.sent, streamWr := t.pair.streamWr, streamHwm := t.pair.streamHwm, streamDrop := t.pair.streamDrop } }
  ∧ ∀ a, a ≠ cHop 0x20 0x20 → cntOf t a = cntOf s a

/-- The sequence-cleared registers and their SC bits: GLB_EVT, PMU_EVT, DPLL_HIST, PAIR_EVT, CP_EVT, REF_HIST of every reference, HEVT of every
hopper of Table 13.9, TREE_EVT of every tree (R401, Tables 3.10, 9.6, 9.7, 11.13, 12.12, 13.6, 13.12, 14.9). -/
def seqRegs : List (Nat × Word) :=
  [(0x24, 0x7F), (0x10040, 0x7F), (0x20110, 0x1F), (0x50020, 0x7F), (0x60058, 0x1F)]
    ++ [0, 1, 2, 3, 4, 5, 8, 9, 10, 11, 12, 13, 14, 15].map (fun r => (0x2000C + 0x10 * r, 0x1F))
    ++ ([0, 1, 0x20] ++ (List.range 8).map (0x10 + ·) ++ (List.range 24).map (0x30 + ·)).map (fun h => (0x7001C + 0x40 * h, 0x1F))
    ++ (List.range 64).map (fun n => (0x800008 + 0x10000 * n, 0x1F))

/-- EVT_SEQ of a register's value (R401). -/
def evtSeq (w : Word) : BitVec 8 := w.extractLsb' 8 8

/-- No two GPIOs hold one of the functions 2 to 5 (R463). -/
def oneHolder (s : State) : Prop := ∀ j k : Fin 16, regFld s (aGPIO j.val) 31 28 = regFld s (aGPIO k.val) 31 28 → 2 ≤ regFld s (aGPIO j.val) 31 28 →
  regFld s (aGPIO j.val) 31 28 ≤ 5 → j = k

/-- The part is one of those of R3: 64, 48 or 32 trees. -/
def legalFuse (s : State) : Bool := s.fuse.trees = 64 || s.fuse.trees = 48 || s.fuse.trees = 32

/-- The storage of the two plate banks and of the MRAM copy is in canonical form and lists no byte outside a bank (R52, R57): keys strictly rising below
5,242,880, no listed zero. -/
def plateStoreOk (s : State) : Bool :=
  ([s.plates.bank0.image, s.plates.bank1.image] ++ (s.plates.mram.map Prod.snd).toList).all (fun m =>
    mwf 0 m && m.all (fun e => decide (e.1 < 5242880)))

/-- What every step keeps: a part of R3 and plate storage in canonical form. -/
def Kept (s : State) : Prop := legalFuse s = true ∧ plateStoreOk s = true

end Sys2Proof.Machine
end

