-- ==== Sys2Proof/Certificates/Slice0/Obligations.lean ====
section
/-! DEFINITION. Obligations of the whole model: what the commands and events of the QZ8164 do, and where they complete. -/

open Sys2Proof Sys2Proof.Machine

/-! ### The queue -/

/-- The contract of the block: a step runs the command at the front of the queue, on the state with the queue's rest. -/
def Obligations.StepRunsFront : Prop :=
  ∀ (c : Instr) (rest : List Instr) (s : State), s.pending = c :: rest → step s = exec c { s with pending := rest }

/-- On an empty queue the block idles for one mill cycle: the 96-bit time counter advances by one and wraps (R303), and the new cycle finds the event
counters as they stand (R405); nothing else changes. That an empty queue is one mill cycle is the model's choice (log 2). -/
def Obligations.IdleTicks : Prop :=
  ∀ s : State, s.pending = [] → step s = .next { s with now := (s.now + 1) % 2 ^ 96, cyc := s.cnt }

/-! ### Session, registers and counters by command -/

/-- NOP, BYE, FEATURES and FENCE complete (Table 12.10, R377, R379, R380): NOP has no effect; BYE ends the session of its port; FEATURES SET = 0
reports S and D, SET = 1 fixes D to OFFER AND MASK and cuts every session's set, or is LOCKED or BUSY; a mask with a reserved bit of Table 12.9 is
BAD_PARAM and has no effect (R13); FENCE asserts or lifts the unit's fence at the next stroke boundary (R22): the unit is then FEATHERED. That a FENCE
which finds its fence as it asks changes nothing is the model's choice (log 17); so is where the queues of LARGE_QUEUES end, at the next stroke
boundary (log 78). -/
def Obligations.SessionCommandsComplete : Prop :=
  (∀ h s, Starts (.nop h) h s → exec (.nop h) s = answersOk (.nop h) h s [] (taken (.nop h) h s))
  ∧ (∀ h s, Starts (.bye h) h s → exec (.bye h) s = answersOk (.bye h) h s [] (endSession h.port (taken (.bye h) h s)))
  ∧ (∀ h m s, Starts (.features h 0 m) h s → m &&& ~~~Config.OFFER = 0 →
      exec (.features h 0 m) s = answersOk (.features h 0 m) h s
        (beBytes 8 (((portSt (taken (.features h 0 m) h s) h.port).session.map Session.agreed).getD 0).toNat ++ beBytes 8 s.cmd.featD.toNat)
        (taken (.features h 0 m) h s))
  ∧ (∀ h m s, Starts (.features h 1 m) h s → m &&& ~~~Config.OFFER = 0 → regBit s aLOCKS 0 = false → featuresFree s = true →
      let t := post .largeOff
        (cutSessions (let u := taken (.features h 1 m) h s; { u with cmd := { u.cmd with featD := Config.OFFER &&& m, featFixed := true } }))
      exec (.features h 1 m) s = answersOk (.features h 1 m) h s
        (beBytes 8 (((portSt t h.port).session.map Session.agreed).getD 0).toNat ++ beBytes 8 (Config.OFFER &&& m).toNat) t)
  ∧ (∀ h m s, Starts (.features h 1 m) h s → m &&& ~~~Config.OFFER = 0 → regBit s aLOCKS 0 = true →
      exec (.features h 1 m) s = answersNot (.features h 1 m) h s 7 (beBytes 4 0x20))
  ∧ (∀ h m s, Starts (.features h 1 m) h s → m &&& ~~~Config.OFFER = 0 → regBit s aLOCKS 0 = false → featuresFree s = false →
      exec (.features h 1 m) s = answersNot (.features h 1 m) h s 0x0A [])
  ∧ (∀ h x m s, Starts (.features h x m) h s → x.toNat ≤ 1 → m &&& ~~~Config.OFFER ≠ 0 →
      exec (.features h x m) s = answersNot (.features h x m) h s 4 [0, 20, 0, 0])
  ∧ (∀ h s b, Accepted (.fence h 1) h s → h.exec = 0 → asap h = false → ordered h = false → b.pair.fencedCmd = false →
      let t := fenceOn 1 b
      Comes (.fence h 1) h s b 0 [] { t with pair := { t.pair with fencedCmd := true } }
      ∧ t.pair.sails = false ∧ t.pair.fenceEpoch = some b.pair.epoch)
  ∧ (∀ h a s b, Accepted (.fence h a) h s → h.exec = 0 → asap h = false → ordered h = false → (a = 0 ∨ a = 1) → b.pair.fencedCmd = decide (a = 1) →
      Comes (.fence h a) h s b 0 [] b)
  ∧ (∀ h s b, Accepted (.fence h 0) h s → h.exec = 0 → asap h = false → ordered h = false → b.pair.fencedCmd = true →
      Comes (.fence h 0) h s b 0 [] (fenceLifted { b with pair := { b.pair with fencedCmd := false } }))

/-- HELLO completes on every port, with every build and every offer of defined bits (R377, R378, R386; an offer with a reserved bit of Table 12.9 is
BAD_PARAM, R13): the port's session carries a fresh ID that is not 0 and the set D AND the offer; D is fixed by the first HELLO from the board or host port to OFFER AND its offer and kept by every later one; the sessions of the other
ports stay. Before D is fixed the in-band and pair ports are refused NOT_NEGOTIATED, and so is the pair port without PAIR_MODE; on the pair port a
PAIRINFO whose unit, revision, key or sails do not suit is BAD_PARAM with its cause, an event says so, and no session opens.
The session ID is a free value that is not 0 (log 11); what the partner tells at contact is free (log 19). -/
def Obligations.HelloOpensSession : Prop :=
  (∀ (h : Hdr) (o : BitVec 64) (b : BitVec 32) (s : State), Starts (.hello h o b 0 0 0 0) h s → o &&& ~~~Config.OFFER = 0 →
      (h.port = .board ∨ h.port = .host ∨ (h.port = .inband ∧ s.cmd.featFixed = true)) →
    ∃ t x, exec (.hello h o b 0 0 0 0) s = .next t ∧ (portSt t h.port).session = some x ∧ x.id ≠ 0
      ∧ t.cmd.featFixed = true ∧ t.cmd.featD = (if s.cmd.featFixed then s.cmd.featD else Config.OFFER &&& o)
      ∧ x.agreed = t.cmd.featD &&& o
      ∧ ∀ p, p ≠ h.port → (portSt t p).session = (portSt s p).session)
  ∧ (∀ (h : Hdr) (o : BitVec 64) (b : BitVec 32) (s : State), Starts (.hello h o b 0 0 0 0) h s → o &&& ~~~Config.OFFER = 0 →
      h.port = .inband → s.cmd.featFixed = false →
      exec (.hello h o b 0 0 0 0) s = answersNot (.hello h o b 0 0 0 0) h s 0x0C [0xFF, 0, 0, 0])
  ∧ (∀ (h : Hdr) (o : BitVec 64) (b : BitVec 32) (u f r : BitVec 8) (k : BitVec 24) (s : State), Starts (.hello h o b u f r k) h s →
      o &&& ~~~Config.OFFER ≠ 0 → exec (.hello h o b u f r k) s = answersNot (.hello h o b u f r k) h s 4 [0, 16, 0, 0])
  ∧ (∀ (h : Hdr) (o : BitVec 64) (b : BitVec 32) (u f r : BitVec 8) (k : BitVec 24) (s : State), Starts (.hello h o b u f r k) h s → h.port = .pair →
      o &&& ~~~Config.OFFER = 0 → u.toNat ≤ 1 → f.toNat ≤ 1 → s.cmd.featFixed = false →
      exec (.hello h o b u f r k) s = answersNot (.hello h o b u f r k) h s 0x0C [0xFF, 0, 0, 0])
  ∧ (∀ (h : Hdr) (o : BitVec 64) (b : BitVec 32) (u f r : BitVec 8) (k : BitVec 24) (s : State), Starts (.hello h o b u f r k) h s → h.port = .pair →
      o &&& ~~~Config.OFFER = 0 → u.toNat ≤ 1 → f.toNat ≤ 1 → s.cmd.featFixed = true → featOn s 5 = false →
      exec (.hello h o b u f r k) s = answersNot (.hello h o b u f r k) h s 0x0C [5, 0, 0, 0])
  ∧ (∀ (h : Hdr) (o : BitVec 64) (b : BitVec 32) (u f r : BitVec 8) (k : BitVec 24) (s : State), Starts (.hello h o b u f r k) h s → h.port = .pair →
      o &&& ~~~Config.OFFER = 0 → u.toNat ≤ 1 → f.toNat ≤ 1 → s.cmd.featFixed = true → featOn s 5 = true →
      let q := partnerInfo (taken (.hello h o b u f r k) h s)
      (pairCause q.2 (wouldSail q.2 q.1) u f r k = none →
        let t := gainContact q.1 (openSession .pair o q.2)
        exec (.hello h o b u f r k) s = answersOk (.hello h o b u f r k) h s (helloReply .pair t) t
        ∧ (∃ x, t.cmd.pair.session = some x ∧ x.id ≠ 0 ∧ x.agreed = s.cmd.featD &&& o) ∧ t.cmd.featD = s.cmd.featD
        ∧ (∀ p, p ≠ .pair → (portSt t p).session = (portSt s p).session)
        ∧ (pairMode s = 2 → declared s 5 0 PL_LOS = false → t.pair.contact = true))
      ∧ (∀ c at_, pairCause q.2 (wouldSail q.2 q.1) u f r k = some (c, at_) →
        exec (.hello h o b u f r k) s = .next (answered (.hello h o b u f r k) h s 4 (beBytes 2 at_ ++ [0, 0] ++ beBytes 4 c)
          (event 0x0801 5 0 (beBytes 1 c) q.2))))

/-- REG_RD, REG_WR, REG_RMW, SNAPSHOT and BW_WINDOW complete where no check of R388, R399 or R406 to R408 refuses them: the reads reply with the
registers' values, REG_RMW with the value before its write, SNAPSHOT with the counter value of the copy (a second one of the cycle is merged with
the first, and one that finds a copy pending with that copy, R405); the writes are those of writeAll. REG_WR and
REG_RMW are judged and take effect at the stroke boundary (Table 12.16), from whatever state it finds, behind the record that mirrors a write to a shared
register (R354). -/
def Obligations.RegisterCommandsComplete : Prop :=
  (∀ h a w c s, Starts (.regRd h a w c) h s → [1, 2, 4, 8].contains w.toNat = true → c ≠ 0 → c.toNat * max w.toNat 4 ≤ 4096 →
      a.toNat % w.toNat = 0 → (w = 4 ∨ (List.range c.toNat).all (fun i => !isAlias (a.toNat + i * max w.toNat 4)) = true) →
      let r := readMany (portNo h.port) a.toNat w.toNat c.toNat (taken (.regRd h a w c) h s)
      exec (.regRd h a w c) s = answersOk (.regRd h a w c) h s r.1 r.2)
  ∧ (∀ h a w c d s b, Starts (.regWr h a w c d) h s → (w = 4 ∨ w = 8) → c ≠ 0 →
      let l := wrList a.toNat w.toNat c.toNat d
      let u := mirrored (.regWr h a w c d) h s b
      (∀ v ∈ [b, u], writeBars h 0x101 w.toNat (l.map Prod.fst) v = none ∧ gpioClash v (writeAll l w.toNat v) = none) →
      Comes (.regWr h a w c d) h s b 0 [] (writeAll l w.toNat u))
  ∧ (∀ h a m v s b, Starts (.regRmw h a m v) h s →
      let u := mirrored (.regRmw h a m v) h s b
      let res := fun w => writeAll [(a.toNat, ((readAny w a.toNat &&& ~~~m) ||| (v &&& m)).setWidth 64)] 4 w
      (∀ w ∈ [b, u], writeBars h 0x102 4 [a.toNat] w = none ∧ gpioClash w (res w) = none) →
      Comes (.regRmw h a m v) h s b 0 (beBytes 4 (readAny u a.toNat).toNat) (res u))
  ∧ (∀ h s, Starts (.snapshot h) h s → copyPending s = false →
      (s.snapCycle ≠ some s.now →
        exec (.snapshot h) s = answersOk (.snapshot h) h s (beBytes 8 (s.now % 2 ^ 64)) (snapshotAll (taken (.snapshot h) h s)))
      ∧ (s.snapCycle = some s.now →
        exec (.snapshot h) s = answersOk (.snapshot h) h s (beBytes 8 s.snapAt.toNat) (taken (.snapshot h) h s)))
  ∧ (∀ h s b, Starts (.snapshot h) h s → copyPending s = true →
      Comes (.snapshot h) h s b 0 (beBytes 8 (snapshotAll b).snapAt.toNat) (snapshotAll b))
  ∧ (∀ h ms s, Starts (.bwWindow h ms) h s → windowOk ms.toNat = true →
      exec (.bwWindow h ms) s = answersOk (.bwWindow h ms) h s [] (setRaw aBW_CFG (ms &&& 0x3FFF) (taken (.bwWindow h ms) h s)))

/-- CNT_READ names a live counter address, or an address of Table 13.5, and returns COUNT consecutive counters at steps of 8 bytes, each from its holding
slot with its FLAGS; a range that names no counter somewhere is BAD_PARAM with OFFSET 16, else a COUNT of 0 or above 341 BAD_PARAM with OFFSET 20, and
nothing is read (R407). -/
def Obligations.CounterReads : Prop :=
  ∀ h a c s, let i := Instr.cntRead h a c
    Starts i h s →
    let names := isCounter s a.toNat && (List.range c.toNat).all (fun j => isCounter s (a.toNat + 8 * j))
    let slot := fun j => beBytes 8 (holdOf s (a.toNat + 8 * j)).v.toNat
      ++ beBytes 4 ((holdOf s (a.toNat + 8 * j)).wrap.toNat + 2 * (holdOf s (a.toNat + 8 * j)).preset.toNat)
    (1 ≤ c.toNat → c.toNat ≤ 341 → names = true → exec i s = answersOk i h s ((List.range c.toNat).flatMap slot) (taken i h s))
    ∧ (names = false → exec i s = answersNot i h s 4 [0, 16, 0, 0])
    ∧ (names = true → c.toNat = 0 ∨ 341 < c.toNat → exec i s = answersNot i h s 4 [0, 20, 0, 0])

/-! ### Plates -/

/-- The six plate commands complete where Tables 2.2 and 2.14 admit them (R53, R54, R55, R56, R84 to R86, R388): the bank they name takes the state the
table gives, PLATE_DATA writes its bytes into the image of the session that opened the bank, PLATE_TURN schedules the turn, PLATE_ABORT of the engaged
bank schedules its disengage, PLATE_INFO only reports; all but PLATE_INFO act behind the record that mirrors them (R354).
Which counter value the first turn takes, and the time at which a mirrored command is judged, are the model's choices (logs 9, 35). -/
def Obligations.PlateCommandsComplete : Prop :=
  (∀ h b s, Starts (.plateOpen h b) h s → b.toNat ≤ 1 → pwrOn s 72 = true → pwrOn s 76 = true → pwrOn s 77 = true →
      ((bank s (b = 1)).st = .empty ∨ (bank s (b = 1)).st = .proven ∨
        ((bank s (b = 1)).st = .loading ∧ (bank s (b = 1)).owner = some (h.port, h.session))) →
      let u := begun (.plateOpen h b) h s
      exec (.plateOpen h b) s = answersOk (.plateOpen h b) h s []
        (setBank (b = 1) { st := .loading, owner := some (h.port, h.session), feats := agreedOf u h } (dropTurnOf (b = 1) u)))
  ∧ (∀ h b o d s, Starts (.plateData h b o d) h s → b.toNat ≤ 1 → o.toNat % 16 = 0 → d.length % 16 = 0 → 16 ≤ d.length → d.length ≤ 4080 →
      o.toNat + d.length ≤ 5242880 → (bank s (b = 1)).st = .loading → (bank s (b = 1)).owner = some (h.port, h.session) →
      exec (.plateData h b o d) s = answersOk (.plateData h b o d) h s []
        (setBank (b = 1) { bank s (b = 1) with image := imgWrite (bank s (b = 1)).image o.toNat d } (begun (.plateData h b o d) h s)))
  ∧ (∀ h b s, Starts (.plateProof h b) h s → b.toNat ≤ 1 → (bank s (b = 1)).st = .loading → (bank s (b = 1)).owner = some (h.port, h.session) →
      (bank s (!decide (b = 1))).st ≠ .proving →
      exec (.plateProof h b) s = .next (answered (.plateProof h b) h s 1 []
        (setBank (b = 1) { bank s (b = 1) with st := .proving }
          ((imageGroups (bank s (b = 1)).image).foldl (fun s g => pwrUp (72 + g) s) (begun (.plateProof h b) h s)))))
  ∧ (∀ h b i tg p s, Starts (.plateTurn h b i tg) h s → b.toNat ≤ 1 → (bank s (b = 1)).st = .proven → (bank s (b = 1)).plate = some p → p.id = i →
      s.plates.turn.any (fun u => u.at_ ≤ checkTime s h + Config.TURN_CUTOFF) = false → turnChecks s p = 0 →
      let u := cancelTurn 0 (begun (.plateTurn h b i tg) h s)
      let early := boundaryAt s (checkTime s h + Config.TURN_CUTOFF + 1)
      let sched := fun (n : BitVec 32) (at_ : Nat) (first : Bool) =>
        answersOk (.plateTurn h b i tg) h s (beBytes 4 n.toNat)
          { u with plates := { u.plates with turn := some { bank := decide (b = 1), target := n, at_ := at_, first := first, id := i } } }
      ((asap h = true → tg = 0 → engaged s = none →
          exec (.plateTurn h b i tg) s = sched (firstTurn s (checkTime s h)).2 (firstTurn s (checkTime s h)).1 true)
      ∧ (asap h = true → tg = 0 → engaged s ≠ none → exec (.plateTurn h b i tg) s = sched (boundaryNum s early) early false)
      ∧ (asap h = false → engaged s ≠ none → 0 < (tg - s.imprNum).toNat → (tg - s.imprNum).toNat < 2 ^ 31 →
          checkTime s h + Config.TURN_CUTOFF < s.imprNext + ((tg - s.imprNum).toNat - 1) * Config.IMPRESSION →
          exec (.plateTurn h b i tg) s = sched tg (s.imprNext + ((tg - s.imprNum).toNat - 1) * Config.IMPRESSION) false)))
  ∧ (∀ h b g s, Starts (.plateAbort h b) h s → b.toNat ≤ 1 → g = decide (b = 1) →
      (((bank s g).st = .empty → exec (.plateAbort h b) s = answersOk (.plateAbort h b) h s [] (begun (.plateAbort h b) h s))
      ∧ (((bank s g).st = .loading ∨ (bank s g).st = .proving ∨ (bank s g).st = .proven) →
          exec (.plateAbort h b) s = answersOk (.plateAbort h b) h s [] (emptyBank g (dropTurnOf g (begun (.plateAbort h b) h s))))
      ∧ ((bank s g).st = .turning → exec (.plateAbort h b) s = answersNot (.plateAbort h b) h s 0x0A [])
      ∧ ((bank s g).st = .engaged → (bank s (!g)).st = .turning → exec (.plateAbort h b) s = answersNot (.plateAbort h b) h s 0x0A [])
      ∧ ((bank s g).st = .engaged → (bank s (!g)).st ≠ .turning → s.plates.disengage ≠ none →
          exec (.plateAbort h b) s = answersOk (.plateAbort h b) h s [] (begun (.plateAbort h b) h s))
      ∧ ((bank s g).st = .engaged → (bank s (!g)).st ≠ .turning → s.plates.disengage = none →
          let u := begun (.plateAbort h b) h s
          exec (.plateAbort h b) s = answersOk (.plateAbort h b) h s []
            { u with plates := { u.plates with disengage := some (boundaryAt s (checkTime s h + Config.TURN_CUTOFF + 1)) } })))
  ∧ (∀ h b s, Starts (.plateInfo h b) h s → b.toNat ≤ 1 →
      ∃ ps, exec (.plateInfo h b) s = answersOk (.plateInfo h b) h s ps (taken (.plateInfo h b) h s) ∧ ps.length = 292
        ∧ natAt ps 0 1 = bankCode (bank s (b = 1)).st ∧ natAt ps 2 2 = (bank s (b = 1)).refusal % 65536)

/-! ### Terminals and keys -/

/-- The terminal slot commands complete where Table 4.3 admits them (R138, R139, R140, R154, R108, R115): TERM_ADD reports a slot, frees it, enters a
serial with or without a PLOAM key, or sets the tree's settings; TERM_RANGE, TERM_ACTIVATE, TERM_DISABLE and TERM_RATE act on the states the table names;
PLOAM_SEND queues its message under the tree's next sequence number. All but PLOAM_SEND are judged and take effect at the stroke boundary (Table 12.16);
each that is not refused acts behind the record that mirrors it (R354). That a TERM_RATE takes the place of an earlier change whose acknowledgement is
awaited (log 81), and that it is BUSY while the engaged plate holds bursts of the terminal even where it names the rate in force (log 139), are the
model's choices. -/
def Obligations.TerminalCommandsComplete : Prop :=
  (∀ h t l s b, let i := Instr.termAdd h t l (.slot 0x80 0 0 0 0 0 0 0 0)
      Starts i h s → (∀ u ∈ [s, b], treeOk u t.toNat = true) → l.toNat ≤ 127 → Comes i h s b 0 (termEntry (term b (slotIx t l))) (mirrored i h s b))
  ∧ (∀ h t l s b, let i := Instr.termAdd h t l (.slot 0 0 0 0 0 0 0 0 0)
      Starts i h s → (∀ u ∈ [s, b], treeOk u t.toNat = true) → l.toNat ≤ 127 →
      ((term b (slotIx t l)).st = .unseen → Comes i h s b 0 [] (setTerm (slotIx t l) { term b (slotIx t l) with
          serial := 0, rate := 0, allocs := [0, 0, 0, 0], auto := false, pkey := none, pkeyImpr := 0, pkeyOn := false } (mirrored i h s b)))
      ∧ ((term b (slotIx t l)).st ≠ .unseen → Comes i h s b 0x0A [] b))
  ∧ (∀ h t l f r n a0 a1 a2 a3 s b, let i := Instr.termAdd h t l (.slot f r n a0 a1 a2 a3 0 0)
      Starts i h s → l.toNat ≤ 127 → (f = 0 ∨ f = 0x40) → n ≠ 0 →
      (∀ u ∈ [s, b], treeOk u t.toNat = true ∧ rateOk u r.toNat = true ∧ allocBad u (slotIx t l) [a0.toNat, a1.toNat, a2.toNat, a3.toNat] = none) →
      ((term b (slotIx t l)).st ≠ .unseen → Comes i h s b 0x0A [] b)
      ∧ ((term b (slotIx t l)).st = .unseen →
        (slotOf b n = none → Comes i h s b 0 [] (setTerm (slotIx t l) { term b (slotIx t l) with
            serial := n, rate := r.toNat, allocs := [a0.toNat, a1.toNat, a2.toNat, a3.toNat], auto := decide (f = 0x40), pkey := none, pkeyImpr := 0,
            pkeyOn := false } (mirrored i h s b)))
        ∧ (∀ g, slotOf b n = some g → Comes i h s b 9 (beBytes 2 8 ++ beBytes 2 g) b)))
  ∧ (∀ h t l f r n a0 a1 a2 a3 x w s b k, let i := Instr.termAdd h t l (.slot f r n a0 a1 a2 a3 x w)
      Starts i h s → l.toNat ≤ 127 → (f = 0x20 ∨ f = 0x60) → n ≠ 0 → unwrapOk k w = true → mirrorFlag h = false →
      (∀ u ∈ [s, b], treeOk u t.toNat = true ∧ rateOk u r.toNat = true ∧ u.power.kwk = some k
        ∧ allocBad u (slotIx t l) [a0.toNat, a1.toNat, a2.toNat, a3.toNat] = none) →
      (term b (slotIx t l)).st = .unseen →
      (boundaryLate b b.now x = false → slotOf b n = none → Comes i h s b 0 [] (setTerm (slotIx t l) { term b (slotIx t l) with
          serial := n, rate := r.toNat, allocs := [a0.toNat, a1.toNat, a2.toNat, a3.toNat], auto := decide (f = 0x60), pkey := some w, pkeyImpr := x,
          pkeyOn := false } (mirrored i h s b)))
      ∧ (boundaryLate b b.now x = true →
          Comes i h s b 8 (beBytes 4 b.imprNum.toNat ++ beBytes 4 (boundaryNum b (boundaryAt b (b.now + Config.TURN_CUTOFF + 1))).toNat) b))
  ∧ (∀ h t m r d g b x k td tp s c (lim : BitVec 8), let i := Instr.termAdd h t 0xFF (.settings m r d lim g b x k td tp)
      Starts i h s → (∀ u ∈ [s, c], treeOk u t.toNat = true) → settingsBad m r d lim g b x k td tp = 0 →
      let new : TreeSet := { rtdMin := m.toNat, reach := r.toNat, discEn := d = 1, discLimit := lim.toNat, rogueTrig := g.toNat, rogueBisect := b = 1,
                             driftStep := x.toNat, tAck := k.toNat, tDisc := td.toNat, tPopup := tp.toNat }
      let same := m.toNat = (tree c t.toNat).set.rtdMin ∧ r.toNat = (tree c t.toNat).set.reach
      ((treeBusy c t.toNat = false ∨ same) → Comes i h s c 0 []
        (setTree t.toNat { tree c t.toNat with set := { (tree c t.toNat).set with rtdMin := m.toNat, reach := r.toNat }, setNext := some new }
          (mirrored i h s c)))
      ∧ (treeBusy c t.toNat = true → ¬same → Comes i h s c 0x0A [] c))
  ∧ (∀ h t l s b, let i := Instr.termRange h t l
      Starts i h s → (∀ u ∈ [s, b], treeOk u t.toNat = true) → l.toNat ≤ 127 →
      let g := slotIx t l
      let x := term b g
      let u := mirrored i h s b
      let v := if pendingKind u g (fun k => k = .rangingTime true) then driftTo g x.eqdAck u else u
      (x.st = .discovered → Comes i h s b 0 [] (queueBand g u))
      ∧ (x.st = .ranged ∨ x.st = .active ∨ x.st = .popup →
          Comes i h s b 0 [] (queueBand g (moveTerm g .discovered 0 (updTerm g (fun y => { y with rcHeld := false }) v))))
      ∧ (x.st = .unseen ∨ x.st = .disabled ∨ x.st = .rogue → Comes i h s b 0x0A [] b))
  ∧ (∀ h t l s b, let i := Instr.termActivate h t l
      Starts i h s → (∀ u ∈ [s, b], treeOk u t.toNat = true) → l.toNat ≤ 127 →
      let g := slotIx t l
      let x := term b g
      let u := mirrored i h s b
      let left := actFrom x.wasActive x.actLeft
      (x.st = .ranged → x.actFailed = false → Comes i h s b 0 [] (actStep g (setTerm g { x with actAsked := true } u)))
      ∧ (x.st = .ranged → x.actFailed = true → Comes i h s b 0 [] (actStep g
          ((left.filter (fun k => x.allocsSent || (match k with | .assignAlloc _ => false | _ => true))).foldl (fun y k => sendAct g k y)
            (updTerm g (fun y => { y with actFailed := false, actLeft := left }) (updTerm g (fun y => { y with actAsked := true }) u)))))
      ∧ (x.st ≠ .ranged → Comes i h s b 0x0A [] b))
  ∧ (∀ h t l a s b, let i := Instr.termDisable h t l a
      Starts i h s → (∀ u ∈ [s, b], treeOk u t.toNat = true) → l.toNat ≤ 127 → a.toNat ≤ 2 →
      let x := term b (slotIx t l)
      let u := mirrored i h s b
      (a = 1 → x.st ≠ .disabled → x.st ≠ .rogue → (x.st = .unseen → x.serial ≠ 0) → Comes i h s b 0 [] (moveTerm (slotIx t l) .disabled 0 u))
      ∧ ((a = 0 ∧ x.st = .disabled) ∨ (a = 2 ∧ x.st = .rogue) → Comes i h s b 0 [] (moveTerm (slotIx t l) .unseen 0 u))
      ∧ ((a = 0 ∧ x.st ≠ .disabled) ∨ (a = 2 ∧ x.st ≠ .rogue) ∨ (a = 1 ∧ (x.st = .disabled ∨ x.st = .rogue ∨ (x.st = .unseen ∧ x.serial = 0))) →
          Comes i h s b 0x0A [] b))
  ∧ (∀ h t l y c s, let i := Instr.ploamSend h t l y c
      Starts i h s → treeOk s t.toNat = true → (l.toNat ≤ 127 ∨ l = 0xFF) → deviceTypes.contains y.toNat = false →
      let q := (tree s t.toNat).ploamSeq
      ((tree s t.toNat).hostMsgs.length < 64 → exec i s = answersOk i h s []
        (setTree t.toNat { tree s t.toNat with
            hostMsgs := (tree s t.toNat).hostMsgs ++ [{ slot := if l = 0xFF then none else some l.toNat, kind := .host y.toNat,
                                                        seq := q, value := 0, content := c }],
            ploamSeq := q + 1, hostSeqs := (tree s t.toNat).hostSeqs.filter (· ≠ q) ++ [q] } (begun i h s)))
      ∧ (64 ≤ (tree s t.toNat).hostMsgs.length → exec i s = answersNot i h s 0x0A []))
  ∧ (∀ h t l r s b, let i := Instr.termRate h t l r
      Starts i h s → (∀ u ∈ [s, b], treeOk u t.toNat = true ∧ rateOk u r.toNat = true) → l.toNat ≤ 127 →
      let g := slotIx t l
      let x := term b g
      let u := mirrored i h s b
      let up := x.st = .ranged ∨ x.st = .active ∨ x.st = .popup
      (x.serial = 0 → Comes i h s b 0x0A [] b)
      ∧ (x.serial ≠ 0 → ¬up → x.rate = r.toNat → Comes i h s b 0 [] (setTerm g { x with rateNext := none } u))
      ∧ (x.serial ≠ 0 → ¬up → x.rate ≠ r.toNat → Comes i h s b 0 [] (setTerm g { x with rate := r.toNat, rateNext := none } (dropTaps g u)))
      ∧ (x.serial ≠ 0 → up → plateBursts b g ≠ [] → Comes i h s b 0x0A [] b)
      ∧ (x.serial ≠ 0 → up → plateBursts b g = [] → Comes i h s b 0 []
          (sendProfiles g [0, 1, 2] true r.toNat (updTerm g (fun x => { x with rateNext := some r.toNat }) (dropMsgs g isChange u)))))

/-- The key commands complete (R126 to R130): TERM_KEY sends a wrapped key that unwraps (else BAD_PARAM, OFFSET 24) to the slot that is not CURRENT,
which becomes STAGED and sets ENCRYPT at the stroke boundary (R133), and schedules a switch or a clear for the boundary it names; KWK_SET stores the
key-wrapping key at its stroke boundary and replies with its check value, the first 3 bytes of AES-128 of the zero block (R129).
The slot number in the reply of a clear is a free value (log 65); the slot a load takes where neither slot is CURRENT and not both are EMPTY (log 82),
and BUSY at every port while the tree's domain is off (log 140), are the model's choices. -/
def Obligations.KeyCommandsComplete : Prop :=
  (∀ h t d r w s, Starts (.termKey h t d r 0 0 w) h s → treeOk s t.toNat = true → d.toNat < (if featOn s 3 then 64 else 16) → r.toNat ≤ 1 →
      let i := keyIx t.toNat d.toNat (r = 1)
      let busy := s.power.kwk = none ∨ pwrOn s t.toNat = false ∨ slotSt (keySet s i) (loadSlot (keySet s i)) = .draining
      (s.power.kwk.any (fun k => !unwrapOk k w) = true → exec (.termKey h t d r 0 0 w) s = answersNot (.termKey h t d r 0 0 w) h s 4 [0, 24, 0, 0])
      ∧ (s.power.kwk.all (fun k => unwrapOk k w) = true → busy → exec (.termKey h t d r 0 0 w) s = answersNot (.termKey h t d r 0 0 w) h s 0x0A [])
      ∧ (s.power.kwk.all (fun k => unwrapOk k w) = true → ¬busy → exec (.termKey h t d r 0 0 w) s =
          answersOk (.termKey h t d r 0 0 w) h s (beBytes 1 (loadSlot (keySet s i)).toNat ++ [0, 0, 0])
            (post (.keyLoad i (loadSlot (keySet s i)) w) (begun (.termKey h t d r 0 0 w) h s))))
  ∧ (∀ i (l : Bool) w b, slotSt (keySet b i) l ≠ .current → slotSt (keySet b i) l ≠ .draining →
      keyLoadLand i l w b = setKey i { setSlot (keySet b i) l .staged w with encrypt := true } b)
  ∧ (∀ h t d r g s, Starts (.termKey h t d r 1 g 0) h s → treeOk s t.toNat = true → d.toNat < (if featOn s 3 then 64 else 16) → r.toNat ≤ 1 →
      let i := keyIx t.toNat d.toNat (r = 1)
      (((keySet s i).st0 = .staged ∨ (keySet s i).st1 = .staged) → ∀ b, keyBoundary s h g = some b →
        exec (.termKey h t d r 1 g 0) s = answersOk (.termKey h t d r 1 g 0) h s (beBytes 1 (decide ((keySet s i).st1 = .staged)).toNat ++ [0, 0, 0])
          (setKey i { keySet s i with pends := (keySet s i).pends ++ [(true, b, false)] } (begun (.termKey h t d r 1 g 0) h s)))
      ∧ ((keySet s i).st0 ≠ .staged → (keySet s i).st1 ≠ .staged →
        exec (.termKey h t d r 1 g 0) s = answersNot (.termKey h t d r 1 g 0) h s 4 [0, 19, 0, 0]))
  ∧ (∀ h t d r g s, Starts (.termKey h t d r 2 g 0) h s → treeOk s t.toNat = true → d.toNat < (if featOn s 3 then 64 else 16) → r.toNat ≤ 1 →
      let i := keyIx t.toNat d.toNat (r = 1)
      ∀ b, keyBoundary s h g = some b →
      ∃ v : Nat, exec (.termKey h t d r 2 g 0) s = answersOk (.termKey h t d r 2 g 0) h s (beBytes 1 (v % 2) ++ [0, 0, 0])
        { setKey i { keySet s i with pends := (keySet s i).pends ++ [(false, b, false)] } (begun (.termKey h t d r 2 g 0) h s) with free := s.free + 1 })
  ∧ (∀ h k s b, Starts (.kwkSet h k) h s →
      (regBit b aLOCKS 7 = true → Comes (.kwkSet h k) h s b 7 (beBytes 4 0x20) b)
      ∧ (regBit b aLOCKS 7 = false → b.keys.any (fun e => e.2.st0 ≠ .empty || e.2.st1 ≠ .empty) = false → b.terms.any (fun e => e.2.pkey.isSome) = false →
          b.pair.contact = false → Comes (.kwkSet h k) h s b 0 (beBytes 3 (kcv k).toNat ++ [0]) { b with power := { b.power with kwk := some k } }))

/-! ### The mill, tributaries, screens and sequence generation by command -/

/-- The mapping commands complete (R236 to R240, R171, R173, R190, R263, R269, R25): an accepted mill, screen or generation entry is judged and taken at
its stroke boundary, a tributary entry waits for the first impression boundary TURN_CUTOFF after its acceptance, behind one that waits already; a queue or
slack flow that holds frames may not be moved; the reads report the entry, mill and generation entries as the last stroke boundary sampled them. What is
not refused acts behind the record that mirrors it (R354).
SCREEN_GET needs the key of a held screen (log 45). -/
def Obligations.MappingCommandsComplete : Prop :=
  (∀ h t x d s b, let i := Instr.millSet h t x d
      Starts i h s → t.toNat ≤ 5 → (∀ u ∈ [s, b], entryOk u t.toNat x.toNat = true ∧ wordBad (entryRules u t.toNat x.toNat d) = 0) →
      (entryBusy b t.toNat x.toNat d = true → Comes i h s b 0x0A [] b)
      ∧ (entryBusy b t.toNat x.toNat d = false → entryOver b t.toNat x.toNat d = true →
          Comes i h s b 9 (beBytes 2 9 ++ beBytes 2 (128 * (readSFlow d).tree + (readSFlow d).term)) b)
      ∧ (entryBusy b t.toNat x.toNat d = false → entryOver b t.toNat x.toNat d = false → Comes i h s b 0 [] (landEntry t.toNat x.toNat d (mirrored i h s b))))
  ∧ (∀ h t x s, let i := Instr.millGet h t x
      Starts i h s → t.toNat ≤ 5 → entryOk s t.toNat x.toNat = true →
      exec i s = answersOk i h s ((readEntry (sampled (taken i h s)) t.toNat x.toNat).flatMap e32) (taken i h s))
  ∧ (∀ h e s, let i := Instr.tribSet h e
      let c := readTrib e
      Starts i h s → mirrorFlag h = false → natAt e 2 1 % 4 = 0 → c.vtags ≠ 3 → 1 ≤ c.k → c.k ≤ 16 → 66 ≤ c.payLen → c.payLen ≤ 4096 → c.k * (c.payLen + 10) ≤ 9600 →
      (c.kindPacket = true ∨ c.payLen + 26 + 4 * c.vtags ≤ 9600) → natAt e 29 3 = 0 →
      exec i s = answersOk i h s [] (setTrib (natAt e 0 2) { trib s (natAt e 0 2) with
          next := (trib s (natAt e 0 2)).next ++ [(c, s.now)] } (begun i h s)))
  ∧ (∀ f t c x b s, s.tribs = [(f, t)] → t.next = [(c, x)] →
      (x + Config.TURN_CUTOFF ≤ b → let u := tribEffects b s
        (trib u f).cfg = c ∧ (trib u f).present = true ∧ (trib u f).next = [] ∧ (trib u f).fcnt = 0 ∧ (trib u f).align = 0)
      ∧ (b < x + Config.TURN_CUTOFF → tribEffects b s = s))
  ∧ (∀ h f s, let i := Instr.tribGet h f
      Starts i h s → exec i s = answersOk i h s (tribBytes f.toNat (trib s f.toNat) ++ tribStatus (taken i h s) f.toNat) (taken i h s))
  ∧ (∀ h e s b, let i := Instr.screenSet h e
      Starts i h s → firstBad (scRules e) = 0 →
      (natAt e 1 1 / 128 = 1 → featOn b 9 = false → Comes i h s b 0x0C [9, 0, 0, 0] b)
      ∧ ((natAt e 1 1 / 128 = 1 → featOn b 9 = true) → natAt e 0 1 ≠ 0 → 65536 ≤ b.screens.length →
          b.screens.any (fun x => keyOfScreen x = scKey e) = false → Comes i h s b 9 (beBytes 2 4 ++ beBytes 2 0) b)
      ∧ ((natAt e 1 1 / 128 = 1 → featOn b 9 = true) →
          (natAt e 0 1 = 0 ∨ b.screens.length < 65536 ∨ b.screens.any (fun x => keyOfScreen x = scKey e) = true) →
          Comes i h s b 0 [] (landScreen e (mirrored i h s b))))
  ∧ (∀ h e x s, let i := Instr.screenGet h e
      Starts i h s → natAt e 1 3 = 0 → natAt e 14 10 = 0 → s.screens.find? (fun x => keyOfScreen x = scKey e) = some x →
      exec i s = answersOk i h s (screenBytes x) (taken i h s))
  ∧ (∀ h f g s b, let i := Instr.genSet h f g
      Starts i h s → g.toNat ≤ 1 → Comes i h s b 0 [] (landGen f.toNat (decide (g = 1)) (mirrored i h s b)))
  ∧ (∀ f b, mget none (landGen f true b).mill.gens f = (if (mget none b.mill.gens f).isSome then mget none b.mill.gens f else some 0)
      ∧ mget none (landGen f false b).mill.gens f = none)
  ∧ (∀ h f s, let i := Instr.genGet h f
      Starts i h s →
      exec i s = answersOk i h s
        (beBytes 1 (mget none s.seen.mill.gens f.toNat).isSome.toNat ++ [0] ++ beBytes 2 ((mget none s.seen.mill.gens f.toNat).getD 0).toNat) (taken i h s))

/-! ### Time by command -/

/-- The time commands complete (R308 to R310, R316, R317, R319, R323, Table 10.1) on time domain A, and on B where TWO_DOMAIN_TIME is agreed: TIME_ARM
arms a domain, TIME_SET steps an armed one to the time given and is LOCKED elsewhere, TIME_DISABLE returns it to UNSET, TIME_SEL asks for the selection,
which moves after the steps of that boundary (R325), K taking up the difference of the two times, ACCEPT_PATH_STEP sets the asymmetry and lets a held or bridging domain track, each at its stroke boundary; TIME_CONV and TOD_GET report a time at once. -/
def Obligations.TimeCommandsComplete : Prop :=
  (∀ h d s b, let i := Instr.timeArm h d
      Starts i h s → (d = 0 ∨ (d = 1 ∧ twoDom b = true)) →
      ((tdom b (d = 1)).st = .stepArmed → Comes i h s b 0 [] b)
      ∧ ((tdom b (d = 1)).st = .unset → ∃ t, Comes i h s b 0 [] t ∧ (tdom t (d = 1)).st = .stepArmed ∧ (tdom t (d = 1)).tau = 0
          ∧ (tdom t (d = 1)).r = 0 ∧ (tdom t (d = 1)).cb = strokeAt b b.now ∧ tdom t (!decide (d = 1)) = tdom b (!decide (d = 1)))
      ∧ ((tdom b (d = 1)).st ≠ .stepArmed → (tdom b (d = 1)).st ≠ .unset → Comes i h s b 0 [] (moveDom (d = 1) .stepArmed 0 b)))
  ∧ (∀ h d c n s b, let i := Instr.timeSet h d c n
      Starts i h s → (d = 0 ∨ (d = 1 ∧ twoDom b = true)) → n.toNat < 1000000000 →
      let k : Bool := decide (d = 1)
      ((tdom b (d = 1)).st = .stepArmed → Comes i h s b 0 []
        (stepDom k (((c.toNat * 1000000000 + n.toNat : Nat) : Int) * 65536 - domTime b k (strokeAt b b.now)) 0 b))
      ∧ ((tdom b (d = 1)).st ≠ .stepArmed → ∃ t, Comes i h s b 7 (beBytes 4 (aDOM_STATUS (d = 1))) t ∧ t.time = b.time))
  ∧ (∀ h d s b, let i := Instr.timeDisable h d
      Starts i h s → (d = 0 ∨ (d = 1 ∧ twoDom b = true)) →
      ((tdom b (d = 1)).st = .unset → Comes i h s b 0 [] b)
      ∧ ((tdom b (d = 1)).st ≠ .unset → Comes i h s b 0 [] (keepSet (d = 1) (strokeAt b b.now) (moveDom (d = 1) .unset 0 b))))
  ∧ (∀ h d s b, let i := Instr.timeSel h d
      Starts i h s → (d = 0 ∨ (d = 1 ∧ twoDom b = true)) →
      Comes i h s b 0 [] { b with time := { b.time with selNext := some (decide (d = 1)) } })
  ∧ (∀ (d : Bool) s, s.time.selNext = some d →
      let t := selJudge s
      t.time.sel = d ∧ t.time.selNext = none ∧ tdom t false = tdom s false ∧ tdom t true = tdom s true
        ∧ (d ≠ s.time.sel →
            let c := strokeAt s s.now
            let k := domTime s d c - outTime s c
            t.time.kAt = c ∧ t.time.k = (if (k.natAbs : Int) ≤ 131072 then 0 else k)))
  ∧ (∀ h d a s b, let i := Instr.acceptPathStep h d a
      Starts i h s → (d = 0 ∨ (d = 1 ∧ twoDom b = true)) →
      ∃ t, Comes i h s b 0 [] t ∧ (tdom t (d = 1)).asym = a.toInt ∧ (tdom t (d = 1)).mpds = [] ∧ (tdom t (d = 1)).pathStep = false
        ∧ (tdom t (d = 1)).st = (if (tdom b (d = 1)).st = .bridging ∨ ((tdom b (d = 1)).st = .hold ∧ (tdom b (d = 1)).holdPath = true) then .tracking
            else (tdom b (d = 1)).st))
  ∧ (∀ h d c e s, let i := Instr.timeConv h d c
      Starts i h s → (d = 0 ∨ (d = 1 ∧ twoDom s = true)) →
      let v := s.now / 2 ^ 64 * 2 ^ 64 + c.toNat
      (tdom s (d = 1)).past.find? (fun e => e.1 ≤ v) = some e → v ≤ s.now → e.2.2.2.2 = false →
      exec i s = answersOk i h s (timeBytes (tauAt e.2.1 e.2.2.1 e.2.2.2.1 v)) (taken i h s))
  ∧ (∀ h n f e s, let i := Instr.todGet h n f
      Starts i h s → treeOk s n.toNat = true → (tree s n.toNat).sentTimes.find? (fun e => e.1 = f.toNat) = some e →
      exec i s = answersOk i h s (timeBytes (e.2 + todAdj s n.toNat)) (taken i h s))
  ∧ (∀ h d m s b, (∃ n : BitVec 32, m = Instr.timeArm h d ∨ m = Instr.timeSel h d ∨ m = Instr.timeDisable h d ∨ m = Instr.acceptPathStep h d n) →
      Starts m h s → d = 1 → twoDom b = false → Comes m h s b 0x0C [4, 0, 0, 0] b)

/-! ### Pair and protection by command -/

/-- The pair and protection commands complete where Table 11.7 and Table 6.5 admit them (R197, R342, R343, R352, R353, R208, R215): PAIR_JOIN starts the
quick tier, cut at the next stroke boundary, PAIR_LEAVE detaches a standby, PAIR_SWITCH sends the release with its X and waits for it to reply, one
behind another waits for the same X,
PAIR_VERDICT feathers, sails alone or schedules the raise, PAIR_INFO reports; PROT_CFG gives the settings of Table 6.5 that the next impression boundary
takes, PROT_SWITCH reverts a rehashed port, both at their stroke boundary. What a verdict posts feathers or raises the unit at a stroke boundary.
PROT_SWITCH reverting at the first stroke boundary 1,244 mc after execution is the model's choice (log 26). -/
def Obligations.PairCommandsComplete : Prop :=
  (∀ h s, let i := Instr.pairJoin h
      let admitted := s.pair.contact = true
        ∧ ((s.pair.st = .solo ∧ s.pair.sails = true ∧ s.pair.partnerSails = false) ∨ s.pair.resyncLimit = true)
      Starts i h s →
      (admitted → ∃ t, exec i s = answersOk i h s [] t ∧ t.pair = { s.pair with
          st := .joining, tier := 0, tierDone := 0, sections := [], copied := [], quickDone := false, detached := false, released := false, taken := false,
          cutAt := none, sending := [], resyncLimit := false, resyncs := [] }
        ∧ (∃ x ∈ t.mill.landing, x.eff = .cut ∧ x.at_ = 0) ∧ t.trees = s.trees ∧ t.terms = s.terms ∧ t.plates = s.plates)
      ∧ (¬admitted → exec i s = answersNot i h s 0x0A []))
  ∧ (∀ h s, let i := Instr.pairLeave h
      Starts i h s → isStandby s = true →
      ∃ t, exec i s = answersOk i h s [] t ∧ t.pair.st = .solo ∧ t.pair.detached = true ∧ t.pair.tier = 0 ∧ t.pair.granted = false ∧ t.pair.lag = []
        ∧ t.pair.leaseTx = some (.leave, s.pair.epoch))
  ∧ (∀ h s, let i := Instr.pairLeave h
      Starts i h s → isStandby s = false → exec i s = answersNot i h s 0x0A [])
  ∧ (∀ h s, let i := Instr.pairSwitch h
      Starts i h s → s.pair.sails = true → s.pair.st = .inStep → s.pair.handover = none →
      let t := releaseAt 5 0 0 s.now (taken i h s)
      exec i s = .next { t with cmd := { t.cmd with waiting := t.cmd.waiting ++ [{ pkt := takenPkt i h s }] } }
      ∧ t.pair.handover = some (handoverX s s.now, 5, 0, 0) ∧ t.pair.leaseTx = some (.release, s.pair.epoch))
  ∧ (∀ h y s, let i := Instr.pairSwitch h
      Starts i h s → s.pair.sails = true → s.pair.st = .inStep → s.pair.handover = some y → y.2.1 ≠ 6 →
      let u := taken i h s
      exec i s = .next { u with cmd := { u.cmd with waiting := u.cmd.waiting ++ [{ pkt := takenPkt i h s }] } })
  ∧ (∀ h s, let i := Instr.pairSwitch h
      Starts i h s → (s.pair.sails = false ∨ s.pair.st ≠ .inStep ∨ s.pair.handover.any (fun y => y.2.1 = 6) = true) → exec i s = answersNot i h s 0x0A [])
  ∧ (∀ h e s, let i := Instr.pairVerdict h 2 e
      Starts i h s → e = s.pair.epoch → s.pair.contact = false → regBit s aPAIR_CFG 27 = true →
      let u := taken i h s
      (s.pair.sails = true → exec i s = answersOk i h s [] (post .linkFence u))
      ∧ (s.pair.sails = false → exec i s = answersOk i h s [] u))
  ∧ (∀ h e s, let i := Instr.pairVerdict h 1 e
      Starts i h s → e = s.pair.epoch → s.pair.contact = false → regBit s aPAIR_CFG 27 = true →
      let u := taken i h s
      (s.pair.sails = true → ∃ t, exec i s = answersOk i h s [] t ∧ t.pair.st = .solo ∧ t.pair.granted = false ∧ t.pair.sails = true)
      ∧ (s.pair.sails = false → s.pair.fencedLease = true →
          exec i s = answersOk i h s [] (post .raise_ u))
      ∧ (isStandby s = true → s.pair.handover = none →
          exec i s = answersOk i h s []
            { u with pair := { u.pair with sailVerdict := true,
                                           handover := some (strokeAt s (max (s.now + 1) (s.pair.expiry + 124400)), 3, 0, 0) } })
      ∧ (isStandby s = true → exec i s = answersOk i h s []
          (awaitX (strokeAt s (max (s.now + 1) (s.pair.expiry + 124400))) 3 0 0 { u with pair := { u.pair with sailVerdict := true } }))
      ∧ (s.pair.sails = false → s.pair.fencedLease = false → isStandby s = false → exec i s = answersOk i h s [] u))
  ∧ (∀ b, b.pair.sails = true → let t := landOne (posted .linkFence b) b
      t.pair.sails = false ∧ t.pair.fencedLease = true ∧ t.pair.st = .solo ∧ t.pair.granted = false)
  ∧ (∀ b, b.pair.sails = false → b.pair.fencedLease = true → b.pair.fencedCmd = false → b.pair.fencedPin = false → b.pair.fencedScan = false →
      let t := landOne (posted .raise_ b) b
      t.pair.sails = true ∧ t.pair.epoch = b.pair.epoch + 1 ∧ t.pair.fencedLease = false ∧ t.pair.st = .solo)
  ∧ (∀ h v e s, let i := Instr.pairVerdict h v e
      Starts i h s → (v = 1 ∨ v = 2) → e = s.pair.epoch → (s.pair.contact = true ∨ regBit s aPAIR_CFG 27 = false) → exec i s = answersNot i h s 0x0A [])
  ∧ (∀ h s, let i := Instr.pairInfo h
      Starts i h s →
      exec i s = answersOk i h s (beBytes 4 (pairStatus s).toNat ++ beBytes 4 s.pair.epoch.toNat ++ beBytes 4 (leaseExp s).1.toNat
        ++ beBytes 4 (leaseExp s).2.toNat ++ beBytes 4 s.pair.tierDone ++ beBytes 1 s.pair.causeForm ++ beBytes 1 s.pair.causeCode
        ++ beBytes 2 s.pair.causeTree) (taken i h s))
  ∧ (∀ h n m e l x k s b, let i := Instr.protCfg h (.tree n m e l x k)
      Starts i h s → (∀ u ∈ [s, b], treeOk u n.toNat = true) → m.toNat ≤ 1 → e.toNat ≤ 1 → 2 ≤ l.toNat → l.toNat ≤ 16 → x.toNat ≤ 15 →
      -248 ≤ k.toInt → k.toInt ≤ 248 →
      (b.pair.handover.any (fun y => y.2.1 = 6) = true → Comes i h s b 0x0A [] b)
      ∧ (b.pair.handover.any (fun y => y.2.1 = 6) = false → Comes i h s b 0 []
        (setTree n.toNat { tree b n.toNat with protNext := some (decide (m = 1), e.toNat, k.toInt, l.toNat, BitVec.ofNat 4 x.toNat) } b)))
  ∧ (∀ n b h k l x s, (tree s n).protNext = some (b, h, k, l, x) →
      let t := tree (setApply n s) n
      t.protTypeB = b ∧ t.home = h ∧ t.skew = k ∧ t.losBursts = l ∧ t.xtrig = x ∧ t.protNext = none)
  ∧ (∀ q v (u : UPort), u.protNext = some (q, v) →
      let t := portSettings u
      t.spare = q ∧ t.utrig = v ∧ t.protNext = none ∧ (q = u.spare → t.rehashed = u.rehashed))
  ∧ (∀ h p q u s b, let i := Instr.protCfg h (.port p q u)
      Starts i h s → p.toNat < 32 → u.toNat ≤ 1 → (∀ v ∈ [s, b], firstLane v p.toNat = true
        ∧ (q = 0xFF ∨ (q.toNat < 32 ∧ firstLane v q.toNat = true ∧ q ≠ p ∧ quadMode v (q.toNat / 4) = quadMode v (p.toNat / 4)))) →
      let new := if q = 0xFF then none else some q.toNat
      ((q = 0xFF ∨ (engaged b).any (fun y => y.egress.any (fun e => e.first = q.toNat)) = false) →
        Comes i h s b 0 [] (setPort p.toNat { uport b p.toNat with protNext := some (new, decide (u = 1)) } b))
      ∧ (q ≠ 0xFF → (engaged b).any (fun y => y.egress.any (fun e => e.first = q.toNat)) = true →
        Comes i h s b 9 (beBytes 2 3 ++ beBytes 2 (decide (b.plates.bank1.st = .engaged)).toNat) b))
  ∧ (∀ h p s b, let i := Instr.protSwitch h p
      Starts i h s → p.toNat < 32 → (∀ v ∈ [s, b], firstLane v p.toNat = true) →
      ((uport b p.toNat).rehashed = false → Comes i h s b 0 [] b)
      ∧ ((uport b p.toNat).rehashed = true → (portTrig b p.toNat = true ∨ b.now < (uport b p.toNat).clearAt + ulClr b p.toNat) → Comes i h s b 0x0A [] b)
      ∧ ((uport b p.toNat).rehashed = true → portTrig b p.toNat = false → (uport b p.toNat).clearAt + ulClr b p.toNat ≤ b.now →
          Comes i h s b 0 [] (setPort p.toNat { uport b p.toNat with revertAt := strokeAt b (b.now + 1244) } b)))

/-- STREAM and COPY complete on the pair port (R335, R347, R348, R386): the records of a STREAM, however many, are taken in order after what the partner
acknowledges, and the reply gives the low 32 bits of the last stroke; the records of every stroke acknowledged are released, and no reply waits but for a
record still held (R24); a delivered point is taken as given; COPY writes its bytes into the section named on a standby, whatever stood there, its tier in
progress the one named; a JOINING standby that holds all six sections takes them at the next stroke boundary (R22), and not before; a SAILS_ON unit keeps
nothing. A JOINING standby that has not seen the cut and for which none is posted takes it at the first chunk (log 107).
Up to which stroke the partner has acknowledged by its next STREAM is a free value (log 24). -/
def Obligations.StreamAndCopyComplete : Prop :=
  (∀ h l r s, let i := Instr.stream h (l ++ [r])
      Starts i h s →
      let t := (l ++ [r]).foldl streamRec (ackAll (taken i h s))
      exec i s = answersOk i h s (beBytes 4 (r.stroke % 2 ^ 32)) { t with pair := { t.pair with lastAck := r.stroke } })
  ∧ (∀ h s, let i := Instr.stream h []
      Starts i h s → exec i s = answersOk i h s (beBytes 4 (s.pair.lastAck % 2 ^ 32)) (ackAll (taken i h s)))
  ∧ (∀ h x f q s, let i := Instr.stream h [⟨x, .delivered f q⟩]
      Starts i h s → ∃ t v, exec i s = answersOk i h s (beBytes 4 (x % 2 ^ 32)) t
        ∧ t.mill.deliveredPts = mput none s.mill.deliveredPts f.toNat (some q) ∧ t.pair.sent = s.pair.sent.dropWhile (fun r => decide (r.stroke ≤ v))
        ∧ t.cmd.ackWait = s.cmd.ackWait.filter (fun r => (streamCmds t.pair.sent).contains r.dseq))
  ∧ (∀ h t c o d s, let i := Instr.copy h t c o d
      Starts i h s → ((t = 1 ∧ 1 ≤ c.toNat ∧ c.toNat ≤ 6) ∨ (t = 2 ∧ c = 1)) → o.toNat + d.length ≤ copyLimit t.toNat c.toNat →
      let k := 16 * t.toNat + c.toNat
      let old := mget [] s.pair.copied k
      (s.pair.sails = true → exec i s = answersOk i h s [] (taken i h s))
      ∧ (isStandby s = true → ∃ u, exec i s = answersOk i h s [] u ∧ u.pair.tierDone = s.pair.tierDone + d.length
          ∧ u.pair.copied = mput [] s.pair.copied k (bytesAt old 0 o.toNat ++ d ++ old.drop (o.toNat + d.length))
          ∧ u.pair.tier = (if s.pair.st = .joining ∨ s.pair.st = .eligible then t.toNat else s.pair.tier)
          ∧ (∀ j, j ∈ u.pair.sections ↔ 1 ≤ j ∧ j ≤ 6 ∧ sectionDone (mget [] u.pair.copied (16 + j)) = true)
          ∧ (t = 1 → s.pair.st = .joining → (∀ x ∈ s.mill.landing, x.eff ≠ .cut) → u.pair.cutAt ≠ none)
          ∧ (sectionsHeld u = true → ∃ x ∈ u.mill.landing, x.eff = .sections)
          ∧ (sectionsHeld u = false → u.mill = s.mill)
          ∧ u.pair.taken = s.pair.taken ∧ u.terms = s.terms ∧ u.keys = s.keys ∧ u.plates = s.plates ∧ u.tribs = s.tribs))
  ∧ (∀ b, (sectionsHeld b = true → (landOne (posted .sections b) b).pair.taken = true)
      ∧ (sectionsHeld b = false → landOne (posted .sections b) b = b))

/-! ### Power, firmware, reset, I2C by command -/

/-- The power, firmware and platform commands complete (R427 to R429, R434, R445 to R447, R293): PWR_SET starts a ramp (ACCEPTED) or takes a domain
off at its stroke boundary unless something holds it on; PWR_INFO reports, with VDD_CORE's product of R432, whose rounding down is the model's choice
(log 28), and so does FW_INFO; SAG_CFG sets SAG_TH; the firmware commands open, fill and verify
a slot that neither runs nor is being verified; RESET waits for its stroke boundary; LOG_READ gives bytes of the fault log (open content, log 11);
I2C_XFER waits for its bus.
VERSION and LENGTH of FW_INFO are free where no image was written (log 32). -/
def Obligations.PowerCommandsComplete : Prop :=
  (∀ h d s b, let i := Instr.pwrSet h d 1
      Starts i h s → 64 ≤ d.toNat → d.toNat ≤ 77 →
      (pwrOf b d.toNat = .off → Comes i h s b 1 [] { b with power := { b.power with doms := mput .off b.power.doms d.toNat .ramping } })
      ∧ (pwrOf b d.toNat ≠ .off → Comes i h s b 0 [] b))
  ∧ (∀ h d s b, let i := Instr.pwrSet h d 0
      Starts i h s → 64 ≤ d.toNat → d.toNat ≤ 77 →
      (pwrOf b d.toNat = .off → Comes i h s b 0 [] b)
      ∧ (pwrOf b d.toNat ≠ .off → offHolder b d.toNat = none → ∃ t, Comes i h s b 0 [] t ∧ pwrOf t d.toNat = .off
          ∧ (∀ e, e ≠ d.toNat → pwrOf t e = pwrOf b e) ∧ (∀ a ∈ domCounters d.toNat, cntOf t a = {}))
      ∧ (∀ k n, pwrOf b d.toNat ≠ .off → offHolder b d.toNat = some (k, n) → Comes i h s b 9 (beBytes 2 k ++ beBytes 2 n) b))
  ∧ (∀ h s, let i := Instr.pwrInfo h
      Starts i h s → exec i s = answersOk i h s ((List.range 80).flatMap (fun d => beBytes 1 (pwrCode (pwrOf s d))) ++ beBytes 2 s.power.vout ++ [0, 0]
        ++ beBytes 4 (s.power.vout * s.power.iout / 10)) (taken i h s))
  ∧ (∀ h v s, let i := Instr.sagCfg h v
      Starts i h s → 90 ≤ v.toNat → v.toNat ≤ 114 →
      (regBit s aLOCKS 3 = false →
        exec i s = answersOk i h s [] (setRaw aSAG_CFG ((regRaw s aSAG_CFG &&& 0x80) ||| v.setWidth 32) (taken i h s)))
      ∧ (regBit s aLOCKS 3 = true → exec i s = answersNot i h s 7 (beBytes 4 0x20)))
  ∧ (∀ h b s, let i := Instr.fwOpen h b
      Starts i h s → b.toNat ≤ 1 →
      (regBit s aLOCKS 1 = false → fwHeld s (b = 1) = false → exec i s = answersOk i h s [] (setFw (b = 1) { st := .writing } (taken i h s)))
      ∧ (regBit s aLOCKS 1 = false → fwHeld s (b = 1) = true → exec i s = answersNot i h s 0x0A [])
      ∧ (regBit s aLOCKS 1 = true → exec i s = answersNot i h s 7 (beBytes 4 0x20)))
  ∧ (∀ h b o d s, let i := Instr.fwData h b o d
      Starts i h s → b.toNat ≤ 1 → o.toNat % 16 = 0 → d.length % 16 = 0 → 16 ≤ d.length → d.length ≤ 4080 → o.toNat + d.length ≤ 6291456 →
      regBit s aLOCKS 1 = false → (fwSlot s (b = 1)).st = .writing → s.power.fwVerify ≠ some (decide (b = 1)) →
      exec i s = answersOk i h s []
        (setFw (b = 1) { fwSlot s (b = 1) with image := imgWrite (fwSlot s (b = 1)).image o.toNat d } (taken i h s)))
  ∧ (∀ h b s, let i := Instr.fwCommit h b
      Starts i h s → b.toNat ≤ 1 → regBit s aLOCKS 1 = false →
      let u := taken i h s
      ((fwSlot s (b = 1)).st = .writing → s.power.fwVerify = none →
        exec i s = .next (answered i h s 1 [] { u with power := { u.power with fwVerify := some (decide (b = 1)) } }))
      ∧ (((fwSlot s (b = 1)).st ≠ .writing ∨ s.power.fwVerify ≠ none) → exec i s = answersNot i h s 0x0A []))
  ∧ (∀ h s, let i := Instr.fwInfo h
      Starts i h s →
      ∃ ps f, exec i s = answersOk i h s ps { taken i h s with free := f } ∧ ps.length = 28 ∧ natAt ps 0 1 = fwCode s.power.fwA.st
        ∧ natAt ps 12 1 = fwCode s.power.fwB.st ∧ natAt ps 24 1 = s.power.fwRun.toNat)
  ∧ (∀ h k s, let i := Instr.reset h k
      Starts i h s → k.toNat ≤ 1 →
      ((regBit s aLOCKS 2 = false ∨ h.port = .board) → exec i s = answersOk i h s [] (post (.reset (decide (k = 1))) (taken i h s)))
      ∧ (regBit s aLOCKS 2 = true → h.port ≠ .board → exec i s = answersNot i h s 7 (beBytes 4 0x20)))
  ∧ (∀ h o n s, let i := Instr.logRead h o n
      Starts i h s → n.toNat ≤ 4096 →
      exec i s = answersOk i h s (pad4 ((List.range n.toNat).map (fun j => Config.faultLog (o.toNat + j)))) (taken i h s))
  ∧ (∀ h b a w r d s, let i := Instr.i2cXfer h b a w r d
      Starts i h s → b.toNat ≤ 7 → a.toNat ≤ 127 →
      let u := taken i h s
      ((regBit s aLOCKS 6 = false ∨ h.port ≠ .host) →
        exec i s = .next { u with cmd := { u.cmd with waiting := u.cmd.waiting ++ [{ pkt := takenPkt i h s }] } })
      ∧ (regBit s aLOCKS 6 = true → h.port = .host → exec i s = answersNot i h s 7 (beBytes 4 0x20)))
  ∧ (∀ h n f s, let i := Instr.todGet h n f
      Starts i h s → treeOk s n.toNat = true → (tree s n.toNat).sentTimes.find? (fun e => e.1 = f.toNat) = none →
      let ahead := (f.toNat + 2 ^ 32 - ((tree s n.toNat).sentTimes.head?.map Prod.fst).getD (tree s n.toNat).superframe) % 2 ^ 32
      let u := taken i h s
      (1 ≤ ahead → ahead ≤ 8 → ((tree s n.toNat).st = .lit ∨ (tree s n.toNat).st = .serving) →
        exec i s = .next { u with cmd := { u.cmd with waiting := u.cmd.waiting ++ [{ pkt := takenPkt i h s }] } })
      ∧ (ahead = 0 ∨ 8 < ahead → exec i s = answersNot i h s 4 [0, 20, 0, 0]))

/-! ### Defects and hoppers by command -/

/-- DEFECT_GET and DEFECT_CFG complete (R197, R203): the defects and the history bits of an object in code order, the history cleared on request; the
settings of a kind, judged at a stroke boundary and mirrored (R354), wait for the next impression boundary, which takes them. -/
def Obligations.DefectCommandsComplete : Prop :=
  (∀ h c f x s, let i := Instr.defectGet h c f x
      Starts i h s → 1 ≤ c.toNat → c.toNat ≤ 6 → objOk s c.toNat x.toNat = true → (f = 0 ∨ f = 0x80) →
      let u := taken i h s
      exec i s = answersOk i h s (beBytes 4 (defBits s.defects.on c.toNat x.toNat) ++ beBytes 4 (defBits s.defects.hist c.toNat x.toNat))
        (if f = 0x80 then { u with defects := { u.defects with
            hist := (classCodes c.toNat).foldl (fun m k => mput false m (defKey c.toNat x.toNat k) false) u.defects.hist } } else u))
  ∧ (∀ h k a x c d s b, let i := Instr.defectCfg h k a x c d
      Starts i h s → k.toNat ≤ 2 → 5 ≤ a.toNat → a.toNat ≤ 9 → 3 ≤ x.toNat → x.toNat ≤ 5 → x.toNat < a.toNat → 1 ≤ c.toNat → c.toNat ≤ 600 →
      c.toNat ≤ d.toNat → d.toNat ≤ 600 →
      Comes i h s b 0 [] { mirrored i h s b with defects := { b.defects with next := b.defects.next
            ++ [(k.toNat, { sdExp := a.toNat, sfExp := x.toNat, setT := c.toNat, clrT := d.toNat })] } })
  ∧ (∀ k c s, s.defects.next = [(k, c)] →
      let d := (estSettings s).defects
      d.next = [] ∧ d.cfgTree = (if k = 0 then c else s.defects.cfgTree) ∧ d.cfgTerm = (if k = 1 then c else s.defects.cfgTerm)
        ∧ d.cfgPort = (if 2 ≤ k then c else s.defects.cfgPort))

/-- The hopper commands complete for the owner of hopper 0 or 1 (R391, R412, R413): HOP_READ replies with RD, the number of items and the items, none
pushed in its own cycle, RD moving past them unless it peeks; HOP_MARK sets MARK to RD; HOP_REWIND sets RD to MARK, or is STALE where that is released; HOP_RELEASE releases through a
number before RD. Any port may peek, and a time-stamp hopper too; another port than the owner is refused PRIVILEGE.
The length and phase of a hopper's cycle are the model's reading (log 151). -/
def Obligations.HopperCommandsComplete : Prop :=
  (∀ h p n s x, let i := Instr.hopRead h p n 0x80
      Starts i h s → hopOf s p.toNat = some x →
      let l := (shown s.now x).take (min n.toNat (4088 / x.width))
      exec i s = answersOk i h s (beBytes 4 x.rd.toNat ++ beBytes 2 l.length ++ [0, 0] ++ l.flatMap (itemBytes x.width)) (setHop p.toNat x (taken i h s)))
  ∧ (∀ h p n s x, let i := Instr.hopRead h p n 0
      Starts i h s → p.toNat ≤ 1 → hopOf s p.toNat = some x → x.owner = ownerOf h.port →
      let l := (shown s.now x).take (min n.toNat (4088 / x.width))
      exec i s = answersOk i h s (beBytes 4 x.rd.toNat ++ beBytes 2 l.length ++ [0, 0] ++ l.flatMap (itemBytes x.width))
        (setHop p.toNat { x with rd := (l.getLast?.map itemNext).getD x.rd } (taken i h s)))
  ∧ (∀ h p s x, let i := Instr.hopMark h p
      Starts i h s → p.toNat ≤ 1 → hopOf s p.toNat = some x → x.owner = ownerOf h.port →
      exec i s = answersOk i h s (beBytes 4 x.rd.toNat) (setHop p.toNat { x with mark := x.rd } (taken i h s)))
  ∧ (∀ h p s x, let i := Instr.hopRewind h p
      Starts i h s → p.toNat ≤ 1 → hopOf s p.toNat = some x → x.owner = ownerOf h.port →
      (seqLt x.mark x.rel = true → exec i s = answersNot i h s 0x0E [])
      ∧ (seqLt x.mark x.rel = false → ∃ t, exec i s = answersOk i h s (beBytes 4 x.mark.toNat) t ∧ hopOf t p.toNat = some { x with rd := x.mark }))
  ∧ (∀ h p q s x, let i := Instr.hopRelease h p q
      Starts i h s → p.toNat ≤ 1 → hopOf s p.toNat = some x → x.owner = ownerOf h.port → seqLe x.rd q = false →
      exec i s = answersOk i h s [] (setHop p.toNat (hopRelease x q) (taken i h s)))
  ∧ (∀ h p q s x, let i := Instr.hopRelease h p q
      Starts i h s → p.toNat ≤ 1 → hopOf s p.toNat = some x → x.owner = ownerOf h.port → seqLe x.rd q = true → exec i s = answersNot i h s 4 [0, 20, 0, 0])
  ∧ (∀ h p n s x i, (i = Instr.hopRead h p n 0 ∨ i = Instr.hopMark h p ∨ i = Instr.hopRewind h p) → Starts i h s → p.toNat ≤ 1 →
      hopOf s p.toNat = some x → x.owner ≠ ownerOf h.port → exec i s = answersNot i h s 3 (beBytes 1 (portNo h.port) ++ [10, 0, 0]))

/-- HOP_CFG, or a register write of OWNER in HCFG at its stroke boundary, names the owner of hopper 0 or 1 (R417): another owner than the present one sets
RD and MARK to REL, and so reads every entry not released; the present owner leaves RD and MARK as they are. LEVEL is 1 to N - 1, or 0 for no level: no
level interrupt comes then.
A register write that names OWNER 3 is outside (log 8). -/
def Obligations.HopperOwnership : Prop :=
  (∀ h p o l s x, let i := Instr.hopCfg h p o l
      Starts i h s → p.toNat ≤ 1 → o.toNat ≤ 2 → hopOf s p.toNat = some x → l.toNat < x.slots →
      ∃ t, exec i s = answersOk i h s [] t ∧ hopOf t (1 - p.toNat) = hopOf s (1 - p.toNat) ∧ hopOf t p.toNat = some
        (if BitVec.ofNat 2 o.toNat = x.owner then { x with level := l.toNat }
          else { x with level := l.toNat, owner := BitVec.ofNat 2 o.toNat, rd := x.rel, mark := x.rel }))
  ∧ (∀ h p o l s x, let i := Instr.hopCfg h p o l
      Starts i h s → p.toNat ≤ 1 → o.toNat ≤ 2 → hopOf s p.toNat = some x → x.slots ≤ l.toNat → exec i s = answersNot i h s 4 [0, 20, 0, 0])
  ∧ (∀ (p : Fin 2) (o : BitVec 2) (x z : Hopper) s b, let a := aHCFG p.val
      BarOpen s → o ≠ 3 → (readWord s a).getLsbD 29 = false → hopOf s p.val = some z → hopOf b p.val = some x →
      ∃ t, Bars (.owner p o) a (withBits s a 0xC0000000 (o.setWidth 32 <<< 30)) s b t ∧ hopOf t (1 - p.val) = hopOf b (1 - p.val)
        ∧ hopOf t p.val = some (let y := { x with level := fld (readWord s a).toNat 19 0 }
            if o = x.owner then y else { y with owner := o, rd := x.rel, mark := x.rel }))
  ∧ (∀ (p : Fin 2) (o : BitVec 2) (l : BitVec 20) (x : Hopper) s b, let v : Word := o ++ 0#10 ++ l
      BarOpen s → o ≠ 3 → hopOf b p.val = some x → l.toNat < x.slots →
      ∃ t, Bars (.registerWrite (BitVec.ofNat 32 (aHCFG p.val)) 4 (v.setWidth 64)) (aHCFG p.val) v s b t
        ∧ hopOf t (1 - p.val) = hopOf b (1 - p.val) ∧ hopOf t p.val = some
          (if o = x.owner then { x with level := l.toNat } else { x with level := l.toNat, owner := o, rd := x.rel, mark := x.rel }))
  ∧ (∀ (x : Hopper), (∀ e ∈ x.items, seqLe x.rel (itemPos e) = true) →
      readables { x with rd := x.rel, mark := x.rel } = x.items.filter (fun e => !itemOpen e))
  ∧ (∀ p (x : Hopper) a b s, x.level = 0 → hopLevel p x a b s = s)

/-! ### BAR0 accesses -/

/-- A BAR0 write of a plain register stores its writable bits at its stroke boundary and is mirrored (R354, R374, R404); one through a bit alias changes that
bit alone (R400); under LK_BARWR a write is discarded and reported, and in rescue mode or while the unit does not run it has no effect (R403, R449). The lock
bits are only ever set (R403), and a write that finds its bits locked by then leaves them and is reported. A 32-bit read of the low half of a 64-bit register
latches the high half for its path; a BAR0 read of 8, 16, 32 or 64 bits completes with its data, behind the accesses that wait (R395, R397, R398).
The form of the mirrored record of a BAR0 write is the model's choice (log 7). -/
def Obligations.RegisterWritesStore : Prop :=
  (∀ (a m : Word) (v : BitVec 64) (s b : State), BarOpen s → ((a = 0x28 ∧ m = 0xF) ∨ (a = 0x2C ∧ m = 0xFFFFFFFF)) →
      Bars (.registerWrite a 4 v) a.toNat (v.setWidth 32) s b (mirrorBar a.toNat (v.setWidth 32) (setRaw a.toNat (v.setWidth 32 &&& m) b)))
  ∧ (∀ (a : Word) (v : BitVec 64) (s b : State), BarOpen s → a.toNat % 4 = 0 → regThere s a.toNat = true → badWidth s a.toNat 4 = false →
      classBits (regBase a.toNat) = 0 → lockedBits s (regBase a.toNat) = 0 → lockedBits b (regBase a.toNat) = 0 →
      let w : Word := v.setWidth 32
      let t := regWrite (regBase a.toNat) (accVal a.toNat w) (accMask a.toNat) b
      (gpioClash b t = none → Bars (.registerWrite a 4 v) a.toNat w s b (mirrorBar a.toNat w t)
        ∧ (isAlias a.toNat = true → Bars (.bitAlias a w) a.toNat w s b (mirrorBar a.toNat w t)))
      ∧ (∀ f k j, gpioClash b t = some (f, k, j) → ∃ u, Bars (.registerWrite a 4 v) a.toNat w s b u ∧ Reports b u))
  ∧ (∀ (a : Word) (v : BitVec 64) (s b : State), BarOpen s → a.toNat % 4 = 0 → regThere s a.toNat = true → badWidth s a.toNat 4 = false →
      isAlias a.toNat = false → classBits a.toNat = 0 → lockedBits s a.toNat = 0 → lockedBits b a.toNat ≠ 0 →
      let w : Word := v.setWidth 32
      let lk := lockedBits b a.toNat
      let u := event 0x0006 0x0B 1 (beBytes 4 a.toNat) b
      let t := regWrite a.toNat w (~~~lk) u
      gpioClash u t = none → Bars (.registerWrite a 4 v) a.toNat w s b (mirrorBar a.toNat (w &&& ~~~lk ||| regRaw u a.toNat &&& lk) t))
  ∧ (∀ (k : Nat) (v : Word) (s b : State), BarOpen s → k < 4 →
      ∃ t, Bars (.bitAlias (BitVec.ofNat 32 (0x20000500 + 4 * k)) v) (0x20000500 + 4 * k) v s b t ∧ RegsOnly b t
        ∧ (∀ j, j < 4 → regBit t aINT_CFG j = if j = k then v.getLsbD 0 else regBit b aINT_CFG j)
        ∧ ∀ a, a ≠ aINT_CFG → regRaw t a = regRaw b a)
  ∧ (∀ (a v : Word) (s : State), isAlias a.toNat = false → exec (.bitAlias a v) s = .next s)
  ∧ (∀ (a : Word) (w : Nat) (v : BitVec 64) (s : State), s.power.phase = .running → s.power.rescue = false → barLocked s = true →
      barExempt a.toNat = false → exec (.registerWrite a w v) s = .next (event 0x0006 0x0B 1 (beBytes 4 a.toNat) s))
  ∧ (∀ (a : Word) (w : Nat) (v : BitVec 64) (s : State), (s.power.phase ≠ .running ∨ s.power.rescue = true) →
      exec (.registerWrite a w v) s = .next s)
  ∧ (∀ (a v m : Word) (s b : State), Running s → (a, m) ∈ [(0x20, 0xFF), (0x60000, 0x80000000), (0x60004, 0x80000000)] →
      exec (.lock a v) s = .next (post (.lock a.toNat v) s)
      ∧ landLock a.toNat v b = mirrorBar a.toNat (regRaw b a.toNat ||| (v &&& m)) (setRaw a.toNat (regRaw b a.toNat ||| (v &&& m)) b))
  ∧ (∀ (p : Option Port) (a : Word) (s : State), Running s → a.toNat % 4 = 0 → wide s a.toNat = true → (p ≠ none ∨ barWaits s = false) →
      let k := (p.map portNo).getD 4
      exec (.highHalfLatch p ⟨a, 4⟩) s = .next { s with cmd := { s.cmd with
        latches := (k, a.toNat + 4, readWord s (a.toNat + 4)) :: s.cmd.latches.filter (fun e => e.1 ≠ k)
        barRead := if p = none then some ((readWord s a.toNat).setWidth 64) else s.cmd.barRead } })
  ∧ (∀ (a : Word) (w : Nat) (s b : State), Running s → barWaits s = true →
      exec (.highHalfLatch none ⟨a, w⟩) s = .next (post (.barRead a.toNat w) s)
      ∧ landOne (posted (.barRead a.toNat w) s) b = barReadNow a.toNat w b
      ∧ (barWaits b = false → Running b → exec (.highHalfLatch none ⟨a, w⟩) b = .next (barReadNow a.toNat w b)))
  ∧ (∀ (a : Word) (s : State), Running s → isAlias a.toNat = false →
      (a.toNat % 8 = 0 → (barReadNow a.toNat 8 s).cmd.barRead = some (readWord s (a.toNat + 4) ++ readWord s a.toNat)
        ∧ (barReadNow a.toNat 8 s).cmd.latches = s.cmd.latches)
      ∧ (a.toNat % 2 = 0 → (barReadNow a.toNat 2 s).cmd.barRead
          = some (((readWord s (a.toNat / 4 * 4) >>> (8 * (a.toNat % 4))) &&& 0xFFFF).setWidth 64))
      ∧ (barReadNow a.toNat 1 s).cmd.barRead = some (((readWord s (a.toNat / 4 * 4) >>> (8 * (a.toNat % 4))) &&& 0xFF).setWidth 64))
  ∧ (∀ (a : Word) (w : Nat) (s : State), Running s → barWaits s = false → (w ≠ 4 ∨ a.toNat % 4 ≠ 0) → isAlias a.toNat = true →
      let t := event 0x0005 0x0B 1 (beBytes 4 a.toNat ++ beBytes 1 w) s
      exec (.highHalfLatch none ⟨a, w⟩) s = .next { t with cmd := { t.cmd with barRead := some 0 } })

/-- A write to a sequence-cleared register compares the EVT_SEQ written with the register's: equal, every SC bit written as 1 clears and every other keeps its
value; different, none changes; EVT_SEQ itself is never written, and the event hopper stays as it is (R402). It is so for a BAR0 write, compared where it
takes hold, and for the write REG_WR and REG_RMW make (writeAll). Every event moves EVT_SEQ on by one, modulo 256, so a write is void after an event and
clears after 256. -/
def Obligations.SequenceClearedWrites : Prop :=
  (∀ (k : Fin 118) (v : Word) (s b : State) (w : Word), BarOpen s →
      let x := seqRegs.getD k.val (0, 0)
      let cleared := if evtSeq (regRaw b x.1) = evtSeq v then regRaw b x.1 &&& ~~~(v &&& x.2) else regRaw b x.1
      writable b x.1 = true →
      (∀ i, (i = .sequenceClear (BitVec.ofNat 32 x.1) v ∨ i = .registerWrite (BitVec.ofNat 32 x.1) 4 (w ++ v)) →
        ∃ t, Bars i x.1 v s b t ∧ RegsOnly b t ∧ regRaw t x.1 = cleared ∧ evtSeq (regRaw t x.1) = evtSeq (regRaw b x.1)
          ∧ ∀ a, a ≠ x.1 → regRaw t a = regRaw b a)
      ∧ writeAll [(x.1, v.setWidth 64)] 4 b = setRaw x.1 cleared b)
  ∧ (∀ (k : Fin 118) (l : List Word) (s : State),
      let x := seqRegs.getD k.val (0, 0)
      writable s x.1 = true → (∀ b ∈ l, b &&& 0xFF00 = 0) →
      evtSeq (regRaw (l.foldl (fun u b => scEvent x.1 b u) s) x.1) = evtSeq (regRaw s x.1) + BitVec.ofNat 8 l.length)

/-- TREE_CTL sets the TARGET of a tree and decides its transition (R91); a transition decided is entered at its boundary, with its power domains on when it
leaves OFF (R92, R427, R429); SERVING is not entered once no record of the engaged plate names the tree (R94), and TARGET then decides anew. -/
def Obligations.TreeControlCompletes : Prop :=
  (∀ (n : Fin 64) (g : BitVec 2) (s b : State), BarOpen s → treeOk b n.val = true →
      Bars (.treeCtl n g) (aTREE n.val) (g.setWidth 32) s b
        (mirrorBar (aTREE n.val) (g.setWidth 32) (treeDecide n.val (setRaw (aTREE n.val) (g.setWidth 32) b))))
  ∧ (∀ (n : Fin 64) (b : Nat) (s : State), Running s → (tree s n.val).moving = some (.lit, b) → (tree s n.val).st = .dark → treeTarget s n.val = 2 →
      exec (.treeTransition n) s = .next { advance b s with
        trees := mput {} s.trees n.val { tree s n.val with st := .lit, moving := none } })
  ∧ (∀ (n : Fin 64) (b : Nat) (s : State), Running s → treeOk s n.val = true → (tree s n.val).moving = some (.dark, b) → (tree s n.val).st = .off →
      treeTarget s n.val = 1 →
      ∃ t, exec (.treeTransition n) s = .next t ∧ (tree t n.val).st = .dark ∧ (tree t n.val).moving = none ∧ t.now = s.now
        ∧ pwrOn t n.val = true ∧ pwrOn t 72 = true ∧ pwrOn t (72 + treeGroup n.val) = true)
  ∧ (∀ (n : Fin 64) (b : Nat) (s : State), Running s → (tree s n.val).moving = some (.serving, b) → (tree s n.val).st = .lit →
      (engaged s).any (fun p => plateNames p n.val) = false →
      exec (.treeTransition n) s = .next (treeDecide n.val (setTree n.val { tree s n.val with moving := none } (advance b s))))
  ∧ (∀ (n : Fin 64) s, Running s → (tree s n.val).moving = none → exec (.treeTransition n) s = .next s)

/-- The mill window at the stroke boundary of its access (R22, R236 to R238, Table 7.4): a read puts the entry into the data words, a write stores the entry
that its checks admit. MW_CMD reports what fails: 1 an index outside its table, 2 a table or a value that is not admitted, or an entry past the 64 of a
terminal (its code is the model's choice, log 145), 3 a queue that holds frames; then nothing is stored. Both are mirrored (R354). -/
def Obligations.MillWindowCompletes : Prop :=
  (∀ s b, BarOpen s →
    let u := setRaw aMW_CMD 0 b
    let ends := fun t => Bars .mwRead aMW_CMD 1 s b (mirrorBar aMW_CMD 1 t)
    (5 < mwTable b → ends (setMwErr 2 u))
    ∧ (mwTable b ≤ 5 → entryOk b (mwTable b) (mwIdx b) = false → ends (setMwErr 1 u))
    ∧ (mwTable b ≤ 5 → entryOk b (mwTable b) (mwIdx b) = true →
      ∃ t, ends t ∧ t.mill = { b.mill with mwErr := 0 } ∧ t.terms = b.terms ∧ t.screens = b.screens ∧ t.tribs = b.tribs
        ∧ ∀ j, j < 8 → some (regRaw t (aMW_DATA j)) = (readEntry b (mwTable b) (mwIdx b))[j]?))
  ∧ (∀ s b, BarOpen s →
    let x := mwTable b
    let i := mwIdx b
    let d := mwData b
    let u := setRaw aMW_CMD 2 b
    let ends := fun t => Bars .mwWrite aMW_CMD 3 s b (mirrorBar aMW_CMD 3 t)
    (5 < x → ends (setMwErr 2 u))
    ∧ (x ≤ 5 → entryOk b x i = false → ends (setMwErr 1 u))
    ∧ (x ≤ 5 → entryOk b x i = true → wordBad (entryRules b x i d) ≠ 0 → ends (setMwErr 2 u))
    ∧ (x ≤ 5 → entryOk b x i = true → wordBad (entryRules b x i d) = 0 →
      (entryBusy b x i d = true → ends (setMwErr 3 u))
      ∧ (entryBusy b x i d = false → entryOver b x i d = true → ends (setMwErr 2 u))
      ∧ (entryBusy b x i d = false → entryOver b x i d = false → ends (setMwErr 0 (landEntry x i d u)))))

/-- CAPTURE latches the counter and the times at the stroke boundary at which it takes hold (R308); SEL_DOM asks for a domain, selected after the steps of
that boundary (R317, R325); SNAP_CTL.GO copies every counter and is mirrored (R354, R406); HWM_CLR restarts a high-water mark (Table 13.12). -/
def Obligations.TimeAndWatermarkRegisters : Prop :=
  (∀ s b, BarOpen s →
      let c := strokeAt b b.now
      ∃ t, Bars .capture (aliasOf aTIME_CTL 0) 1 s b t ∧ RegsOnly { b with time := { b.time with
        capCnt := c, capA := domTime b false c, capB := domTime b true c, capOut := outTime b c } } t)
  ∧ (∀ (d : Bool) s b, BarOpen s → (d = false ∨ twoDom b = true) →
      ∃ t, Bars (.selDom d) aTIME_CTL (withBits s aTIME_CTL 2 (if d then 2 else 0)) s b t ∧ t.time = { b.time with selNext := some d }
        ∧ tdom t false = tdom b false ∧ tdom t true = tdom b true ∧ (selJudge t).time.sel = d)
  ∧ (∀ s b, BarOpen s → Bars .snapCtlGo 0x80000 1 s b (mirrorBar 0x80000 1 (snapshotAll b)))
  ∧ (∀ (p : BitVec 8) (x z : Hopper) s b, BarOpen s → hopOf s p.toNat = some z → hopOf b p.toNat = some x → z.owner = x.owner →
      let a := aHCFG p.toNat
      ∃ t y, Bars (.hwmClr p) a (withBits s a 0x20000000 0x20000000) s b t ∧ hopOf t p.toNat = some y ∧ y.hwm = x.items.length
        ∧ y.items = x.items ∧ y.rd = x.rd ∧ y.owner = x.owner)
  ∧ (∀ (k : Nat) s b, BarOpen s → k < 24 → let a := aHCFG (0x30 + k)
      Bars (.hwmClr (BitVec.ofNat 8 (0x30 + k))) a (withBits s a 0x20000000 0x20000000) s b (setLane k { lane b k with hwm := (lane b k).hopper.length } b))
  ∧ (∀ s b, BarOpen s → let a := aHCFG 0x20
      Bars (.hwmClr 0x20) a (withBits s a 0x20000000 0x20000000) s b { b with pair := { b.pair with streamHwm := b.pair.sent.length } })
  ∧ (∀ (p : BitVec 8) s, hopListed p.toNat = false → exec (.hwmClr p) s = .next s)

/-- The host's rings (R354, R384): RUN starts and stops them, RESET returns both heads to 0 only while RUN is 0, and the tails take the values written, under
LK_BARWR too (Table 13.6). PAIR_CFG (R327): MODE is written from MODE 0 or while the pair is SOLO, MODE 2 with PAIR_MODE agreed; MODE 1 makes the unit
SOLO, and SAILS_ON unless it is fenced; MODE 3 is refused and changes nothing. Each takes hold at its stroke boundary; the ring registers are mirrored. -/
def Obligations.RingAndPairRegisters : Prop :=
  (∀ s b, Running s → s.power.rescue = false →
    (∀ on : Bool, Bars (.run on) aRING_CTL (if on then 1 else 0) s b
      (mirrorBar aRING_CTL (if on then 1 else 0) { b with cmd := { b.cmd with ringRun := on } }))
    ∧ (b.cmd.ringRun = s.cmd.ringRun → Bars .ringReset aRING_CTL (withBits s aRING_CTL 2 2) s b
        (mirrorBar aRING_CTL (withBits s aRING_CTL 2 2) (if s.cmd.ringRun then b else { b with cmd := { b.cmd with cmdHead := 0, rplHead := 0 } })))
    ∧ (∀ k : BitVec 10, Bars (.cmdTail k) aCMD_TAIL (k.setWidth 32) s b
        (mirrorBar aCMD_TAIL (k.setWidth 32) (setRaw aCMD_TAIL (k.setWidth 32) b)))
    ∧ (∀ k : BitVec 10, Bars (.rplTail k) aRPL_TAIL (k.setWidth 32) s b
        (mirrorBar aRPL_TAIL (k.setWidth 32) (setRaw aRPL_TAIL (k.setWidth 32) b))))
  ∧ (∀ (v : Word) s b, BarOpen s → regBit s aLOCKS 4 = false → regBit b aLOCKS 4 = false → v.toNat / 2 ^ 30 ≠ 3 →
      (pairMode b = 0 ∨ b.pair.st = .solo) → (v.toNat / 2 ^ 30 = 2 → featOn b 5 = true) →
      ∃ t, Bars (.mode v) aPAIR_CFG v s b t ∧ pairMode t = v.toNat / 2 ^ 30
        ∧ (v.toNat / 2 ^ 30 = 1 → pairMode b ≠ 1 → t.pair.st = .solo ∧ t.pair.tier = 0 ∧ (isFenced b = false → t.pair.sails = true)
            ∧ (pairMode b = 2 → t.pair.contact = false)))
  ∧ (∀ (v : Word) s b, BarOpen s → regBit s aLOCKS 4 = false → regBit b aLOCKS 4 = false → v.toNat / 2 ^ 30 = 3 →
      Bars (.mode v) aPAIR_CFG v s b (event 0x0800 5 0 (beBytes 4 (v.toNat / 2 ^ 26 * 2 ^ 26)) b))

/-- The timing registers at their stroke boundary (R285, R286, R296, R297, R299, R302): REALIGN makes a pulse output wait for its next anchor, its grid kept
while it is enabled and an edge already captured lost, or anchors it at once on an input edge of that mill cycle (log 98, the model's choice); WTR_CLR ends the waits to restore and writes no other field; MANUAL_REF names
a reference, and counts as written (log 98), taken at the next decision; CCFG takes the staged denominator where the ratio is admitted. A value out of
range changes nothing and is reported. -/
def Obligations.TimingRegistersComplete : Prop :=
  (∀ (o : Fin 6) s b, let a := aPCFG o.val
      BarOpen s →
      let w := regRaw s a &&& 0xFF000000
      let ends := Bars (.realign o) a (withBits s a 0x800000 0x800000) s b
      let u := settlePulse o.val (setRaw a w b)
      let x := pulseOf u o.val
      (timingOk a w = true → ends (edgeNow o.val (setPulse o.val
        { x with wantAnchor := true, stepHeld := false, grid := if (regRaw b a).getLsbD 31 then x.grid else none, slew := 0, due := none, realign := true }
        u)))
      ∧ (timingOk a w = false → ends (event 0x0603 0 0 (beBytes 4 a) b)))
  ∧ (∀ s b, BarOpen s →
      let w := regRaw b aSEL_CFG &&& 0xFF7803FF
      let ends := Bars .wtrClr (aliasOf aSEL_CFG 23) 1 s b
      (timingOk aSEL_CFG w = true →
        ends { setRaw aSEL_CFG w b with timing := { b.timing with wtrClr := true } })
      ∧ (timingOk aSEL_CFG w = false → ends (event 0x0603 0 0 (beBytes 4 aSEL_CFG) b)))
  ∧ (∀ (r : BitVec 5) s b, BarOpen s →
      let w := (regRaw s aSEL_CFG &&& 0x077803FF) ||| (r.setWidth 32 <<< 27)
      let v := withBits s aSEL_CFG 0xF8000000 (r.setWidth 32 <<< 27)
      (timingOk aSEL_CFG w = true → Bars (.manualRef r) aSEL_CFG v s b { setRaw aSEL_CFG w b with timing := { b.timing with
          wtrClr := b.timing.wtrClr || (readWord s aSEL_CFG).getLsbD 23, manNew := decide (r ≠ 31) } })
      ∧ (timingOk aSEL_CFG w = false → Bars (.manualRef r) aSEL_CFG v s b (event 0x0603 0 0 (beBytes 4 aSEL_CFG) b)))
  ∧ (∀ (k : Fin 4) (v : Word) s b, BarOpen s →
      let den := (regRaw b (aCDEN k.val)).toNat
      ((v.toNat / 2 ^ 29 % 4 ≠ 3 ∧ clkOk (v.toNat % 2 ^ 24) den = true) →
        Bars (.ccfg k v) (aCCFG k.val) v s b (setClk k.val { clkOf b k.val with den := den, synced := false, wantSync := v.getLsbD 31 && v.getLsbD 28 }
          (setRaw (aCCFG k.val) (v &&& 0xFCFFFFFF) b)))
      ∧ (¬(v.toNat / 2 ^ 29 % 4 ≠ 3 ∧ clkOk (v.toNat % 2 ^ 24) den = true) →
        Bars (.ccfg k v) (aCCFG k.val) v s b (event 0x0603 0 0 (beBytes 4 (aCCFG k.val)) b)))

/-- The uplink registers at their stroke boundary, mirrored (R254, R255, R270, R354, R429, R430). QUAD_CFG changes MODE unless a port of the quad is
enabled; half an 800GbE pair is reported, and the ports no longer formed leave service. PORT_CFG is that of a first lane alone: with the quad's domain on,
ENABLE puts the port in and out of service, one that leaves keeping its protection settings only; with it off an ENABLE is refused. TWIN_EN is taken where
R270 admits the twin, and otherwise stays 0. What is refused is reported UL_CFG_REFUSED. -/
def Obligations.UplinkRegistersComplete : Prop :=
  (∀ (g : Fin 8) (m : BitVec 2) s b, BarOpen s →
      let a := aQUAD g.val
      let ends := fun t => Bars (.quadCfg g m) a (m.setWidth 32) s b (mirrorBar a (m.setWidth 32) t)
      (quadMode b g.val = m.toNat → ends b)
      ∧ (quadMode b g.val ≠ m.toNat → quadBusy b g.val = true → ends (ulRefused (4 * g.val) a b))
      ∧ (quadMode b g.val ≠ m.toNat → quadBusy b g.val = false →
        let x := setRaw a (m.setWidth 32) b
        let t := twinJudge (portsFollow ((List.range 32).filter (portOn b)) (if pairSplit x g.val then ulRefused (4 * g.val) a x else x))
        ends t ∧ quadMode t g.val = m.toNat ∧ ∀ e : Fin 8, e ≠ g → quadMode t e.val = quadMode b e.val))
  ∧ (∀ (l : Fin 32) (on : Bool) s b, BarOpen s →
      let a := aPORT l.val
      let v := withBits s a 0x80000000 (if on then 0x80000000 else 0)
      Bars (.portEnable l on) a v s b (mirrorBar a v (portCfgWrite l.val (v &&& 0xFFE03FFF) b)) ∧ v.getLsbD 31 = on)
  ∧ (∀ (l : Fin 32) (on : Bool) (q : BitVec 5) s b, BarOpen s →
      let a := aPORT l.val
      let v := withBits s a 0x07E00000 ((if on then 0x04000000 else 0) ||| (q.setWidth 32 <<< 21))
      Bars (.twinEn l on q) a v s b (mirrorBar a v (portCfgWrite l.val (v &&& 0xFFE03FFF) b))
      ∧ v.getLsbD 26 = on ∧ fld v.toNat 25 21 = q.toNat)
  ∧ (∀ (l : Fin 32) (v : Word) b, let a := aPORT l.val
      let t := portCfgWrite l.val v b
      (firstLane b l.val = false → t = b)
      ∧ (firstLane b l.val = true → portPowered b l.val = false → t = if v.getLsbD 31 then ulRefused l.val a b else b)
      ∧ (firstLane b l.val = true → portPowered b l.val = true →
        portOn t l.val = v.getLsbD 31
        ∧ (v.getLsbD 26 = true → twinOk b l.val (fld v.toNat 25 21) = false → regRaw t a = v &&& 0xFBE03FFF
          ∧ t = ulRefused l.val a (portCfgWrite l.val (v &&& 0xFBFFFFFF) b))
        ∧ ((v.getLsbD 26 = false ∨ twinOk b l.val (fld v.toNat 25 21) = true) → regRaw t a = v &&& 0xFFE03FFF)
        ∧ (portOn b l.val = true → v.getLsbD 31 = false → uport t l.val = portFresh (uport b l.val) ∧ ∀ c ∈ classCodes 4, declared t 4 l.val c = false)
        ∧ (portOn b l.val = false → v.getLsbD 31 = true → uport t l.val = { portFresh (uport b l.val) with clearAt := b.now })
        ∧ (portOn b l.val = v.getLsbD 31 → t.ports = b.ports)
        ∧ ∀ p : Fin 32, p ≠ l → uport t p.val = uport b p.val))

/-- GPIO_CFG (R463): a GPIO takes the function, direction, output and polarity written unless another holds one of functions 2 to 5 it names; then nothing is
written and GPIO_CONFLICT is reported. No write of a register, where it takes hold, leaves two GPIOs with one such function.
The HOLDER_KIND and HOLDER_INDEX of the reply are not part of this statement. -/
def Obligations.GpioFunctionsStayDistinct : Prop :=
  (∀ (k : Fin 16) (v : Word) s b, BarOpen s → oneHolder b →
      (∀ j, j < 16 → j ≠ k.val → 2 ≤ v.toNat / 2 ^ 28 → v.toNat / 2 ^ 28 ≤ 5 → regFld b (aGPIO j) 31 28 ≠ v.toNat / 2 ^ 28) →
      ∃ t, Bars (.gpioCfg k v) (aGPIO k.val) v s b t ∧ regRaw t (aGPIO k.val) = v &&& 0xFF000000)
  ∧ (∀ (k : Fin 16) (v : Word) j s b, BarOpen s → oneHolder b → j < 16 → j ≠ k.val → 2 ≤ v.toNat / 2 ^ 28 → v.toNat / 2 ^ 28 ≤ 5 →
      regFld b (aGPIO j) 31 28 = v.toNat / 2 ^ 28 →
      ∃ t, Bars (.gpioCfg k v) (aGPIO k.val) v s b t ∧ Reports b t ∧ ∀ i, i < 16 → regRaw t (aGPIO i) = regRaw b (aGPIO i))
  ∧ (∀ (k : Fin 16) (v : Word) s t, oneHolder s → exec (.gpioCfg k v) s = .next t → oneHolder t)
  ∧ (∀ (a : Word) (w : Nat) (v : BitVec 64) s t, oneHolder s → exec (.registerWrite a w v) s = .next t → oneHolder t)
  ∧ (∀ h a w c d s t, oneHolder s → exec (.regWr h a w c d) s = .next t → oneHolder t)
  ∧ (∀ h a m v s t, oneHolder s → exec (.regRmw h a m v) s = .next t → oneHolder t)
  ∧ (∀ (a w : Nat) (v : BitVec 64) (no : Word) b, oneHolder b → oneHolder (landBar a w v no b))
  ∧ (∀ k h a w c d timed b, k.cmd = some (.regWr h a w c d) → oneHolder b → oneHolder (landCmd timed k b))
  ∧ (∀ k h a m v timed b, k.cmd = some (.regRmw h a m v) → oneHolder b → oneHolder (landCmd timed k b))

/-! ### Transports and the interpreter's own steps -/

/-- The board and host transports (R382 to R384, Table 12.8): a WRITE that holds a whole packet is received, bytes after it ignored, one cut short is
dropped and reported; a READ clocked to its end takes the oldest reply and
returns its credit, and one cut short takes nothing; STATUS clears ABORTED and NOT_TAKEN; a descriptor fetched moves CMD_HEAD on, one that cannot be fetched
being refused; a reply is written into the descriptor posted, one longer cut to 16 bytes, and signals
vector 0. RLEN of a cut reply is the length written (the model's choice, log 137). -/
def Obligations.TransportsComplete : Prop :=
  (∀ l s, notReady .board s = false → 20 + pktPlen l ≤ l.length →
      exec (.writeTransaction l) s = .next (receive .board (l.take (20 + pktPlen l)) { s with cmd := { s.cmd with spiOut := beBytes 1 (spiStatus s) } }))
  ∧ (∀ l s, notReady .board s = false → l.length < 20 + pktPlen l →
      exec (.writeTransaction l) s = .next (event 0x0009 0x0B 0 (beBytes 2 l.length)
        { s with cmd := { s.cmd with spiOut := beBytes 1 (spiStatus s), spiAborted := true } }))
  ∧ (∀ n s, notReady .board s = false → s.cmd.board.replies = [] →
      exec (.readTransaction n) s = .next { s with cmd := { s.cmd with spiOut := beBytes 1 (spiStatus s) ++ [0, 0] } })
  ∧ (∀ n r l s, notReady .board s = false → s.cmd.board.replies = r :: l → 4 + (replyBytes s r).length ≤ n →
      exec (.readTransaction n) s = .next { s with cmd := { s.cmd with
        spiOut := (beBytes 1 (spiStatus s) ++ beBytes 2 (replyBytes s r).length ++ replyBytes s r).take (n - 1),
        board := { s.cmd.board with replies := l, used := if r.credit then s.cmd.board.used - 1 else s.cmd.board.used } } })
  ∧ (∀ n r l s, notReady .board s = false → s.cmd.board.replies = r :: l → n < 4 + (replyBytes s r).length →
      exec (.readTransaction n) s = .next { s with cmd := { s.cmd with
        spiOut := (beBytes 1 (spiStatus s) ++ beBytes 2 (replyBytes s r).length ++ replyBytes s r).take (n - 1) } })
  ∧ (∀ s, notReady .board s = false →
      exec .statusTransaction s = .next { s with cmd := { s.cmd with spiOut := beBytes 1 (spiStatus s), spiAborted := false, spiNotTaken := false } })
  ∧ (∀ ok n l s, fetchReady s = true →
      let u := { s with cmd := { s.cmd with cmdHead := (s.cmd.cmdHead + 1) % 2 ^ regFld s aCMD_SIZE 3 0 } }
      ((ok = true → 20 ≤ n.toNat → n.toNat ≤ 4116 → exec (.commandFetch ok n l) s = .next (receive .host (l.take n.toNat) u))
      ∧ ((ok = false ∨ n.toNat < 20 ∨ 4116 < n.toNat) →
          exec (.commandFetch ok n l) s = .next (refuseIntake .host 0 0 4 [0xFF, 0xFF, 0, 0] u))))
  ∧ (∀ ok n l s, fetchReady s = false → exec (.commandFetch ok n l) s = .next s)
  ∧ (∀ (c : BitVec 16) r l s, s.cmd.ringRun = true → notReady .host s = false → s.cmd.rplHead % 1024 ≠ regFld s aRPL_TAIL 9 0 →
      s.cmd.host.replies = r :: l →
      let b := replyBytes s r
      let out := if c.toNat < b.length then b.take 16 else b
      exec (.replyWrite c) s = .next { s with cmd := { s.cmd with
        host := { s.cmd.host with replies := l, used := if r.credit then s.cmd.host.used - 1 else s.cmd.host.used },
        hostWrote := some (out, out.length, decide (c.toNat < b.length)),
        rplHead := (s.cmd.rplHead + 1) % 2 ^ regFld s aRPL_SIZE 3 0, msix := s.cmd.msix ++ [0] } })

/-- The interpreter starts the oldest packet that may start, while fewer than 16 commands execute (R366); the timed command with the least execution time
is handed over at the first stroke boundary at or after it, and there CMD_DONE gives the status it comes to (R22, R367, R368); an impression boundary at
that stroke comes first (Table 1.5).
Checking parameters anew when a timed command executes is the model's choice (log 16). -/
def Obligations.InterpreterStepsComplete : Prop :=
  (∀ k s, Running s → executing s < 16 → oldestStartable s = some k →
      exec .commandStart s = .next (start k (opOfPkt k.cmd)
        (setPortSt k.hdr.port { portSt s k.hdr.port with queue := (portSt s k.hdr.port).queue.filter (fun x => x.ord ≠ k.ord) } s)))
  ∧ (∀ s, Running s → (16 ≤ executing s ∨ oldestStartable s = none) → exec .commandStart s = .next s)
  ∧ (∀ x s, Running s → nextTimed s = some x →
      let b := max s.strokeNext (strokeAt s (max s.now x.at_))
      (b < nextBoundary s → exec .timedExecution s = .next (postCmd true x.pkt { advance b s with
          cmd := { s.cmd with timed := s.cmd.timed.filter (fun y => y.pkt.ord ≠ x.pkt.ord) } }))
      ∧ (nextBoundary s ≤ b → exec .timedExecution s = .next s))
  ∧ (∀ s, Running s → s.cmd.timed = [] → exec .timedExecution s = .next s)
  ∧ (∀ k h b, k.cmd = some (.snapshot h) →
      landCmd true k b = event 0x0002 0x0B (portNo k.hdr.port) (beBytes 4 k.dseq.toNat ++ [0]) (markEff k.dseq (snapshotAll b)))
  ∧ (∀ k h t l b, k.cmd = some (.termActivate h t l) → treeOk b t.toNat = true → l.toNat ≤ 127 → (term b (slotIx t l)).st ≠ .ranged →
      landCmd true k b = event 0x0002 0x0B (portNo k.hdr.port) (beBytes 4 k.dseq.toNat ++ [0x0A]) b)

/-! ### Start-up, firmware, save and restart -/

/-- PORST_N (R444): everything is reset but what MRAM and the fuses hold; the counter returns to 0 and the unit no longer runs; the SAILS_ON unit of a
pair sends its RELEASE first, and a standby its LEAVE (R217, R339); a save in progress is torn (R438, R450).
Which tables MRAM keeps besides those named is the model's reading (log 33). -/
def Obligations.PorstResets : Prop :=
  ∀ s, ∃ t, exec .porstNAssert s = .next t ∧ t.power.phase = .porst ∧ t.now = 0 ∧ t.pending = s.pending ∧ t.fuse = s.fuse ∧ t.trees = [] ∧ t.terms = []
    ∧ t.keys = [] ∧ t.tribs = [] ∧ t.screens = [] ∧ t.ports = [] ∧ t.cnt = [] ∧ t.hold = [] ∧ t.plates.bank0 = {} ∧ t.plates.bank1 = {}
    ∧ t.plates.mram = s.plates.mram ∧ t.mill = {} ∧ t.cmd = {} ∧ t.defects = {} ∧ t.time = {}
    ∧ t.power.save = s.power.save ∧ t.power.consumed = s.power.consumed ∧ t.power.fwA = s.power.fwA ∧ t.power.fwB = s.power.fwB ∧ t.power.kwk = s.power.kwk
    ∧ t.timing.record = s.timing.record ∧ t.timing.recordLater = s.timing.recordLater ∧ t.timing.history = s.timing.history
    ∧ (s.power.pendingSave.isSome = true → t.power.lastTorn = true ∧ t.power.owed = s.power.owed ++ [0x110])
    ∧ (s.power.pendingSave = none → t.power.lastTorn = s.power.lastTorn ∧ t.power.owed = s.power.owed)
    ∧ (Running s → s.pair.sails = true → s.pair.st ≠ .solo → t.pair.leaseTx = some (.release, s.pair.epoch))
    ∧ (Running s → isStandby s = true → t.pair.leaseTx = some (.leave, s.pair.epoch))
    ∧ t.pair.sails = false ∧ regRaw t aSAG_CFG = regRaw s aSAG_CFG ∧ ∀ a, a ≠ aSAG_CFG → regRaw t a = regRst a

/-- The boot ROM (R443, R445, R448, R449, Table 14.6): of the slots in the order PENDING, ACTIVE, VALID it runs the first whose signature is good, a PENDING
one on trial, and marks those it tried before it FAILED; with no slot left the unit is in rescue mode. It runs when PORST_N has risen and when RESET KIND 1
has run, and has no effect otherwise. The trial's self-check makes the slot ACTIVE and the former ACTIVE one VALID, or the slot FAILED, and then the other
slot, tried as before, runs with FW_TRIAL_FAILED as its first event. As PORST_N rises the PMU commands the fused start voltage where VOUT_MODE is
ULINEAR16 (R431, log 154), and a boundary-scan instruction that holds the balls fences the unit (R465). The firmware that runs restores a good save after
PORST_N where POR_RESTORE asks for it, and else starts cold, with SAVE_BAD where the save is not good (R442); saves owed a count take it, and events of the
PMU from before are pushed, as the firmware starts (the model's choice, log 135). A verified slot is PENDING or FAILED and reported (R447).
The signature results, and what of the save fails, come with the row (log 67). -/
def Obligations.BootRomStarts : Prop :=
  let order := fun (s : State) => [FwSt.pending, .active, .valid].flatMap (fun k => [false, true].filter (fun b => decide ((fwSlot s b).st = k)))
  let booted := fun (sig : Bool → Bool) (s : State) =>
    let u := ((order s).takeWhile (fun b => !sig b)).foldl (fun u b => setFw b { fwSlot u b with st := .failed } u) s
    match (order s).find? sig with
    | none => rescueMode u
    | some b =>
      if (fwSlot s b).st = .pending then { u with power := { u.power with phase := .booting, fwTrial := true, fwRun := b, bootSig := sig !b } }
      else bootDone (setFw b { fwSlot u b with st := .active } { u with power := { u.power with fwRun := b } })
  let ran := fun (s : State) => s.power.owed.foldl (fun s o => bump (cPmu o) 1 s)
    { s with power := { s.power with phase := .running, trialFailed := [], owed := [] } }
  (∀ sa o s, s.power.phase = .porst →
      let u := { s with power := { s.power with phase := .booting, boot := .por, voutMode := o.voutMode, bad := o.bad },
                        pair := { s.pair with fencedScan := ballTaking s.power.jtag } }
      exec (.startUp sa o) s = .next (booted (sigOf sa o.sigB) (if ulinear16 o.voutMode then voutWrite s.fuse.startMv u else u)))
  ∧ (∀ sa o s, s.power.phase = .booting → s.power.fwTrial = false →
      exec (.startUp sa o) s = .next (booted (sigOf sa o.sigB) { s with power := { s.power with bad := o.bad } }))
  ∧ (∀ sa o s, s.power.phase ≠ .porst → (s.power.phase = .booting → s.power.fwTrial = true) → exec (.startUp sa o) s = .next s)
  ∧ (∀ b s, s.power.phase = .booting → s.power.fwTrial = true → s.power.fwRun = b →
      let u := { s with power := { s.power with fwTrial := false } }
      exec (.fwTrial true) s = .next (bootDone (setFw b { fwSlot s b with st := .active }
        (if (fwSlot s !b).st = .active then setFw (!b) { fwSlot s !b with st := .valid } u else u)))
      ∧ exec (.fwTrial false) s = .next (booted (fun x => x ≠ b && s.power.bootSig) (setFw b { fwSlot s b with st := .failed }
          { u with power := { u.power with trialFailed := s.power.trialFailed ++ [b] } })))
  ∧ (∀ p s, (s.power.phase ≠ .booting ∨ s.power.fwTrial = false) → exec (.fwTrial p) s = .next s)
  ∧ (∀ s, (bootDone s).power.phase = .running ∧ (bootDone s).power.trialFailed = [] ∧ (rescueMode s).power.rescue = true
      ∧ (rescueMode s).power.phase = .running)
  ∧ (∀ b s, s.power.boot = .por → (s.power.save = none ∨ s.power.consumed = true ∨ regBit s aSAG_CFG 7 = false) →
      (s.power.trialFailed = [] → bootDone s = lateEvents (ran s))
      ∧ (s.power.trialFailed = [b] → bootDone s = lateEvents (event 0x090B 0 0 [if b then 1 else 0] (ran s))))
  ∧ (∀ v k s, s.power.boot = .por → s.power.save = some v → s.power.consumed = false → regBit s aSAG_CFG 7 = true → s.power.trialFailed = [] →
      (if v.format = 1 then s.power.bad else some 0) = some k →
      bootDone s = event 0x0903 0 0 (beBytes 1 k) (lateEvents (ran { s with power := s.power.consume })))
  ∧ (∀ v s, s.power.boot = .por → s.power.save = some v → s.power.consumed = false → regBit s aSAG_CFG 7 = true → v.format = 1 → s.power.bad = none →
      let t := bootDone s
      t.power.restored = true ∧ t.cmd.featD = v.featD ∧ t.cmd.devLast = v.devLast ∧ t.pair.epoch = v.epoch ∧ t.hold = v.counters
        ∧ t.power.restartCause = s.power.restartCause)
  ∧ (∀ s, s.power.boot = .cold → s.power.trialFailed = [] →
      bootDone s = lateEvents (ran { s with power := { s.power with restartCause := 4 } }))
  ∧ (∀ b good s, Running s → s.power.fwVerify = some b →
      exec (.fwCommitted b good) s = .next (event (if good then 0x0909 else 0x090A) 0 0 [if b then 1 else 0]
        (setFw b { fwSlot s b with st := if good then .pending else .failed } { s with power := { s.power with fwVerify := none } })))
  ∧ (∀ b good s, (¬Running s ∨ s.power.fwVerify ≠ some b) → exec (.fwCommitted b good) s = .next s)

/-- A sag at D (R435, R436, R304): intake closes, what was accepted is dropped, the unit feathers, every datapath domain goes off and the counter goes on;
a save starts where SAG_SAVE is agreed and the unit has no save that it restarted from left to consume (R442). A sag during a save changes nothing (R440) but
the cause of one that an alert began in its mill cycle (Table 14.8); one in a start ends the start, and nothing is saved. Loss of the root PLL does the same
as a sag and counts a break; during a save it only counts.
That all datapath domains go off at D itself is the model's choice (log 27). -/
def Obligations.SagStopsTheUnit : Prop :=
  (∀ (v : BitVec 16) s, Running s →
      ∃ t, exec (.sagDetection v) s = .next t ∧ t.now = s.now ∧ t.pair.sails = false ∧ t.cmd.timed = [] ∧ t.cmd.waiting = [] ∧ allQueued t = []
        ∧ t.cmd.board.used = 0 ∧ t.cmd.host.used = 0 ∧ t.cmd.inband.used = 0 ∧ t.cmd.pair.used = 0 ∧ t.power.doms = [] ∧ t.power.sagAt = s.now
        ∧ t.power.cause = 0 ∧ t.power.vholdD = v.toNat
        ∧ t.power.onAtD = (List.range 78).filter (fun d => pwrOn s d) ∧ t.terms = s.terms ∧ t.keys = s.keys
        ∧ (s.cmd.featFixed = true → featOn s 8 = true → (s.power.restored = false ∨ s.power.consumed = true) →
            t.power.phase = .saving ∧ t.power.pendingSave.isSome = true)
        ∧ ((s.cmd.featFixed = false ∨ featOn s 8 = false ∨ (s.power.restored = true ∧ s.power.consumed = false)) →
            t.power.phase = .saved ∧ t.power.pendingSave = none))
  ∧ (∀ (v : BitVec 16) s, s.power.phase = .porst → exec (.sagDetection v) s = .next s)
  ∧ (∀ (v : BitVec 16) s, (s.power.phase = .saving ∨ s.power.phase = .saved) →
      ((s.power.cause ≠ 1 ∨ s.power.sagAt ≠ s.now) → exec (.sagDetection v) s = .next s)
      ∧ (s.power.cause = 1 → s.power.sagAt = s.now → ∃ t, exec (.sagDetection v) s = .next t ∧ t.power.cause = 0 ∧ t.power.phase = s.power.phase
          ∧ t.power.pendingSave = s.power.pendingSave.map (fun x => { x with cause := 0 }) ∧ t.now = s.now ∧ t.cnt = s.cnt ∧ t.pair = s.pair))
  ∧ (∀ (v : BitVec 16) s, s.power.phase = .booting → ∃ t, exec (.sagDetection v) s = .next t ∧ t.power.phase = .saved ∧ t.power.cause = 0
      ∧ t.power.sagAt = s.now ∧ t.power.doms = [] ∧ t.power.save = s.power.save ∧ t.power.consumed = s.power.consumed ∧ t.power.owed = s.power.owed ++ [0x100]
      ∧ t.now = s.now)
  ∧ (∀ s, Running s → ∃ t, exec .rootPllLoss s = .next t ∧ t.time.breaks = min 255 (s.time.breaks + 1) ∧ t.time.lost = true ∧ t.now = s.now
      ∧ t.power.cause = 2 ∧ t.pair.sails = false ∧ t.power.doms = [] ∧ t.cmd.timed = [] ∧ allQueued t = [] ∧ t.terms = s.terms)
  ∧ (∀ s, s.power.phase = .porst → exec .rootPllLoss s = .next s)
  ∧ (∀ s, (s.power.phase = .saving ∨ s.power.phase = .saved) → exec .rootPllLoss s = .next
      { s with free := s.free + 1, time := { s.time with breaks := min 255 (s.time.breaks + 1), lost := true } })
  ∧ (∀ s, s.power.phase = .booting → ∃ t, exec .rootPllLoss s = .next t ∧ t.time.breaks = min 255 (s.time.breaks + 1) ∧ t.time.lost = true
      ∧ t.power.phase = .saved ∧ t.power.cause = 2 ∧ t.power.sagAt = s.now ∧ t.power.save = s.power.save)

/-- The save ends (R438): written whole it becomes the save that both copies of the pointer name, not consumed; torn, the pointer keeps the earlier one.
SAVES or SAVES_TORN
is owed a count, which it takes when firmware next runs (the model's choice, log 135). With no save in progress nothing ends. -/
def Obligations.SaveEnds : Prop :=
  (∀ v n (x : BitVec 16) s, s.power.phase = .saving → s.power.pendingSave = some v →
      ∃ t, exec (.saveDone false n x) s = .next t ∧ t.power.phase = .saved ∧ t.power.pendingSave = none ∧ t.power.consumed = false
        ∧ t.power.area = !s.power.area ∧ t.power.saveNum = v.num ∧ t.power.lastTorn = false ∧ t.power.vholdEnd = x.toNat
        ∧ t.power.owed = s.power.owed ++ [0x108] ∧ t.power.saveTime = min n 0xFFFFF ∧ t.now = max s.now (s.power.sagAt + n) ∧ t.terms = s.terms ∧ ∃ hs, t.power.save = some { v with hoppers := hs })
  ∧ (∀ v n (x : BitVec 16) s, s.power.phase = .saving → s.power.pendingSave = some v →
      ∃ t, exec (.saveDone true n x) s = .next t ∧ t.power.phase = .saved ∧ t.power.pendingSave = none ∧ t.power.lastTorn = true
        ∧ t.now = max s.now (s.power.sagAt + n) ∧ t.power.owed = s.power.owed ++ [0x110]
        ∧ t.power.save = s.power.save ∧ t.power.consumed = s.power.consumed ∧ t.power.area = s.power.area)
  ∧ (∀ torn n (x : BitVec 16) s, (s.power.phase ≠ .saving ∨ s.power.pendingSave = none) → exec (.saveDone torn n x) s = .next s)

/-- WARM_RESTART (R440, R442, R443, Table 14.5) of a unit that had run, with good firmware: every domain but the always-on domain is reset, the counter, the
fences and the locks stay, and after a sag the unit runs again no earlier than 10 ms after D. With no save to restore, or one that fails its CRC or is of
another format (R448), the start is cold but for what the always-on domain keeps; a good save gives back D, the numbers, the counters and the epoch. -/
def Obligations.WarmRestartResets : Prop :=
  (∀ bad sb s, s.power.phase = .saved → s.power.boot ≠ .por → s.power.fwA.st = .active → s.power.fwB.st ≠ .pending →
    ∃ t, exec (.warmRestart bad true sb) s = .next t ∧ t.power.phase = .running ∧ t.power.fwRun = false
      ∧ t.now = (if s.power.cause ≤ 1 then max s.now (s.power.sagAt + 12441600) else s.now)
      ∧ t.pair.fencedCmd = s.pair.fencedCmd ∧ t.pair.fencedLease = s.pair.fencedLease ∧ t.pair.fencedPin = s.pair.fencedPin
      ∧ t.pair.fencedScan = s.pair.fencedScan ∧ t.mill.landing = [] ∧ allQueued t = []
      ∧ ((∀ e ∈ s.power.config.regs, regConfig e.1 = true) → regRaw t aLOCKS = regRaw s aLOCKS)
      ∧ ((s.power.save = none ∨ s.power.consumed = true ∨ s.power.useSave = false ∨ bad ≠ none ∨ s.power.save.any (fun v => v.format ≠ 1) = true) →
        t.cmd.featD = s.cmd.featD ∧ t.cmd.devLast = s.cmd.devLast ∧ t.cmd.locLast = s.cmd.locLast ∧ t.trees = [] ∧ t.terms = [] ∧ t.mill = {}
        ∧ t.pair.epoch = s.pair.epoch ∧ t.timing = s.timing ∧ t.power.restartCause = (if s.power.cause ≤ 1 then 1 else s.power.cause)
        ∧ t.power.restored = false ∧ ((bad ≠ none ∨ s.power.save.any (fun v => v.format ≠ 1) = true) → s.power.useSave = true → s.power.save ≠ none →
          t.power.consumed = true))
      ∧ (∀ v, s.power.save = some v → s.power.consumed = false → s.power.useSave = true → v.format = 1 → bad = none →
        t.power.restored = true ∧ t.cmd.featD = v.featD ∧ t.cmd.devLast = v.devLast ∧ t.cmd.locLast = v.locLast ∧ t.cmd.devEff = v.devEff
        ∧ t.hold = v.counters ∧ t.cntWrap = true ∧ t.pair.epoch = v.epoch ∧ t.power.restartCause = (if v.cause ≤ 1 then 1 else v.cause)
        ∧ t.power.warmCount = min 0xFFFF (s.power.warmCount + 1)))
  ∧ (∀ bad sa sb s, s.power.phase ≠ .saved → exec (.warmRestart bad sa sb) s = .next s)

/-! ### Supplies, pins, boundary scan, I2C -/

/-- Supplies (R428, R431, R432, R435): a ramping domain comes on; adaptive voltage moves by 10 mV up or 5 mV down within 700 to 800 mV, returns to
800 mV where AVS_EN is clear and holds on a failed transaction until a retry succeeds, each VOUT_COMMAND in the ULINEAR16 units of VOUT_MODE, and none where VOUT_MODE is of another format
(the model's choice, log 154); a poll keeps
its readings and reports the third in turn that lies more than 15 mV off; an alert that reports an undervoltage is a sag, one whose STATUS_WORD cannot be
read holds AVS. The oldest I2C
transfer waiting on a bus replies with its data, BUSY, or BAD_PARAM with CAUSE 1, and waits no longer (R390).
Which bits of STATUS_WORD report an undervoltage is an uninterpreted function; the monitors' judgement comes with the row (log 28); the bytes of the PMBus
messages (pmbOut) are not part of this statement (log 154). -/
def Obligations.SupplyEventsComplete : Prop :=
  let held := fun (m : List (List Byte)) (s : State) =>
    event 0x0905 0 0 [] (bump (cPmu 0x118) 1 { s with power := { s.power with avs := 2, pmbOut := m } })
  (∀ (d : Fin 80) s, Running s → pwrOf s d.val = .ramping →
      ∃ t, exec (.pwrDone d) s = .next t ∧ pwrOf t d.val = .on ∧ t.now = s.now ∧ t.mill = s.mill ∧ t.terms = s.terms)
  ∧ (∀ (d : Fin 80) s, Running s → pwrOf s d.val ≠ .ramping → exec (.pwrDone d) s = .next s)
  ∧ (∀ mv s, Running s → let t := voutWrite mv s
      t = { bump (cPmu 0x128) 1 s with power := { s.power with vddCmd := mv, voutCmd := some (voutWord s.power.voutMode mv), pmbOut := t.power.pmbOut } })
  ∧ (∀ below twice s, Running s → regBit s aAVS_CFG 31 = true → s.power.avs ≠ 2 →
      let p := s.power
      let v := if below then min 800 (p.vddCmd + 10) else if twice then max 700 (p.vddCmd - 5) else p.vddCmd
      (v ≠ p.vddCmd → ulinear16 p.voutMode = true → let t := voutWrite v s
        exec (.avsAdjust below twice true) s = .next { t with power := { t.power with avs := 1 } })
      ∧ (v = p.vddCmd → ∀ ack, exec (.avsAdjust below twice ack) s = .next { s with power := { p with avs := 1 } })
      ∧ (v ≠ p.vddCmd → ulinear16 p.voutMode = true → ∃ m, exec (.avsAdjust below twice false) s = .next (held m s)))
  ∧ (∀ below twice s, Running s → regBit s aAVS_CFG 31 = false → s.power.avs ≠ 2 →
      (s.power.avs ≠ 3 → ulinear16 s.power.voutMode = true → let t := voutWrite 800 s
        exec (.avsAdjust below twice true) s = .next { t with power := { t.power with avs := 3 } })
      ∧ (s.power.avs ≠ 3 → ulinear16 s.power.voutMode = true → ∃ m, exec (.avsAdjust below twice false) s = .next (held m s))
      ∧ (s.power.avs = 3 → ∀ ack, exec (.avsAdjust below twice ack) s = .next s))
  ∧ (∀ below twice ack s, Running s → s.power.avs = 2 → exec (.avsAdjust below twice ack) s = .next s)
  ∧ (∀ (v i : BitVec 16) s, Running s →
      let off := decide (15 < ((v.toNat : Int) - s.power.vddCmd).natAbs)
      let n := if off then s.power.vddBad + 1 else 0
      ∃ m, let t := { s with power := { s.power with vout := v.toNat, iout := i.toNat, vddBad := n, pmbOut := m } }
        exec (.pmbusPoll true v i) s = .next (if n = 3 then event 0x0906 0 0 (beBytes 2 s.power.vddCmd ++ beBytes 2 v.toNat) t else t))
  ∧ (∀ (v i : BitVec 16) s, Running s → ∃ m, exec (.pmbusPoll false v i) s = .next (held m s))
  ∧ (∀ s, Running s → s.power.avs = 2 → ulinear16 s.power.voutMode = true → let t := voutWrite s.power.vddCmd s
      exec (.avsRetry true) s = .next { t with power := { t.power with avs := 1 } } ∧ ∃ m, exec (.avsRetry false) s = .next (held m s))
  ∧ (∀ ack s, Running s → (s.power.avs ≠ 2 ∨ ulinear16 s.power.voutMode = false) → exec (.avsRetry ack) s = .next s)
  ∧ (∀ below twice ack s, Running s → s.power.avs ≠ 2 → ulinear16 s.power.voutMode = false →
      let p := s.power
      let v := if below then min 800 (p.vddCmd + 10) else if twice then max 700 (p.vddCmd - 5) else p.vddCmd
      (regBit s aAVS_CFG 31 = false ∨ v ≠ p.vddCmd) → exec (.avsAdjust below twice ack) s = .next s)
  ∧ (∀ s, Running s → ∃ m, exec (.pmbAlert none) s = .next (held m (bump (cPmu 0x120) 1 s)))
  ∧ (∀ w s, Running s → ∃ t, exec (.pmbAlert (some w)) s = .next t
      ∧ (Config.statusUvOff w = false → ∃ m, t = event 0x0907 0 0 (beBytes 2 w.toNat)
          (bump (cPmu 0x120) 1 { s with power := { s.power with pmbOut := m } }))
      ∧ (Config.statusUvOff w = true → t.power.phase ≠ .running ∧ t.power.cause = 1 ∧ t.pair.sails = false ∧ t.power.doms = [] ∧ t.cmd.timed = []))
  ∧ (∀ (b : Fin 8) (busy : Bool) (d : List Byte) w n s, Running s → s.cmd.waiting.find? (fun w => (i2cWaits b.val w).isSome) = some w → i2cWaits b.val w = some n →
        let u := { s with cmd := { s.cmd with waiting := s.cmd.waiting.filter (fun x => x.pkt.dseq ≠ w.pkt.dseq) } }
        exec (.i2cDone b true busy d) s = .next (finish w.pkt true 0 (pad4 (bytesAt d 0 n)) (markEff w.pkt.dseq u))
        ∧ exec (.i2cDone b false true d) s = .next (finish w.pkt true 0x0A [] u)
        ∧ exec (.i2cDone b false false d) s = .next (finish w.pkt true 4 (beBytes 2 17 ++ [0, 0] ++ beBytes 4 1) u))
  ∧ (∀ (b : Fin 8) ok busy d s, Running s → s.cmd.waiting.find? (fun w => (i2cWaits b.val w).isSome) = none → exec (.i2cDone b ok busy d) s = .next s)

/-- Pins (R462, R465): FENCE_IN_N on the ball of function 4 fences the unit, outside a run without more, and lifts only that fence; while PORST_N is low it
is only sampled; a boundary-scan instruction that takes the balls fences the unit until PORST_N, a running one releasing its lease or leaving, and BYPASS
leaves that fence. What a tester has shifted into the boundary cells is a free value. -/
def Obligations.PinEventsComplete : Prop :=
  (∀ k s, Running s → gpioHolder s 4 = some k → s.pair.fencedPin = false →
      ∃ t, exec .fenceInAssert s = .next t ∧ t.pair.fencedPin = true ∧ t.power.fenceIn = true ∧ t.pair.sails = false
        ∧ t.pair.fenceEpoch = some s.pair.epoch ∧ isFenced t = true)
  ∧ (∀ k s, gpioHolder s 4 = some k →
      let u := setSample k false { s with power := { s.power with fenceIn := true } }
      ((s.pair.fencedPin = true ∨ s.power.phase = .porst) → exec .fenceInAssert s = .next u)
      ∧ (s.pair.fencedPin = false → s.power.phase ≠ .porst → s.power.phase ≠ .running →
          exec .fenceInAssert s = .next { u with pair := { u.pair with fencedPin := true } }))
  ∧ (∀ s, gpioHolder s 4 = none → exec .fenceInAssert s = .next s ∧ exec .fenceInDeassert s = .next s)
  ∧ (∀ k s, gpioHolder s 4 = some k →
      let u := setSample k true { s with power := { s.power with fenceIn := false } }
      exec .fenceInDeassert s = .next (if s.pair.fencedPin then fenceLifted { u with pair := { u.pair with fencedPin := false } } else u))
  ∧ (∀ j s, (ballTaking j = false ∨ s.power.phase = .porst ∨ s.pair.fencedScan = true) →
      ∃ c, exec (.instructionLoad j) s = .next { s with free := s.free + 1, power := { s.power with jtag := j, cells := c } })
  ∧ (∀ j s, Running s → ballTaking j = true → s.pair.fencedScan = false →
      ∃ t, exec (.instructionLoad j) s = .next t ∧ t.power.jtag = j ∧ t.pair.fencedScan = true ∧ isFenced t = true
        ∧ t.pair.sails = false ∧ t.pair.fenceEpoch = some s.pair.epoch
        ∧ (s.pair.sails = true → s.pair.st ≠ .solo → t.pair.leaseTx = some (.release, s.pair.epoch))
        ∧ (isStandby s = true → t.pair.leaseTx = some (.leave, s.pair.epoch)))
  ∧ (∀ j s, ballTaking j = true → s.pair.fencedScan = false → s.power.phase ≠ .running → s.power.phase ≠ .porst →
      ∃ c, exec (.instructionLoad j) s = .next { s with free := s.free + 1, power := { s.power with jtag := j, cells := c },
                                                        pair := { s.pair with fencedScan := true, fenceEpoch := some s.pair.epoch } })
  ∧ (∀ s, exec .trst s = .next { s with power := { s.power with jtag := .bypass } })

/-! ### The plate engine, the boundaries, the tree and terminal events -/

/-- The plate engine (R55, R57, R87, R88, R32): a proof ends, once the lane groups its bank uses are on, PROVEN or EMPTY with the code, section and record
of what failed; that of the MRAM copy after a restart makes its bank PROVEN and turns it at the first boundary that leaves the cutoff; the recheck at the
cutoff keeps or cancels the turn; the bank becomes TURNING; the copy of the engaged image replaces the previous one; an uncorrectable error in the engaged
bank repeats the plate and is reported. Each has no effect where there is nothing for it to act on. -/
def Obligations.PlateEngineRuns : Prop :=
  (∀ b s, Running s → (bank s b).st = .proving → s.plates.restore ≠ some b →
      ((imageGroups (bank s b).image).all (fun g => pwrOn s (72 + g)) = true →
        exec (.plateProved b) s = .next (match prove (bank s b).feats s.fuse (bank s b).image with
          | .inr p => event 0x0100 7 b.toNat ((beBytes 16 p.id.toNat).take 12)
              (setBank b { bank s b with st := .proven, plate := some p, refusal := 0, refSection := 0, refRecord := 0 } s)
          | .inl (code, sec, ix) => event 0x0101 7 b.toNat (beBytes 2 code ++ beBytes 1 sec ++ [0] ++ beBytes 4 ix)
              (setBank b { st := .empty, refusal := code, refSection := sec, refRecord := ix } s)))
      ∧ ((imageGroups (bank s b).image).all (fun g => pwrOn s (72 + g)) = false → exec (.plateProved b) s = .next s))
  ∧ (∀ b p m s, Running s → (bank s b).st = .proving → s.plates.restore = some b → s.plates.mram = some (p, m) →
      let at_ := boundaryAt s (s.now + 12443)
      let v := setBank b { bank s b with st := .proven, image := m, plate := some p } s
      let u := event 0x0100 7 b.toNat ((beBytes 16 p.id.toNat).take 12) { v with plates := { v.plates with restore := none } }
      ((calGroups p.millrace).all (fun g => pwrOn s (72 + g)) = true → exec (.plateProved b) s = .next { u with plates := { u.plates with
        turn := some { bank := b, target := boundaryNum u at_, at_ := at_, first := false, id := p.id } } })
      ∧ ((calGroups p.millrace).all (fun g => pwrOn s (72 + g)) = false → exec (.plateProved b) s = .next s))
  ∧ (∀ b s, (¬Running s ∨ (bank s b).st ≠ .proving ∨ (s.plates.restore = some b ∧ s.plates.mram = none)) → exec (.plateProved b) s = .next s)
  ∧ (∀ t p s, Running s → s.plates.turn = some t → (bank s t.bank).st = .proven → (bank s t.bank).plate = some p →
      let u := advance (t.at_ - 12442) s
      (turnChecks u p = 0 → exec .turnCutoff s = .next u)
      ∧ (turnChecks u p ≠ 0 → exec .turnCutoff s = .next (event 0x0102 7 t.bank.toNat (beBytes 2 (turnChecks u p) ++ [0, 0] ++ beBytes 4 t.target.toNat)
          { u with plates := { u.plates with turn := none } })))
  ∧ (∀ t s, Running s → s.plates.turn = some t → (bank s t.bank).st = .proven → (bank s t.bank).plate.any (fun p => p.id = t.id) = true →
      exec .turnLead s = .next (setBank t.bank { bank s t.bank with st := .turning } (advance (t.at_ - 4000) s)))
  ∧ (∀ s, Running s → s.plates.turn = none → exec .turnCutoff s = .next s ∧ exec .turnLead s = .next s)
  ∧ (∀ b s, Running s → s.plates.mramBusy = some b →
      exec .mramCopy s = .next { s with plates := { s.plates with
        mram := (match (bank s b).plate with | some p => some (p, (bank s b).image) | none => s.plates.mram), mramBusy := none } })
  ∧ (∀ s, Running s → s.plates.mramBusy = none → exec .mramCopy s = .next s)
  ∧ (∀ w s, Running s →
      let hit := fun (b : Nat) => event 0x0104 7 b ([0, 0, 0, 0] ++ beBytes 4 s.imprNum.toNat)
        (eccEvent 2 w.toNat { s with plates := { s.plates with eccRepeat := true } })
      (s.plates.bank0.st = .engaged → exec (.plateEcc w) s = .next (hit 0))
      ∧ (s.plates.bank0.st ≠ .engaged → s.plates.bank1.st = .engaged → exec (.plateEcc w) s = .next (hit 1))
      ∧ (s.plates.bank0.st ≠ .engaged → s.plates.bank1.st ≠ .engaged → exec (.plateEcc w) s = .next s))

/-- The impression boundary (R31, R33, R56, R84, R89, Table 1.5): the grid and the number advance by one impression, or at the first turn's boundary; a
turn due there whose plate still stands in its bank engages it, the old one falling back to PROVEN, EMPTY where its disengage is due; on a unit whose lease
has expired, or without its plate, it does not take place, and a unit IN_STEP without it falls out of step; a disengage due alone empties the engaged bank.
What was engaged before is the plate of the frames still to come from older bursts. A standby that falls out of step there loses its banks, so what is said
of the banks is said of a unit that is no standby, or one in step with its partner's root.
The first turn ending the impression early at its boundary is the model's reading (log 9), and so is what becomes of a disengage that is due later and of
the bank of a turn that does not take place (logs 76, 77). -/
def Obligations.ImpressionBoundaryTurns : Prop :=
  let steady := fun (s : State) => isStandby s = false ∨ s.pair.contact = false ∨ (s.timing.following = true ∧ s.pair.skew.natAbs ≤ 128)
  let leased := fun (s : State) (b : Nat) => s.pair.sails = false ∨ s.pair.expiry = 0 ∨ b + 80 ≤ s.pair.expiry - 124400
  (∀ s, Running s → s.plates.turn.any (fun x => x.first) = false →
      ∃ t, exec .impressionBoundary s = .next t ∧ t.imprNum = s.imprNum + 1 ∧ t.imprAt = s.imprNext ∧ t.imprNext = s.imprNext + 12441600
        ∧ t.now = max s.now s.imprNext
        ∧ (steady s → s.plates.turn = none → s.plates.disengage ≠ some s.imprNext → t.plates.bank0 = s.plates.bank0 ∧ t.plates.bank1 = s.plates.bank1
            ∧ t.plates.prev = engaged s)
        ∧ (s.plates.turn = none → s.plates.disengage = some s.imprNext → engaged t = none ∧ t.plates.disengage = none ∧ t.plates.prev = engaged s)
        ∧ (∀ x, steady s → s.plates.turn = some x → s.imprNext < x.at_ → s.plates.disengage ≠ some s.imprNext → t.plates.turn = some x
            ∧ t.plates.bank0 = s.plates.bank0 ∧ t.plates.bank1 = s.plates.bank1)
        ∧ (∀ x, steady s → s.plates.turn = some x → x.at_ ≤ s.imprNext → s.pair.fencedLease = false → turnReady s x = true → leased s s.imprNext →
            bank t x.bank = { (bank s x.bank) with st := .engaged } ∧ t.plates.turn = none ∧ t.plates.mramBusy = some x.bank
            ∧ t.plates.eccRepeat = false ∧ t.plates.prev = engaged s
            ∧ ((bank s (!x.bank)).st = .engaged → s.plates.disengage ≠ some x.at_ → bank t (!x.bank) = { bank s (!x.bank) with st := .proven })
            ∧ ((bank s (!x.bank)).st = .engaged → s.plates.disengage = some x.at_ → (bank t (!x.bank)).st = .empty))
        ∧ (∀ x, s.plates.turn = some x → x.at_ ≤ s.imprNext → (s.pair.fencedLease = true ∨ turnReady s x = false) →
            t.plates.turn = none ∧ (isStandby s = false → s.plates.disengage ≠ some s.imprNext →
              bank t x.bank = { (bank s x.bank) with st := if (bank s x.bank).st = .turning then .proven else (bank s x.bank).st }
              ∧ bank t (!x.bank) = bank s (!x.bank)))
        ∧ (∀ x, s.plates.turn = some x → x.at_ ≤ s.imprNext → turnReady s x = false → s.pair.fencedLease = false → s.pair.st = .inStep → t.pair.st ≠ .inStep))
  ∧ (∀ x s, Running s → steady s → s.plates.turn = some x → x.first = true → x.at_ < s.imprNext → s.pair.fencedLease = false → turnReady s x = true →
      leased s x.at_ →
      ∃ t, exec .impressionBoundary s = .next t ∧ t.imprNum = s.imprNum + 1 ∧ t.imprAt = x.at_ ∧ t.imprNext = x.at_ + 12441600 ∧ t.strokeNext = x.at_
        ∧ bank t x.bank = { bank s x.bank with st := .engaged })

/-- The stroke boundary (R22, R23, R25, R27, R243, R277): every accepted effect posted at least 6 mc before takes hold there, in the order of acceptance, but
a MODE write after an ENABLE write to its quad of its own mill cycle; one posted later waits for the next; the sequencers' strokes follow, and register reads
of the datapath see what they leave; an SC register that hardware updates in that cycle keeps the bits a write of the cycle would have cleared (R404, Table
13.2); nothing happens before an impression boundary that is due first. The bandwidth window's end counts on and starts the next window (R408); until the
first end of a new W's grid no window of it has begun (R409).
Which boundary is due next is the model's choice (log 54). -/
def Obligations.StrokeBoundaryLands : Prop :=
  (∀ e s, Running s → nextStrokeAt s < nextBoundary s →
      exec (.strokeBoundary e) s = .next (
        let n := (nextStrokeAt s + 80 - s.strokeNext) / 80
        let u := refill n { advance (nextStrokeAt s) s with strokeNext := nextStrokeAt s + 80 }
        let v := landAll (nextStrokeAt s) u
        if v.power.phase = .running then takeSample (scKeeps u (strokeWork (nextStrokeAt s) e v)) else v))
  ∧ (∀ e s, Running s → nextBoundary s ≤ nextStrokeAt s → exec (.strokeBoundary e) s = .next s)
  ∧ (∀ s, let t := takeSample s
      t = { s with seen := t.seen } ∧ t.seen.mill = s.mill ∧ t.seen.trees = s.trees ∧ t.seen.ports = s.ports ∧ t.seen.tribs = s.tribs ∧ t.seen.cnt = s.cnt)
  ∧ (∀ t s, (∀ x ∈ s.mill.landing, t < x.at_ + 6) → landAll t s = s)
  ∧ (∀ t x s, s.mill.landing = [x] → x.at_ + 6 ≤ t → landAll t s = landEffect { s with mill := { s.mill with landing := [] } } x)
  ∧ (∀ t x y s, (s.mill.landing = [x, y] ∨ s.mill.landing = [y, x]) → x.at_ + 6 ≤ t → y.at_ + 6 ≤ t → x.ord < y.ord →
      let u := { s with mill := { s.mill with landing := [] } }
      ((cycleOf y ≠ cycleOf x ∨ ∀ g ∈ (landsOn x).filterMap modeQuad, g ∉ (landsOn y).filterMap enableQuad) →
        landAll t s = landEffect (landEffect u x) y)
      ∧ (∀ g, cycleOf y = cycleOf x → g ∈ (landsOn x).filterMap modeQuad → g ∈ (landsOn y).filterMap enableQuad → (landsOn y).filterMap modeQuad = [] →
        landAll t s = landEffect (landEffect u y) x))
  ∧ (∀ x s, s.power.phase ≠ .running → landEffect s x = s)
  ∧ (∀ timed x s, s.power.phase = .running → x.eff = .cmd timed → landEffect s x = landOne x s)
  ∧ (∀ x k s, s.power.phase = .running → (∀ timed, x.eff ≠ .cmd timed) → x.pkt = some k → landEffect s x = markEff k.dseq (landOne x s))
  ∧ (∀ at_ s, Running s → bwDue s = some at_ → ∃ t, exec .bwWindowEnd s = .next t ∧ t.now = max s.now at_ ∧ t.bwFrom = max s.now at_ ∧ t.bwPart = false
      ∧ t.cnt = s.cnt ∧ t.regs = s.regs ∧ (s.bwPart = false → t.bwStatus = s.bwStatus + 1 ∧ t.bwAt = at_)
      ∧ (s.bwPart = true → t.bwStatus = s.bwStatus ∧ t.bwAt = s.bwAt ∧ t.rates = s.rates))
  ∧ (∀ s, Running s → bwDue s = none → exec .bwWindowEnd s = .next s)

/-- Bursts of a SERVING tree (R102, R110 to R122): the announcement picks the taps of the burst, of the live or the write-back set where the terminal's
previous burst is not yet written, else of memory, and judges their rate and age; the best delimiter within the window and the threshold frames the
burst; its codewords are those its grant holds, one not observed uncorrectable; a burst without a delimiter, or of which nothing was received, is lost;
at the end the live taps are written back, into memory where the burst was clean; the decoder's counts follow when the bank is released. A grant that is
not there, one announced or received already has no such effect again.
The taps learned are a free value (log 61). -/
def Obligations.BurstsRun : Prop :=
  (∀ (n : Fin 64) k o e s, Running s → grantAt s n.val k = none →
      exec (.burstAnnounce n k e) s = .next s ∧ exec (.burstRx n k o) s = .next s ∧ exec (.burstEnd n k) s = .next s ∧ exec (.bankRelease n k) s = .next s)
  ∧ (∀ (n : Fin 64) k g e s, Running s → grantAt s n.val k = some g → g.announced = true → exec (.burstAnnounce n k e) s = .next s)
  ∧ (∀ (n : Fin 64) k g o s, Running s → grantAt s n.val k = some g → g.received = true → exec (.burstRx n k o) s = .next s)
  ∧ (∀ (n : Fin 64) k g e s, Running s → grantAt s n.val k = some g → g.announced = false →
      let ix := 128 * n.val + g.term
      let now := max s.now (g.start - 249)
      let store := (if e then dropTaps ix s else s).taps
      let x := mget {} store ix
      let p := prevGrant s n.val k g
      let direct := tapsDirect { s with now := now } p
      let valid := if direct then p.any (fun p => p.rate = g.rate) else x.valid && decide (x.rate = BitVec.ofNat 2 g.rate)
      let age := if direct then now - (p.map grantEnd).getD 0 else stampAge now x.stamp
      let use := if g.pclass = 0 then valid && decide (age ≤ Config.TAP_STALE) else g.pclass = 1 && valid
      let held := if !direct then some x.taps
        else if p.any (fun p => decide (now < grantEnd p)) then (tree (tapsLive n.val { s with now := now }) n.val).live else (tree s n.val).writeBack
      ∃ t, exec (.burstAnnounce n k e) s = .next t ∧ t.now = now ∧ grantAt t n.val k = some { g with announced := true, fresh := use }
        ∧ (tree t n.val).shadow = some (g.start, if use then held else none) ∧ t.taps = store
        ∧ (cntOf t (cTree n.val 0x128)).v = (cntOf s (cTree n.val 0x128)).v + (if g.pclass = 0 ∧ use = false then 1 else 0)
        ∧ (cntOf t (cTree n.val 0x168)).v = (cntOf s (cTree n.val 0x168)).v + (if e then 1 else 0)
        ∧ t.mill = s.mill ∧ t.keys = s.keys ∧ t.plates = s.plates ∧ t.defects = s.defects)
  ∧ (∀ (n : Fin 64) k g o s, Running s → grantAt s n.val k = some g → g.received = false →
      delimWin g.rate (dlmThreshold s n.val g.rate) o.delims = none →
      ∃ t, exec (.burstRx n k o) s = .next t ∧ t.now = max s.now (g.start + Config.PRE g.pclass + Config.DELIM)
        ∧ grantAt t n.val k = some { g with received := true, sdAny := o.sdAny }
        ∧ (cntOf t (cTerm (128 * n.val + g.term) 0x18)).v = (cntOf s (cTerm (128 * n.val + g.term) 0x18)).v + 1
        ∧ (cntOf t (cTree n.val 0x120)).v = (cntOf s (cTree n.val 0x120)).v + 1
        ∧ t.terms = s.terms ∧ t.defects = s.defects ∧ t.plates = s.plates ∧ t.keys = s.keys ∧ t.taps = s.taps)
  ∧ (∀ (n : Fin 64) k g o off s, Running s → grantAt s n.val k = some g → g.received = false →
      delimWin g.rate (dlmThreshold s n.val g.rate) o.delims = some off →
      let ix := 128 * n.val + g.term
      let cws := burstCws g o
      ∃ t, exec (.burstRx n k o) s = .next t
        ∧ grantAt t n.val k = some { g with
            received := true, sdAny := o.sdAny, found := some off, decoded := cws.length, corrected := (cws.filterMap id).sum,
            uncorr := cws.length - (cws.filterMap id).length, bipOk := o.bipOk, erased := erasedCws cws,
            dataAt := some (expected g + delimBits g.rate + off) }
        ∧ (cntOf t (cTerm ix 0x30)).v = (cntOf s (cTerm ix 0x30)).v + 1
        ∧ (cntOf t (cTerm ix 0x28)).v = (cntOf s (cTerm ix 0x28)).v + BitVec.ofInt 64 off
        ∧ (cntOf t (cbTree n.val 14)).v = (cntOf s (cbTree n.val 14)).v + (if cws.head?.join.isSome ∧ o.onu ≠ g.term then 1 else 0)
        ∧ (∀ a v, o.reports = [(a, v)] → a < 4 → g.allocs.contains (a, true) = true → (cws[dbruCw g a]?).join.isSome = true →
            (mget {} t.mill.allocs (4 * ix + a)).reported = v)
        ∧ (o.reports = [] → t.mill.allocs = s.mill.allocs)
        ∧ t.plates = s.plates ∧ t.keys = s.keys ∧ t.taps = s.taps)
  ∧ (∀ (n : Fin 64) k g s, Running s → grantAt s n.val k = some g →
      let ix := 128 * n.val + g.term
      let los := !g.sdAny && (term s ix).prevFound
      let clean := g.found.isSome ∧ g.uncorr = 0 ∧ featOn s 6 = true
      ∃ u, exec (.burstEnd n k) s = .next (burstDefects ix g.found.isSome g.sdAny
            (if los = true ∧ (tree u n.val).losBursts ≤ (tree u n.val).losCount then treeDefect n.val TR_LOS (advance (g.start + g.len + 24) u) else u))
        ∧ u.now = max s.now (g.start + g.len) ∧ grantAt u n.val k = some { g with received := true }
        ∧ (tree u n.val).writeBack = (tree u n.val).live
        ∧ (clean → mget {} u.taps ix
            = { taps := (tree u n.val).live.getD {}, rate := BitVec.ofNat 2 g.rate, valid := true, stamp := BitVec.ofNat 64 (g.start + g.len) })
        ∧ (¬ clean → u.taps = s.taps)
        ∧ (tree u n.val).losCount = (if g.sdAny then 0 else if (term s ix).prevFound then (tree s n.val).losCount + 1 else (tree s n.val).losCount)
        ∧ (term u ix).prevEnd = g.start + g.len ∧ (term u ix).prevFound = g.found.isSome
        ∧ (cntOf u (cTerm ix 0x18)).v = (cntOf s (cTerm ix 0x18)).v + (if g.received then 0 else 1)
        ∧ (cntOf u (cTree n.val 0x120)).v = (cntOf s (cTree n.val 0x120)).v + (if g.received then 0 else 1)
        ∧ u.mill = s.mill ∧ u.keys = s.keys ∧ u.plates = s.plates ∧ u.defects = s.defects)
  ∧ (∀ (n : Fin 64) k g s, Running s → grantAt s n.val k = some g → g.found = none →
      exec (.bankRelease n k) s = .next (advance (g.start + g.len + 1146) s))
  ∧ (∀ (n : Fin 64) k g s, Running s → grantAt s n.val k = some g → g.found.isSome = true →
      let ix := 128 * n.val + g.term
      ∃ t, exec (.bankRelease n k) s = .next t
        ∧ t = { advance (g.start + g.len + 1146) s with cnt := t.cnt, defects := { s.defects with est := t.defects.est } }
        ∧ (∀ a, a = cTree n.val 0x100 ∨ a = cTerm ix 0 →
            (cntOf t a).v = (cntOf s a).v + BitVec.ofNat 64 g.decoded ∧ (cntOf t (a + 8)).v = (cntOf s (a + 8)).v + BitVec.ofNat 64 g.corrected
              ∧ (cntOf t (a + 16)).v = (cntOf s (a + 16)).v + BitVec.ofNat 64 g.uncorr)
        ∧ (cntOf t (cTerm ix 0x20)).v = (cntOf s (cTerm ix 0x20)).v + (if g.uncorr = 0 ∧ g.bipOk = false then 1 else 0))

/-- Upstream content, energy outside the grant mask and the frame that is composed (R64, R98, R99, R102, R104, R121, R125, R132, R164, R165, R186, R333):
a fragment of which a codeword is erased here and not repaired, or on a standby
erased in its partner's decode, is discarded with its partial frame, an idle XGEM frame is no
frame, a Port-ID of another terminal and a frame without its key are counted and discarded, another is decrypted with its slot's key; a fragment that is
not the last waits, a frame over 9,600 bytes or with a bad FCS is discarded and counted, a whole one enters by its route, a partial one times out; eight
SD samples in a row outside the mask are one OOG event, which a frame whose grants are withheld hears; composition begins DS_BUILD before the frame.
Under which plate a frame with fragments of two plates is classified is the model's choice (log 117). -/
def Obligations.TreeEventsRun : Prop :=
  (∀ (n : Fin 64) k x s, Running s → (∀ g, grantAt s n.val k = some g → g.found = none ∨ g.xgem < g.used + 8 + x.data.length) →
      exec (.upstreamXgem n k x) s = .next s)
  ∧ (∀ (n : Fin 64) k g x s, Running s → grantAt s n.val k = some g → g.found.isSome = true → g.used + 8 + x.data.length ≤ g.xgem →
      let u := setGrant n.val k { g with used := g.used + 8 + x.data.length } s
      let p := x.portId.toNat
      let ks := keySet u (keyIx n.val (flowDom (grantPlate u g) u p) true)
      let isTrib := match routeIn (grantPlate u g) u false p with
        | .through f => f.trib
        | _ => false
      (xgemLost u g x = true → exec (.upstreamXgem n k x) s = .next (fragDrop n.val g.term p (bump (cTree n.val 0x138) 1 u)))
      ∧ (xgemLost u g x = false → x.idle = true → exec (.upstreamXgem n k x) s = .next u)
      ∧ (xgemLost u g x = false → x.idle = false → flowTerm (grantPlate u g) u p ≠ some (128 * n.val + g.term) →
          exec (.upstreamXgem n k x) s = .next (bump (cbTree n.val 3) 1 u))
      ∧ (xgemLost u g x = false → x.idle = false → flowTerm (grantPlate u g) u p = some (128 * n.val + g.term) →
          ((x.key = 3 ∨ (x.key ≠ 0 ∧ (if x.key = 1 then ks.st0 else ks.st1) = .empty) →
              exec (.upstreamXgem n k x) s = .next (fragDrop n.val g.term p (bump (cTree n.val 0x148) 1 u)))
          ∧ (x.key = 0 → ks.encrypt = true → exec (.upstreamXgem n k x) s = .next (fragDrop n.val g.term p (bump (cTree n.val 0x150) 1 u)))
          ∧ (x.key = 0 → ks.encrypt = false → exec (.upstreamXgem n k x) s = .next (reassemble n.val g x x.data isTrib u))
          ∧ ((x.key = 1 ∨ x.key = 2) → (if x.key = 1 then ks.st0 else ks.st1) ≠ .empty →
              exec (.upstreamXgem n k x) s = .next (reassemble n.val g x
                (xgemCrypt s.power.kwk (if x.key = 1 then ks.key0 else ks.key1) true g.superframe x.pos x.data) isTrib u)))))
  ∧ (∀ n g x plain isTrib s, Running s →
      let p := x.portId.toNat
      let old := (tree s n).frags.find? (fun f => f.term = g.term && f.portId = p)
      let data := (old.map Frag.data).getD [] ++ plain
      let left := (tree s n).frags.filter (fun f => !(f.term = g.term && f.portId = p))
      let r := updTree n (fun t => { t with frags := left }) s
      (9600 < data.length → ∃ t, reassemble n g x plain isTrib s = t ∧ t = { r with cnt := t.cnt }
          ∧ (cntOf t (cbTree n 4)).v = (cntOf s (cbTree n 4)).v + 1 ∧ (cntOf t (cbTree n 5)).v = (cntOf s (cbTree n 5)).v + 1)
      ∧ (data.length ≤ 9600 → x.last = false → reassemble n g x plain isTrib s = updTree n (fun t => { t with
          frags := t.frags ++ [{ term := g.term, portId := p, since := (old.map Frag.since).getD s.now, data := data }] }) r)
      ∧ (data.length ≤ 9600 → x.last = true → fcsGood data = false → isTrib = false → reassemble n g x plain isTrib s = bump (cTree n 0x158) 1 r)
      ∧ (data.length ≤ 9600 → x.last = true → (fcsGood data = true ∨ isTrib = true) → reassemble n g x plain isTrib s
          = takeIn { down := false, src := some (128 * n + g.term, g.start, (xgemCws x).1, (xgemCws x).2), old := decide (g.plateStart < s.imprAt) }
              (grantPlate s g) (cbTree n 2) p data
              (bump (cbTree n 1) (data.length + 8) r)))
  ∧ (∀ (n : Fin 64) (m : Fin 128) (p : BitVec 16) f s, Running s →
      (tree s n.val).frags.find? (fun f => f.term = m.val && f.portId = p.toNat) = some f →
      ∃ t, exec (.fragTimeout n m p) s = .next t ∧ t.now = max s.now (f.since + 311040)
        ∧ (tree t n.val).frags = (tree s n.val).frags.filter (fun f => !(f.term = m.val && f.portId = p.toNat))
        ∧ (cntOf t (cbTree n.val 4)).v = (cntOf s (cbTree n.val 4)).v + 1)
  ∧ (∀ (n : Fin 64) (m : Fin 128) (p : BitVec 16) s, Running s →
      (tree s n.val).frags.find? (fun f => f.term = m.val && f.portId = p.toNat) = none → exec (.fragTimeout n m p) s = .next s)
  ∧ (∀ (n : Fin 64) a l s, Running s → ((tree s n.val).st = .off ∨ l = []) → exec (.oog ⟨n, a, l⟩) s = .next s)
  ∧ (∀ (n : Fin 64) a v l s, Running s → (tree s n.val).st ≠ .off →
      ∃ u, exec (.oog ⟨n, a, [v]⟩) s = .next u ∧ exec (.oog ⟨n, a, v :: l⟩) s = exec (.oog ⟨n, a + 8, l⟩) u)
  ∧ (∀ (n : Fin 64) a v s, Running s → (tree s n.val).st ≠ .off →
      let up := v != regBit s (aTREE n.val + 0x0C) 24
      let out := up && !inMask s n.val a
      let r := (tree s n.val).sdRun
      let h := (tree s n.val).sdHeld
      let g := (tree s n.val).rogue
      (up = false → exec (.oog ⟨n, a, [v]⟩) s = .next (updTree n.val (fun x => { x with
          sdNow := false, sdRun := 0, sdLow := x.sdLow + 1, sdHeld := x.sdHeld && decide (x.sdLow + 1 < 8) }) (advance a s)))
      ∧ (up = true → inMask s n.val a = true → exec (.oog ⟨n, a, [v]⟩) s = .next (updTree n.val (fun x => { x with
          sdNow := true, sdRun := 0, sdLow := 0 }) (advance a s)))
      ∧ (out = true → (r < 7 ∨ h = true) → exec (.oog ⟨n, a, [v]⟩) s = .next (updTree n.val (fun x => { x with
          sdNow := true, sdRun := x.sdRun + 1, sdLow := 0 }) (advance a s)))
      ∧ (out = true → 7 ≤ r → h = false → ∃ t, exec (.oog ⟨n, a, [v]⟩) s = .next t ∧ (cntOf t (cTree n.val 0x130)).v = (cntOf s (cTree n.val 0x130)).v + 1
          ∧ tree t n.val = { tree s n.val with sdNow := true, sdRun := r + 1, sdLow := 0, sdHeld := true, oogImpr := (tree s n.val).oogImpr + 1,
                                               oogAt := some (max s.now a),
                                               rogue := { g with heard := g.heard || g.heldAt.any (fun b =>
                                                 decide (b ≤ max s.now a) && decide (max s.now a < b + 155520)) } }))
  ∧ (∀ (n : Fin 64) s, Running s → stAt s n.val (composeAt s n.val) = .lit →
      ∃ t, exec (.frameCompose n) s = .next t ∧ t.now = max s.now (composeAt s n.val - Config.DS_BUILD)
        ∧ (tree t n.val).frameAt = composeAt s n.val ∧ (tree t n.val).frame = frameIx s (composeAt s n.val)
        ∧ (tree t n.val).superframe = ((tree s n.val).superframe + 1) % 2 ^ 32 ∧ t.mill = s.mill
        ∧ (∀ g ∈ (tree t n.val).grants, g ∈ (tree s n.val).grants)
        ∧ (tree t n.val).lineNext.map (fun x => (x.at_, x.superframe)) = some (composeAt s n.val, ((tree s n.val).superframe + 1) % 2 ^ 32))
  ∧ (∀ (n : Fin 64) s, Running s → stAt s n.val (composeAt s n.val) = .serving →
      ∃ t, exec (.frameCompose n) s = .next t ∧ t.now = max s.now (composeAt s n.val - Config.DS_BUILD)
        ∧ (tree t n.val).frameAt = composeAt s n.val ∧ (tree t n.val).superframe = ((tree s n.val).superframe + 1) % 2 ^ 32
        ∧ (tree t n.val).lineNext.map (fun x => (x.at_, x.superframe)) = some (composeAt s n.val, ((tree s n.val).superframe + 1) % 2 ^ 32))
  ∧ (∀ (n : Fin 64) s, Running s → (stAt s n.val (composeAt s n.val) = .off ∨ stAt s n.val (composeAt s n.val) = .dark) →
      exec (.frameCompose n) s = .next s)

/-- Discovery, ranging and their responses (R117, R124, R139, R145 to R151, R155, R157 to R159): composition fixes what a window serves, none withheld,
packed slots before a band ranging, and queues Request_Registration to whom it serves; a window opens at its time, with the default taps; a response
counts only with its delimiter found, and outside the sample window, undecodable, under a wrong MIC, beyond the limit or twice it is counted; a registered
serial number is discovered in UNSEEN or POPUP with its Rc, a disabled one disabled again, an unknown one reported and muted; a valid band response
ranges the terminal, a missing or invalid one is an attempt, the third of which returns it to UNSEEN; a valid probe activates it, a missing one sends it to
band ranging; a PLOAM message of no burst and no slot is none, one with a wrong MIC is counted, one that is not the device's reaches the host.
When Request_Registration is queued is the model's choice (log 85), and so is the code of each PLOAM type (log 31). -/
def Obligations.DiscoveryAndRangingRun : Prop :=
  (∀ (n : Fin 64) w s, Running s → (tree s n.val).plans.find? (fun w => w.purpose ≠ 1) = some w →
      exec (.discoveryWindow n) s = .next (updTree n.val (fun t => { t with
        window := some w, plans := t.plans.erase w, discSeen := if w.purpose = 1 then t.discSeen else [], respEnds := [], live := none })
        (advance w.start s)))
  ∧ (∀ (n : Fin 64) w s, Running s → (tree s n.val).plans.find? (fun w => w.purpose = 1) = some w →
      exec (.rangingWindow n) s = .next (updTree n.val (fun t => { t with
        window := some w, plans := t.plans.erase w, discSeen := if w.purpose = 1 then t.discSeen else [], respEnds := [], live := none })
        (advance w.start s)))
  ∧ (∀ (n : Fin 64) s, Running s →
      ((tree s n.val).plans.find? (fun w => w.purpose ≠ 1) = none → exec (.discoveryWindow n) s = .next s)
      ∧ ((tree s n.val).plans.find? (fun w => w.purpose = 1) = none → exec (.rangingWindow n) s = .next s))
  ∧ (∀ n held l at_ len s,
      let w := planRanging s n at_ len held
      planWindow n held (l, s) (1, at_, len)
          = (l ++ [w], updTree n (fun t => { t with plans := t.plans ++ [w] }) (requestAll n w (slotsGiven n w held s)))
        ∧ w.purpose = 1 ∧ w.start = at_ ∧ w.len = len ∧ (w.packed ≠ [] → w.band = none) ∧ (∀ x ∈ w.packed, x.1 ∉ held) ∧ (∀ b, w.band = some b → b.1 ∉ held)
        ∧ (∀ k, probeList s n = [] → ploamOnly s n = [] → (bandList s n).find? (fun k => !held.contains k) = some k →
            w.packed = [] ∧ w.band = some (k, bandStart s (128 * n + k) at_, (priorBand s (128 * n + k)).1, (priorBand s (128 * n + k)).2)
              ∧ requestAll n w s = queueMsg n (some k) .requestReg 0 s))
  ∧ (∀ n held l at_ len s,
      let w : Window := { purpose := if (tree s n).set.discEn && !(tree s n).rogue.running then 0 else 3, start := at_, len := len, packed := [], band := none }
      planWindow n held (l, s) (0, at_, len) = (l ++ [w], updTree n (fun t => { t with plans := t.plans ++ [w] }) s))
  ∧ (∀ (n : Fin 64) sn (d : Nat) y c m s, Running s → ((tree s n.val).window.any (fun w => w.purpose = 0) = false ∨ respSeen s n.val y = false) →
      exec (.serialNumberOnu n sn ⟨d, y⟩ c m) s = .next s)
  ∧ (∀ (n : Fin 64) sn (d : Nat) y c m w s, Running s → (tree s n.val).window = some w → w.purpose = 0 → respSeen s n.val y = true →
      let u := respFound n.val d s
      let t := tree s n.val
      let a : Int := (d : Int) - 40 * skewOf s n.val
      let lo : Int := 40 * (w.start + Config.PRE_X - 20 : Nat)
      let hi : Int := 40 * (w.start + t.set.reach * Config.RTT_PER_100M + Config.RAND_SPAN + Config.PRE_X + 20 : Nat)
      (isStandby s = true → exec (.serialNumberOnu n sn ⟨d, y⟩ c m) s = .next u)
      ∧ (isStandby s = false → (a < lo ∨ hi ≤ a) → exec (.serialNumberOnu n sn ⟨d, y⟩ c m) s = .next (bump (cbTree n.val 7) 1 u))
      ∧ (isStandby s = false → lo ≤ a → a < hi →
          (c = false → exec (.serialNumberOnu n sn ⟨d, y⟩ c m) s = .next (bump (cbTree n.val 8) 1 u))
          ∧ (c = true → m ≠ .dflt → exec (.serialNumberOnu n sn ⟨d, y⟩ c m) s = .next (bump (cbTree n.val 13) 1 u))
          ∧ (c = true → m = .dflt → t.set.discLimit ≤ t.discCount → exec (.serialNumberOnu n sn ⟨d, y⟩ c m) s = .next (bump (cbTree n.val 11) 1 u))
          ∧ (c = true → m = .dflt → t.discCount < t.set.discLimit → sn ∈ t.discSeen → exec (.serialNumberOnu n sn ⟨d, y⟩ c m) s
              = .next (bump (cbTree n.val 9) 1 (updTree n.val (fun t => { t with discCount := t.discCount + 1 }) u)))
          ∧ (c = true → m = .dflt → t.discCount < t.set.discLimit → sn ∉ t.discSeen → exec (.serialNumberOnu n sn ⟨d, y⟩ c m) s
              = .next (handleSerial n.val sn (a - 40 * (w.start + t.set.reach * Config.RTT_PER_100M + Config.PRE_X : Nat) + tEq s n.val).toNat
                  (updTree n.val (fun t => { t with discCount := t.discCount + 1, discSeen := sn :: t.discSeen }) u)))))
  ∧ (∀ n sn rc s,
      (slotOf s sn = none → muted s sn = true → handleSerial n sn rc s = s)
      ∧ (slotOf s sn = none → muted s sn = false → handleSerial n sn rc s = event 0x0207 1 n (beBytes 8 sn.toNat ++ beBytes 4 (rc / 40))
          { s with power := { s.power with muted := s.power.muted ++ [(sn, s.imprCount)] } })
      ∧ (∀ g, slotOf s sn = some g →
          (g / 128 ≠ n ∨ (term s g).st = .discovered ∨ (term s g).st = .ranged ∨ (term s g).st = .active →
            handleSerial n sn rc s = event 0x0206 1 n (beBytes 8 sn.toNat ++ beBytes 2 g) s)
          ∧ (g / 128 = n → ((term s g).st = .disabled ∨ (term s g).st = .rogue) →
            handleSerial n sn rc s = queueMsg n (some (g % 128)) (.disableSn false) 0 (bump (cbTree n 10) 1 s))
          ∧ (g / 128 = n → ((term s g).st = .unseen ∨ (term s g).st = .popup) → ∃ v, handleSerial n sn rc s = v
              ∧ (term v g).st = .discovered ∧ (term v g).rtd = rc ∧ (term v g).rcHeld = true ∧ (term v g).eqd = 0)))
  ∧ (∀ (n : Fin 64) (k : Fin 128) r s, Running s → (∀ w, (tree s n.val).window = some w →
        (∀ b, w.band = some b → b.1 ≠ k.val) ∧ (w.band = none → w.packed.findIdx? (fun y => y.1 = k.val && y.2) = none)) →
      exec (.registration n k r) s = .next s)
  ∧ (∀ (n : Fin 64) (k : Fin 128) r w sg lo hi s, Running s → (tree s n.val).window = some w → w.band = some (k.val, sg, lo, hi) →
      let g := 128 * n.val + k.val
      let hit := respHit s n.val (bandBase s g sg + lo - 800) (bandBase s g sg + hi + 800) r
      let u := respTaken n.val hit s
      exec (.registration n k r) s = .next (if isStandby u then u else
        bandResp g sg lo hi hit (updTree n.val (fun t => { t with window := some { w with band := none } }) u)))
  ∧ (∀ (n : Fin 64) (k : Fin 128) r w i s, Running s → (tree s n.val).window = some w → w.band = none →
      w.packed.findIdx? (fun y => y.1 = k.val && y.2) = some i →
      let g := 128 * n.val + k.val
      let hit := respHit s n.val (slotExpect w i - 800) (slotExpect w i + 800) r
      let u := respTaken n.val hit s
      exec (.registration n k r) s = .next (if isStandby u then u else
        probeResp g i w hit (updTree n.val (fun t => { t with window := some { w with
          packed := w.packed.map (fun x => if x = (k.val, true) then (128, false) else x) } }) u)))
  ∧ (∀ n lo hi x s, measures s n = false →
      let a : Int := (x.delim : Int) - 40 * skewOf s n
      respHit s n lo hi none = none ∧ ((a < lo ∨ hi < a ∨ respSeen s n x.seen = false) → respHit s n lo hi (some x) = none)
      ∧ (lo ≤ a → a ≤ hi → respSeen s n x.seen = true → respHit s n lo hi (some x) = some (x, a) ∧ respTaken n (some (x, a)) s = respFound n x.delim s))
  ∧ (∀ g sg lo hi hit s, (term s g).st ≠ .discovered → (term s g).st ≠ .popup →
      bandResp g sg lo hi hit s = if hit.isSome then bump (cbTree (g / 128) 6) 1 s else s)
  ∧ (∀ g sg lo hi s, ((term s g).st = .discovered ∨ (term s g).st = .popup) →
      bandResp g sg lo hi none s = rangeMiss g true s
      ∧ (∀ x a, let rtd := (a - bandBase s g sg).toNat
          let valid := respOk s g x = true ∧ bandBase s g sg ≤ a ∧ lo ≤ rtd ∧ rtd ≤ hi
          (¬ valid → bandResp g sg lo hi (some (x, a)) s = rangeMiss g true (respReject g x s))
          ∧ (valid → ∃ t, bandResp g sg lo hi (some (x, a)) s = t ∧ (term t g).st = .ranged ∧ (term t g).rtd = rtd
              ∧ (term t g).eqd = tEq s (g / 128) - rtd ∧ ((term s g).eqd ≠ tEq s (g / 128) - rtd → (mget {} t.taps g).valid = false))))
  ∧ (∀ g again s,
      ((term s g).st = .discovered → 2 ≤ (term s g).tries → (term (rangeMiss g again s) g).st = .unseen)
      ∧ (((term s g).st ≠ .discovered ∨ (term s g).tries < 2) →
          (term (rangeMiss g again s) g).st = (term s g).st ∧ (term (rangeMiss g again s) g).tries = min 3 ((term s g).tries + 1)
          ∧ (again = true → g % 128 ∈ (tree (rangeMiss g again s) (g / 128)).bandQ)))
  ∧ (∀ g i w hit s, (term s g).st ≠ .popup → probeResp g i w hit s = if hit.isSome then bump (cbTree (g / 128) 6) 1 s else s)
  ∧ (∀ g i w s, (term s g).st = .popup →
      probeResp g i w none s = queueBand g s
      ∧ (∀ x a, let rtd : Int := a - slotExpect w i + tEq s (g / 128) - (term s g).eqd
          let valid := respOk s g x = true ∧ ((priorBand s g).1 : Int) ≤ rtd ∧ rtd ≤ (priorBand s g).2
          (valid → probeResp g i w (some (x, a)) s = updTerm g (fun t => { t with activeDue := some 2 }) s)
          ∧ (¬ valid → probeResp g i w (some (x, a)) s = respReject g x s)))
  ∧ (∀ (n : Fin 64) (k : Fin 128) y m v s, Running s →
      let g := 128 * n.val + k.val
      let u := (ploamCarrier g v.delim s).2
      ((ploamCarrier g v.delim s).1 = none → exec (.ploamIn n k y m v) s = .next u)
      ∧ (∀ e, (ploamCarrier g v.delim s).1 = some e →
          (v.mic ≠ integrity u g u.now → exec (.ploamIn n k y m v) s = .next (if isStandby u then u else bump (cbTree n.val 13) 1 u))
          ∧ (v.mic = integrity u g u.now → (y = 0x10 ∨ y = 0x1A) → exec (.ploamIn n k y m v) s = .next (bump (cbTree n.val 12) 1 u))
          ∧ (v.mic = integrity u g u.now → (y = 0x01 ∨ y = 0x02 ∨ y = 0x09) → exec (.ploamIn n k y m v) s = .next u)
          ∧ (v.mic = integrity u g u.now → y ∉ [0x10, 0x1A, 0x01, 0x02, 0x09] → exec (.ploamIn n k y m v) s
              = .next (hopPushN 1 (fun q => beBytes 4 q.toNat ++ beBytes 8 (e % 2 ^ 64) ++ beBytes 1 n.val ++ beBytes 1 k.val ++ [0, 0]
                ++ bytesAt m 0 48) u))))
  ∧ (∀ g s,
      (ploamBurst s g = none → ploamCarrier g none s = (none, s))
      ∧ (∀ x, ploamBurst s g = some x → ploamCarrier g none s = (some (grantEnd x), updTree (g / 128) (fun t =>
          { t with grants := t.grants.map (fun y => if y.term = x.term && y.start = x.start then { y with ploamTaken := true } else y) }) s)))
  ∧ (∀ g d s,
      (ploamSlot s g d = none → ploamCarrier g (some d) s = (none, s))
      ∧ (∀ w, ploamSlot s g d = some w → ploamCarrier g (some d) s
          = (some (respEnd d.at_), respFound (g / 128) d.at_ (updTree (g / 128) (fun t => { t with window := some w }) s))))

/-- Acknowledgements and timers (R108, R143, R152, R154, R157, R158, Tables 4.4, 4.6): an acknowledgement ends the wait and has its message's effect, one of a
host message goes to the host, one with a wrong MIC is counted, one that no burst carried is none; T_ACK sends a message again three times and then fails
as its kind says; T_DISC and T_POPUP return the terminal to UNSEEN, a ROGUE one is disabled again every second, and a mute ends after one; before its time,
in another state or on the standby a timer does nothing.
One second is 100 impressions here (log 64). -/
def Obligations.TerminalTimersRun : Prop :=
  (∀ (n : Fin 64) (k : Fin 128) q m v s, Running s →
      let g := 128 * n.val + k.val
      let u := (ploamCarrier g v.delim s).2
      ((ploamCarrier g v.delim s).1 = none → exec (.acknowledgement n k q ⟨m, v⟩) s = .next u)
      ∧ (∀ e, (ploamCarrier g v.delim s).1 = some e →
          (v.mic ≠ integrity u g u.now → exec (.acknowledgement n k q ⟨m, v⟩) s = .next (if isStandby u then u else bump (cbTree n.val 13) 1 u))
          ∧ (v.mic = integrity u g u.now → isStandby u = true → exec (.acknowledgement n k q ⟨m, v⟩) s = .next u)
          ∧ (v.mic = integrity u g u.now → isStandby u = false → (term u g).awaits.find? (fun a => a.msg.seq = q) = none →
              exec (.acknowledgement n k q ⟨m, v⟩) s = .next (if (tree u n.val).hostSeqs.contains q then ploamPush g e m u else u))
          ∧ (∀ a, v.mic = integrity u g u.now → isStandby u = false → (term u g).awaits.find? (fun a => a.msg.seq = q) = some a →
              exec (.acknowledgement n k q ⟨m, v⟩) s = .next (acked g a.msg
                (updTree n.val (fun t => { t with msgs := t.msgs.filter (fun m => !(m.seq = q && m.slot = some k.val)) })
                  (updTerm g (fun t => { t with awaits := t.awaits.filter (fun x => x.msg.seq ≠ q) }) u))))))
  ∧ (∀ g m s, m.kind = .rangingTime true → (term s g).st ≠ .ranged →
      ∃ t, acked g m s = t ∧ (term t g).eqdAck = m.value ∧ (term t g).eqd = (term s g).eqd ∧ (term t g).st = (term s g).st)
  ∧ (∀ g m s, m.kind = .rangingTime false →
      ∃ t, acked g m s = t ∧ (term t g).eqdAck = m.value ∧ (term t g).rangeAcked = true)
  ∧ (∀ (n : Fin 64) (k : Fin 128) q s, Running s →
      let g := 128 * n.val + k.val
      (((term s g).awaits.find? (fun a => a.msg.seq = q) = none ∨ isStandby s = true) → exec (.tAck n k q) s = .next s)
      ∧ (∀ a, isStandby s = false → (term s g).awaits.find? (fun a => a.msg.seq = q) = some a →
          let early := s.imprCount < a.since + (tree s n.val).set.tAck ∨ (tree s n.val).msgs.any (fun m => m.seq = q && m.slot = a.msg.slot) = true
          (early → exec (.tAck n k q) s = .next s)
          ∧ (¬ early → a.resends < 3 → exec (.tAck n k q) s = .next (updTree n.val (fun t => { t with msgs := t.msgs ++ [a.msg] })
              (updTerm g (fun t => { t with
                awaits := t.awaits.map (fun x => if x.msg.seq = q then { x with resends := x.resends + 1 } else x) }) s)))
          ∧ (¬ early → 3 ≤ a.resends → exec (.tAck n k q) s
              = .next (ackFailed g a.msg (updTerm g (fun t => { t with awaits := t.awaits.filter (fun x => x.msg.seq ≠ q) }) s)))))
  ∧ (∀ g m s, m.kind = .rangingTime true →
      ∃ t, ackFailed g m s = t ∧ (term t g).eqd = (term s g).eqdAck ∧ (term t g).driftOk = 0 ∧ (term t g).st = (term s g).st)
  ∧ (∀ g m s, m.kind = .rangingTime false → (term s g).st = .ranged → (term s g).tries < 2 →
      ∃ t, ackFailed g m s = t ∧ (term t g).st = .discovered ∧ (term t g).tries = (term s g).tries + 1)
  ∧ (∀ g i m s, m.kind = .assignAlloc i → (term s g).actFailed = false →
      ∃ t, ackFailed g m s = t ∧ (term t g).actFailed = true ∧ (term t g).st = (term s g).st)
  ∧ (∀ (n : Fin 64) (k : Fin 128) s, Running s →
      let g := 128 * n.val + k.val
      let t := term s g
      let due := fun (x : TermSt) (after : Nat) => isStandby s = false ∧ t.st = x ∧ after ≤ t.timer
      (due .discovered (tree s n.val).set.tDisc → ∃ u, exec (.tDisc n k) s = .next u ∧ (term u g).st = .unseen ∧ (mget {} u.taps g).valid = false)
      ∧ (¬ due .discovered (tree s n.val).set.tDisc → exec (.tDisc n k) s = .next s)
      ∧ (due .popup (tree s n.val).set.tPopup → ∃ u, exec (.tPopup n k) s = .next u ∧ (term u g).st = .unseen)
      ∧ (¬ due .popup (tree s n.val).set.tPopup → exec (.tPopup n k) s = .next s)
      ∧ (due .rogue 100 → exec (.tRedisable n k) s = .next (queueMsg n.val (some k.val) (.disableSn false) 0 (updTerm g (fun t => { t with timer := 0 }) s)))
      ∧ (¬ due .rogue 100 → exec (.tRedisable n k) s = .next s))
  ∧ (∀ sn s, Running s → exec (.tSnMute sn) s
      = .next { s with power := { s.power with muted := s.power.muted.filter (fun e => !(e.1 = sn && e.2 + 100 ≤ s.imprCount)) } })

/-- Rogue terminals and key storage (R159, R160, Table 3.6, R134): enough events start the procedure and declare TR_ROGUE, two quiet impressions end it;
probed twice with one identity a terminal is disabled, named once more after a further trigger it is ROGUE; energy without an identity begins the
bisection; the last candidate withheld in a frame that ends, with its probe windows, silent is named; without the procedure energy is an OOG event; on a standby and on a dark tree nothing
is decided; a draining slot empties after two impressions and not before, and one with an uncorrectable error at once. -/
def Obligations.RogueAndKeyEventsRun : Prop :=
  (∀ (n : Fin 64) s, Running s → isStandby s = false → (tree s n.val).rogue.running = false → rogueDue s n.val = true →
      ((tree s n.val).st = .lit ∨ (tree s n.val).st = .serving) →
      ∃ t, exec (.rogueTrigger n) s = .next t ∧ (tree t n.val).rogue = { running := true } ∧ (declared s 1 n.val TR_ROGUE = false →
        declared t 1 n.val TR_ROGUE = true) ∧ (∀ g, (term t g).st = (term s g).st))
  ∧ (∀ (n : Fin 64) s, Running s → isStandby s = false → (tree s n.val).rogue.running = true → rogueDue s n.val = true →
      ((tree s n.val).st = .lit ∨ (tree s n.val).st = .serving) → exec (.rogueTrigger n) s = .next (rogueAgain n.val s))
  ∧ (∀ (n : Fin 64) s, Running s → (rogueDue s n.val = false ∨ isStandby s = true ∨ (tree s n.val).st = .off ∨ (tree s n.val).st = .dark) →
      exec (.rogueTrigger n) s = .next s)
  ∧ (∀ (n : Fin 64) s, Running s → (isStandby s = true ∨ (tree s n.val).rogue.running = false ∨ (tree s n.val).rogue.quiet < 2) →
      exec (.rogueClear n) s = .next s)
  ∧ (∀ (n : Fin 64) o d s, Running s → ((tree s n.val).st = .off ∨ (tree s n.val).st = .dark ∨ isStandby s = true) →
      exec (.rogueProbe n o d) s = .next s)
  ∧ (∀ (n : Fin 64) s, Running s → isStandby s = false → (tree s n.val).rogue.running = true → 2 ≤ (tree s n.val).rogue.quiet →
      ∃ t, exec (.rogueClear n) s = .next t ∧ (tree t n.val).rogue = {} ∧ declared t 1 n.val TR_ROGUE = false ∧ t.terms = s.terms)
  ∧ (∀ (n : Fin 64) o d s, Running s → isStandby s = false → ((tree s n.val).st = .lit ∨ (tree s n.val).st = .serving) →
      (tree s n.val).rogue.running = false →
      exec (.rogueProbe n o ⟨true, d⟩) s = .next (oogEvent n.val s) ∧ exec (.rogueProbe n o ⟨false, d⟩) s = .next s)
  ∧ (∀ (n : Fin 64) e d s, Running s → isStandby s = false → ((tree s n.val).st = .lit ∨ (tree s n.val).st = .serving) →
      let r := (tree s n.val).rogue
      let u := if r.heldAt.isSome ∧ r.heldSpan.1 ≤ s.now then
          updTree n.val (fun x => { x with rogue := { x.rogue with heard := x.rogue.heard || d } }) s else s
      let v := rogueStep n.val (fun r => { r with named := none }) u
      r.running = true →
      ((∀ o, rogueIdle r = true → exec (.rogueProbe n o ⟨e, d⟩) s = .next u)
      ∧ (rogueIdle r = false → exec (.rogueProbe n none ⟨e, d⟩) s
          = .next (if r.cands = [] ∧ e = true ∧ (tree s n.val).set.rogueBisect = true then bisectNext n.val (rogueCands v n.val) v else v))))
  ∧ (∀ n l s, l ≠ [] → bisectNext n l s = rogueStep n (fun r => { r with
      cands := l, withheld := if l.length = 1 then l else l.take (ceilDiv l.length 2), heldAt := none, heard := false }) s)
  ∧ (∀ (n : Fin 64) (k : Fin 128) e d s, Running s → isStandby s = false → ((tree s n.val).st = .lit ∨ (tree s n.val).st = .serving) →
      let r := (tree s n.val).rogue
      r.running = true → (r.suspect = none ∨ r.again = true) →
      (r.named ≠ some k.val → ∃ t, exec (.rogueProbe n (some k.val) ⟨e, d⟩) s = .next t ∧ (tree t n.val).rogue.named = some k.val ∧ t.terms = s.terms)
      ∧ (r.named = some k.val → r.suspect ≠ some k.val → (term s (128 * n.val + k.val)).serial ≠ 0 → (term s (128 * n.val + k.val)).st ≠ .rogue →
          (term s (128 * n.val + k.val)).st ≠ .disabled →
          ∃ t, exec (.rogueProbe n (some k.val) ⟨e, d⟩) s = .next t ∧ (term t (128 * n.val + k.val)).st = .disabled
            ∧ (tree t n.val).rogue.suspect = some k.val ∧ (tree t n.val).rogue.again = false)
      ∧ (r.named = some k.val → r.suspect = some k.val → (term s (128 * n.val + k.val)).serial ≠ 0 → (term s (128 * n.val + k.val)).st = .disabled →
          ∃ t, exec (.rogueProbe n (some k.val) ⟨e, d⟩) s = .next t ∧ (term t (128 * n.val + k.val)).st = .rogue))
  ∧ (∀ (n : Fin 64) (k : Fin 128) e b s, isStandby s = false → (tree s n.val).rogue.heldAt = some b → b + 155520 ≤ e →
      (tree s n.val).rogue.heldSpan.2 ≤ e → (tree s n.val).rogue.cands = [k.val] →
      (tree s n.val).rogue.heard = false → (tree s n.val).rogue.suspect ≠ some k.val →
      (term s (128 * n.val + k.val)).serial ≠ 0 → (term s (128 * n.val + k.val)).st ≠ .rogue → (term s (128 * n.val + k.val)).st ≠ .disabled →
      (term (rogueVerdict n.val e s) (128 * n.val + k.val)).st = .disabled ∧ (tree (rogueVerdict n.val e s) n.val).rogue.suspect = some k.val)
  ∧ (∀ (n d : Fin 64) r s, Running s → (keySet s (keyIx n.val d.val r)).switchedAt + 2 ≤ s.imprCount →
      ∃ t, exec (.keyDrain n d r) s = .next t ∧ (keySet t (keyIx n.val d.val r)).st0 ≠ .draining ∧ (keySet t (keyIx n.val d.val r)).st1 ≠ .draining
        ∧ ((keySet s (keyIx n.val d.val r)).st0 = .draining → (keySet t (keyIx n.val d.val r)).key0 = 0)
        ∧ t = { s with keys := t.keys })
  ∧ (∀ (n d : Fin 64) r s, Running s → s.imprCount < (keySet s (keyIx n.val d.val r)).switchedAt + 2 → exec (.keyDrain n d r) s = .next s)
  ∧ (∀ (n d : Fin 64) r l s, Running s →
      ∃ t, exec (.keyEcc n d r l) s = .next t ∧ slotSt (keySet t (keyIx n.val d.val r)) l = .empty
        ∧ slotSt (keySet t (keyIx n.val d.val r)) (!l) = slotSt (keySet s (keyIx n.val d.val r)) (!l)
        ∧ ((tree s n.val).xtrig.getLsbD 3 = false → Reports { s with keys := t.keys } t))

/-! ### Tributaries, lanes, uplinks -/

/-- Tributaries (R173, R174, R177 to R179, R183, Table 6.2): the next occurrence of a downstream flow is mapped DS_COMMIT before its slot: K frames, whose FCNT
counts on, with the RDI of their frame, put into the frame at once where the stroke in progress has composed the slot; a missing place or a feed lost on every port makes an AIS frame, an empty store of a stream tributary an UNDERRUN too; each upstream decision of a stream
tributary gives exactly K outputs, whose orderInfo counts on; 3 ms out of frame over two decisions declares TB_LOF, 3 ms in frame clears it, masked
its spans begin anew; a held tributary and another flow do nothing.
That a held flow's deframer takes no bytes is the model's choice (log 126). -/
def Obligations.TributariesRun : Prop :=
  (∀ (f : BitVec 16) r ft d tx s, Running s → (canonPlate s).bind (flowIn · f.toNat) = some r → r.trib = true → r.up = false →
      (trib s f.toNat).held = false → (tree s r.tree).st = .serving → nextSlot s r.tree f.toNat = some (ft, d, tx) →
      let u := advance (tx + millLag s - Config.DS_COMMIT) s
      let x := mapFrames r (rdiAt u r tx) (feedLost u (trib u f.toNat)) (trib s f.toNat).cfg.k u
      let v := setTrib f.toNat { trib x.2 f.toNat with mapped := x.1, mapAt := tx } x.2
      let passed := (tree s r.tree).compAt = ft ∧ d.off + d.len ≤ (tree s r.tree).compPos
      exec (.tribMap f) s = .next (if passed then tribLate r.tree r d v else v)
        ∧ v = { u with tribs := v.tribs, cnt := v.cnt }
        ∧ (trib v f.toNat).fcnt = (trib s f.toNat).fcnt + BitVec.ofNat 16 (trib s f.toNat).cfg.k
        ∧ (trib v f.toNat).store = (trib s f.toNat).store.drop (trib s f.toNat).cfg.k)
  ∧ (∀ (f : BitVec 16) r s, Running s → (canonPlate s).bind (flowIn · f.toNat) = some r → (r.trib = false ∨ r.up = true
        ∨ (trib s f.toNat).held = true ∨ (tree s r.tree).st ≠ .serving ∨ nextSlot s r.tree f.toNat = none) → exec (.tribMap f) s = .next s)
  ∧ (∀ (f : BitVec 16) s, Running s → (canonPlate s).bind (flowIn · f.toNat) = none → exec (.tribMap f) s = .next s)
  ∧ (∀ r rdi lost s, Running s →
      let t := trib s r.id
      let x := mapFrames r rdi lost 1 s
      (∀ y l, lost = false → t.store = some y :: l →
          x.1 = tribFrame r.label false rdi t.fcnt (if t.cfg.kindPacket then itemPayload t.cfg.payLen y else y))
      ∧ ((lost = true ∨ (t.store.head? = some none) ∨ (t.store = [] ∧ t.cfg.kindPacket = false)) →
          x.1 = tribFrame 0xFF true rdi t.fcnt (List.replicate t.cfg.payLen 0xFF)
            ∧ (cntOf x.2 (xFlow r.id 11)).v = (cntOf s (xFlow r.id 11)).v + 1)
      ∧ ((cntOf x.2 (xFlow r.id 9)).v = (cntOf s (xFlow r.id 9)).v + (if t.store = [] ∧ t.cfg.kindPacket = false then 1 else 0)))
  ∧ (∀ (f : BitVec 16) r s, Running s → flowOf s f.toNat = some r → (r.trib = false ∨ r.up = false ∨ (trib s f.toNat).held = true) →
      exec (.occurrenceDecision f) s = .next s ∧ exec (.tbLof f) s = .next s)
  ∧ (∀ (f : BitVec 16) s, Running s → flowOf s f.toNat = none →
      exec (.occurrenceDecision f) s = .next s ∧ exec (.tbLof f) s = .next s)
  ∧ (∀ (f : BitVec 16) r s, Running s → flowOf s f.toNat = some r → r.trib = true → r.up = true → (trib s f.toNat).held = false →
      (trib s f.toNat).present = true →
      ∃ t, exec (.occurrenceDecision f) s = .next t ∧ (trib t f.toNat).occ = []
        ∧ (trib t f.toNat).align
            = (deframe (if featOn s 10 then 2 else 0) { trib s f.toNat with occ := [], out := [] } (occBytes (trib s f.toNat).cfg (trib s f.toNat).occ).1).t.align
        ∧ ((trib s f.toNat).cfg.kindPacket = false →
            (trib t f.toNat).order = (trib s f.toNat).order + BitVec.ofNat 32 (trib s f.toNat).cfg.k))
  ∧ (∀ (f : BitVec 16) r s, Running s → flowOf s f.toNat = some r → r.trib = true → r.up = true → (trib s f.toNat).held = false →
      let x := trib s f.toNat
      let out := x.oofSince.any (fun a => decide (a + 3732480 ≤ s.now)) = true ∧ 2 ≤ x.oofDecisions
      let in_ := x.syncSince.any (fun a => decide (a + 3732480 ≤ s.now)) = true
      (masked s 3 f.toNat TB_LOF = true →
          exec (.tbLof f) s = .next (setTrib f.toNat { x with oofSince := none, oofDecisions := 0, syncSince := none } s))
      ∧ (masked s 3 f.toNat TB_LOF = false → out → ∃ t, exec (.tbLof f) s = .next t ∧ declared t 3 f.toNat TB_LOF = true)
      ∧ (masked s 3 f.toNat TB_LOF = false → ¬ out → in_ → ∃ t, exec (.tbLof f) s = .next t ∧ declared t 3 f.toNat TB_LOF = false)
      ∧ (masked s 3 f.toNat TB_LOF = false → ¬ out → ¬ in_ → exec (.tbLof f) s = .next s))

/-- The commit point of a mill lane (R37 to R42, R72): the next sequence number, its frame crossed whole, commits to the tailrace, its tributary's store or
its queue; with an uncorrectable word the lane replays until what had crossed has passed, and a second failure of the same entry retires it; another number
and a frame not yet across do nothing; a frame delivered by the unit that sailed before is suppressed, its cells freed.
That a frame has crossed is judged when the COMMIT row comes (log 60). -/
def Obligations.LanesCommit : Prop :=
  (∀ (k : Fin 24) q e fr thr s, Running s → q = (lane s k.val).committed + 1 → (lane s k.val).hopper.find? (fun e => e.1 = q) = some (e, fr, thr) →
      let l := lane s k.val
      (crossed l q fr thr = false → ∀ g, exec (.commit k q g) s = .next s)
      ∧ (crossed l q fr thr = true → exec (.commit k q true) s = .next (commitFrame fr thr (setLane k.val { l with
          committed := q, failed := if l.failed = some q then none else l.failed, replayTo := if l.replayTo = some q then none else l.replayTo } s)))
      ∧ (crossed l q fr thr = true → l.failed ≠ some q →
          ∃ t, exec (.commit k q false) s = .next t ∧ lane t k.val = { l with failed := some q, replayTo := some (lastCrossed l q) }
            ∧ (cntOf t (cbLane k.val 3)).v = (cntOf s (cbLane k.val 3)).v + 1
            ∧ t.mill = (setLane k.val { l with failed := some q, replayTo := some (lastCrossed l q) } s).mill)
      ∧ (crossed l q fr thr = true → l.failed = some q → l.retired = false →
          exec (.commit k q false) s = .next (event 0x0107 8 k.val [] (setLane k.val { l with retired := true } s)))
      ∧ (crossed l q fr thr = true → l.failed = some q → l.retired = true → exec (.commit k q false) s = .next s))
  ∧ (∀ (k : Fin 24) q g s, Running s → (q ≠ (lane s k.val).committed + 1 ∨ (lane s k.val).hopper.find? (fun e => e.1 = q) = none) →
      exec (.commit k q g) s = .next s)
  ∧ (∀ fr s, fr.gone = true → commitFrame fr true s = s ∧ commitFrame fr false s = freeCells fr.dom (cellsOf fr.len) s)
  ∧ (∀ fr s, fr.gone = false → commitFrame fr false s = { s with mill := { s.mill with pond := mupd [] s.mill.pond fr.queue (· ++ [fr]) } })
  ∧ (∀ fr s, fr.gone = false → (∀ x, (canonPlate s).bind (flowIn · fr.flow) = some x → x.trib = false ∨ x.up = true) →
      commitFrame fr true s = { s with mill := { s.mill with tail := mupd [] s.mill.tail fr.flow (· ++ [fr]) } })
  ∧ (∀ fr x s, fr.gone = false → (canonPlate s).bind (flowIn · fr.flow) = some x → x.trib = true → x.up = false →
      commitFrame fr true s = if fr.chaff then chaffStore fr.flow fr.dom fr.len s else tribStore fr.flow fr.dom fr.port fr.data s)
  ∧ (∀ f d p y s, (trib s f).cfg.kindPacket = true → (p = none ∨ ∃ q, p = some q ∧ q ∈ (trib s f).fedBy) → y.length ≤ (trib s f).cfg.payLen - 2 →
      storeDepth (trib s f) < 2 * (trib s f).cfg.k → tribStore f d p y s = setTrib f { trib s f with store := (trib s f).store ++ [some y] } s)

/-- Uplink ports (R214, R215, R218, R257, R258, R260 to R267, R271, R273, R275, R276, R322, R327, Tables 6.2, 8.2, 8.6): a frame that fails the checks, an
uncorrectable codeword that it overlaps included, is counted and discarded; one that passes is counted and goes through the receive
order: MAC control, ESMC, PTP, in-band, then its key's screen, NO_FLOW where it has none, and the screen's sequence recovery; signal and alignment
losses and a remote fault declare their defects, which a good port clears while no fault is received; a fault is answered on the transmitter; a trigger
rehashes the port to its spare, unless that already serves another, but not a twin; timers end; a MODE 0 unit without the sails sends no PDU. A port that is not
configured, a timer that does not run, a PDU not enabled do nothing.
ESMC, PTP and RoE layouts are PRESUMED (logs 46, 48, 55); a PDU takes the place of one still waiting (log 47). -/
def Obligations.UplinksRun : Prop :=
  (∀ (l : Fin 32) b fcs (r : FecRun) s, Running s →
      let p := portOf s l.val
      let v := fecCount p r.cws (updPort p (fun u => { u with lastBad := (r.cws.getLast?.map Option.isNone).getD u.lastBad }) s)
      let hit := (((uport s p).lastBad :: r.cws.map Option.isNone).reverse.take r.overlap).any id
      let bad := macFails v p b.length (fcs && !hit)
      (portOn s p = false → exec (.uplinkFrameRx l b fcs r) s = .next s)
      ∧ (∀ o, portOn s p = true → bad = some o → exec (.uplinkFrameRx l b fcs r) s = .next (bump (cPort p o) 1 v))
      ∧ (portOn s p = true → bad = none → exec (.uplinkFrameRx l b fcs r) s = .next (frameRx p b (bump (cPort p 8) b.length (bump (cPort p 0) 1 v)))))
  ∧ (∀ s p len, (len < 64 → macFails s p len false = some 0x18 ∧ macFails s p len true = some 0x18)
      ∧ (64 ≤ len → maxLen s p < len → macFails s p len false = some 0x20 ∧ macFails s p len true = some 0x20)
      ∧ (64 ≤ len → len ≤ maxLen s p → macFails s p len false = some 0x10 ∧ macFails s p len true = none))
  ∧ (∀ p b s,
      let e := etherAt b
      let op := natAt b (e + 2) 2
      let ptp := etherType b = 0x88F7 ∧ regBit s (aPORT p) 30 = true ∧ (natAt b 0 6 = 0x011B19000000 ∨ natAt b 0 6 = 0x0180C200000E)
      let board := etherType b = regFld s aINBAND_CFG 15 0 ∧ natAt b 0 6 = portMac s p ∧ regBit s (aPORT p) 28 = true
      (etherType b = 0x8808 → op ≠ 1 → op ≠ 0x101 → frameRx p b s = bump (cPort p 0x38) 1 s)
      ∧ (etherType b = 0x8808 → (op = 1 ∨ op = 0x101) →
          let u := bump (cPort p (if op = 1 then 0x28 else 0x30)) 1 s
          let n := pauseTime b e
          ((regBit s (aPORT p) 27 = false ∨ hasThroughEgress u p = true) → frameRx p b s = u)
          ∧ (regBit s (aPORT p) 27 = true → hasThroughEgress u p = false → frameRx p b s
              = updPort p (fun x => { x with pausedTo := if n = 0 then 0 else s.now + pauseMc (quadMode s (p / 4)) n }) u))
      ∧ (etherType b = 0x8809 → frameRx p b s = if regBit s (aPORT p) 29 = true ∧ natAt b (e + 2) 1 = 0x0A ∧ natAt b (e + 3) 3 = 0x0019A7
          then esmcRx p e b s else bump (cPort p 0x40) 1 s)
      ∧ (ptp → (natAt b (e + 6) 1 < 24 ∨ 43 < natAt b (e + 6) 1) → frameRx p b s = bump (cPort p 0x48) 1 s)
      ∧ (ptp → 24 ≤ natAt b (e + 6) 1 → natAt b (e + 6) 1 ≤ 43 → frameRx p b s = ptpRx p (e + 2) (natAt b (e + 6) 1) b s)
      ∧ (etherType b ≠ 0x8808 → etherType b ≠ 0x8809 → ¬ ptp → board → frameRx p b s = inbandRx p e b s)
      ∧ (etherType b ≠ 0x8808 → etherType b ≠ 0x8809 → ¬ ptp → ¬ board → frameRx p b s = sortFrame p b s))
  ∧ (∀ p b s,
      (keyKind b = none → sortFrame p b s = bump (cPort p 0xB0) 1 s)
      ∧ (∀ k, keyKind b = some k → (∀ x ∈ s.screens, keyOfScreen x ≠ (k.1, vidO b, vidI b, k.2)) → sortFrame p b s = bump (cPort p 0xA8) 1 s)
      ∧ (∀ k x, keyKind b = some k → s.screens.find? (fun x => keyOfScreen x = (k.1, vidO b, vidI b, k.2)) = some x → sortFrame p b s = screenRx p x b s))
  ∧ (∀ p x b s, x.recEn = false → screenRx p x b s = screenAdmit p x.flow b s)
  ∧ (∀ p x b q r s, x.recEn = true → isStandby s = false → rtagOf b = some q → x.recov = some r → s.now < x.lastPass + x.resetMs * 1244160 →
      sameCycle x p q s.now = none →
      let d := (q - r).toInt
      let kept := fun (lost : Nat) (s : State) => { s with screens := s.screens.map (fun y =>
        if keyOfScreen y = keyOfScreen x then { recovPass y q s.now with lastRx := some (s.now, p, q, lost) } else y) }
      ((x.histLen ≤ d ∨ d ≤ -(x.histLen : Int)) → screenRx p x b s = bump (cPort p 0x58) 1 s)
      ∧ (0 < d → d < x.histLen → screenRx p x b s = screenAdmit p x.flow b (kept (d.toNat - 1) (bump (cPort p 0x60) (d.toNat - 1) s)))
      ∧ (d ≤ 0 → -(x.histLen : Int) < d → x.marked.contains d.natAbs = true → screenRx p x b s = bump (cPort p 0x50) 1 s)
      ∧ (d ≤ 0 → -(x.histLen : Int) < d → x.marked.contains d.natAbs = false → screenRx p x b s = screenAdmit p x.flow b (kept 0 s)))
  ∧ (∀ (l : Fin 32) on s, Running s → portOn s (portOf s l.val) = false → exec (.ulLos l) s = .next s ∧ exec (.ulLof l) s = .next s
      ∧ exec (.ulRdi l) s = .next s ∧ exec (.ulClear l) s = .next s ∧ exec (.remoteFault l on) s = .next s ∧ exec (.localFault l on) s = .next s)
  ∧ (∀ (l : Fin 32) on s, Running s → portOn s (portOf s l.val) = true →
      let p := portOf s l.val
      let los := declared s 4 p UL_LOS
      let lof := declared s 4 p UL_LOF
      (∃ t, exec (.ulLos l) s = .next t ∧ declared t 4 p UL_LOS = true ∧ (uport t p).aligned = false ∧ (uport t p).rfTx = true
          ∧ (uport t p).faultAt = s.now ∧ t.mill = s.mill)
      ∧ (∃ t, exec (.ulLof l) s = .next t ∧ (los = false → declared t 4 p UL_LOF = true) ∧ (uport t p).aligned = false ∧ (uport t p).rfTx = true
          ∧ (uport t p).faultAt = s.now ∧ t.mill = s.mill)
      ∧ (∃ t, exec (.ulRdi l) s = .next t ∧ (los = false → lof = false → declared t 4 p UL_RDI = true) ∧ (uport t p).rfRx = true
          ∧ (uport t p).faultAt = s.now ∧ t.mill = s.mill)
      ∧ (((uport s p).rfRx = true ∨ (uport s p).lfRx = true) → exec (.ulClear l) s = .next s)
      ∧ ((uport s p).rfRx = false → (uport s p).lfRx = false →
          ∃ t, exec (.ulClear l) s = .next t ∧ t.now = max s.now ((uport s p).faultAt + ulClr s p)
            ∧ (∀ c ∈ [UL_LOS, UL_LOF, UL_RDI], declared t 4 p c = false) ∧ (uport t p).aligned = true ∧ (uport t p).rfTx = false ∧ t.mill = s.mill)
      ∧ exec (.remoteFault l on) s = .next (updPort p (fun u => { u with rfRx := on, faultAt := s.now }) s)
      ∧ exec (.localFault l on) s = .next (updPort p (fun u => { u with lfRx := on, faultAt := s.now, rfTx := on || los || lof }) s))
  ∧ (∀ (l : Fin 32) q s, Running s → portOn s l.val = true → (uport s l.val).trigAt ≠ 0 → (uport s l.val).rehashed = false →
      regBit s (aPORT l.val) 26 = false → (uport s l.val).spare = some q →
      ∃ t, exec (.rehash l) s = .next t ∧ t.now = max s.now (strokeAt s ((uport s l.val).trigAt + 1244))
        ∧ uport t l.val = { uport s l.val with trigAt := 0, rehashed := !spareUsed s q, txLeft := 0, txOf := none })
  ∧ (∀ (l : Fin 32) s, Running s → ((uport s l.val).trigAt = 0 ∨ (uport s l.val).rehashed = true ∨ portOn s l.val = false
        ∨ (uport s l.val).spare = none ∨ regBit s (aPORT l.val) 26 = true) → exec (.rehash l) s = .next s)
  ∧ (∀ (l : Fin 32) s, Running s →
      ((uport s l.val).pausedTo = 0 → exec (.pauseExpiry l) s = .next s)
      ∧ ((uport s l.val).pausedTo ≠ 0 →
          exec (.pauseExpiry l) s = .next (updPort l.val (fun u => { u with pausedTo := 0 }) (advance (uport s l.val).pausedTo s))))
  ∧ (∀ e x s, Running s → s.screens.find? (fun x => keyOfScreen x = scKey e) = some x → x.recEn = true → x.recov.isSome = true →
      ∃ t, exec (.frerReset e) s = .next t ∧ t.now = max s.now (x.lastPass + x.resetMs * 1244160)
        ∧ t.screens = s.screens.map (fun y => if keyOfScreen y = scKey e then { y with recov := none, marked := [], told := true } else y))
  ∧ (∀ e s, Running s → (∀ x, s.screens.find? (fun x => keyOfScreen x = scKey e) = some x → x.recEn = false ∨ x.recov = none) →
      exec (.frerReset e) s = .next s)
  ∧ (∀ (l : Fin 32) s, Running s →
      let on := (uport s l.val).esmcQl.isSome = true ∧ regBit s (aPORT l.val) 29 = true
      (on → exec (.esmcTimeout l) s = .next (updPort l.val (fun u => { u with esmcQl := none })
          (advance ((uport s l.val).esmcAt + 5 * 1244160000) s)))
      ∧ (¬ on → exec (.esmcTimeout l) s = .next s))
  ∧ (∀ (l : Fin 32) s, Running s →
      let on := portOn s l.val = true ∧ regBit s (aPORT l.val) 29 = true ∧ mute s = false
      (¬ on → exec (.esmcInfo l) s = .next s)
      ∧ (on → ∃ t, exec (.esmcInfo l) s = .next t ∧ (uport t l.val).devEsmc.isSome = true ∧ (uport t l.val).esmcSent = outQl s l.val
          ∧ t = { s with free := t.free, ports := t.ports }))
  ∧ (∀ (l : Fin 32) b m q two s, Running s →
      let on := portOn s l.val = true ∧ regBit s (aPORT l.val) 30 = true ∧ (b = true → twoDom s = true) ∧ mute s = false
      (¬ on → exec (.ptpSend l b m q two) s = .next s)
      ∧ (on → m ≠ 8 → ∃ t, exec (.ptpSend l b m q two) s = .next t ∧ (uport t l.val).devPtp.isSome = true
          ∧ t.time = { s.time with awaiting := s.time.awaiting ++ (if two then [(l.val, b, m.toNat, q.toNat)] else []) })
      ∧ (on → s.time.stamped.find? (fun x => x.1 = (l.val, b, q.toNat)) = none → exec (.ptpSend l b 8 q two) s = .next s)
      ∧ (∀ x, on → s.time.stamped.find? (fun x => x.1 = (l.val, b, q.toNat)) = some x →
          ∃ t, exec (.ptpSend l b 8 q two) s = .next t ∧ (uport t l.val).devPtp.isSome = true
            ∧ t.time.stamped = s.time.stamped.filter (fun x => !decide (x.1 = (l.val, b, q.toNat)))))

/-! ### The pair -/

/-- The lease (R217, R329, R337 to R343): a SAILS_ON unit of a pair that is not SOLO renews at PON frame starts for 1 ms under the next number, in a frame of
Table 11.4, and counts a grant that stays away; a standby grants; the fence and raise points follow from the expiry, the fence with the sails whether or not a GRANT came; a message of a
later epoch feathers at the next stroke boundary, and the unit joins; releases, notices and leave messages have their effects on the other unit, and every
valid frame keeps the sideband good. Epochs and times of a lease frame are completed to the values nearest the unit's own.
The cause of a release without X, and the epoch of a LEAVE frame, are free values (logs 21, 100). -/
def Obligations.LeaseRuns : Prop :=
  (∀ s, Running s → s.pair.sails = true → pairMode s = 2 → s.pair.st ≠ .solo → s.pair.contact = true → s.pair.renewing = false →
      let n := (s.pair.num + 1) % 16
      let e := frameStart s s.now + 1244160
      ∃ t, exec .renewal s = .next t ∧ t.now = max s.now (frameStart s s.now) ∧ t.pair.num = n ∧ t.pair.renewing = true
        ∧ t.pair.expiry = e ∧ t.pair.leaseTx = some (.renew, s.pair.epoch) ∧ t.pair.leaseWord = leaseWordOf .renew n e s
        ∧ t.pair.leaseOut.getLast?.map Prod.snd = some (leaseWordOf .renew n e s))
  ∧ (∀ s, Running s → s.pair.sails = true → pairMode s = 2 → s.pair.st ≠ .solo → s.pair.renewing = true →
      let b := frameStart s (max s.now (s.pair.expiry - 1244160 + 1))
      (s.pair.grantBack = true → ∃ t, exec .renewal s = .next t ∧ t.now = max s.now b ∧ t.pair.num = (s.pair.num + 1) % 16
          ∧ t.pair.expiry = b + 1244160 ∧ t.pair.grantBack = false)
      ∧ (s.pair.grantBack = false → ∃ t, exec .renewal s = .next t ∧ t.now = max s.now b ∧ t.pair = { s.pair with lostTold := true }
          ∧ (cntOf t (cPair 0x118)).v = (cntOf s (cPair 0x118)).v + 1))
  ∧ (∀ s, Running s → (s.pair.sails = false ∨ pairMode s ≠ 2 ∨ s.pair.st = .solo ∨ (s.pair.contact = false ∧ s.pair.renewing = false)) → exec .renewal s = .next s)
  ∧ (∀ e s, (s.pair.sails = false ∨ seqLt s.pair.epoch e = false) → epochSeen e s = s)
  ∧ (∀ e s, s.pair.sails = true → seqLt s.pair.epoch e = true → (∀ x ∈ s.mill.landing, ∀ d, x.eff ≠ .feather d) →
      ∃ t, epochSeen e s = t ∧ t.mill.landing = s.mill.landing ++ [posted (.feather e) s] ∧ t.pair = s.pair)
  ∧ (∀ e b, b.pair.sails = true → let t := landOne (posted (.feather e) b) b
      t.pair.sails = false ∧ t.pair.st = .joining ∧ t.pair.epoch = topEpoch b e ∧ t.pair.granted = false ∧ t.pair.expiry = 0)
  ∧ (∀ num epoch e s, Running s → isStandby s = true → (s.pair.granted = false ∨ s.pair.num ≠ num % 16 ∨ s.pair.epoch ≠ nearEpoch s epoch) →
      ∃ t, exec (.renew num epoch e) s = .next t ∧ t.pair.granted = true ∧ t.pair.num = num % 16 ∧ t.pair.epoch = nearEpoch s epoch
        ∧ t.pair.expiry = nearTime s e ∧ t.pair.renewAt = s.now ∧ t.pair.sbGood = true ∧ t.pair.leaseTx = some (.grant, nearEpoch s epoch))
  ∧ (∀ num epoch e s, Running s →
      let u := { s with pair := { s.pair with sbGood := true, sbAt := s.now } }
      let near := nearEpoch s epoch
      (isStandby s = true → s.pair.granted = true → s.pair.num = num % 16 → s.pair.epoch = near → exec (.renew num epoch e) s = .next u)
      ∧ (isStandby s = false → exec (.renew num epoch e) s = .next (epochSeen near u))
      ∧ (s.pair.sails = true → num % 16 = s.pair.num → near = s.pair.epoch →
          exec (.grant num epoch) s = .next { u with pair := { u.pair with grantBack := true, granted := true, lostTold := false } })
      ∧ ((s.pair.sails = false ∨ num % 16 ≠ s.pair.num ∨ near ≠ s.pair.epoch) → exec (.grant num epoch) s = .next (epochSeen near u)))
  ∧ (∀ s, Running s → s.pair.sails = true → s.pair.expiry ≠ 0 →
      ∃ t, exec .fencePoint s = .next t ∧ t.now = max s.now (s.pair.expiry - 124400) ∧ t.pair.sails = false ∧ t.pair.fencedLease = true
        ∧ t.pair.st = .solo ∧ t.pair.granted = false ∧ t.pair.fenceEpoch = some s.pair.epoch ∧ t.pair.leaseTx = some (.fenced, s.pair.epoch))
  ∧ (∀ s, Running s → (s.pair.sails = false ∨ s.pair.expiry = 0) → exec .fencePoint s = .next s)
  ∧ (∀ s, Running s → isStandby s = true → s.pair.granted = true → s.pair.expiry ≠ 0 → regBit s aPAIR_CFG 27 = false →
      s.pair.handover.any (fun y => decide (y.1 ≤ s.pair.expiry + 124400)) = false →
      let x := s.pair.expiry + 124400
      let form := if s.pair.st = .joining then 7 else 2
      let u := if s.pair.st = .joining then coldSections (advance x s) else advance x s
      let v := runLag x u.pair.lag.length u
      exec .raisePoint s = .next (takeSails form 0 0 { v with pair := { v.pair with handover := none } }))
  ∧ (∀ s, Running s → (isStandby s = false ∨ s.pair.granted = false ∨ s.pair.expiry = 0 ∨ regBit s aPAIR_CFG 27 = true
        ∨ s.pair.handover.any (fun y => decide (y.1 ≤ s.pair.expiry + 124400)) = true) → exec .raisePoint s = .next s)
  ∧ (∀ epoch x s, Running s →
      let u := { s with pair := { s.pair with sbGood := true, sbAt := s.now } }
      (isStandby s = false → exec (.release epoch x) s = .next (epochSeen (nearEpoch s epoch) u) ∧ exec (.fencedNotice epoch) s = .next (epochSeen (nearEpoch s epoch) u))
      ∧ (isStandby s = true → seqLt (nearEpoch s epoch) s.pair.epoch = true → exec (.release epoch x) s = .next u)
      ∧ (isStandby s = true → seqLt (nearEpoch s epoch) s.pair.epoch = false → s.pair.handover = none →
          ∃ t, exec (.release epoch x) s = .next t ∧ t.pair.epoch = nearEpoch s epoch ∧ t.pair.sails = false
            ∧ (s.pair.st ≠ .joining → ∀ y, x = some y → t.pair.handover.map Prod.fst = some (nearTime s y))
            ∧ (s.pair.st ≠ .joining → x = none → ∃ c, t.pair.handover = some (strokeAt s s.now, 1, c, 0) ∧ 1 ≤ c ∧ c ≤ 9)
            ∧ (s.pair.st = .joining → s.pair.granted = true →
                t.pair.handover = some (match x with | some y => nearTime s y | none => strokeAt s s.now, 7, 0, 0))
            ∧ (s.pair.st = .joining → s.pair.granted = false → t.pair.handover = none)))
  ∧ (∀ epoch s, Running s → isStandby s = true → s.pair.handover = none →
      ∃ t, exec (.fencedNotice epoch) s = .next t ∧ t.pair.handover = some (strokeAt s (s.now + 1), if s.pair.st = .joining then 7 else 4, 0, 0))
  ∧ (∀ x form c n s, form ≠ 6 ∨ (∀ y, s.pair.handover = some y → y.2.1 ≠ 5) →
      (s.pair.handover = none → awaitX x form c n s = { s with pair := { s.pair with handover := some (x, form, c, n) } })
      ∧ (∀ y, s.pair.handover = some y → x < y.1 → awaitX x form c n s = { s with pair := { s.pair with handover := some (x, form, c, n) } })
      ∧ (∀ y, s.pair.handover = some y → y.1 < x → awaitX x form c n s = s))
  ∧ (∀ x c n y s, s.pair.handover = some y → y.2.1 = 5 → awaitX x 6 c n s = { s with pair := { s.pair with handover := some (x, 6, c, n) } })
  ∧ (∀ s, Running s → s.pair.sails = true →
      ∃ t, exec .leave s = .next t ∧ t.pair.st = .solo ∧ t.pair.granted = false ∧ t.pair.sails = true ∧ t.pair.epoch = s.pair.epoch
        ∧ t.pair.handover = none ∧ t.pair.expiry = 0 ∧ t.cmd.ackWait = [])
  ∧ (∀ s, Running s → s.pair.sails = false →
      ∃ t, exec .leave s = .next t ∧ t = { s with free := t.free, pair := { s.pair with sbGood := true, sbAt := s.now } })
  ∧ (∀ s, Running s → s.pair.sbGood = true → ∃ t, exec .sbLost s = .next t ∧ t.pair.sbGood = false ∧ t.now = max s.now (s.pair.sbAt + 24576))
  ∧ (∀ s, Running s → s.pair.sbGood = false → exec .sbLost s = .next s)
  ∧ (∀ s, Running s → isStandby s = true →
      ∃ t, exec .noRenew s = .next t ∧ t.now = max s.now (s.pair.renewAt + 311040) ∧ t.pair = { s.pair with lostTold := true })
  ∧ (∀ s, Running s → isStandby s = false → exec .noRenew s = .next s)

/-- Switchovers (R207, R209, R210, R216, R217, R224, R328, R343 to R346): a trigger is refused, held or ordered as a feeder handover, or does not arise; at X the old
unit feathers and the new one, having processed its lag where the sails were released, raises the next epoch; triggers held are judged again; a
trigger that stands is judged at every stroke boundary; an internal fault stops the unit, one of a structure of one tree asks for its trigger, one of a
hopper loses its entry or what it held and reports it (R421), one of a waiting command ends it with INTERNAL; a lost pair link ends contact.
That a standing trigger is judged again (log 91), and the kinds of INTERNAL_UNCORRECTABLE with what they strike (logs 70, 134), are the model's choices.
What the partner is with renewed contact reaches the unit in no stated field: free values (log 19). -/
def Obligations.SwitchoversRun : Prop :=
  (∀ n c d s,
      let t := tree s n
      let only := (List.range 64).any (fun m => (tree s m).protTypeB && partnerTrig (tree s m) && !treeTrig s m)
      let arises := t.protTypeB = true ∧ s.pair.sails = true ∧ s.pair.st = .inStep ∧ declared s 5 0 PL_LOS = false ∧ t.triggered = false
        ∧ s.pair.handover.any (fun y => !(y.2.1 = 5 && s.pair.orderedAt = strokeAt s d)) = false ∧ partnerGood t (strokeAt s d) c = true
      (¬ arises → feederTrigger n c d s = s)
      ∧ (arises → only = true → (n, c) ∈ s.pair.refused → feederTrigger n c d s = s)
      ∧ (arises → only = true → (n, c) ∉ s.pair.refused → feederTrigger n c d s = event 0x0213 1 n [0]
          { s with pair := { s.pair with refused := if c = 0xFF then s.pair.refused else s.pair.refused ++ [(n, c)] } })
      ∧ (arises → only = false → handoverFree s = false → (n, c) ∉ s.pair.heldTriggers →
          ∃ u, feederTrigger n c d s = u ∧ u.pair = { s.pair with heldTriggers := s.pair.heldTriggers ++ [(n, c)] } ∧ u.trees = s.trees)
      ∧ (arises → only = false → handoverFree s = true → ∃ u, feederTrigger n c d s = u ∧ u.pair.handover = some (handoverX s d, 6, c, n)
          ∧ (tree u n).triggered = decide (c ≠ 0xFF) ∧ u.pair.leaseTx = some (.release, s.pair.epoch) ∧ u.pair.sails = true))
  ∧ (∀ n c s, n < 64 → c ∈ classCodes 1 → s.pair.sails = true → s.pair.st = .inStep → (tree s n).protTypeB = true →
      trigBy (tree s n) (declared s 1 n) c = true → (n, c) ∉ s.pair.heldTriggers → (n, c, s.now) ∈ standing s)
  ∧ (∀ x form c n s, Running s → s.pair.handover = some (x, form, c, n) →
      let u := advance x s
      (s.pair.sails = true → ∃ t, exec .switchover s = .next t ∧ t.now = max s.now x ∧ t.pair.sails = false ∧ t.pair.handover = none
          ∧ t.pair.epoch = s.pair.epoch ∧ t.pair.causeForm = form ∧ t.pair.causeCode = c ∧ t.pair.causeTree = n
          ∧ (form = 6 → t.pair.lastHandover = some s.imprCount))
      ∧ (isStandby s = true → let w := if form = 7 then coldSections u else u
          let v := runLag x w.pair.lag.length w
          exec .switchover s = .next (takeSails form c n { v with pair := { v.pair with handover := none } }))
      ∧ (s.pair.sails = false → isStandby s = false → exec .switchover s = .next { u with pair := { u.pair with handover := none } })
      ∧ (form = 6 → exec .feederHandover s = exec .switchover s)
      ∧ (form ≠ 6 → exec .feederHandover s = .next s))
  ∧ (∀ form c n s, ∃ t, takeSails form c n s = t ∧ t.pair.sails = true ∧ (form ≠ 7 → t.pair.epoch = s.pair.epoch + 1) ∧ t.pair.handover = none
      ∧ t.pair.st = (if form = 5 ∨ form = 6 then s.pair.st else .solo) ∧ t.pair.causeForm = form ∧ t.pair.causeCode = c ∧ t.pair.causeTree = n)
  ∧ (∀ s, Running s → s.pair.handover = none → exec .switchover s = .next s ∧ exec .feederHandover s = .next s)
  ∧ (∀ s, Running s → handoverFree s = true →
      exec .handoverHeld s = .next (s.pair.heldTriggers.foldl (fun s x => if trigStands s x.1 x.2 then feederTrigger x.1 x.2 s.now s else s)
        { s with pair := { s.pair with heldTriggers := [] } }))
  ∧ (∀ s, Running s → handoverFree s = false → exec .handoverHeld s = .next s)
  ∧ (∀ (k : Fin 8) (n : Fin 64) s, Running s → k.val < 3 →
      (s.pair.sails = true → ∃ t, exec (.internalUncorrectable k n) s = .next t ∧ t.pair.sails = false ∧ t.pair.st = .solo)
      ∧ (isStandby s = true → ∃ t, exec (.internalUncorrectable k n) s = .next t ∧ t.pair.detached = true ∧ t.pair.st = .solo
          ∧ t.pair.leaseTx = some (.leave, s.pair.epoch))
      ∧ (s.pair.sails = false → isStandby s = false → ∃ t, exec (.internalUncorrectable k n) s = .next t ∧ Reports s t))
  ∧ (∀ (n : Fin 64) s, Running s →
      ((tree s n.val).xtrig.getLsbD 3 = false → ∃ t, exec (.internalUncorrectable 3 n) s = .next t ∧ Reports s t)
      ∧ ((tree s n.val).xtrig.getLsbD 3 = true → ∃ t, exec (.internalUncorrectable 3 n) s = .next t
          ∧ t.pair = { s.pair with trigs := s.pair.trigs ++ [(n.val, 0xFF, s.now)] } ∧ t.mill = s.mill))
  ∧ (∀ (n : Fin 64) s, Running s →
      (hopOf s n.val = none → exec (.internalUncorrectable 4 n) s = .next s ∧ exec (.internalUncorrectable 5 n) s = .next s)
      ∧ (∀ x, hopOf s n.val = some x → (∀ b, HItem.entry x.rd b ∉ x.items) → exec (.internalUncorrectable 4 n) s = .next s)
      ∧ (∀ x b, hopOf s n.val = some x → .entry x.rd b ∈ x.items → ∃ t, exec (.internalUncorrectable 4 n) s = .next t
          ∧ (cntOf t (cHop n.val 0x30)).v = (cntOf s (cHop n.val 0x30)).v + 1 ∧ (n.val ≠ 0 → hopOf t n.val = some (hopLose s.now x.rd x)))
      ∧ (∀ x, hopOf s n.val = some x → featOn s 0 = true → exec (.internalUncorrectable 5 n) s = .next s)
      ∧ (∀ x, hopOf s n.val = some x → featOn s 0 = false → ∃ t, exec (.internalUncorrectable 5 n) s = .next t
          ∧ (n.val ≠ 0 → hopOf t n.val = some (hopMismatch s.now x)))
      ∧ (∃ t, exec (.internalUncorrectable 6 n) s = .next t ∧ (cntOf t (cbDev 1)).v = (cntOf s (cbDev 1)).v + 1
          ∧ (cntOf t (cHop n.val 0x28)).v = (cntOf s (cHop n.val 0x28)).v + (if featOn s 0 = true ∧ (hopOf s n.val).isSome = true then 1 else 0)))
  ∧ (∀ (n : Fin 64) s, Running s → (∀ x ∈ s.mill.landing, x.eff ≠ .cmd false ∨ x.pkt = none) →
      (s.cmd.waiting = [] → exec (.internalUncorrectable 7 n) s = .next s)
      ∧ (∀ w l, s.cmd.waiting = w :: l → exec (.internalUncorrectable 7 n) s
          = .next (finish w.pkt true 0x12 [] { s with cmd := { s.cmd with waiting := l } })))
  ∧ (∀ s, Running s → ∃ t, exec .plLos s = .next t ∧ (pairMode s = 2 → declared t 5 0 PL_LOS = true) ∧ t.pair.contact = false
      ∧ t.pair.sails = s.pair.sails)
  ∧ (∀ s, Running s → ∃ t, exec .plLosClear s = .next t ∧ declared t 5 0 PL_LOS = false ∧ t.pair.sails = s.pair.sails
      ∧ (s.cmd.pair.session = none → t.pair.contact = s.pair.contact)
      ∧ (s.cmd.pair.session.isSome = true → pairMode s = 2 → t.pair.contact = true))

/-- The state stream on the other unit (R33, R41, R89, R121, R147, R152, R159, R206, R207, R224, R333 to R335, R343, R347, R350, R354, R360): a record of the lag takes
effect PAIR_LAG after its stroke once the standby executes records, waits while it joins, and comes too late past that stroke; a frame without a copy is
chaff; mirrored commands run without intake checks, what they post taking effect at the stroke the record names; terminals, drift corrections, rogue steps,
time, delivered points, burst results and defects are taken as the other unit gives them; a codeword that the partner lost of a burst this unit decoded
goes out as a REPAIR, and one that comes stands for what was lost here; a rewind is counted, and puts the standby out of step where
its mark is stale. A record of another kind, and a unit without contact or in the other role, do nothing.
How a record finds its copy, and when a mark is stale, is the model's reading (logs 23, 25). -/
def Obligations.StreamRecordsRun : Prop :=
  (∀ r s, Running s → executes s = true → lagFirst s.pair.lag = some r →
      exec .streamExecute s = .next (execRec (digestBefore r.stroke
        (advance (r.stroke + 2400) { s with pair := { s.pair with lag := s.pair.lag.erase r } })) r))
  ∧ (∀ s, Running s → (executes s = false ∨ s.pair.lag = []) → exec .streamExecute s = .next s)
  ∧ (∀ r s, Running s → isStandby s = false → exec (.ingress r) s = .next s ∧ exec (.repair r) s = .next s ∧ exec (.commandRecord r) s = .next s
      ∧ exec (.terminalRecord r) s = .next s ∧ exec (.timeRecord r) s = .next s ∧ exec (.delivered r) s = .next s)
  ∧ (∀ r s, Running s → s.pair.contact = false → exec (.burstRecord r) s = .next s ∧ exec (.digestRecord r) s = .next s
      ∧ exec (.defectRecord r) s = .next s ∧ exec .streamRewind s = .next s)
  ∧ (∀ r s, Running s →
      ((∀ k f len q, r.body ≠ .ingress k f len q) → exec (.ingress r) s = .next s)
      ∧ ((∀ f q d, r.body ≠ .repair f q d) → (∀ n t a c d, r.body ≠ .repairCw n t a c d) → exec (.repair r) s = .next s)
      ∧ ((∀ q p, r.body ≠ .command q p) → exec (.commandRecord r) s = .next s)
      ∧ ((∀ g st e rtd w k, r.body ≠ .terminal g st e rtd w k) → (∀ g e, r.body ≠ .drift g e) →
          (∀ n u q m c w k, r.body ≠ .rogue n u q m c w k) → exec (.terminalRecord r) s = .next s)
      ∧ ((∀ b st cb tau rr mpd asym kb sel k, r.body ≠ .time b st cb tau rr mpd asym kb sel k) → exec (.timeRecord r) s = .next s)
      ∧ ((∀ n t a f o m b, r.body ≠ .burst n t a f o m b) → exec (.burstRecord r) s = .next s)
      ∧ ((∀ f q, r.body ≠ .delivered f q) → exec (.delivered r) s = .next s)
      ∧ ((∀ n c on, r.body ≠ .defect n c on) → exec (.defectRecord r) s = .next s)
      ∧ ((∀ i v, r.body ≠ .digest i v) → exec (.digestRecord r) s = .next s))
  ∧ (∀ c b s, Running s → isStandby s = true → executes s = false →
      let r : StreamRec := { stroke := c, body := b }
      (∀ k f len q, b = .ingress k f len q → exec (.ingress r) s = .next (lagRec r s))
      ∧ (∀ q p, b = .command q p → exec (.commandRecord r) s = .next (lagRec r s))
      ∧ (∀ g st e rtd w k, b = .terminal g st e rtd w k → exec (.terminalRecord r) s = .next (lagRec r s))
      ∧ (∀ g e, b = .drift g e → exec (.terminalRecord r) s = .next (lagRec r s))
      ∧ (∀ n u q m k w x, b = .rogue n u q m k w x → exec (.terminalRecord r) s = .next (lagRec r s))
      ∧ (∀ d st cb tau rr mpd asym kb sel k, b = .time d st cb tau rr mpd asym kb sel k → exec (.timeRecord r) s = .next (lagRec r s)))
  ∧ (∀ r s, isStandby s = true →
      let early := s.pair.st = .joining ∧ s.pair.cutAt.any (fun c => decide (r.stroke < c)) = true
      let late := r.stroke + 2400 < s.now ∧ (s.pair.st ≠ .joining ∨ s.pair.quickDone = true)
      (early → lagRec r s = s)
      ∧ (¬ early → late → lagRec r s = outOfStep 2 (bump (cPair 0x130) 1 s))
      ∧ (¬ early → ¬ late → lagRec r s = { s with pair := { s.pair with lag := s.pair.lag ++ [r] } }))
  ∧ (∀ c k f len q s, Running s → executes s = true →
      ∃ t, exec (.ingress { stroke := c, body := .ingress k f len q }) s = .next t ∧ t.now = max s.now (c + 2400)
        ∧ ((s.pair.st ≠ .joining ∨ s.pair.quickDone = true) → ∀ x, copyOf s f.toNat len q = some x → t.pair.copies = copiesAfter s x)
        ∧ ((s.pair.st = .joining ∧ s.pair.quickDone = false ∨ copyOf s f.toNat len q = none) →
            t.pair = s.pair ∧ (cntOf t (cPair 0x140)).v = (cntOf s (cPair 0x140)).v + 1))
  ∧ (∀ c f q d s, Running s → isStandby s = true →
      exec (.repair { stroke := c, body := .repair f q d }) s = .next (bump (cPair 0x138) 1 { s with pair := { s.pair with
        copies := { flow := f.toNat, dom := 0, len := d.length, point := q, chaff := false, data := d, repair := true } :: s.pair.copies } }))
  ∧ (∀ c n m a cw d s, Running s → isStandby s = true →
      let x := (tree s n).grants.reverse.find? (fun x => decide (x.term = m) && (x.allocs.map (·.1)).headD 0 = a && decide (x.start < c))
      let u := match x with
        | some g => updTree n (fun y => { y with grants := y.grants.map (fun z => if z = g then { z with repaired := z.repaired ++ [(cw, d)] } else z) }) s
        | none => s
      exec (.repair { stroke := c, body := .repairCw n m a cw d }) s = .next (bump (cPair 0x138) 1 u))
  ∧ (∀ q s, (q ≠ 0 → (s.cmd.devLast = 0 ∨ numAfter s.cmd.devLast q = true) → takeDev q s = { s with cmd := { s.cmd with devLast := q } })
      ∧ ((q = 0 ∨ (s.cmd.devLast ≠ 0 ∧ numAfter s.cmd.devLast q = false)) → takeDev q s = s))
  ∧ (∀ c q p s, Running s → executes s = true → ((decodePacket .board p).1 = none ∨ (decodePacket .board p).2 ≠ 0) →
      exec (.commandRecord { stroke := c, body := .command q p }) s = .next (takeDev q (advance (c + 2400) s)))
  ∧ (∀ c q p i s, Running s → executes s = true → decodePacket .board p = (some i, 0) →
      let u := takeDev q (advance (c + 2400) s)
      let n := u.mill.landing.length
      let k : Pkt := { hdr := pktHdr .board p, opcode := BitVec.ofNat 16 (opcodeOf i), cmd := some i, badAt := 0, dseq := q, sid := 0, ord := u.cmd.ord,
                       at_ := u.now }
      let out := fun (r : Res) => atCanonical n (if r.status ≤ 1 ∧ q ≠ 0 then tookEffect n k r.s else r.s)
      ((opOf i).bad u ≠ 0 → exec (.commandRecord { stroke := c, body := .command q p }) s = .next u)
      ∧ ((opOf i).bad u = 0 → opcodeOf i ≠ 0x203 → exec (.commandRecord { stroke := c, body := .command q p }) s = .next (out ((opOf i).run u)))
      ∧ (∀ h b id t, (opOf i).bad u = 0 → i = .plateTurn h b id t →
          exec (.commandRecord { stroke := c, body := .command q p }) s = .next (out (turnPlace h (b = 1) id t (checkTime u h) u))))
  ∧ (∀ c g st eqd rtd was tries s, Running s → executes s = true →
      let u := advance (c + 2400) s
      (g < 8192 → ∃ t, exec (.terminalRecord { stroke := c, body := .terminal g st eqd rtd was tries }) s = .next t ∧ t.now = max s.now (c + 2400)
        ∧ (term t g).st = termOfCode st ∧ (term t g).eqd = eqd ∧ (term t g).rtd = rtd ∧ (term t g).wasActive = was ∧ (term t g).tries = tries
        ∧ (term t g).serial = (term s g).serial ∧ (term t g).rate = (term s g).rate
        ∧ ((term s g).st ≠ .popup → termOfCode st = .popup → g % 128 ∈ (tree t (g / 128)).popupQ))
      ∧ (g < 8192 → ∃ t, exec (.terminalRecord { stroke := c, body := .drift g eqd }) s = .next t ∧ t.now = max s.now (c + 2400)
        ∧ (term t g).eqd = eqd ∧ (term t g).st = (term s g).st)
      ∧ (8192 ≤ g → exec (.terminalRecord { stroke := c, body := .terminal g st eqd rtd was tries }) s = .next u
        ∧ exec (.terminalRecord { stroke := c, body := .drift g eqd }) s = .next u))
  ∧ (∀ c n run quiet named cands held sus s, Running s → executes s = true →
      let u := advance (c + 2400) s
      let r : StreamRec := { stroke := c, body := .rogue n run quiet named cands held sus }
      (treeOk s n = false → exec (.terminalRecord r) s = .next u)
      ∧ (treeOk s n = true → ∃ t, exec (.terminalRecord r) s = .next t ∧ t = { u with trees := t.trees }
          ∧ let x := (tree t n).rogue
            x.running = run ∧ x.quiet = quiet ∧ x.named = named ∧ x.cands = cands ∧ x.withheld = held ∧ x.suspect = sus))
  ∧ (∀ c b st cb tau rr mpd asym kb sel k s, Running s → executes s = true →
      ∃ t, exec (.timeRecord { stroke := c, body := .time b st cb tau rr mpd asym kb sel k }) s = .next t ∧ t.now = max s.now (c + 2400)
        ∧ (tdom t b).st = domOfCode st ∧ (tdom t b).cb = ((cb : Int) + s.pair.deltaC).toNat ∧ (tdom t b).tau = tau ∧ (tdom t b).r = rr
        ∧ t.time.sel = sel ∧ t.time.k = k ∧ tdom t (!b) = tdom s (!b))
  ∧ (∀ c n m a found off mask bip s, Running s → s.pair.contact = true →
      let r : StreamRec := { stroke := c, body := .burst n m a found off mask bip }
      let u := if found then updTree n (fun x => { x with
        partnerDlm := (x.partnerDlm.1 + off * (40 / Config.lineBits (term s (128 * n + m)).rate : Nat), x.partnerDlm.2 + 1) }) s else s
      let mine := (tree s n).grants.reverse.find? (fun x => decide (x.term = m) && (x.allocs.map (·.1)).headD 0 = a && decide (x.start < c))
      (treeOk s n = false → exec (.burstRecord r) s = .next s)
      ∧ (treeOk s n = true → mine = none → exec (.burstRecord r) s = .next u)
      ∧ (∀ x, treeOk s n = true → mine = some x →
          let lost := maskCws (grantCws x) found mask
          let v := updTree n (fun y => { y with grants := y.grants.map (fun z => if z = x then { z with partnerErased := some lost } else z) }) u
          exec (.burstRecord r) s = .next (
            if isStandby s then { v with pair := { v.pair with copies := v.pair.copies.filter (fun y => !frameHit (128 * n + m) x.start lost y) } }
            else if s.pair.sails && x.found.isSome then
              (lost.filter (fun c => decide (c < x.decoded) && !x.erased.contains c)).foldl (fun s c => codewordSend n m a c s) v
            else v)))
  ∧ (∀ c f q s, Running s → isStandby s = true →
      exec (.delivered { stroke := c, body := .delivered f q }) s
        = .next { s with mill := { s.mill with deliveredPts := mput none s.mill.deliveredPts f.toNat (some q) } })
  ∧ (∀ c n code on s, Running s → s.pair.contact = true →
      let r : StreamRec := { stroke := c, body := .defect n code on }
      ((s.pair.sails = false ∨ treeOk s n = false) → exec (.defectRecord r) s = .next s)
      ∧ (s.pair.sails = true → treeOk s n = true →
          ∃ t, exec (.defectRecord r) s = .next t ∧ (code ∈ (tree t n).partnerDefects ↔ on = true)
            ∧ (∀ d, d ≠ code → (d ∈ (tree t n).partnerDefects ↔ d ∈ (tree s n).partnerDefects))
            ∧ (code = TR_LOS → (tree t n).partnerLosAt = if on then c else 0) ∧ t.pair.sails = true ∧ t.mill = s.mill
            ∧ (on = true → code ≠ TR_LOS → t = { s with trees := t.trees })
            ∧ (∀ x, on = true → code = TR_LOS → s.pair.orderedAt = c → s.pair.handover = some (x, 6, TR_LOS, n) →
                t.pair.handover = none ∧ (tree t n).triggered = false)))
  ∧ (∀ s, Running s → s.pair.contact = true →
      (seqLt s.pair.streamMark s.pair.streamRel = false → exec .streamRewind s = .next (bump (cPair 0x158) 1 s))
      ∧ (seqLt s.pair.streamMark s.pair.streamRel = true → exec .streamRewind s = .next (outOfStep 4 (bump (cPair 0x158) 1 s))))

/-- Digests and tiers (R336, R347, R348, R351, Table 11.1): a standby that owes the digest of a boundary computes it first; equal digests make a JOINING pair past
its quick tier ELIGIBLE, different ones declare PL_DIGEST and put the standby out of step, as a missing one does, which empties the lag and begins again, four
times within an hour; the quick tier ends once the standby has taken the sections and is PAIR_LAG behind, the slow tier, IN_STEP, once its section is whole.
Digest values rest on the serialisation of log 53, what a section holds on the open functions of log 22. -/
def Obligations.DigestsAndTiersRun : Prop :=
  (∀ c i v s, Running s → s.pair.contact = true →
      let r : StreamRec := { stroke := c, body := .digest i v }
      (s.pair.digestDue = none → exec (.digestRecord r) s = .next (digestCompare { s with pair := { s.pair with digestPartner := some (i, v) } }))
      ∧ (∀ b j, s.pair.digestDue = some (b, j) →
          let u := if j = i ∧ isStandby s = true then digestSend b j { s with pair := { s.pair with digestDue := none } } else s
          exec (.digestRecord r) s = .next (digestCompare { u with pair := { u.pair with digestPartner := some (i, v) } })))
  ∧ (∀ i j a b s, s.pair.digestOwn = some (i, a) → s.pair.digestPartner = some (j, b) →
      let u := { s with pair := { s.pair with digestOwn := none, digestPartner := none } }
      (i ≠ j → digestCompare s = s)
      ∧ (i = j → a = b → s.pair.st = .joining → s.pair.quickDone = true → digestCompare s = { u with pair := { u.pair with
          st := .eligible, tier := 2, tierDone := 0, quickDone := false, tierAt := s.now, repaired := 0 } })
      ∧ (i = j → a = b → (s.pair.st ≠ .joining ∨ s.pair.quickDone = false) → digestCompare s = u)
      ∧ (i = j → a ≠ b → digestCompare s = outOfStep 1 (defSet 5 0 PL_DIGEST (bump (cPair 0x120) 1 u)))
      ∧ (i = j → a ≠ b → pairMode s = 2 → declared s 5 0 PL_LOS = false → declared (digestCompare s) 5 0 PL_DIGEST = true))
  ∧ (∀ s, (s.pair.digestOwn = none ∨ s.pair.digestPartner = none) → digestCompare s = s)
  ∧ (∀ cause s, (s.pair.st = .inStep ∨ s.pair.st = .eligible) →
      let recent := s.pair.resyncs.filter (fun t => decide (s.now < t + 4478976000000)) ++ [s.now]
      ∃ t, outOfStep cause s = t ∧ t.pair.st = .joining ∧ t.pair.tier = 0 ∧ t.pair.lag = [] ∧ t.pair.copies = [] ∧ t.pair.digestDue = none
        ∧ t.pair.resyncs = recent ∧ t.pair.resyncLimit = decide (4 ≤ recent.length) ∧ t.pair.sails = s.pair.sails ∧ t.cmd.ackWait = [])
  ∧ (∀ cause s, s.pair.st = .solo → outOfStep cause s = s)
  ∧ (∀ s, Running s →
      ((s.pair.contact = false ∨ s.pair.digestOwn = none) → exec .digestTimeout s = .next s)
      ∧ (∀ i v w, s.pair.digestOwn = some (i, v) → s.pair.digestPartner = some (i, w) → exec .digestTimeout s = .next s)
      ∧ (∀ i v, s.pair.contact = true → s.pair.digestOwn = some (i, v) → s.pair.digestPartner.any (fun x => x.1 = i) = false →
          pairMode s = 2 → declared s 5 0 PL_LOS = false →
          ∃ t, exec .digestTimeout s = .next t ∧ t.now = max s.now (s.pair.digestAt + 311040) ∧ declared t 5 0 PL_DIGEST = true ∧ t.pair.digestOwn = none))
  ∧ (∀ s, Running s →
      let due := s.pair.st = .joining ∧ s.pair.tier = 1 ∧ s.pair.contact = true
        ∧ (s.pair.sails = true ∨ (s.pair.taken = true ∧ s.pair.lag.all (fun r => decide (s.now ≤ r.stroke + 2400)) = true))
      (due → exec .quickTier s = .next { s with pair := { s.pair with quickDone := true } })
      ∧ (¬ due → exec .quickTier s = .next s))
  ∧ (∀ s, Running s →
      let due := s.pair.st = .eligible ∧ s.pair.tier = 2 ∧ (s.pair.sails = true ∨ sectionDone (mget [] s.pair.copied 33) = true)
      (due → ∃ t, exec .slowTier s = .next t ∧ t.pair.st = .inStep ∧ t.pair.tier = 0 ∧ declared t 5 0 PL_DIGEST = false
          ∧ t.pair = { s.pair with st := .inStep, tier := 0, sending := [], trigs := t.pair.trigs } ∧ t.mill = s.mill)
      ∧ (¬ due → exec .slowTier s = .next s))

/-! ### Timing and time -/

/-- The timing unit (R284 to R299, Tables 9.3, 9.4): a decision tick moves the steering by at most its slew within ±50 ppm; timers and defects end at their
spans; the DPLL locks LOCK_S after it came within its bounds; once a second in LOCKED the model learns over its window, and the record takes it; a
PPS edge is noted; a pulse falls on its grid or 1 mc beside it, an edge captured at least 40 mc before having acted. The unit runs on through a save and the reset after it, where
the ports and the event hopper hold nothing, and stands still under PORST_N (R19, R440). An event whose condition does not hold has no effect (log 127).
The law of the loop is uninterpreted (log 66). -/
def Obligations.TimingEventsRun : Prop :=
  (∀ ms p f s, Running s → -800000 ≤ s.timing.steer → s.timing.steer ≤ 800000 →
      ∃ t, exec (.decisionTick ms p f) s = .next t ∧ t.now = max s.now s.timing.tickNext
        ∧ t.timing.tickNext = (max s.now s.timing.tickNext / 155520 + 1) * 155520
        ∧ -800000 ≤ t.timing.steer ∧ t.timing.steer ≤ 800000 ∧ (t.timing.steer - s.timing.steer).natAbs ≤ 1)
  ∧ (∀ (r : Fin 16) s, Running s →
      ((refOf s r.val).wtr = 0 → exec (.wtrExpiry r) s = .next s)
      ∧ ((refOf s r.val).wtr ≠ 0 → exec (.wtrExpiry r) s = .next (setRef r.val { refOf s r.val with
          wtr := 0, restarting := (refOf s r.val).restarting && (refBad s r.val || declared s 6 r.val RF_TIE) }
          (advance (refOf s r.val).wtr s))))
  ∧ (∀ at_ s, Running s → s.timing.dpll = .acquiring → s.timing.lockFrom = some at_ → regBit s aDPLL_CFG 31 = false →
      (regBit s aDPLL_CFG 30 = false ∨ s.timing.history < 60) →
      ∃ t, exec .dpllLock s = .next t ∧ t.timing.dpll = .locked ∧ t.timing.lockFrom = none
        ∧ t.now = max s.now (at_ + regFld s aDPLL_CFG 22 16 * 1244160000))
  ∧ (∀ s, Running s → (s.timing.lockFrom = none ∨ s.timing.dpll ≠ .acquiring ∨ regBit s aDPLL_CFG 31 = true
        ∨ (regBit s aDPLL_CFG 30 = true ∧ 60 ≤ s.timing.history)) → exec .dpllLock s = .next s)
  ∧ (∀ (r : Fin 16) s, Running s →
      (declared s 6 r.val RF_FREQ = true → ∃ t, exec (.refDefectClear r 0x51) s = .next t ∧ declared t 6 r.val RF_FREQ = false
        ∧ (refOf t r.val).freqTie = false ∧ t.now = max s.now ((refOf s r.val).freqBadAt + 10 * 1244160000))
      ∧ (declared s 6 r.val RF_PHASE = true → ∃ t, exec (.refDefectClear r 0x52) s = .next t ∧ declared t 6 r.val RF_PHASE = false
        ∧ t.now = max s.now ((refOf s r.val).phaseBadAt + 10 * 1244160000))
      ∧ ((r.val ≤ 3 ∨ 2 ≤ (refOf s r.val).good) → ∃ t, exec (.refDefectClear r 0x50) s = .next t ∧ declared t 6 r.val RF_LOS = false
        ∧ t.now = max s.now s.timing.tickNext)
      ∧ (3 < r.val → (refOf s r.val).good < 2 → exec (.refDefectClear r 0x50) s = .next s)
      ∧ (declared s 6 r.val RF_FREQ = false → exec (.refDefectClear r 0x51) s = .next s)
      ∧ (declared s 6 r.val RF_PHASE = false → exec (.refDefectClear r 0x52) s = .next s))
  ∧ (∀ (r : Fin 16) (code : BitVec 8) s, Running s → code ≠ 0x50 → code ≠ 0x51 → code ≠ 0x52 → exec (.refDefectClear r code) s = .next s)
  ∧ (∀ (r : Fin 16) s, Running s → refOn s r.val = true → r.val < 8 →
      ∃ t, exec (.refLosTimeout r) s = .next t ∧ declared t 6 r.val RF_LOS = true ∧ (refOf t r.val).good = 0 ∧ (refOf t r.val).edgeAt = none)
  ∧ (∀ (r : Fin 16) s, Running s → (refOn s r.val = false ∨ 8 ≤ r.val) → exec (.refLosTimeout r) s = .next s)
  ∧ (∀ s, Running s → s.timing.dpll = .locked → s.timing.following = true →
      exec .holdoverSample s = .next { s with timing := { s.timing with history := s.timing.history + 1 } })
  ∧ (∀ s, Running s → s.timing.dpll = .locked → s.timing.following = false →
      let sec := s.now / 1244160000
      let w := ((s.timing.steer, s.timing.tempNow, sec) :: s.timing.samples).filter (fun x => decide (sec < x.2.2 + regFld s aHOLD_CFG2 7 0 * 3600))
      ∃ t, exec .holdoverSample s = .next t ∧ t.timing.history = s.timing.history + 1 ∧ t.timing.fittedAt = s.now ∧ t.timing.samples = w
        ∧ t.timing.modelValid = (s.timing.modelValid || decide (60 ≤ w.length))
        ∧ (w.length < 21600 → t.timing.g = s.timing.record.g ∧ t.timing.gValid = false))
  ∧ (∀ s, Running s → s.timing.dpll ≠ .locked → exec .holdoverSample s = .next s)
  ∧ (∀ s, Running s → exec .holdoverRecord s = .next { s with timing := { s.timing with record := modelOf s.timing, recordLater := true } })
  ∧ (∀ s, s.power.phase = .saved → ∃ t, exec .holdoverRecord s = .next t ∧ t.timing.record = modelOf s.timing ∧ t.cmd = s.cmd ∧ t.evt = s.evt)
  ∧ (∀ (v : BitVec 16) s, Running s → exec (.tempRead (some v)) s = .next { s with timing := { s.timing with
      tempNow := if regBit s aHOLD_CFG 31 then v.toInt else v.toInt / 16 * 16, tempFails := 0 } })
  ∧ (∀ s, Running s → (regBit s aHOLD_CFG 31 = false → exec (.tempRead none) s = .next s)
      ∧ (regBit s aHOLD_CFG 31 = true → s.timing.tempFails < 2 →
          exec (.tempRead none) s = .next { s with timing := { s.timing with tempFails := s.timing.tempFails + 1 } }))
  ∧ (∀ s, Running s → regBit s aHOLD_CFG 31 = true → 2 ≤ s.timing.tempFails →
      ∃ t, exec (.tempRead none) s = .next t ∧ regBit t aHOLD_CFG 31 = false ∧ t.timing.aValid = false ∧ t.timing.bValid = false
        ∧ t.timing.gValid = false ∧ t.timing.modelValid = false ∧ t.timing.samples = [] ∧ t.timing.history = 0)
  ∧ (∀ pps s, Running s → ∃ t, exec (.inputEdge pps) s = .next t ∧ (refOf t (4 + pps.toNat)).edgeAt = some s.now
      ∧ t = { s with timing := t.timing })
  ∧ (∀ (o : Fin 6) e s, Running s → regBit s (aPCFG o.val) 31 = true →
      let u := pulseReady o.val s
      nextPulse u o.val (max s.now ((pulseOf s o.val).lastEdge + 1)) = some e →
      let d : Int := if regBit s (aPCFG o.val) 27 = true ∧ pulseSrc s o.val ≤ 1 then max (-1) (min 1 (pulseOf u o.val).slew) else 0
      ∃ t, exec (.outputPulse o) s = .next t ∧ t.now = max s.now ((e : Int) + d).toNat ∧ t = { s with now := t.now, cyc := t.cyc, timing := t.timing }
        ∧ (pulseOf t o.val).lastEdge = ((e : Int) + d).toNat ∧ (pulseOf t o.val).slew = (pulseOf u o.val).slew - d
        ∧ (pulseOf t o.val).grid = (pulseOf u o.val).grid.map (fun g => ((g : Int) + pulsePeriod o.val + d).toNat)
        ∧ (pulseOf t o.val).pulseAt =
            if squelched s (regFld s (aPCFG o.val) 26 25) then (pulseOf s o.val).pulseAt else some ((e : Int) + d).toNat)
  ∧ (∀ (o : Fin 6) s, Running s → (regBit s (aPCFG o.val) 31 = false → exec (.outputPulse o) s = .next s)
      ∧ (regBit s (aPCFG o.val) 31 = true → nextPulse (pulseReady o.val s) o.val (max s.now ((pulseOf s o.val).lastEdge + 1)) = none →
          exec (.outputPulse o) s = .next (pulseReady o.val s))
      ∧ ((pulseOf s o.val).due = none → pulseReady o.val s = s)
      ∧ (∀ c, (pulseOf s o.val).due = some c → c + 40 ≤ s.now → pulseReady o.val s = edgeActs c o.val s))
  ∧ (∀ i s, i = .dpllLock ∨ i = .holdoverSample ∨ i = .holdoverRecord ∨ (∃ ms p f, i = .decisionTick ms p f) ∨ (∃ r, i = .wtrExpiry r)
        ∨ (∃ r c, i = .refDefectClear r c) ∨ (∃ r, i = .refLosTimeout r) ∨ (∃ v, i = .tempRead v) ∨ (∃ p, i = .inputEdge p) ∨ (∃ o, i = .outputPulse o) →
      (s.power.phase = .porst → exec i s = .next s)
      ∧ ((s.power.phase = .saved ∨ s.power.phase = .booting) → ∃ t, exec i s = .next t ∧ t.evt = s.evt ∧ t.cmd = s.cmd))
  ∧ (∀ (r : Fin 16) s, s.power.phase = .saving ∨ s.power.phase = .saved ∨ s.power.phase = .booting → (refOf s r.val).wtr ≠ 0 →
      ∃ t, exec (.wtrExpiry r) s = .next t ∧ (refOf t r.val).wtr = 0)

/-- The time domains (R310 to R316, R322, R325). An exchange without both stamps or of another clockIdentity restarts the count of valid ones, the exchange of a lost
Delay_Req is skipped, and a valid one is measured; outside BRIDGING its path delay enters MPD_REF and its offset waits for the stroke boundary,
unless it is suspect, which changes neither; the fourth suspect one in a row declares PATH_STEP. At the stroke boundary the eighth valid exchange
steps a STEP_ARMED domain to TRACKING, a declared PATH_STEP bridges a TRACKING domain whose other domain tracks undisturbed and holds it otherwise,
and a lost master holds a domain that tracks or bridges; then the selection asked for moves. A standby only measures.
A master is lost once, three Announce intervals after its last Announce or 1 s after its last valid exchange. Domain B exists with TWO_DOMAIN_TIME only.
That an exchange is decided at the next stroke boundary is the model's reading (log 94); the law of the servo is uninterpreted (log 66). -/
def Obligations.TimeDomainsRun : Prop :=
  (∀ b x raw mpd s, Running s → (b = true → twoDom s = true) → (tdom s b).skip = 0 →
      (x.stamps = false ∨ ∃ m, (tdom s b).masterId = some m ∧ m ≠ x.ident) →
      exec (.ptpExchange b x raw mpd) s = .next (setTdom b { tdom s b with valids := 0, masterId := some x.ident } s))
  ∧ (∀ b x raw mpd s, Running s → (b = true → twoDom s = true) → 0 < (tdom s b).skip →
      exec (.ptpExchange b x raw mpd) s = .next (setTdom b { tdom s b with skip := (tdom s b).skip - 1 } s))
  ∧ (∀ b x raw mpd s, Running s → (b = true → twoDom s = true) → (tdom s b).skip = 0 → x.stamps = true →
      ((tdom s b).masterId = none ∨ (tdom s b).masterId = some x.ident) →
      let d := { tdom s b with offset := raw - (tdom s b).asym, masterOk := true, valids := (tdom s b).valids + 1, validAt := s.now, masterId := some x.ident }
      (isStandby s = true → exec (.ptpExchange b x raw mpd) s = .next (setTdom b d s))
      ∧ (isStandby s = false → (tdom s b).st ≠ .bridging →
          (((tdom s b).mpds.length < 16 ∨ (mpd - (tdom s b).mpd).natAbs ≤ 16 * regFld s (aDOM_CFG b) 25 16) →
            ∃ t, exec (.ptpExchange b x raw mpd) s = .next t
              ∧ tdom t b = { d with mpds := (mpd :: (tdom s b).mpds).take 16, mpd := meanI ((mpd :: (tdom s b).mpds).take 16), suspects := 0,
                                    due := some (raw - (tdom s b).asym) })
          ∧ (16 ≤ (tdom s b).mpds.length → 16 * regFld s (aDOM_CFG b) 25 16 < (mpd - (tdom s b).mpd).natAbs →
            ((tdom s b).suspects + 1 ≠ 4 ∨ (tdom s b).pathStep = true →
              exec (.ptpExchange b x raw mpd) s = .next (setTdom b { d with suspects := (tdom s b).suspects + 1 } (setTdom b d s)))
            ∧ ((tdom s b).suspects = 3 → (tdom s b).pathStep = false →
              ∃ t, exec (.ptpExchange b x raw mpd) s = .next t ∧ tdom t b = { d with suspects := 4, pathStep := true, pathDue := true })))
      ∧ (isStandby s = false → (tdom s b).st = .bridging → ∃ t, exec (.ptpExchange b x raw mpd) s = .next t ∧ (tdom t b).offset = raw - (tdom s b).asym
          ∧ (((tdom s b).mpds.length < 16 ∨ 16 * regFld s (aDOM_CFG b) 25 16 < (mpd - (tdom s b).mpd).natAbs) → (tdom t b).near = 0 ∧ (tdom t b).st = .bridging)
          ∧ (16 ≤ (tdom s b).mpds.length → (mpd - (tdom s b).mpd).natAbs ≤ 16 * regFld s (aDOM_CFG b) 25 16 →
              ((tdom s b).near = 15 → (tdom t b).st = .tracking) ∧ ((tdom s b).near ≠ 15 → (tdom t b).st = .bridging ∧ (tdom t b).near = (tdom s b).near + 1))))
  ∧ (∀ b offset s, (tdom s b).due = some offset → (tdom s b).st = .stepArmed → 8 ≤ (tdom s b).valids →
      (tdom (exchangeJudge b s) b).st = .tracking ∧ (tdom (exchangeJudge b s) b).tau = (tdom s b).tau - offset * 4096)
  ∧ (∀ b s, (tdom s b).pathDue = true → (tdom s b).st = .tracking →
      (tdom (pathJudge b s) b).st = if (tdom s !b).st = .tracking ∧ (tdom s !b).pathStep = false then .bridging else .hold)
  ∧ (∀ b s, (tdom s b).lostDue = true → ((tdom s b).st = .tracking ∨ (tdom s b).st = .bridging) → (tdom (lostJudge b s) b).st = .hold)
  ∧ (∀ s, isStandby s = false → timeStroke s =
      selJudge (lostJudge true (lostJudge false (pathJudge true (pathJudge false (exchangeJudge true (exchangeJudge false s)))))))
  ∧ (∀ b s, s.time.selNext = some b → (selJudge s).time.sel = b ∧ (selJudge s).time.selNext = none)
  ∧ (∀ b ann s, Running s → (b = true → twoDom s = true) → (tdom s b).masterOk = true →
      ∃ t, exec (.masterLost b ann) s = .next t ∧ (tdom t b).masterOk = false ∧ (tdom t b).valids = 0 ∧ (tdom t b).lostDue = true
        ∧ t.now = max s.now (if ann then (tdom s b).announceAt + 466560000 else (tdom s b).validAt + 1244160000))
  ∧ (∀ b ann s, Running s → (tdom s b).masterOk = false → exec (.masterLost b ann) s = .next s)
  ∧ (∀ x raw mpd ann s, Running s → twoDom s = false → exec (.ptpExchange true x raw mpd) s = .next s ∧ exec (.masterLost true ann) s = .next s)

/-! ### Laws of every command -/

/-- Only the opcodes marked T admit a non-zero EXEC; ASAP is admitted on them and on PLATE_TURN and TERM_KEY; on any other opcode ASAP returns BAD_PARAM with
OFFSET 1 and EXEC BAD_PARAM with OFFSET 12, the earlier offset first, without effect (R361, R370). A timed command whose parameters are in range is
ACCEPTED with its EXEC_AT and waits, its credit back, mirrored with the stroke of that time (R367, R371), unless 64 wait or its port
may not touch what it writes, which is PRIVILEGE at once (the model's choice, log 14); PLATE_TURN and TERM_KEY without a time run at once. -/
def Obligations.ExecAndAsapAdmitted : Prop :=
  ∀ i h s, Accepted i h s → Unblocked h s →
    let timed := [0x101, 0x102, 0x103, 0x300, 0x301, 0x302, 0x303, 0x305, 0x400, 0x404, 0x406, 0x500, 0x501, 0x502, 0x503, 0x606, 0x700, 0x902]
    (opcodeOf i ∉ timed → opcodeOf i ≠ 0x203 → opcodeOf i ≠ 0x304 → asap h = true → exec i s = answersNot i h s 4 [0, 1, 0, 0])
    ∧ (opcodeOf i ∉ timed → h.exec ≠ 0 → (asap h = false ∨ opcodeOf i = 0x203 ∨ opcodeOf i = 0x304) → (opcodeOf i = 3 → ordered h = false) →
        exec i s = answersNot i h s 4 [0, 12, 0, 0])
    ∧ (opcodeOf i ∈ timed → (h.exec ≠ 0 ∨ asap h = true) → (opOf i).bad (taken i h s) = 0 → s.cmd.timed.length < 64 →
        ∀ e, execAt s h s.now = some e → let u := taken i h s
          (((opOf i).run u).status ≠ 3 → exec i s = .next (let v := mirror (strokeAt u e) (takenPkt i h s) u
            finish (takenPkt i h s) false 1 (beBytes 8 e)
              (freeCredit h.port { v with cmd := { v.cmd with timed := v.cmd.timed ++ [{ pkt := takenPkt i h s, at_ := e }] } })))
          ∧ (((opOf i).run u).status = 3 → exec i s = answersNot i h s 3 ((opOf i).run u).params))
    ∧ ((opcodeOf i = 0x203 ∨ opcodeOf i = 0x304) → h.exec = 0 → (opOf i).bad (taken i h s) = 0 →
        exec i s = .next (complete (taken i h s).mill.landing.length (takenPkt i h s) ((opOf i).does (takenPkt i h s) (taken i h s))))

/-- Execution time and parameters are checked after acceptance (R363, R367, R368): too soon or half the counter's range away is LATE, with the earliest EXEC
that would do; a parameter out of range is BAD_PARAM with its offset; the 65th waiting command is BUSY; each such reply carries the DSEQ and nothing else
changes. The execution time of a command that waits is the first counter value whose low 32 bits are EXEC. A command that changes the datapath and is not
timed waits for its stroke boundary (R22), as a SNAPSHOT does while a copy is pending (R405). -/
def Obligations.AcceptedCommandsChecked : Prop :=
  (∀ i h s, Accepted i h s → Unblocked h s → opTimed (opcodeOf i) = true → h.exec ≠ 0 → asap h = false →
      let d := (h.exec.toNat + 2 ^ 32 - s.now % 2 ^ 32) % 2 ^ 32
      ((d < 2488 ∨ 2 ^ 31 ≤ d) → exec i s = answersNot i h s 8 (beBytes 4 (s.now % 2 ^ 32) ++ beBytes 4 ((s.now + 2488) % 2 ^ 32)))
      ∧ (2488 ≤ d → d < 2 ^ 31 → execAt s h s.now = some (s.now + d) ∧ (s.now + d) % 2 ^ 32 = h.exec.toNat
          ∧ ∀ c, s.now ≤ c → c < s.now + d → c % 2 ^ 32 ≠ h.exec.toNat)
      ∧ (2488 ≤ d → d < 2 ^ 31 → (opOf i).bad (taken i h s) = 0 → 64 ≤ s.cmd.timed.length → exec i s = answersNot i h s 0x0A []))
  ∧ (∀ i h b s, Accepted i h s → Unblocked h s → Immediate (opcodeOf i) h → (opcodeOf i = 3 → ordered h = false) → (opOf i).bad (taken i h s) = b →
      b ≠ 0 → exec i s = answersNot i h s 4 (beBytes 2 b ++ [0, 0]))
  ∧ (∀ i h s, Starts i h s → awaitsStroke (opcodeOf i) s = true → (opOf i).bad (taken i h s) = 0 → exec i s = .next (waits i h s))

/-- Intake (R13, R362, R364, R377, R435, R449, Tables 12.5, 12.7): the first check that fails decides the reply, whichever of the 66 opcodes it is; the packet holds no
credit, takes no number and has no effect. -/
def Obligations.IntakeRefuses : Prop :=
  ∀ i h s, hdrOf i = some h → notReady h.port s = false →
    let refused := fun (st : Nat) (det : List Byte) => exec i s = .next (refuseIntake h.port (opcodeOf i) h.tag st det s)
    (h.flags &&& 0x2F ≠ 0 → refused 4 [0, 1, 0, 0])
    ∧ (h.flags &&& 0x2F = 0 → s.power.phase ≠ .running → refused 0x11 [])
    ∧ (h.flags &&& 0x2F = 0 → Running s → s.power.rescue = true → opcodeOf i ∉ [0, 1, 0x800, 0x801, 0x802, 0x803, 0x804] → refused 0x0A [])
    ∧ (h.flags &&& 0x2F = 0 → Running s → s.power.rescue = false →
        (freeCredits s h.port = 0 → refused 0x0B (beBytes 2 (portSt s h.port).used ++ [0, 0]))
        ∧ (freeCredits s h.port ≠ 0 → (portSt s h.port).session = none → opcodeOf i ≠ 0 → opcodeOf i ≠ 1 → opcodeOf i ≠ 3 → refused 0x0C [0xFF, 0, 0, 0])
        ∧ (∀ x, freeCredits s h.port ≠ 0 → (portSt s h.port).session = some x → opcodeOf i ≠ 3 →
            (h.session ≠ x.id → refused 4 [0, 8, 0, 0])
            ∧ (h.session = x.id → h.port = .host → (opcodeOf i = 0x6F0 ∨ opcodeOf i = 0x6F1 ∨ opcodeOf i = 0x807) →
                refused 3 ([1] ++ beBytes 1 (opcodeOf i / 256) ++ [0, 0]))
            ∧ (h.session = x.id → opcodeOf i / 256 ≠ 6 → (classOk h.port (opcodeOf i) && setOk h.port (some i) && mapOk s h.port (opcodeOf i)) = true →
                isStandby s = true → standbyOk s (opcodeOf i) (some i) = false → refused 0x0F [])))

/-- PLATE_DATA writes into a LOADING bank at a byte offset that is a multiple of 16 a chunk whose length is a multiple of 16 (R54): each byte stands at
its place afterwards, over whatever stood there, and every other byte and the other bank stay. A chunk beyond byte 5,242,880, an offset or a length that is
no multiple of 16 is BAD_PARAM, and another bank state or session BUSY; nothing is written then. Bytes never written read as zero to the proof. -/
def Obligations.PlateChunks : Prop :=
  (∀ h b o d s, let i := Instr.plateData h b o d
    Starts i h s → b.toNat ≤ 1 →
    let fits := o.toNat + d.length ≤ 5242880
    let sized := d.length % 16 = 0 ∧ 16 ≤ d.length ∧ d.length ≤ 4080
    let mine := (bank s (b = 1)).st = .loading ∧ (bank s (b = 1)).owner = some (h.port, h.session)
    (o.toNat % 16 = 0 → sized → fits → mine →
      ∃ t, exec i s = .next t ∧ bank t (!decide (b = 1)) = bank s (!decide (b = 1))
        ∧ bank t (b = 1) = { bank s (b = 1) with image := (bank t (b = 1)).image }
        ∧ (∀ j, j < d.length → some (mget 0 (bank t (b = 1)).image (o.toNat + j)) = d[j]?)
        ∧ (∀ a, a < o.toNat ∨ o.toNat + d.length ≤ a → mget 0 (bank t (b = 1)).image a = mget 0 (bank s (b = 1)).image a))
    ∧ (o.toNat % 16 ≠ 0 → exec i s = answersNot i h s 4 [0, 20, 0, 0])
    ∧ (o.toNat % 16 = 0 → ¬fits → exec i s = answersNot i h s 4 [0, 20, 0, 0])
    ∧ (o.toNat % 16 = 0 → fits → ¬sized → exec i s = answersNot i h s 4 [0, 24, 0, 0])
    ∧ (o.toNat % 16 = 0 → sized → fits → ¬mine → exec i s = answersNot i h s 0x0A []))
  ∧ (∀ h b s, Starts (.plateOpen h b) h s → b.toNat ≤ 1 → pwrOn s 72 = true → pwrOn s 76 = true → pwrOn s 77 = true → (bank s (b = 1)).st = .empty →
      ∃ t, exec (.plateOpen h b) s = .next t ∧ (bank t (b = 1)).st = .loading ∧ ∀ o n, imgBytes (bank t (b = 1)).image o n = List.replicate n 0)

/-- Every well-formed command that is a Casut opcode but STREAM, whose records have no packet layout here (log 58), is the command its own packet spells, with every
operand at every value, and the packet's CRC holds (R357, Table 12.1). -/
def Obligations.PacketsDecodeToTheirCommand : Prop :=
  ∀ i h, hdrOf i = some h → i.wf = true → opcodeOf i ≠ 0x6F0 →
    pktCrcOk (encodePacket i) = true ∧ decodePacket h.port (encodePacket i) = (some i, 0)

/-- The bytes of a command's packet, written on the board port, do exactly what the command does there (R357, R362, R382). -/
def Obligations.PacketsRunTheirCommand : Prop :=
  ∀ i h s, hdrOf i = some h → h.port = .board → i.wf = true → opcodeOf i ≠ 0x6F0 → (paramBytes i).length % 4 = 0 → notReady .board s = false →
    exec (.writeTransaction (encodePacket i)) s = exec i { s with cmd := { s.cmd with spiOut := beBytes 1 (spiStatus s) } }

/-- No step changes the part that is fused, none touches the queue but the one command it takes from its front, and the storage of the plate banks and of
the MRAM copy keeps its canonical form within a bank's 5,242,880 bytes (R3, R52, R57). -/
def Obligations.EveryStepKeeps : Prop :=
  (∀ s t, step s = .next t → t.pending = s.pending.tail ∧ t.fuse = s.fuse) ∧ (∀ s t, Kept s → step s = .next t → Kept t)

/-- After reset: both banks EMPTY and no plate engaged, no session, no command under way, nothing in a hopper, no defect, every tree OFF and every terminal
UNSEEN, time domains UNSET, the DPLL in FREERUN, the pair JOINING, the unit FEATHERED and without
contact at MODE 0, emitting nothing, every register at its table's value, and what every step keeps holds (R52, R327).
Values of registers that no table states are 0 by the model's choice (log 57), and the firmware runs (log 4). -/
def Obligations.ResetState : Prop :=
  let s := State.reset
  Kept s ∧ s.pending = [] ∧ s.plates.bank0.st = .empty ∧ s.plates.bank1.st = .empty ∧ engaged s = none ∧ s.cmd.board.session = none
    ∧ s.cmd.featFixed = false ∧ underWay s = [] ∧ s.evt.items = [] ∧ s.ploamIn.items = [] ∧ s.defects.on = [] ∧ s.cnt = []
    ∧ (∀ n, (tree s n).st = .off) ∧ (∀ g, (term s g).st = .unseen) ∧ (∀ b, (tdom s b).st = .unset) ∧ s.timing.dpll = .freerun
    ∧ s.pair.st = .joining ∧ s.pair.sails = false ∧ s.pair.contact = false ∧ pairMode s = 0 ∧ emitting s = false ∧ (∀ a, regRaw s a = regRst a) ∧ (∀ i, (keySet s i).st0 = .empty ∧ (keySet s i).st1 = .empty)
end

