-- ==== Sys2Proof/Laws/Ops.lean ====
section
/-! SUPPORT. Sparse tables: what reads back after a write, and that every table operation keeps the canonical form. -/

namespace Sys2Proof.Machine

section
variable {α : Type} (d : α)

/-! ### Reading back -/

@[simp] theorem mget_nil (k : Nat) : mget d ([] : Map α) k = d := rfl

theorem mget_mins_same (m : Map α) (k : Nat) (v : α) : mget d (mins m k v) k = v := by
  induction m with
  | nil => simp [mins, mget]
  | cons e m ih =>
    obtain ⟨k', w⟩ := e
    simp only [mins]
    split
    · simp [mget]
    · split
      · simp [mget]
      · rename_i h1 h2
        simp only [mget]
        rw [if_neg (fun h => h2 h.symm)]
        exact ih

theorem mget_mins_ne (m : Map α) {k j : Nat} (v : α) (h : j ≠ k) : mget d (mins m k v) j = mget d m j := by
  induction m with
  | nil => simp [mins, mget, Ne.symm h]
  | cons e m ih =>
    obtain ⟨k', w⟩ := e
    simp only [mins]
    split
    · simp [mget, Ne.symm h]
    · split
      · rename_i h2; subst h2; simp [mget, Ne.symm h]
      · simp only [mget]; rw [ih]

theorem mget_erase_same (m : Map α) (k : Nat) : mget d (m.filter (fun e => !decide (e.1 = k))) k = d := by
  induction m with
  | nil => rfl
  | cons e m ih =>
    obtain ⟨k', w⟩ := e
    by_cases h : k' = k <;> simp [List.filter, h, mget, ih]

theorem mget_erase_ne (m : Map α) {k j : Nat} (h : j ≠ k) : mget d (m.filter (fun e => !decide (e.1 = k))) j = mget d m j := by
  induction m with
  | nil => rfl
  | cons e m ih =>
    obtain ⟨k', w⟩ := e
    by_cases hk : k' = k
    · subst hk; simp [List.filter, mget, ih, Ne.symm h]
    · simp [List.filter, hk, mget, ih]

end

variable {α : Type} [DecidableEq α] (d : α)

/-- What is written reads back. -/
@[simp] theorem mget_mput_same (m : Map α) (k : Nat) (v : α) : mget d (mput d m k v) k = v := by
  unfold mput; split
  · rename_i h; rw [mget_erase_same, h]
  · exact mget_mins_same d m k v

/-- Every other key reads as before. -/
theorem mget_mput_ne (m : Map α) {k j : Nat} (v : α) (h : j ≠ k) : mget d (mput d m k v) j = mget d m j := by
  unfold mput; split
  · exact mget_erase_ne d m h
  · exact mget_mins_ne d m v h

@[simp] theorem mget_mupd_same (m : Map α) (k : Nat) (f : α → α) : mget d (mupd d m k f) k = f (mget d m k) := mget_mput_same ..

theorem mget_mupd_ne (m : Map α) {k j : Nat} (f : α → α) (h : j ≠ k) : mget d (mupd d m k f) j = mget d m j := mget_mput_ne d m _ h

/-! ### Canonical form -/

theorem mwfFrom_mono {lo lo' : Nat} (m : Map α) (h : lo ≤ lo') (hm : mwfFrom d lo' m = true) : mwfFrom d lo m = true := by
  cases m with
  | nil => rfl
  | cons e m => obtain ⟨k, v⟩ := e; simp [mwfFrom] at hm ⊢; exact ⟨⟨by omega, hm.1.2⟩, hm.2⟩

theorem mwfFrom_mins (m : Map α) (lo k : Nat) (v : α) (hlo : lo ≤ k) (hv : v ≠ d) (hm : mwfFrom d lo m = true) :
    mwfFrom d lo (mins m k v) = true := by
  induction m generalizing lo with
  | nil => simp [mins, mwfFrom, hlo, hv]
  | cons e m ih =>
    obtain ⟨k', w⟩ := e
    simp only [mwfFrom, Bool.and_eq_true, decide_eq_true_eq] at hm
    simp only [mins]
    split
    · simp only [mwfFrom, Bool.and_eq_true, decide_eq_true_eq]; exact ⟨⟨hlo, hv⟩, ⟨by omega, hm.1.2⟩, hm.2⟩
    · split
      · rename_i h2; subst h2; simp only [mwfFrom, Bool.and_eq_true, decide_eq_true_eq]; exact ⟨⟨hlo, hv⟩, hm.2⟩
      · simp only [mwfFrom, Bool.and_eq_true, decide_eq_true_eq]; exact ⟨⟨hm.1.1, hm.1.2⟩, ih (k' + 1) (by omega) hm.2⟩

theorem mwfFrom_filter (m : Map α) (lo : Nat) (p : Nat × α → Bool) (hm : mwfFrom d lo m = true) : mwfFrom d lo (m.filter p) = true := by
  induction m generalizing lo with
  | nil => rfl
  | cons e m ih =>
    obtain ⟨k, v⟩ := e
    simp only [mwfFrom, Bool.and_eq_true, decide_eq_true_eq] at hm
    simp only [List.filter]
    split
    · simp only [mwfFrom, Bool.and_eq_true, decide_eq_true_eq]; exact ⟨hm.1, ih _ hm.2⟩
    · exact mwfFrom_mono d _ (by omega) (ih _ hm.2)

theorem mwfFrom_mmap (f : Nat → α → α) (m : Map α) (lo : Nat) (hm : mwfFrom d lo m = true) : mwfFrom d lo (mmap d f m) = true := by
  induction m generalizing lo with
  | nil => rfl
  | cons e m ih =>
    obtain ⟨k, v⟩ := e
    simp only [mwfFrom, Bool.and_eq_true, decide_eq_true_eq] at hm
    simp only [mmap]
    split
    · exact mwfFrom_mono d _ (by omega) (ih _ hm.2)
    · rename_i h; simp only [mwfFrom, Bool.and_eq_true, decide_eq_true_eq]; exact ⟨⟨hm.1.1, h⟩, ih _ hm.2⟩

/-- A write keeps the canonical form. -/
theorem mwf_mput {m : Map α} (k : Nat) (v : α) (hm : mwf d m = true) : mwf d (mput d m k v) = true := by
  unfold mput; split
  · exact mwfFrom_filter d m 0 _ hm
  · rename_i h; exact mwfFrom_mins d m 0 k v (Nat.zero_le k) h hm

theorem mwf_mupd {m : Map α} (k : Nat) (f : α → α) (hm : mwf d m = true) : mwf d (mupd d m k f) = true := mwf_mput d k _ hm
theorem mwf_filter {m : Map α} (p : Nat × α → Bool) (hm : mwf d m = true) : mwf d (m.filter p) = true := mwfFrom_filter d m 0 p hm
theorem mwf_mmap {m : Map α} (f : Nat → α → α) (hm : mwf d m = true) : mwf d (mmap d f m) = true := mwfFrom_mmap d f m 0 hm

/-- Two canonical tables that read the same at every key are the same table. -/
theorem mwf_ext {m n : Map α} (lo : Nat) (hm : mwfFrom d lo m = true) (hn : mwfFrom d lo n = true) (h : ∀ k, mget d m k = mget d n k) : m = n := by
  have low : ∀ (m : Map α) (lo k : Nat), mwfFrom d lo m = true → k < lo → mget d m k = d := by
    intro m
    induction m with
    | nil => intros; rfl
    | cons e m ih =>
      intro lo k hm hk
      obtain ⟨k', v⟩ := e
      simp only [mwfFrom, Bool.and_eq_true, decide_eq_true_eq] at hm
      simp only [mget]
      rw [if_neg (by omega)]
      exact ih _ _ hm.2 (by omega)
  induction m generalizing n lo with
  | nil =>
    cases n with
    | nil => rfl
    | cons e n =>
      obtain ⟨k, v⟩ := e
      simp only [mwfFrom, Bool.and_eq_true, decide_eq_true_eq] at hn
      have := h k; simp [mget] at this; exact absurd this.symm hn.1.2
  | cons e m ih =>
    obtain ⟨k, v⟩ := e
    simp only [mwfFrom, Bool.and_eq_true, decide_eq_true_eq] at hm
    cases n with
    | nil => have := h k; simp [mget] at this; exact absurd this hm.1.2
    | cons e n =>
      obtain ⟨k', v'⟩ := e
      simp only [mwfFrom, Bool.and_eq_true, decide_eq_true_eq] at hn
      have hk : k = k' := by
        rcases Nat.lt_trichotomy k k' with hlt | heq | hgt
        · have := h k
          simp only [mget, if_true] at this
          rw [if_neg (by omega), low n _ _ hn.2 (by omega)] at this
          exact absurd this hm.1.2
        · exact heq
        · have := h k'
          simp only [mget, if_true] at this
          rw [if_neg (by omega), low m _ _ hm.2 (by omega)] at this
          exact absurd this.symm hn.1.2
      subst hk
      have hv := h k
      simp [mget] at hv
      subst hv
      congr 1
      refine ih (k + 1) hm.2 hn.2 (fun j => ?_)
      by_cases hj : j = k
      · subst hj; rw [low m _ _ hm.2 (by omega), low n _ _ hn.2 (by omega)]
      · have := h j; simp only [mget] at this; rwa [if_neg (Ne.symm hj), if_neg (Ne.symm hj)] at this

/-! ### The tables of the state -/

variable (s : State)

@[simp] theorem tree_updTree (n : Nat) (f : Tree → Tree) : tree (updTree n f s) n = f (tree s n) := mget_mput_same ..
theorem tree_updTree_ne {n j : Nat} (f : Tree → Tree) (h : j ≠ n) : tree (updTree n f s) j = tree s j := mget_mput_ne _ _ _ h
@[simp] theorem term_updTerm (g : Nat) (f : Term → Term) : term (updTerm g f s) g = f (term s g) := mget_mput_same ..
theorem term_updTerm_ne {g j : Nat} (f : Term → Term) (h : j ≠ g) : term (updTerm g f s) j = term s j := mget_mput_ne _ _ _ h
@[simp] theorem uport_updPort (p : Nat) (f : UPort → UPort) : uport (updPort p f s) p = f (uport s p) := mget_mput_same ..
theorem uport_updPort_ne {p j : Nat} (f : UPort → UPort) (h : j ≠ p) : uport (updPort p f s) j = uport s j := mget_mput_ne _ _ _ h
@[simp] theorem trib_setTrib (f : Nat) (t : Trib) : trib (setTrib f t s) f = t := mget_mput_same ..
@[simp] theorem lane_setLane (k : Nat) (l : Lane) : lane (setLane k l s) k = l := mget_mput_same ..
@[simp] theorem keySet_setKey (i : Nat) (k : KeySet) : keySet (setKey i k s) i = k := mget_mput_same ..
@[simp] theorem refOf_setRef (r : Nat) (x : Ref) : refOf (setRef r x s) r = x := mget_mput_same ..
@[simp] theorem bank_setBank (b : Bool) (x : Bank) : bank (setBank b x s) b = x := by cases b <;> rfl
@[simp] theorem bank_setBank_not (b : Bool) (x : Bank) : bank (setBank b x s) (!b) = bank s (!b) := by cases b <;> rfl
@[simp] theorem tdom_setTdom (b : Bool) (x : TDom) : tdom (setTdom b x s) b = x := by cases b <;> rfl
@[simp] theorem tdom_setTdom_not (b : Bool) (x : TDom) : tdom (setTdom b x s) (!b) = tdom s (!b) := by cases b <;> rfl

end Sys2Proof.Machine
end

