-- ==== Sys2Proof/Laws/State.lean ====
section
/-! SUPPORT. What each named update of the state leaves alone, one lemma per field: no later proof unfolds a record update. -/

namespace Sys2Proof.Machine

variable (s : State)

/-! ### setTree -/

@[simp] theorem setTree_pending (n : Nat) (t : Tree) : (setTree n t s).pending = s.pending := rfl
@[simp] theorem setTree_free (n : Nat) (t : Tree) : (setTree n t s).free = s.free := rfl
@[simp] theorem setTree_fuse (n : Nat) (t : Tree) : (setTree n t s).fuse = s.fuse := rfl
@[simp] theorem setTree_now (n : Nat) (t : Tree) : (setTree n t s).now = s.now := rfl
@[simp] theorem setTree_strokeNext (n : Nat) (t : Tree) : (setTree n t s).strokeNext = s.strokeNext := rfl
@[simp] theorem setTree_imprNext (n : Nat) (t : Tree) : (setTree n t s).imprNext = s.imprNext := rfl
@[simp] theorem setTree_imprNum (n : Nat) (t : Tree) : (setTree n t s).imprNum = s.imprNum := rfl
@[simp] theorem setTree_imprAt (n : Nat) (t : Tree) : (setTree n t s).imprAt = s.imprAt := rfl
@[simp] theorem setTree_imprCount (n : Nat) (t : Tree) : (setTree n t s).imprCount = s.imprCount := rfl
@[simp] theorem setTree_phaseOff (n : Nat) (t : Tree) : (setTree n t s).phaseOff = s.phaseOff := rfl
@[simp] theorem setTree_regs (n : Nat) (t : Tree) : (setTree n t s).regs = s.regs := rfl
@[simp] theorem setTree_cnt (n : Nat) (t : Tree) : (setTree n t s).cnt = s.cnt := rfl
@[simp] theorem setTree_hold (n : Nat) (t : Tree) : (setTree n t s).hold = s.hold := rfl
@[simp] theorem setTree_cntWrap (n : Nat) (t : Tree) : (setTree n t s).cntWrap = s.cntWrap := rfl
@[simp] theorem setTree_holdWrap (n : Nat) (t : Tree) : (setTree n t s).holdWrap = s.holdWrap := rfl
@[simp] theorem setTree_snapNum (n : Nat) (t : Tree) : (setTree n t s).snapNum = s.snapNum := rfl
@[simp] theorem setTree_snapAt (n : Nat) (t : Tree) : (setTree n t s).snapAt = s.snapAt := rfl
@[simp] theorem setTree_cntKeep (n : Nat) (t : Tree) : (setTree n t s).cntKeep = s.cntKeep := rfl
@[simp] theorem setTree_holdKeep (n : Nat) (t : Tree) : (setTree n t s).holdKeep = s.holdKeep := rfl
@[simp] theorem setTree_bwMs (n : Nat) (t : Tree) : (setTree n t s).bwMs = s.bwMs := rfl
@[simp] theorem setTree_bwStatus (n : Nat) (t : Tree) : (setTree n t s).bwStatus = s.bwStatus := rfl
@[simp] theorem setTree_bwAt (n : Nat) (t : Tree) : (setTree n t s).bwAt = s.bwAt := rfl
@[simp] theorem setTree_rates (n : Nat) (t : Tree) : (setTree n t s).rates = s.rates := rfl
@[simp] theorem setTree_cyc (n : Nat) (t : Tree) : (setTree n t s).cyc = s.cyc := rfl
@[simp] theorem setTree_snapCycle (n : Nat) (t : Tree) : (setTree n t s).snapCycle = s.snapCycle := rfl
@[simp] theorem setTree_bwPart (n : Nat) (t : Tree) : (setTree n t s).bwPart = s.bwPart := rfl
@[simp] theorem setTree_bwFrom (n : Nat) (t : Tree) : (setTree n t s).bwFrom = s.bwFrom := rfl
@[simp] theorem setTree_bwAll (n : Nat) (t : Tree) : (setTree n t s).bwAll = s.bwAll := rfl
@[simp] theorem setTree_bwSrc (n : Nat) (t : Tree) : (setTree n t s).bwSrc = s.bwSrc := rfl
@[simp] theorem setTree_cmd (n : Nat) (t : Tree) : (setTree n t s).cmd = s.cmd := rfl
@[simp] theorem setTree_evt (n : Nat) (t : Tree) : (setTree n t s).evt = s.evt := rfl
@[simp] theorem setTree_evtRun (n : Nat) (t : Tree) : (setTree n t s).evtRun = s.evtRun := rfl
@[simp] theorem setTree_ploamIn (n : Nat) (t : Tree) : (setTree n t s).ploamIn = s.ploamIn := rfl
@[simp] theorem setTree_tsHops (n : Nat) (t : Tree) : (setTree n t s).tsHops = s.tsHops := rfl
@[simp] theorem setTree_plates (n : Nat) (t : Tree) : (setTree n t s).plates = s.plates := rfl
@[simp] theorem setTree_terms (n : Nat) (t : Tree) : (setTree n t s).terms = s.terms := rfl
@[simp] theorem setTree_taps (n : Nat) (t : Tree) : (setTree n t s).taps = s.taps := rfl
@[simp] theorem setTree_keys (n : Nat) (t : Tree) : (setTree n t s).keys = s.keys := rfl
@[simp] theorem setTree_mill (n : Nat) (t : Tree) : (setTree n t s).mill = s.mill := rfl
@[simp] theorem setTree_tribs (n : Nat) (t : Tree) : (setTree n t s).tribs = s.tribs := rfl
@[simp] theorem setTree_screens (n : Nat) (t : Tree) : (setTree n t s).screens = s.screens := rfl
@[simp] theorem setTree_ports (n : Nat) (t : Tree) : (setTree n t s).ports = s.ports := rfl
@[simp] theorem setTree_defects (n : Nat) (t : Tree) : (setTree n t s).defects = s.defects := rfl
@[simp] theorem setTree_timing (n : Nat) (t : Tree) : (setTree n t s).timing = s.timing := rfl
@[simp] theorem setTree_time (n : Nat) (t : Tree) : (setTree n t s).time = s.time := rfl
@[simp] theorem setTree_pair (n : Nat) (t : Tree) : (setTree n t s).pair = s.pair := rfl
@[simp] theorem setTree_power (n : Nat) (t : Tree) : (setTree n t s).power = s.power := rfl
@[simp] theorem setTree_seen (n : Nat) (t : Tree) : (setTree n t s).seen = s.seen := rfl

/-! ### updTree -/

@[simp] theorem updTree_pending (n : Nat) (f : Tree → Tree) : (updTree n f s).pending = s.pending := rfl
@[simp] theorem updTree_free (n : Nat) (f : Tree → Tree) : (updTree n f s).free = s.free := rfl
@[simp] theorem updTree_fuse (n : Nat) (f : Tree → Tree) : (updTree n f s).fuse = s.fuse := rfl
@[simp] theorem updTree_now (n : Nat) (f : Tree → Tree) : (updTree n f s).now = s.now := rfl
@[simp] theorem updTree_strokeNext (n : Nat) (f : Tree → Tree) : (updTree n f s).strokeNext = s.strokeNext := rfl
@[simp] theorem updTree_imprNext (n : Nat) (f : Tree → Tree) : (updTree n f s).imprNext = s.imprNext := rfl
@[simp] theorem updTree_imprNum (n : Nat) (f : Tree → Tree) : (updTree n f s).imprNum = s.imprNum := rfl
@[simp] theorem updTree_imprAt (n : Nat) (f : Tree → Tree) : (updTree n f s).imprAt = s.imprAt := rfl
@[simp] theorem updTree_imprCount (n : Nat) (f : Tree → Tree) : (updTree n f s).imprCount = s.imprCount := rfl
@[simp] theorem updTree_phaseOff (n : Nat) (f : Tree → Tree) : (updTree n f s).phaseOff = s.phaseOff := rfl
@[simp] theorem updTree_regs (n : Nat) (f : Tree → Tree) : (updTree n f s).regs = s.regs := rfl
@[simp] theorem updTree_cnt (n : Nat) (f : Tree → Tree) : (updTree n f s).cnt = s.cnt := rfl
@[simp] theorem updTree_hold (n : Nat) (f : Tree → Tree) : (updTree n f s).hold = s.hold := rfl
@[simp] theorem updTree_cntWrap (n : Nat) (f : Tree → Tree) : (updTree n f s).cntWrap = s.cntWrap := rfl
@[simp] theorem updTree_holdWrap (n : Nat) (f : Tree → Tree) : (updTree n f s).holdWrap = s.holdWrap := rfl
@[simp] theorem updTree_snapNum (n : Nat) (f : Tree → Tree) : (updTree n f s).snapNum = s.snapNum := rfl
@[simp] theorem updTree_snapAt (n : Nat) (f : Tree → Tree) : (updTree n f s).snapAt = s.snapAt := rfl
@[simp] theorem updTree_cntKeep (n : Nat) (f : Tree → Tree) : (updTree n f s).cntKeep = s.cntKeep := rfl
@[simp] theorem updTree_holdKeep (n : Nat) (f : Tree → Tree) : (updTree n f s).holdKeep = s.holdKeep := rfl
@[simp] theorem updTree_bwMs (n : Nat) (f : Tree → Tree) : (updTree n f s).bwMs = s.bwMs := rfl
@[simp] theorem updTree_bwStatus (n : Nat) (f : Tree → Tree) : (updTree n f s).bwStatus = s.bwStatus := rfl
@[simp] theorem updTree_bwAt (n : Nat) (f : Tree → Tree) : (updTree n f s).bwAt = s.bwAt := rfl
@[simp] theorem updTree_rates (n : Nat) (f : Tree → Tree) : (updTree n f s).rates = s.rates := rfl
@[simp] theorem updTree_cyc (n : Nat) (f : Tree → Tree) : (updTree n f s).cyc = s.cyc := rfl
@[simp] theorem updTree_snapCycle (n : Nat) (f : Tree → Tree) : (updTree n f s).snapCycle = s.snapCycle := rfl
@[simp] theorem updTree_bwPart (n : Nat) (f : Tree → Tree) : (updTree n f s).bwPart = s.bwPart := rfl
@[simp] theorem updTree_bwFrom (n : Nat) (f : Tree → Tree) : (updTree n f s).bwFrom = s.bwFrom := rfl
@[simp] theorem updTree_bwAll (n : Nat) (f : Tree → Tree) : (updTree n f s).bwAll = s.bwAll := rfl
@[simp] theorem updTree_bwSrc (n : Nat) (f : Tree → Tree) : (updTree n f s).bwSrc = s.bwSrc := rfl
@[simp] theorem updTree_cmd (n : Nat) (f : Tree → Tree) : (updTree n f s).cmd = s.cmd := rfl
@[simp] theorem updTree_evt (n : Nat) (f : Tree → Tree) : (updTree n f s).evt = s.evt := rfl
@[simp] theorem updTree_evtRun (n : Nat) (f : Tree → Tree) : (updTree n f s).evtRun = s.evtRun := rfl
@[simp] theorem updTree_ploamIn (n : Nat) (f : Tree → Tree) : (updTree n f s).ploamIn = s.ploamIn := rfl
@[simp] theorem updTree_tsHops (n : Nat) (f : Tree → Tree) : (updTree n f s).tsHops = s.tsHops := rfl
@[simp] theorem updTree_plates (n : Nat) (f : Tree → Tree) : (updTree n f s).plates = s.plates := rfl
@[simp] theorem updTree_terms (n : Nat) (f : Tree → Tree) : (updTree n f s).terms = s.terms := rfl
@[simp] theorem updTree_taps (n : Nat) (f : Tree → Tree) : (updTree n f s).taps = s.taps := rfl
@[simp] theorem updTree_keys (n : Nat) (f : Tree → Tree) : (updTree n f s).keys = s.keys := rfl
@[simp] theorem updTree_mill (n : Nat) (f : Tree → Tree) : (updTree n f s).mill = s.mill := rfl
@[simp] theorem updTree_tribs (n : Nat) (f : Tree → Tree) : (updTree n f s).tribs = s.tribs := rfl
@[simp] theorem updTree_screens (n : Nat) (f : Tree → Tree) : (updTree n f s).screens = s.screens := rfl
@[simp] theorem updTree_ports (n : Nat) (f : Tree → Tree) : (updTree n f s).ports = s.ports := rfl
@[simp] theorem updTree_defects (n : Nat) (f : Tree → Tree) : (updTree n f s).defects = s.defects := rfl
@[simp] theorem updTree_timing (n : Nat) (f : Tree → Tree) : (updTree n f s).timing = s.timing := rfl
@[simp] theorem updTree_time (n : Nat) (f : Tree → Tree) : (updTree n f s).time = s.time := rfl
@[simp] theorem updTree_pair (n : Nat) (f : Tree → Tree) : (updTree n f s).pair = s.pair := rfl
@[simp] theorem updTree_power (n : Nat) (f : Tree → Tree) : (updTree n f s).power = s.power := rfl
@[simp] theorem updTree_seen (n : Nat) (f : Tree → Tree) : (updTree n f s).seen = s.seen := rfl

/-! ### setTerm -/

@[simp] theorem setTerm_pending (g : Nat) (t : Term) : (setTerm g t s).pending = s.pending := rfl
@[simp] theorem setTerm_free (g : Nat) (t : Term) : (setTerm g t s).free = s.free := rfl
@[simp] theorem setTerm_fuse (g : Nat) (t : Term) : (setTerm g t s).fuse = s.fuse := rfl
@[simp] theorem setTerm_now (g : Nat) (t : Term) : (setTerm g t s).now = s.now := rfl
@[simp] theorem setTerm_strokeNext (g : Nat) (t : Term) : (setTerm g t s).strokeNext = s.strokeNext := rfl
@[simp] theorem setTerm_imprNext (g : Nat) (t : Term) : (setTerm g t s).imprNext = s.imprNext := rfl
@[simp] theorem setTerm_imprNum (g : Nat) (t : Term) : (setTerm g t s).imprNum = s.imprNum := rfl
@[simp] theorem setTerm_imprAt (g : Nat) (t : Term) : (setTerm g t s).imprAt = s.imprAt := rfl
@[simp] theorem setTerm_imprCount (g : Nat) (t : Term) : (setTerm g t s).imprCount = s.imprCount := rfl
@[simp] theorem setTerm_phaseOff (g : Nat) (t : Term) : (setTerm g t s).phaseOff = s.phaseOff := rfl
@[simp] theorem setTerm_regs (g : Nat) (t : Term) : (setTerm g t s).regs = s.regs := rfl
@[simp] theorem setTerm_cnt (g : Nat) (t : Term) : (setTerm g t s).cnt = s.cnt := rfl
@[simp] theorem setTerm_hold (g : Nat) (t : Term) : (setTerm g t s).hold = s.hold := rfl
@[simp] theorem setTerm_cntWrap (g : Nat) (t : Term) : (setTerm g t s).cntWrap = s.cntWrap := rfl
@[simp] theorem setTerm_holdWrap (g : Nat) (t : Term) : (setTerm g t s).holdWrap = s.holdWrap := rfl
@[simp] theorem setTerm_snapNum (g : Nat) (t : Term) : (setTerm g t s).snapNum = s.snapNum := rfl
@[simp] theorem setTerm_snapAt (g : Nat) (t : Term) : (setTerm g t s).snapAt = s.snapAt := rfl
@[simp] theorem setTerm_cntKeep (g : Nat) (t : Term) : (setTerm g t s).cntKeep = s.cntKeep := rfl
@[simp] theorem setTerm_holdKeep (g : Nat) (t : Term) : (setTerm g t s).holdKeep = s.holdKeep := rfl
@[simp] theorem setTerm_bwMs (g : Nat) (t : Term) : (setTerm g t s).bwMs = s.bwMs := rfl
@[simp] theorem setTerm_bwStatus (g : Nat) (t : Term) : (setTerm g t s).bwStatus = s.bwStatus := rfl
@[simp] theorem setTerm_bwAt (g : Nat) (t : Term) : (setTerm g t s).bwAt = s.bwAt := rfl
@[simp] theorem setTerm_rates (g : Nat) (t : Term) : (setTerm g t s).rates = s.rates := rfl
@[simp] theorem setTerm_cyc (g : Nat) (t : Term) : (setTerm g t s).cyc = s.cyc := rfl
@[simp] theorem setTerm_snapCycle (g : Nat) (t : Term) : (setTerm g t s).snapCycle = s.snapCycle := rfl
@[simp] theorem setTerm_bwPart (g : Nat) (t : Term) : (setTerm g t s).bwPart = s.bwPart := rfl
@[simp] theorem setTerm_bwFrom (g : Nat) (t : Term) : (setTerm g t s).bwFrom = s.bwFrom := rfl
@[simp] theorem setTerm_bwAll (g : Nat) (t : Term) : (setTerm g t s).bwAll = s.bwAll := rfl
@[simp] theorem setTerm_bwSrc (g : Nat) (t : Term) : (setTerm g t s).bwSrc = s.bwSrc := rfl
@[simp] theorem setTerm_cmd (g : Nat) (t : Term) : (setTerm g t s).cmd = s.cmd := rfl
@[simp] theorem setTerm_evt (g : Nat) (t : Term) : (setTerm g t s).evt = s.evt := rfl
@[simp] theorem setTerm_evtRun (g : Nat) (t : Term) : (setTerm g t s).evtRun = s.evtRun := rfl
@[simp] theorem setTerm_ploamIn (g : Nat) (t : Term) : (setTerm g t s).ploamIn = s.ploamIn := rfl
@[simp] theorem setTerm_tsHops (g : Nat) (t : Term) : (setTerm g t s).tsHops = s.tsHops := rfl
@[simp] theorem setTerm_plates (g : Nat) (t : Term) : (setTerm g t s).plates = s.plates := rfl
@[simp] theorem setTerm_trees (g : Nat) (t : Term) : (setTerm g t s).trees = s.trees := rfl
@[simp] theorem setTerm_taps (g : Nat) (t : Term) : (setTerm g t s).taps = s.taps := rfl
@[simp] theorem setTerm_keys (g : Nat) (t : Term) : (setTerm g t s).keys = s.keys := rfl
@[simp] theorem setTerm_mill (g : Nat) (t : Term) : (setTerm g t s).mill = s.mill := rfl
@[simp] theorem setTerm_tribs (g : Nat) (t : Term) : (setTerm g t s).tribs = s.tribs := rfl
@[simp] theorem setTerm_screens (g : Nat) (t : Term) : (setTerm g t s).screens = s.screens := rfl
@[simp] theorem setTerm_ports (g : Nat) (t : Term) : (setTerm g t s).ports = s.ports := rfl
@[simp] theorem setTerm_defects (g : Nat) (t : Term) : (setTerm g t s).defects = s.defects := rfl
@[simp] theorem setTerm_timing (g : Nat) (t : Term) : (setTerm g t s).timing = s.timing := rfl
@[simp] theorem setTerm_time (g : Nat) (t : Term) : (setTerm g t s).time = s.time := rfl
@[simp] theorem setTerm_pair (g : Nat) (t : Term) : (setTerm g t s).pair = s.pair := rfl
@[simp] theorem setTerm_power (g : Nat) (t : Term) : (setTerm g t s).power = s.power := rfl
@[simp] theorem setTerm_seen (g : Nat) (t : Term) : (setTerm g t s).seen = s.seen := rfl

/-! ### updTerm -/

@[simp] theorem updTerm_pending (g : Nat) (f : Term → Term) : (updTerm g f s).pending = s.pending := rfl
@[simp] theorem updTerm_free (g : Nat) (f : Term → Term) : (updTerm g f s).free = s.free := rfl
@[simp] theorem updTerm_fuse (g : Nat) (f : Term → Term) : (updTerm g f s).fuse = s.fuse := rfl
@[simp] theorem updTerm_now (g : Nat) (f : Term → Term) : (updTerm g f s).now = s.now := rfl
@[simp] theorem updTerm_strokeNext (g : Nat) (f : Term → Term) : (updTerm g f s).strokeNext = s.strokeNext := rfl
@[simp] theorem updTerm_imprNext (g : Nat) (f : Term → Term) : (updTerm g f s).imprNext = s.imprNext := rfl
@[simp] theorem updTerm_imprNum (g : Nat) (f : Term → Term) : (updTerm g f s).imprNum = s.imprNum := rfl
@[simp] theorem updTerm_imprAt (g : Nat) (f : Term → Term) : (updTerm g f s).imprAt = s.imprAt := rfl
@[simp] theorem updTerm_imprCount (g : Nat) (f : Term → Term) : (updTerm g f s).imprCount = s.imprCount := rfl
@[simp] theorem updTerm_phaseOff (g : Nat) (f : Term → Term) : (updTerm g f s).phaseOff = s.phaseOff := rfl
@[simp] theorem updTerm_regs (g : Nat) (f : Term → Term) : (updTerm g f s).regs = s.regs := rfl
@[simp] theorem updTerm_cnt (g : Nat) (f : Term → Term) : (updTerm g f s).cnt = s.cnt := rfl
@[simp] theorem updTerm_hold (g : Nat) (f : Term → Term) : (updTerm g f s).hold = s.hold := rfl
@[simp] theorem updTerm_cntWrap (g : Nat) (f : Term → Term) : (updTerm g f s).cntWrap = s.cntWrap := rfl
@[simp] theorem updTerm_holdWrap (g : Nat) (f : Term → Term) : (updTerm g f s).holdWrap = s.holdWrap := rfl
@[simp] theorem updTerm_snapNum (g : Nat) (f : Term → Term) : (updTerm g f s).snapNum = s.snapNum := rfl
@[simp] theorem updTerm_snapAt (g : Nat) (f : Term → Term) : (updTerm g f s).snapAt = s.snapAt := rfl
@[simp] theorem updTerm_cntKeep (g : Nat) (f : Term → Term) : (updTerm g f s).cntKeep = s.cntKeep := rfl
@[simp] theorem updTerm_holdKeep (g : Nat) (f : Term → Term) : (updTerm g f s).holdKeep = s.holdKeep := rfl
@[simp] theorem updTerm_bwMs (g : Nat) (f : Term → Term) : (updTerm g f s).bwMs = s.bwMs := rfl
@[simp] theorem updTerm_bwStatus (g : Nat) (f : Term → Term) : (updTerm g f s).bwStatus = s.bwStatus := rfl
@[simp] theorem updTerm_bwAt (g : Nat) (f : Term → Term) : (updTerm g f s).bwAt = s.bwAt := rfl
@[simp] theorem updTerm_rates (g : Nat) (f : Term → Term) : (updTerm g f s).rates = s.rates := rfl
@[simp] theorem updTerm_cyc (g : Nat) (f : Term → Term) : (updTerm g f s).cyc = s.cyc := rfl
@[simp] theorem updTerm_snapCycle (g : Nat) (f : Term → Term) : (updTerm g f s).snapCycle = s.snapCycle := rfl
@[simp] theorem updTerm_bwPart (g : Nat) (f : Term → Term) : (updTerm g f s).bwPart = s.bwPart := rfl
@[simp] theorem updTerm_bwFrom (g : Nat) (f : Term → Term) : (updTerm g f s).bwFrom = s.bwFrom := rfl
@[simp] theorem updTerm_bwAll (g : Nat) (f : Term → Term) : (updTerm g f s).bwAll = s.bwAll := rfl
@[simp] theorem updTerm_bwSrc (g : Nat) (f : Term → Term) : (updTerm g f s).bwSrc = s.bwSrc := rfl
@[simp] theorem updTerm_cmd (g : Nat) (f : Term → Term) : (updTerm g f s).cmd = s.cmd := rfl
@[simp] theorem updTerm_evt (g : Nat) (f : Term → Term) : (updTerm g f s).evt = s.evt := rfl
@[simp] theorem updTerm_evtRun (g : Nat) (f : Term → Term) : (updTerm g f s).evtRun = s.evtRun := rfl
@[simp] theorem updTerm_ploamIn (g : Nat) (f : Term → Term) : (updTerm g f s).ploamIn = s.ploamIn := rfl
@[simp] theorem updTerm_tsHops (g : Nat) (f : Term → Term) : (updTerm g f s).tsHops = s.tsHops := rfl
@[simp] theorem updTerm_plates (g : Nat) (f : Term → Term) : (updTerm g f s).plates = s.plates := rfl
@[simp] theorem updTerm_trees (g : Nat) (f : Term → Term) : (updTerm g f s).trees = s.trees := rfl
@[simp] theorem updTerm_taps (g : Nat) (f : Term → Term) : (updTerm g f s).taps = s.taps := rfl
@[simp] theorem updTerm_keys (g : Nat) (f : Term → Term) : (updTerm g f s).keys = s.keys := rfl
@[simp] theorem updTerm_mill (g : Nat) (f : Term → Term) : (updTerm g f s).mill = s.mill := rfl
@[simp] theorem updTerm_tribs (g : Nat) (f : Term → Term) : (updTerm g f s).tribs = s.tribs := rfl
@[simp] theorem updTerm_screens (g : Nat) (f : Term → Term) : (updTerm g f s).screens = s.screens := rfl
@[simp] theorem updTerm_ports (g : Nat) (f : Term → Term) : (updTerm g f s).ports = s.ports := rfl
@[simp] theorem updTerm_defects (g : Nat) (f : Term → Term) : (updTerm g f s).defects = s.defects := rfl
@[simp] theorem updTerm_timing (g : Nat) (f : Term → Term) : (updTerm g f s).timing = s.timing := rfl
@[simp] theorem updTerm_time (g : Nat) (f : Term → Term) : (updTerm g f s).time = s.time := rfl
@[simp] theorem updTerm_pair (g : Nat) (f : Term → Term) : (updTerm g f s).pair = s.pair := rfl
@[simp] theorem updTerm_power (g : Nat) (f : Term → Term) : (updTerm g f s).power = s.power := rfl
@[simp] theorem updTerm_seen (g : Nat) (f : Term → Term) : (updTerm g f s).seen = s.seen := rfl

/-! ### setPort -/

@[simp] theorem setPort_pending (p : Nat) (u : UPort) : (setPort p u s).pending = s.pending := rfl
@[simp] theorem setPort_free (p : Nat) (u : UPort) : (setPort p u s).free = s.free := rfl
@[simp] theorem setPort_fuse (p : Nat) (u : UPort) : (setPort p u s).fuse = s.fuse := rfl
@[simp] theorem setPort_now (p : Nat) (u : UPort) : (setPort p u s).now = s.now := rfl
@[simp] theorem setPort_strokeNext (p : Nat) (u : UPort) : (setPort p u s).strokeNext = s.strokeNext := rfl
@[simp] theorem setPort_imprNext (p : Nat) (u : UPort) : (setPort p u s).imprNext = s.imprNext := rfl
@[simp] theorem setPort_imprNum (p : Nat) (u : UPort) : (setPort p u s).imprNum = s.imprNum := rfl
@[simp] theorem setPort_imprAt (p : Nat) (u : UPort) : (setPort p u s).imprAt = s.imprAt := rfl
@[simp] theorem setPort_imprCount (p : Nat) (u : UPort) : (setPort p u s).imprCount = s.imprCount := rfl
@[simp] theorem setPort_phaseOff (p : Nat) (u : UPort) : (setPort p u s).phaseOff = s.phaseOff := rfl
@[simp] theorem setPort_regs (p : Nat) (u : UPort) : (setPort p u s).regs = s.regs := rfl
@[simp] theorem setPort_cnt (p : Nat) (u : UPort) : (setPort p u s).cnt = s.cnt := rfl
@[simp] theorem setPort_hold (p : Nat) (u : UPort) : (setPort p u s).hold = s.hold := rfl
@[simp] theorem setPort_cntWrap (p : Nat) (u : UPort) : (setPort p u s).cntWrap = s.cntWrap := rfl
@[simp] theorem setPort_holdWrap (p : Nat) (u : UPort) : (setPort p u s).holdWrap = s.holdWrap := rfl
@[simp] theorem setPort_snapNum (p : Nat) (u : UPort) : (setPort p u s).snapNum = s.snapNum := rfl
@[simp] theorem setPort_snapAt (p : Nat) (u : UPort) : (setPort p u s).snapAt = s.snapAt := rfl
@[simp] theorem setPort_cntKeep (p : Nat) (u : UPort) : (setPort p u s).cntKeep = s.cntKeep := rfl
@[simp] theorem setPort_holdKeep (p : Nat) (u : UPort) : (setPort p u s).holdKeep = s.holdKeep := rfl
@[simp] theorem setPort_bwMs (p : Nat) (u : UPort) : (setPort p u s).bwMs = s.bwMs := rfl
@[simp] theorem setPort_bwStatus (p : Nat) (u : UPort) : (setPort p u s).bwStatus = s.bwStatus := rfl
@[simp] theorem setPort_bwAt (p : Nat) (u : UPort) : (setPort p u s).bwAt = s.bwAt := rfl
@[simp] theorem setPort_rates (p : Nat) (u : UPort) : (setPort p u s).rates = s.rates := rfl
@[simp] theorem setPort_cyc (p : Nat) (u : UPort) : (setPort p u s).cyc = s.cyc := rfl
@[simp] theorem setPort_snapCycle (p : Nat) (u : UPort) : (setPort p u s).snapCycle = s.snapCycle := rfl
@[simp] theorem setPort_bwPart (p : Nat) (u : UPort) : (setPort p u s).bwPart = s.bwPart := rfl
@[simp] theorem setPort_bwFrom (p : Nat) (u : UPort) : (setPort p u s).bwFrom = s.bwFrom := rfl
@[simp] theorem setPort_bwAll (p : Nat) (u : UPort) : (setPort p u s).bwAll = s.bwAll := rfl
@[simp] theorem setPort_bwSrc (p : Nat) (u : UPort) : (setPort p u s).bwSrc = s.bwSrc := rfl
@[simp] theorem setPort_cmd (p : Nat) (u : UPort) : (setPort p u s).cmd = s.cmd := rfl
@[simp] theorem setPort_evt (p : Nat) (u : UPort) : (setPort p u s).evt = s.evt := rfl
@[simp] theorem setPort_evtRun (p : Nat) (u : UPort) : (setPort p u s).evtRun = s.evtRun := rfl
@[simp] theorem setPort_ploamIn (p : Nat) (u : UPort) : (setPort p u s).ploamIn = s.ploamIn := rfl
@[simp] theorem setPort_tsHops (p : Nat) (u : UPort) : (setPort p u s).tsHops = s.tsHops := rfl
@[simp] theorem setPort_plates (p : Nat) (u : UPort) : (setPort p u s).plates = s.plates := rfl
@[simp] theorem setPort_trees (p : Nat) (u : UPort) : (setPort p u s).trees = s.trees := rfl
@[simp] theorem setPort_terms (p : Nat) (u : UPort) : (setPort p u s).terms = s.terms := rfl
@[simp] theorem setPort_taps (p : Nat) (u : UPort) : (setPort p u s).taps = s.taps := rfl
@[simp] theorem setPort_keys (p : Nat) (u : UPort) : (setPort p u s).keys = s.keys := rfl
@[simp] theorem setPort_mill (p : Nat) (u : UPort) : (setPort p u s).mill = s.mill := rfl
@[simp] theorem setPort_tribs (p : Nat) (u : UPort) : (setPort p u s).tribs = s.tribs := rfl
@[simp] theorem setPort_screens (p : Nat) (u : UPort) : (setPort p u s).screens = s.screens := rfl
@[simp] theorem setPort_defects (p : Nat) (u : UPort) : (setPort p u s).defects = s.defects := rfl
@[simp] theorem setPort_timing (p : Nat) (u : UPort) : (setPort p u s).timing = s.timing := rfl
@[simp] theorem setPort_time (p : Nat) (u : UPort) : (setPort p u s).time = s.time := rfl
@[simp] theorem setPort_pair (p : Nat) (u : UPort) : (setPort p u s).pair = s.pair := rfl
@[simp] theorem setPort_power (p : Nat) (u : UPort) : (setPort p u s).power = s.power := rfl
@[simp] theorem setPort_seen (p : Nat) (u : UPort) : (setPort p u s).seen = s.seen := rfl

/-! ### updPort -/

@[simp] theorem updPort_pending (p : Nat) (f : UPort → UPort) : (updPort p f s).pending = s.pending := rfl
@[simp] theorem updPort_free (p : Nat) (f : UPort → UPort) : (updPort p f s).free = s.free := rfl
@[simp] theorem updPort_fuse (p : Nat) (f : UPort → UPort) : (updPort p f s).fuse = s.fuse := rfl
@[simp] theorem updPort_now (p : Nat) (f : UPort → UPort) : (updPort p f s).now = s.now := rfl
@[simp] theorem updPort_strokeNext (p : Nat) (f : UPort → UPort) : (updPort p f s).strokeNext = s.strokeNext := rfl
@[simp] theorem updPort_imprNext (p : Nat) (f : UPort → UPort) : (updPort p f s).imprNext = s.imprNext := rfl
@[simp] theorem updPort_imprNum (p : Nat) (f : UPort → UPort) : (updPort p f s).imprNum = s.imprNum := rfl
@[simp] theorem updPort_imprAt (p : Nat) (f : UPort → UPort) : (updPort p f s).imprAt = s.imprAt := rfl
@[simp] theorem updPort_imprCount (p : Nat) (f : UPort → UPort) : (updPort p f s).imprCount = s.imprCount := rfl
@[simp] theorem updPort_phaseOff (p : Nat) (f : UPort → UPort) : (updPort p f s).phaseOff = s.phaseOff := rfl
@[simp] theorem updPort_regs (p : Nat) (f : UPort → UPort) : (updPort p f s).regs = s.regs := rfl
@[simp] theorem updPort_cnt (p : Nat) (f : UPort → UPort) : (updPort p f s).cnt = s.cnt := rfl
@[simp] theorem updPort_hold (p : Nat) (f : UPort → UPort) : (updPort p f s).hold = s.hold := rfl
@[simp] theorem updPort_cntWrap (p : Nat) (f : UPort → UPort) : (updPort p f s).cntWrap = s.cntWrap := rfl
@[simp] theorem updPort_holdWrap (p : Nat) (f : UPort → UPort) : (updPort p f s).holdWrap = s.holdWrap := rfl
@[simp] theorem updPort_snapNum (p : Nat) (f : UPort → UPort) : (updPort p f s).snapNum = s.snapNum := rfl
@[simp] theorem updPort_snapAt (p : Nat) (f : UPort → UPort) : (updPort p f s).snapAt = s.snapAt := rfl
@[simp] theorem updPort_cntKeep (p : Nat) (f : UPort → UPort) : (updPort p f s).cntKeep = s.cntKeep := rfl
@[simp] theorem updPort_holdKeep (p : Nat) (f : UPort → UPort) : (updPort p f s).holdKeep = s.holdKeep := rfl
@[simp] theorem updPort_bwMs (p : Nat) (f : UPort → UPort) : (updPort p f s).bwMs = s.bwMs := rfl
@[simp] theorem updPort_bwStatus (p : Nat) (f : UPort → UPort) : (updPort p f s).bwStatus = s.bwStatus := rfl
@[simp] theorem updPort_bwAt (p : Nat) (f : UPort → UPort) : (updPort p f s).bwAt = s.bwAt := rfl
@[simp] theorem updPort_rates (p : Nat) (f : UPort → UPort) : (updPort p f s).rates = s.rates := rfl
@[simp] theorem updPort_cyc (p : Nat) (f : UPort → UPort) : (updPort p f s).cyc = s.cyc := rfl
@[simp] theorem updPort_snapCycle (p : Nat) (f : UPort → UPort) : (updPort p f s).snapCycle = s.snapCycle := rfl
@[simp] theorem updPort_bwPart (p : Nat) (f : UPort → UPort) : (updPort p f s).bwPart = s.bwPart := rfl
@[simp] theorem updPort_bwFrom (p : Nat) (f : UPort → UPort) : (updPort p f s).bwFrom = s.bwFrom := rfl
@[simp] theorem updPort_bwAll (p : Nat) (f : UPort → UPort) : (updPort p f s).bwAll = s.bwAll := rfl
@[simp] theorem updPort_bwSrc (p : Nat) (f : UPort → UPort) : (updPort p f s).bwSrc = s.bwSrc := rfl
@[simp] theorem updPort_cmd (p : Nat) (f : UPort → UPort) : (updPort p f s).cmd = s.cmd := rfl
@[simp] theorem updPort_evt (p : Nat) (f : UPort → UPort) : (updPort p f s).evt = s.evt := rfl
@[simp] theorem updPort_evtRun (p : Nat) (f : UPort → UPort) : (updPort p f s).evtRun = s.evtRun := rfl
@[simp] theorem updPort_ploamIn (p : Nat) (f : UPort → UPort) : (updPort p f s).ploamIn = s.ploamIn := rfl
@[simp] theorem updPort_tsHops (p : Nat) (f : UPort → UPort) : (updPort p f s).tsHops = s.tsHops := rfl
@[simp] theorem updPort_plates (p : Nat) (f : UPort → UPort) : (updPort p f s).plates = s.plates := rfl
@[simp] theorem updPort_trees (p : Nat) (f : UPort → UPort) : (updPort p f s).trees = s.trees := rfl
@[simp] theorem updPort_terms (p : Nat) (f : UPort → UPort) : (updPort p f s).terms = s.terms := rfl
@[simp] theorem updPort_taps (p : Nat) (f : UPort → UPort) : (updPort p f s).taps = s.taps := rfl
@[simp] theorem updPort_keys (p : Nat) (f : UPort → UPort) : (updPort p f s).keys = s.keys := rfl
@[simp] theorem updPort_mill (p : Nat) (f : UPort → UPort) : (updPort p f s).mill = s.mill := rfl
@[simp] theorem updPort_tribs (p : Nat) (f : UPort → UPort) : (updPort p f s).tribs = s.tribs := rfl
@[simp] theorem updPort_screens (p : Nat) (f : UPort → UPort) : (updPort p f s).screens = s.screens := rfl
@[simp] theorem updPort_defects (p : Nat) (f : UPort → UPort) : (updPort p f s).defects = s.defects := rfl
@[simp] theorem updPort_timing (p : Nat) (f : UPort → UPort) : (updPort p f s).timing = s.timing := rfl
@[simp] theorem updPort_time (p : Nat) (f : UPort → UPort) : (updPort p f s).time = s.time := rfl
@[simp] theorem updPort_pair (p : Nat) (f : UPort → UPort) : (updPort p f s).pair = s.pair := rfl
@[simp] theorem updPort_power (p : Nat) (f : UPort → UPort) : (updPort p f s).power = s.power := rfl
@[simp] theorem updPort_seen (p : Nat) (f : UPort → UPort) : (updPort p f s).seen = s.seen := rfl

/-! ### setTrib -/

@[simp] theorem setTrib_pending (f : Nat) (t : Trib) : (setTrib f t s).pending = s.pending := rfl
@[simp] theorem setTrib_free (f : Nat) (t : Trib) : (setTrib f t s).free = s.free := rfl
@[simp] theorem setTrib_fuse (f : Nat) (t : Trib) : (setTrib f t s).fuse = s.fuse := rfl
@[simp] theorem setTrib_now (f : Nat) (t : Trib) : (setTrib f t s).now = s.now := rfl
@[simp] theorem setTrib_strokeNext (f : Nat) (t : Trib) : (setTrib f t s).strokeNext = s.strokeNext := rfl
@[simp] theorem setTrib_imprNext (f : Nat) (t : Trib) : (setTrib f t s).imprNext = s.imprNext := rfl
@[simp] theorem setTrib_imprNum (f : Nat) (t : Trib) : (setTrib f t s).imprNum = s.imprNum := rfl
@[simp] theorem setTrib_imprAt (f : Nat) (t : Trib) : (setTrib f t s).imprAt = s.imprAt := rfl
@[simp] theorem setTrib_imprCount (f : Nat) (t : Trib) : (setTrib f t s).imprCount = s.imprCount := rfl
@[simp] theorem setTrib_phaseOff (f : Nat) (t : Trib) : (setTrib f t s).phaseOff = s.phaseOff := rfl
@[simp] theorem setTrib_regs (f : Nat) (t : Trib) : (setTrib f t s).regs = s.regs := rfl
@[simp] theorem setTrib_cnt (f : Nat) (t : Trib) : (setTrib f t s).cnt = s.cnt := rfl
@[simp] theorem setTrib_hold (f : Nat) (t : Trib) : (setTrib f t s).hold = s.hold := rfl
@[simp] theorem setTrib_cntWrap (f : Nat) (t : Trib) : (setTrib f t s).cntWrap = s.cntWrap := rfl
@[simp] theorem setTrib_holdWrap (f : Nat) (t : Trib) : (setTrib f t s).holdWrap = s.holdWrap := rfl
@[simp] theorem setTrib_snapNum (f : Nat) (t : Trib) : (setTrib f t s).snapNum = s.snapNum := rfl
@[simp] theorem setTrib_snapAt (f : Nat) (t : Trib) : (setTrib f t s).snapAt = s.snapAt := rfl
@[simp] theorem setTrib_cntKeep (f : Nat) (t : Trib) : (setTrib f t s).cntKeep = s.cntKeep := rfl
@[simp] theorem setTrib_holdKeep (f : Nat) (t : Trib) : (setTrib f t s).holdKeep = s.holdKeep := rfl
@[simp] theorem setTrib_bwMs (f : Nat) (t : Trib) : (setTrib f t s).bwMs = s.bwMs := rfl
@[simp] theorem setTrib_bwStatus (f : Nat) (t : Trib) : (setTrib f t s).bwStatus = s.bwStatus := rfl
@[simp] theorem setTrib_bwAt (f : Nat) (t : Trib) : (setTrib f t s).bwAt = s.bwAt := rfl
@[simp] theorem setTrib_rates (f : Nat) (t : Trib) : (setTrib f t s).rates = s.rates := rfl
@[simp] theorem setTrib_cyc (f : Nat) (t : Trib) : (setTrib f t s).cyc = s.cyc := rfl
@[simp] theorem setTrib_snapCycle (f : Nat) (t : Trib) : (setTrib f t s).snapCycle = s.snapCycle := rfl
@[simp] theorem setTrib_bwPart (f : Nat) (t : Trib) : (setTrib f t s).bwPart = s.bwPart := rfl
@[simp] theorem setTrib_bwFrom (f : Nat) (t : Trib) : (setTrib f t s).bwFrom = s.bwFrom := rfl
@[simp] theorem setTrib_bwAll (f : Nat) (t : Trib) : (setTrib f t s).bwAll = s.bwAll := rfl
@[simp] theorem setTrib_bwSrc (f : Nat) (t : Trib) : (setTrib f t s).bwSrc = s.bwSrc := rfl
@[simp] theorem setTrib_cmd (f : Nat) (t : Trib) : (setTrib f t s).cmd = s.cmd := rfl
@[simp] theorem setTrib_evt (f : Nat) (t : Trib) : (setTrib f t s).evt = s.evt := rfl
@[simp] theorem setTrib_evtRun (f : Nat) (t : Trib) : (setTrib f t s).evtRun = s.evtRun := rfl
@[simp] theorem setTrib_ploamIn (f : Nat) (t : Trib) : (setTrib f t s).ploamIn = s.ploamIn := rfl
@[simp] theorem setTrib_tsHops (f : Nat) (t : Trib) : (setTrib f t s).tsHops = s.tsHops := rfl
@[simp] theorem setTrib_plates (f : Nat) (t : Trib) : (setTrib f t s).plates = s.plates := rfl
@[simp] theorem setTrib_trees (f : Nat) (t : Trib) : (setTrib f t s).trees = s.trees := rfl
@[simp] theorem setTrib_terms (f : Nat) (t : Trib) : (setTrib f t s).terms = s.terms := rfl
@[simp] theorem setTrib_taps (f : Nat) (t : Trib) : (setTrib f t s).taps = s.taps := rfl
@[simp] theorem setTrib_keys (f : Nat) (t : Trib) : (setTrib f t s).keys = s.keys := rfl
@[simp] theorem setTrib_mill (f : Nat) (t : Trib) : (setTrib f t s).mill = s.mill := rfl
@[simp] theorem setTrib_screens (f : Nat) (t : Trib) : (setTrib f t s).screens = s.screens := rfl
@[simp] theorem setTrib_ports (f : Nat) (t : Trib) : (setTrib f t s).ports = s.ports := rfl
@[simp] theorem setTrib_defects (f : Nat) (t : Trib) : (setTrib f t s).defects = s.defects := rfl
@[simp] theorem setTrib_timing (f : Nat) (t : Trib) : (setTrib f t s).timing = s.timing := rfl
@[simp] theorem setTrib_time (f : Nat) (t : Trib) : (setTrib f t s).time = s.time := rfl
@[simp] theorem setTrib_pair (f : Nat) (t : Trib) : (setTrib f t s).pair = s.pair := rfl
@[simp] theorem setTrib_power (f : Nat) (t : Trib) : (setTrib f t s).power = s.power := rfl
@[simp] theorem setTrib_seen (f : Nat) (t : Trib) : (setTrib f t s).seen = s.seen := rfl

/-! ### setLane -/

@[simp] theorem setLane_pending (k : Nat) (l : Lane) : (setLane k l s).pending = s.pending := rfl
@[simp] theorem setLane_free (k : Nat) (l : Lane) : (setLane k l s).free = s.free := rfl
@[simp] theorem setLane_fuse (k : Nat) (l : Lane) : (setLane k l s).fuse = s.fuse := rfl
@[simp] theorem setLane_now (k : Nat) (l : Lane) : (setLane k l s).now = s.now := rfl
@[simp] theorem setLane_strokeNext (k : Nat) (l : Lane) : (setLane k l s).strokeNext = s.strokeNext := rfl
@[simp] theorem setLane_imprNext (k : Nat) (l : Lane) : (setLane k l s).imprNext = s.imprNext := rfl
@[simp] theorem setLane_imprNum (k : Nat) (l : Lane) : (setLane k l s).imprNum = s.imprNum := rfl
@[simp] theorem setLane_imprAt (k : Nat) (l : Lane) : (setLane k l s).imprAt = s.imprAt := rfl
@[simp] theorem setLane_imprCount (k : Nat) (l : Lane) : (setLane k l s).imprCount = s.imprCount := rfl
@[simp] theorem setLane_phaseOff (k : Nat) (l : Lane) : (setLane k l s).phaseOff = s.phaseOff := rfl
@[simp] theorem setLane_regs (k : Nat) (l : Lane) : (setLane k l s).regs = s.regs := rfl
@[simp] theorem setLane_cnt (k : Nat) (l : Lane) : (setLane k l s).cnt = s.cnt := rfl
@[simp] theorem setLane_hold (k : Nat) (l : Lane) : (setLane k l s).hold = s.hold := rfl
@[simp] theorem setLane_cntWrap (k : Nat) (l : Lane) : (setLane k l s).cntWrap = s.cntWrap := rfl
@[simp] theorem setLane_holdWrap (k : Nat) (l : Lane) : (setLane k l s).holdWrap = s.holdWrap := rfl
@[simp] theorem setLane_snapNum (k : Nat) (l : Lane) : (setLane k l s).snapNum = s.snapNum := rfl
@[simp] theorem setLane_snapAt (k : Nat) (l : Lane) : (setLane k l s).snapAt = s.snapAt := rfl
@[simp] theorem setLane_cntKeep (k : Nat) (l : Lane) : (setLane k l s).cntKeep = s.cntKeep := rfl
@[simp] theorem setLane_holdKeep (k : Nat) (l : Lane) : (setLane k l s).holdKeep = s.holdKeep := rfl
@[simp] theorem setLane_bwMs (k : Nat) (l : Lane) : (setLane k l s).bwMs = s.bwMs := rfl
@[simp] theorem setLane_bwStatus (k : Nat) (l : Lane) : (setLane k l s).bwStatus = s.bwStatus := rfl
@[simp] theorem setLane_bwAt (k : Nat) (l : Lane) : (setLane k l s).bwAt = s.bwAt := rfl
@[simp] theorem setLane_rates (k : Nat) (l : Lane) : (setLane k l s).rates = s.rates := rfl
@[simp] theorem setLane_cyc (k : Nat) (l : Lane) : (setLane k l s).cyc = s.cyc := rfl
@[simp] theorem setLane_snapCycle (k : Nat) (l : Lane) : (setLane k l s).snapCycle = s.snapCycle := rfl
@[simp] theorem setLane_bwPart (k : Nat) (l : Lane) : (setLane k l s).bwPart = s.bwPart := rfl
@[simp] theorem setLane_bwFrom (k : Nat) (l : Lane) : (setLane k l s).bwFrom = s.bwFrom := rfl
@[simp] theorem setLane_bwAll (k : Nat) (l : Lane) : (setLane k l s).bwAll = s.bwAll := rfl
@[simp] theorem setLane_bwSrc (k : Nat) (l : Lane) : (setLane k l s).bwSrc = s.bwSrc := rfl
@[simp] theorem setLane_cmd (k : Nat) (l : Lane) : (setLane k l s).cmd = s.cmd := rfl
@[simp] theorem setLane_evt (k : Nat) (l : Lane) : (setLane k l s).evt = s.evt := rfl
@[simp] theorem setLane_evtRun (k : Nat) (l : Lane) : (setLane k l s).evtRun = s.evtRun := rfl
@[simp] theorem setLane_ploamIn (k : Nat) (l : Lane) : (setLane k l s).ploamIn = s.ploamIn := rfl
@[simp] theorem setLane_tsHops (k : Nat) (l : Lane) : (setLane k l s).tsHops = s.tsHops := rfl
@[simp] theorem setLane_plates (k : Nat) (l : Lane) : (setLane k l s).plates = s.plates := rfl
@[simp] theorem setLane_trees (k : Nat) (l : Lane) : (setLane k l s).trees = s.trees := rfl
@[simp] theorem setLane_terms (k : Nat) (l : Lane) : (setLane k l s).terms = s.terms := rfl
@[simp] theorem setLane_taps (k : Nat) (l : Lane) : (setLane k l s).taps = s.taps := rfl
@[simp] theorem setLane_keys (k : Nat) (l : Lane) : (setLane k l s).keys = s.keys := rfl
@[simp] theorem setLane_tribs (k : Nat) (l : Lane) : (setLane k l s).tribs = s.tribs := rfl
@[simp] theorem setLane_screens (k : Nat) (l : Lane) : (setLane k l s).screens = s.screens := rfl
@[simp] theorem setLane_ports (k : Nat) (l : Lane) : (setLane k l s).ports = s.ports := rfl
@[simp] theorem setLane_defects (k : Nat) (l : Lane) : (setLane k l s).defects = s.defects := rfl
@[simp] theorem setLane_timing (k : Nat) (l : Lane) : (setLane k l s).timing = s.timing := rfl
@[simp] theorem setLane_time (k : Nat) (l : Lane) : (setLane k l s).time = s.time := rfl
@[simp] theorem setLane_pair (k : Nat) (l : Lane) : (setLane k l s).pair = s.pair := rfl
@[simp] theorem setLane_power (k : Nat) (l : Lane) : (setLane k l s).power = s.power := rfl
@[simp] theorem setLane_seen (k : Nat) (l : Lane) : (setLane k l s).seen = s.seen := rfl

/-! ### setKey -/

@[simp] theorem setKey_pending (i : Nat) (k : KeySet) : (setKey i k s).pending = s.pending := rfl
@[simp] theorem setKey_free (i : Nat) (k : KeySet) : (setKey i k s).free = s.free := rfl
@[simp] theorem setKey_fuse (i : Nat) (k : KeySet) : (setKey i k s).fuse = s.fuse := rfl
@[simp] theorem setKey_now (i : Nat) (k : KeySet) : (setKey i k s).now = s.now := rfl
@[simp] theorem setKey_strokeNext (i : Nat) (k : KeySet) : (setKey i k s).strokeNext = s.strokeNext := rfl
@[simp] theorem setKey_imprNext (i : Nat) (k : KeySet) : (setKey i k s).imprNext = s.imprNext := rfl
@[simp] theorem setKey_imprNum (i : Nat) (k : KeySet) : (setKey i k s).imprNum = s.imprNum := rfl
@[simp] theorem setKey_imprAt (i : Nat) (k : KeySet) : (setKey i k s).imprAt = s.imprAt := rfl
@[simp] theorem setKey_imprCount (i : Nat) (k : KeySet) : (setKey i k s).imprCount = s.imprCount := rfl
@[simp] theorem setKey_phaseOff (i : Nat) (k : KeySet) : (setKey i k s).phaseOff = s.phaseOff := rfl
@[simp] theorem setKey_regs (i : Nat) (k : KeySet) : (setKey i k s).regs = s.regs := rfl
@[simp] theorem setKey_cnt (i : Nat) (k : KeySet) : (setKey i k s).cnt = s.cnt := rfl
@[simp] theorem setKey_hold (i : Nat) (k : KeySet) : (setKey i k s).hold = s.hold := rfl
@[simp] theorem setKey_cntWrap (i : Nat) (k : KeySet) : (setKey i k s).cntWrap = s.cntWrap := rfl
@[simp] theorem setKey_holdWrap (i : Nat) (k : KeySet) : (setKey i k s).holdWrap = s.holdWrap := rfl
@[simp] theorem setKey_snapNum (i : Nat) (k : KeySet) : (setKey i k s).snapNum = s.snapNum := rfl
@[simp] theorem setKey_snapAt (i : Nat) (k : KeySet) : (setKey i k s).snapAt = s.snapAt := rfl
@[simp] theorem setKey_cntKeep (i : Nat) (k : KeySet) : (setKey i k s).cntKeep = s.cntKeep := rfl
@[simp] theorem setKey_holdKeep (i : Nat) (k : KeySet) : (setKey i k s).holdKeep = s.holdKeep := rfl
@[simp] theorem setKey_bwMs (i : Nat) (k : KeySet) : (setKey i k s).bwMs = s.bwMs := rfl
@[simp] theorem setKey_bwStatus (i : Nat) (k : KeySet) : (setKey i k s).bwStatus = s.bwStatus := rfl
@[simp] theorem setKey_bwAt (i : Nat) (k : KeySet) : (setKey i k s).bwAt = s.bwAt := rfl
@[simp] theorem setKey_rates (i : Nat) (k : KeySet) : (setKey i k s).rates = s.rates := rfl
@[simp] theorem setKey_cyc (i : Nat) (k : KeySet) : (setKey i k s).cyc = s.cyc := rfl
@[simp] theorem setKey_snapCycle (i : Nat) (k : KeySet) : (setKey i k s).snapCycle = s.snapCycle := rfl
@[simp] theorem setKey_bwPart (i : Nat) (k : KeySet) : (setKey i k s).bwPart = s.bwPart := rfl
@[simp] theorem setKey_bwFrom (i : Nat) (k : KeySet) : (setKey i k s).bwFrom = s.bwFrom := rfl
@[simp] theorem setKey_bwAll (i : Nat) (k : KeySet) : (setKey i k s).bwAll = s.bwAll := rfl
@[simp] theorem setKey_bwSrc (i : Nat) (k : KeySet) : (setKey i k s).bwSrc = s.bwSrc := rfl
@[simp] theorem setKey_cmd (i : Nat) (k : KeySet) : (setKey i k s).cmd = s.cmd := rfl
@[simp] theorem setKey_evt (i : Nat) (k : KeySet) : (setKey i k s).evt = s.evt := rfl
@[simp] theorem setKey_evtRun (i : Nat) (k : KeySet) : (setKey i k s).evtRun = s.evtRun := rfl
@[simp] theorem setKey_ploamIn (i : Nat) (k : KeySet) : (setKey i k s).ploamIn = s.ploamIn := rfl
@[simp] theorem setKey_tsHops (i : Nat) (k : KeySet) : (setKey i k s).tsHops = s.tsHops := rfl
@[simp] theorem setKey_plates (i : Nat) (k : KeySet) : (setKey i k s).plates = s.plates := rfl
@[simp] theorem setKey_trees (i : Nat) (k : KeySet) : (setKey i k s).trees = s.trees := rfl
@[simp] theorem setKey_terms (i : Nat) (k : KeySet) : (setKey i k s).terms = s.terms := rfl
@[simp] theorem setKey_taps (i : Nat) (k : KeySet) : (setKey i k s).taps = s.taps := rfl
@[simp] theorem setKey_mill (i : Nat) (k : KeySet) : (setKey i k s).mill = s.mill := rfl
@[simp] theorem setKey_tribs (i : Nat) (k : KeySet) : (setKey i k s).tribs = s.tribs := rfl
@[simp] theorem setKey_screens (i : Nat) (k : KeySet) : (setKey i k s).screens = s.screens := rfl
@[simp] theorem setKey_ports (i : Nat) (k : KeySet) : (setKey i k s).ports = s.ports := rfl
@[simp] theorem setKey_defects (i : Nat) (k : KeySet) : (setKey i k s).defects = s.defects := rfl
@[simp] theorem setKey_timing (i : Nat) (k : KeySet) : (setKey i k s).timing = s.timing := rfl
@[simp] theorem setKey_time (i : Nat) (k : KeySet) : (setKey i k s).time = s.time := rfl
@[simp] theorem setKey_pair (i : Nat) (k : KeySet) : (setKey i k s).pair = s.pair := rfl
@[simp] theorem setKey_power (i : Nat) (k : KeySet) : (setKey i k s).power = s.power := rfl
@[simp] theorem setKey_seen (i : Nat) (k : KeySet) : (setKey i k s).seen = s.seen := rfl

/-! ### setBank -/

@[simp] theorem setBank_pending (b : Bool) (x : Bank) : (setBank b x s).pending = s.pending := rfl
@[simp] theorem setBank_free (b : Bool) (x : Bank) : (setBank b x s).free = s.free := rfl
@[simp] theorem setBank_fuse (b : Bool) (x : Bank) : (setBank b x s).fuse = s.fuse := rfl
@[simp] theorem setBank_now (b : Bool) (x : Bank) : (setBank b x s).now = s.now := rfl
@[simp] theorem setBank_strokeNext (b : Bool) (x : Bank) : (setBank b x s).strokeNext = s.strokeNext := rfl
@[simp] theorem setBank_imprNext (b : Bool) (x : Bank) : (setBank b x s).imprNext = s.imprNext := rfl
@[simp] theorem setBank_imprNum (b : Bool) (x : Bank) : (setBank b x s).imprNum = s.imprNum := rfl
@[simp] theorem setBank_imprAt (b : Bool) (x : Bank) : (setBank b x s).imprAt = s.imprAt := rfl
@[simp] theorem setBank_imprCount (b : Bool) (x : Bank) : (setBank b x s).imprCount = s.imprCount := rfl
@[simp] theorem setBank_phaseOff (b : Bool) (x : Bank) : (setBank b x s).phaseOff = s.phaseOff := rfl
@[simp] theorem setBank_regs (b : Bool) (x : Bank) : (setBank b x s).regs = s.regs := rfl
@[simp] theorem setBank_cnt (b : Bool) (x : Bank) : (setBank b x s).cnt = s.cnt := rfl
@[simp] theorem setBank_hold (b : Bool) (x : Bank) : (setBank b x s).hold = s.hold := rfl
@[simp] theorem setBank_cntWrap (b : Bool) (x : Bank) : (setBank b x s).cntWrap = s.cntWrap := rfl
@[simp] theorem setBank_holdWrap (b : Bool) (x : Bank) : (setBank b x s).holdWrap = s.holdWrap := rfl
@[simp] theorem setBank_snapNum (b : Bool) (x : Bank) : (setBank b x s).snapNum = s.snapNum := rfl
@[simp] theorem setBank_snapAt (b : Bool) (x : Bank) : (setBank b x s).snapAt = s.snapAt := rfl
@[simp] theorem setBank_cntKeep (b : Bool) (x : Bank) : (setBank b x s).cntKeep = s.cntKeep := rfl
@[simp] theorem setBank_holdKeep (b : Bool) (x : Bank) : (setBank b x s).holdKeep = s.holdKeep := rfl
@[simp] theorem setBank_bwMs (b : Bool) (x : Bank) : (setBank b x s).bwMs = s.bwMs := rfl
@[simp] theorem setBank_bwStatus (b : Bool) (x : Bank) : (setBank b x s).bwStatus = s.bwStatus := rfl
@[simp] theorem setBank_bwAt (b : Bool) (x : Bank) : (setBank b x s).bwAt = s.bwAt := rfl
@[simp] theorem setBank_rates (b : Bool) (x : Bank) : (setBank b x s).rates = s.rates := rfl
@[simp] theorem setBank_cyc (b : Bool) (x : Bank) : (setBank b x s).cyc = s.cyc := rfl
@[simp] theorem setBank_snapCycle (b : Bool) (x : Bank) : (setBank b x s).snapCycle = s.snapCycle := rfl
@[simp] theorem setBank_bwPart (b : Bool) (x : Bank) : (setBank b x s).bwPart = s.bwPart := rfl
@[simp] theorem setBank_bwFrom (b : Bool) (x : Bank) : (setBank b x s).bwFrom = s.bwFrom := rfl
@[simp] theorem setBank_bwAll (b : Bool) (x : Bank) : (setBank b x s).bwAll = s.bwAll := rfl
@[simp] theorem setBank_bwSrc (b : Bool) (x : Bank) : (setBank b x s).bwSrc = s.bwSrc := rfl
@[simp] theorem setBank_cmd (b : Bool) (x : Bank) : (setBank b x s).cmd = s.cmd := rfl
@[simp] theorem setBank_evt (b : Bool) (x : Bank) : (setBank b x s).evt = s.evt := rfl
@[simp] theorem setBank_evtRun (b : Bool) (x : Bank) : (setBank b x s).evtRun = s.evtRun := rfl
@[simp] theorem setBank_ploamIn (b : Bool) (x : Bank) : (setBank b x s).ploamIn = s.ploamIn := rfl
@[simp] theorem setBank_tsHops (b : Bool) (x : Bank) : (setBank b x s).tsHops = s.tsHops := rfl
@[simp] theorem setBank_trees (b : Bool) (x : Bank) : (setBank b x s).trees = s.trees := rfl
@[simp] theorem setBank_terms (b : Bool) (x : Bank) : (setBank b x s).terms = s.terms := rfl
@[simp] theorem setBank_taps (b : Bool) (x : Bank) : (setBank b x s).taps = s.taps := rfl
@[simp] theorem setBank_keys (b : Bool) (x : Bank) : (setBank b x s).keys = s.keys := rfl
@[simp] theorem setBank_mill (b : Bool) (x : Bank) : (setBank b x s).mill = s.mill := rfl
@[simp] theorem setBank_tribs (b : Bool) (x : Bank) : (setBank b x s).tribs = s.tribs := rfl
@[simp] theorem setBank_screens (b : Bool) (x : Bank) : (setBank b x s).screens = s.screens := rfl
@[simp] theorem setBank_ports (b : Bool) (x : Bank) : (setBank b x s).ports = s.ports := rfl
@[simp] theorem setBank_defects (b : Bool) (x : Bank) : (setBank b x s).defects = s.defects := rfl
@[simp] theorem setBank_timing (b : Bool) (x : Bank) : (setBank b x s).timing = s.timing := rfl
@[simp] theorem setBank_time (b : Bool) (x : Bank) : (setBank b x s).time = s.time := rfl
@[simp] theorem setBank_pair (b : Bool) (x : Bank) : (setBank b x s).pair = s.pair := rfl
@[simp] theorem setBank_power (b : Bool) (x : Bank) : (setBank b x s).power = s.power := rfl
@[simp] theorem setBank_seen (b : Bool) (x : Bank) : (setBank b x s).seen = s.seen := rfl

/-! ### setTdom -/

@[simp] theorem setTdom_pending (b : Bool) (x : TDom) : (setTdom b x s).pending = s.pending := rfl
@[simp] theorem setTdom_free (b : Bool) (x : TDom) : (setTdom b x s).free = s.free := rfl
@[simp] theorem setTdom_fuse (b : Bool) (x : TDom) : (setTdom b x s).fuse = s.fuse := rfl
@[simp] theorem setTdom_now (b : Bool) (x : TDom) : (setTdom b x s).now = s.now := rfl
@[simp] theorem setTdom_strokeNext (b : Bool) (x : TDom) : (setTdom b x s).strokeNext = s.strokeNext := rfl
@[simp] theorem setTdom_imprNext (b : Bool) (x : TDom) : (setTdom b x s).imprNext = s.imprNext := rfl
@[simp] theorem setTdom_imprNum (b : Bool) (x : TDom) : (setTdom b x s).imprNum = s.imprNum := rfl
@[simp] theorem setTdom_imprAt (b : Bool) (x : TDom) : (setTdom b x s).imprAt = s.imprAt := rfl
@[simp] theorem setTdom_imprCount (b : Bool) (x : TDom) : (setTdom b x s).imprCount = s.imprCount := rfl
@[simp] theorem setTdom_phaseOff (b : Bool) (x : TDom) : (setTdom b x s).phaseOff = s.phaseOff := rfl
@[simp] theorem setTdom_regs (b : Bool) (x : TDom) : (setTdom b x s).regs = s.regs := rfl
@[simp] theorem setTdom_cnt (b : Bool) (x : TDom) : (setTdom b x s).cnt = s.cnt := rfl
@[simp] theorem setTdom_hold (b : Bool) (x : TDom) : (setTdom b x s).hold = s.hold := rfl
@[simp] theorem setTdom_cntWrap (b : Bool) (x : TDom) : (setTdom b x s).cntWrap = s.cntWrap := rfl
@[simp] theorem setTdom_holdWrap (b : Bool) (x : TDom) : (setTdom b x s).holdWrap = s.holdWrap := rfl
@[simp] theorem setTdom_snapNum (b : Bool) (x : TDom) : (setTdom b x s).snapNum = s.snapNum := rfl
@[simp] theorem setTdom_snapAt (b : Bool) (x : TDom) : (setTdom b x s).snapAt = s.snapAt := rfl
@[simp] theorem setTdom_cntKeep (b : Bool) (x : TDom) : (setTdom b x s).cntKeep = s.cntKeep := rfl
@[simp] theorem setTdom_holdKeep (b : Bool) (x : TDom) : (setTdom b x s).holdKeep = s.holdKeep := rfl
@[simp] theorem setTdom_bwMs (b : Bool) (x : TDom) : (setTdom b x s).bwMs = s.bwMs := rfl
@[simp] theorem setTdom_bwStatus (b : Bool) (x : TDom) : (setTdom b x s).bwStatus = s.bwStatus := rfl
@[simp] theorem setTdom_bwAt (b : Bool) (x : TDom) : (setTdom b x s).bwAt = s.bwAt := rfl
@[simp] theorem setTdom_rates (b : Bool) (x : TDom) : (setTdom b x s).rates = s.rates := rfl
@[simp] theorem setTdom_cyc (b : Bool) (x : TDom) : (setTdom b x s).cyc = s.cyc := rfl
@[simp] theorem setTdom_snapCycle (b : Bool) (x : TDom) : (setTdom b x s).snapCycle = s.snapCycle := rfl
@[simp] theorem setTdom_bwPart (b : Bool) (x : TDom) : (setTdom b x s).bwPart = s.bwPart := rfl
@[simp] theorem setTdom_bwFrom (b : Bool) (x : TDom) : (setTdom b x s).bwFrom = s.bwFrom := rfl
@[simp] theorem setTdom_bwAll (b : Bool) (x : TDom) : (setTdom b x s).bwAll = s.bwAll := rfl
@[simp] theorem setTdom_bwSrc (b : Bool) (x : TDom) : (setTdom b x s).bwSrc = s.bwSrc := rfl
@[simp] theorem setTdom_cmd (b : Bool) (x : TDom) : (setTdom b x s).cmd = s.cmd := rfl
@[simp] theorem setTdom_evt (b : Bool) (x : TDom) : (setTdom b x s).evt = s.evt := rfl
@[simp] theorem setTdom_evtRun (b : Bool) (x : TDom) : (setTdom b x s).evtRun = s.evtRun := rfl
@[simp] theorem setTdom_ploamIn (b : Bool) (x : TDom) : (setTdom b x s).ploamIn = s.ploamIn := rfl
@[simp] theorem setTdom_tsHops (b : Bool) (x : TDom) : (setTdom b x s).tsHops = s.tsHops := rfl
@[simp] theorem setTdom_plates (b : Bool) (x : TDom) : (setTdom b x s).plates = s.plates := rfl
@[simp] theorem setTdom_trees (b : Bool) (x : TDom) : (setTdom b x s).trees = s.trees := rfl
@[simp] theorem setTdom_terms (b : Bool) (x : TDom) : (setTdom b x s).terms = s.terms := rfl
@[simp] theorem setTdom_taps (b : Bool) (x : TDom) : (setTdom b x s).taps = s.taps := rfl
@[simp] theorem setTdom_keys (b : Bool) (x : TDom) : (setTdom b x s).keys = s.keys := rfl
@[simp] theorem setTdom_mill (b : Bool) (x : TDom) : (setTdom b x s).mill = s.mill := rfl
@[simp] theorem setTdom_tribs (b : Bool) (x : TDom) : (setTdom b x s).tribs = s.tribs := rfl
@[simp] theorem setTdom_screens (b : Bool) (x : TDom) : (setTdom b x s).screens = s.screens := rfl
@[simp] theorem setTdom_ports (b : Bool) (x : TDom) : (setTdom b x s).ports = s.ports := rfl
@[simp] theorem setTdom_defects (b : Bool) (x : TDom) : (setTdom b x s).defects = s.defects := rfl
@[simp] theorem setTdom_timing (b : Bool) (x : TDom) : (setTdom b x s).timing = s.timing := rfl
@[simp] theorem setTdom_pair (b : Bool) (x : TDom) : (setTdom b x s).pair = s.pair := rfl
@[simp] theorem setTdom_power (b : Bool) (x : TDom) : (setTdom b x s).power = s.power := rfl
@[simp] theorem setTdom_seen (b : Bool) (x : TDom) : (setTdom b x s).seen = s.seen := rfl

/-! ### setRef -/

@[simp] theorem setRef_pending (r : Nat) (x : Ref) : (setRef r x s).pending = s.pending := rfl
@[simp] theorem setRef_free (r : Nat) (x : Ref) : (setRef r x s).free = s.free := rfl
@[simp] theorem setRef_fuse (r : Nat) (x : Ref) : (setRef r x s).fuse = s.fuse := rfl
@[simp] theorem setRef_now (r : Nat) (x : Ref) : (setRef r x s).now = s.now := rfl
@[simp] theorem setRef_strokeNext (r : Nat) (x : Ref) : (setRef r x s).strokeNext = s.strokeNext := rfl
@[simp] theorem setRef_imprNext (r : Nat) (x : Ref) : (setRef r x s).imprNext = s.imprNext := rfl
@[simp] theorem setRef_imprNum (r : Nat) (x : Ref) : (setRef r x s).imprNum = s.imprNum := rfl
@[simp] theorem setRef_imprAt (r : Nat) (x : Ref) : (setRef r x s).imprAt = s.imprAt := rfl
@[simp] theorem setRef_imprCount (r : Nat) (x : Ref) : (setRef r x s).imprCount = s.imprCount := rfl
@[simp] theorem setRef_phaseOff (r : Nat) (x : Ref) : (setRef r x s).phaseOff = s.phaseOff := rfl
@[simp] theorem setRef_regs (r : Nat) (x : Ref) : (setRef r x s).regs = s.regs := rfl
@[simp] theorem setRef_cnt (r : Nat) (x : Ref) : (setRef r x s).cnt = s.cnt := rfl
@[simp] theorem setRef_hold (r : Nat) (x : Ref) : (setRef r x s).hold = s.hold := rfl
@[simp] theorem setRef_cntWrap (r : Nat) (x : Ref) : (setRef r x s).cntWrap = s.cntWrap := rfl
@[simp] theorem setRef_holdWrap (r : Nat) (x : Ref) : (setRef r x s).holdWrap = s.holdWrap := rfl
@[simp] theorem setRef_snapNum (r : Nat) (x : Ref) : (setRef r x s).snapNum = s.snapNum := rfl
@[simp] theorem setRef_snapAt (r : Nat) (x : Ref) : (setRef r x s).snapAt = s.snapAt := rfl
@[simp] theorem setRef_cntKeep (r : Nat) (x : Ref) : (setRef r x s).cntKeep = s.cntKeep := rfl
@[simp] theorem setRef_holdKeep (r : Nat) (x : Ref) : (setRef r x s).holdKeep = s.holdKeep := rfl
@[simp] theorem setRef_bwMs (r : Nat) (x : Ref) : (setRef r x s).bwMs = s.bwMs := rfl
@[simp] theorem setRef_bwStatus (r : Nat) (x : Ref) : (setRef r x s).bwStatus = s.bwStatus := rfl
@[simp] theorem setRef_bwAt (r : Nat) (x : Ref) : (setRef r x s).bwAt = s.bwAt := rfl
@[simp] theorem setRef_rates (r : Nat) (x : Ref) : (setRef r x s).rates = s.rates := rfl
@[simp] theorem setRef_cyc (r : Nat) (x : Ref) : (setRef r x s).cyc = s.cyc := rfl
@[simp] theorem setRef_snapCycle (r : Nat) (x : Ref) : (setRef r x s).snapCycle = s.snapCycle := rfl
@[simp] theorem setRef_bwPart (r : Nat) (x : Ref) : (setRef r x s).bwPart = s.bwPart := rfl
@[simp] theorem setRef_bwFrom (r : Nat) (x : Ref) : (setRef r x s).bwFrom = s.bwFrom := rfl
@[simp] theorem setRef_bwAll (r : Nat) (x : Ref) : (setRef r x s).bwAll = s.bwAll := rfl
@[simp] theorem setRef_bwSrc (r : Nat) (x : Ref) : (setRef r x s).bwSrc = s.bwSrc := rfl
@[simp] theorem setRef_cmd (r : Nat) (x : Ref) : (setRef r x s).cmd = s.cmd := rfl
@[simp] theorem setRef_evt (r : Nat) (x : Ref) : (setRef r x s).evt = s.evt := rfl
@[simp] theorem setRef_evtRun (r : Nat) (x : Ref) : (setRef r x s).evtRun = s.evtRun := rfl
@[simp] theorem setRef_ploamIn (r : Nat) (x : Ref) : (setRef r x s).ploamIn = s.ploamIn := rfl
@[simp] theorem setRef_tsHops (r : Nat) (x : Ref) : (setRef r x s).tsHops = s.tsHops := rfl
@[simp] theorem setRef_plates (r : Nat) (x : Ref) : (setRef r x s).plates = s.plates := rfl
@[simp] theorem setRef_trees (r : Nat) (x : Ref) : (setRef r x s).trees = s.trees := rfl
@[simp] theorem setRef_terms (r : Nat) (x : Ref) : (setRef r x s).terms = s.terms := rfl
@[simp] theorem setRef_taps (r : Nat) (x : Ref) : (setRef r x s).taps = s.taps := rfl
@[simp] theorem setRef_keys (r : Nat) (x : Ref) : (setRef r x s).keys = s.keys := rfl
@[simp] theorem setRef_mill (r : Nat) (x : Ref) : (setRef r x s).mill = s.mill := rfl
@[simp] theorem setRef_tribs (r : Nat) (x : Ref) : (setRef r x s).tribs = s.tribs := rfl
@[simp] theorem setRef_screens (r : Nat) (x : Ref) : (setRef r x s).screens = s.screens := rfl
@[simp] theorem setRef_ports (r : Nat) (x : Ref) : (setRef r x s).ports = s.ports := rfl
@[simp] theorem setRef_defects (r : Nat) (x : Ref) : (setRef r x s).defects = s.defects := rfl
@[simp] theorem setRef_time (r : Nat) (x : Ref) : (setRef r x s).time = s.time := rfl
@[simp] theorem setRef_pair (r : Nat) (x : Ref) : (setRef r x s).pair = s.pair := rfl
@[simp] theorem setRef_power (r : Nat) (x : Ref) : (setRef r x s).power = s.power := rfl
@[simp] theorem setRef_seen (r : Nat) (x : Ref) : (setRef r x s).seen = s.seen := rfl

/-! ### setPortSt -/

@[simp] theorem setPortSt_pending (p : Port) (x : PortState) : (setPortSt p x s).pending = s.pending := by cases p <;> rfl
@[simp] theorem setPortSt_free (p : Port) (x : PortState) : (setPortSt p x s).free = s.free := by cases p <;> rfl
@[simp] theorem setPortSt_fuse (p : Port) (x : PortState) : (setPortSt p x s).fuse = s.fuse := by cases p <;> rfl
@[simp] theorem setPortSt_now (p : Port) (x : PortState) : (setPortSt p x s).now = s.now := by cases p <;> rfl
@[simp] theorem setPortSt_strokeNext (p : Port) (x : PortState) : (setPortSt p x s).strokeNext = s.strokeNext := by cases p <;> rfl
@[simp] theorem setPortSt_imprNext (p : Port) (x : PortState) : (setPortSt p x s).imprNext = s.imprNext := by cases p <;> rfl
@[simp] theorem setPortSt_imprNum (p : Port) (x : PortState) : (setPortSt p x s).imprNum = s.imprNum := by cases p <;> rfl
@[simp] theorem setPortSt_imprAt (p : Port) (x : PortState) : (setPortSt p x s).imprAt = s.imprAt := by cases p <;> rfl
@[simp] theorem setPortSt_imprCount (p : Port) (x : PortState) : (setPortSt p x s).imprCount = s.imprCount := by cases p <;> rfl
@[simp] theorem setPortSt_phaseOff (p : Port) (x : PortState) : (setPortSt p x s).phaseOff = s.phaseOff := by cases p <;> rfl
@[simp] theorem setPortSt_regs (p : Port) (x : PortState) : (setPortSt p x s).regs = s.regs := by cases p <;> rfl
@[simp] theorem setPortSt_cnt (p : Port) (x : PortState) : (setPortSt p x s).cnt = s.cnt := by cases p <;> rfl
@[simp] theorem setPortSt_hold (p : Port) (x : PortState) : (setPortSt p x s).hold = s.hold := by cases p <;> rfl
@[simp] theorem setPortSt_cntWrap (p : Port) (x : PortState) : (setPortSt p x s).cntWrap = s.cntWrap := by cases p <;> rfl
@[simp] theorem setPortSt_holdWrap (p : Port) (x : PortState) : (setPortSt p x s).holdWrap = s.holdWrap := by cases p <;> rfl
@[simp] theorem setPortSt_snapNum (p : Port) (x : PortState) : (setPortSt p x s).snapNum = s.snapNum := by cases p <;> rfl
@[simp] theorem setPortSt_snapAt (p : Port) (x : PortState) : (setPortSt p x s).snapAt = s.snapAt := by cases p <;> rfl
@[simp] theorem setPortSt_cntKeep (p : Port) (x : PortState) : (setPortSt p x s).cntKeep = s.cntKeep := by cases p <;> rfl
@[simp] theorem setPortSt_holdKeep (p : Port) (x : PortState) : (setPortSt p x s).holdKeep = s.holdKeep := by cases p <;> rfl
@[simp] theorem setPortSt_bwMs (p : Port) (x : PortState) : (setPortSt p x s).bwMs = s.bwMs := by cases p <;> rfl
@[simp] theorem setPortSt_bwStatus (p : Port) (x : PortState) : (setPortSt p x s).bwStatus = s.bwStatus := by cases p <;> rfl
@[simp] theorem setPortSt_bwAt (p : Port) (x : PortState) : (setPortSt p x s).bwAt = s.bwAt := by cases p <;> rfl
@[simp] theorem setPortSt_rates (p : Port) (x : PortState) : (setPortSt p x s).rates = s.rates := by cases p <;> rfl
@[simp] theorem setPortSt_cyc (p : Port) (x : PortState) : (setPortSt p x s).cyc = s.cyc := by cases p <;> rfl
@[simp] theorem setPortSt_snapCycle (p : Port) (x : PortState) : (setPortSt p x s).snapCycle = s.snapCycle := by cases p <;> rfl
@[simp] theorem setPortSt_bwPart (p : Port) (x : PortState) : (setPortSt p x s).bwPart = s.bwPart := by cases p <;> rfl
@[simp] theorem setPortSt_bwFrom (p : Port) (x : PortState) : (setPortSt p x s).bwFrom = s.bwFrom := by cases p <;> rfl
@[simp] theorem setPortSt_bwAll (p : Port) (x : PortState) : (setPortSt p x s).bwAll = s.bwAll := by cases p <;> rfl
@[simp] theorem setPortSt_bwSrc (p : Port) (x : PortState) : (setPortSt p x s).bwSrc = s.bwSrc := by cases p <;> rfl
@[simp] theorem setPortSt_evt (p : Port) (x : PortState) : (setPortSt p x s).evt = s.evt := by cases p <;> rfl
@[simp] theorem setPortSt_evtRun (p : Port) (x : PortState) : (setPortSt p x s).evtRun = s.evtRun := by cases p <;> rfl
@[simp] theorem setPortSt_ploamIn (p : Port) (x : PortState) : (setPortSt p x s).ploamIn = s.ploamIn := by cases p <;> rfl
@[simp] theorem setPortSt_tsHops (p : Port) (x : PortState) : (setPortSt p x s).tsHops = s.tsHops := by cases p <;> rfl
@[simp] theorem setPortSt_plates (p : Port) (x : PortState) : (setPortSt p x s).plates = s.plates := by cases p <;> rfl
@[simp] theorem setPortSt_trees (p : Port) (x : PortState) : (setPortSt p x s).trees = s.trees := by cases p <;> rfl
@[simp] theorem setPortSt_terms (p : Port) (x : PortState) : (setPortSt p x s).terms = s.terms := by cases p <;> rfl
@[simp] theorem setPortSt_taps (p : Port) (x : PortState) : (setPortSt p x s).taps = s.taps := by cases p <;> rfl
@[simp] theorem setPortSt_keys (p : Port) (x : PortState) : (setPortSt p x s).keys = s.keys := by cases p <;> rfl
@[simp] theorem setPortSt_mill (p : Port) (x : PortState) : (setPortSt p x s).mill = s.mill := by cases p <;> rfl
@[simp] theorem setPortSt_tribs (p : Port) (x : PortState) : (setPortSt p x s).tribs = s.tribs := by cases p <;> rfl
@[simp] theorem setPortSt_screens (p : Port) (x : PortState) : (setPortSt p x s).screens = s.screens := by cases p <;> rfl
@[simp] theorem setPortSt_ports (p : Port) (x : PortState) : (setPortSt p x s).ports = s.ports := by cases p <;> rfl
@[simp] theorem setPortSt_defects (p : Port) (x : PortState) : (setPortSt p x s).defects = s.defects := by cases p <;> rfl
@[simp] theorem setPortSt_timing (p : Port) (x : PortState) : (setPortSt p x s).timing = s.timing := by cases p <;> rfl
@[simp] theorem setPortSt_time (p : Port) (x : PortState) : (setPortSt p x s).time = s.time := by cases p <;> rfl
@[simp] theorem setPortSt_pair (p : Port) (x : PortState) : (setPortSt p x s).pair = s.pair := by cases p <;> rfl
@[simp] theorem setPortSt_power (p : Port) (x : PortState) : (setPortSt p x s).power = s.power := by cases p <;> rfl
@[simp] theorem setPortSt_seen (p : Port) (x : PortState) : (setPortSt p x s).seen = s.seen := by cases p <;> rfl

/-! ### advance -/

@[simp] theorem advance_pending (t : Nat) : (advance t s).pending = s.pending := rfl
@[simp] theorem advance_free (t : Nat) : (advance t s).free = s.free := rfl
@[simp] theorem advance_fuse (t : Nat) : (advance t s).fuse = s.fuse := rfl
@[simp] theorem advance_strokeNext (t : Nat) : (advance t s).strokeNext = s.strokeNext := rfl
@[simp] theorem advance_imprNext (t : Nat) : (advance t s).imprNext = s.imprNext := rfl
@[simp] theorem advance_imprNum (t : Nat) : (advance t s).imprNum = s.imprNum := rfl
@[simp] theorem advance_imprAt (t : Nat) : (advance t s).imprAt = s.imprAt := rfl
@[simp] theorem advance_imprCount (t : Nat) : (advance t s).imprCount = s.imprCount := rfl
@[simp] theorem advance_phaseOff (t : Nat) : (advance t s).phaseOff = s.phaseOff := rfl
@[simp] theorem advance_regs (t : Nat) : (advance t s).regs = s.regs := rfl
@[simp] theorem advance_cnt (t : Nat) : (advance t s).cnt = s.cnt := rfl
@[simp] theorem advance_hold (t : Nat) : (advance t s).hold = s.hold := rfl
@[simp] theorem advance_cntWrap (t : Nat) : (advance t s).cntWrap = s.cntWrap := rfl
@[simp] theorem advance_holdWrap (t : Nat) : (advance t s).holdWrap = s.holdWrap := rfl
@[simp] theorem advance_snapNum (t : Nat) : (advance t s).snapNum = s.snapNum := rfl
@[simp] theorem advance_snapAt (t : Nat) : (advance t s).snapAt = s.snapAt := rfl
@[simp] theorem advance_cntKeep (t : Nat) : (advance t s).cntKeep = s.cntKeep := rfl
@[simp] theorem advance_holdKeep (t : Nat) : (advance t s).holdKeep = s.holdKeep := rfl
@[simp] theorem advance_bwMs (t : Nat) : (advance t s).bwMs = s.bwMs := rfl
@[simp] theorem advance_bwStatus (t : Nat) : (advance t s).bwStatus = s.bwStatus := rfl
@[simp] theorem advance_bwAt (t : Nat) : (advance t s).bwAt = s.bwAt := rfl
@[simp] theorem advance_rates (t : Nat) : (advance t s).rates = s.rates := rfl
@[simp] theorem advance_snapCycle (t : Nat) : (advance t s).snapCycle = s.snapCycle := rfl
@[simp] theorem advance_bwPart (t : Nat) : (advance t s).bwPart = s.bwPart := rfl
@[simp] theorem advance_bwFrom (t : Nat) : (advance t s).bwFrom = s.bwFrom := rfl
@[simp] theorem advance_bwAll (t : Nat) : (advance t s).bwAll = s.bwAll := rfl
@[simp] theorem advance_bwSrc (t : Nat) : (advance t s).bwSrc = s.bwSrc := rfl
@[simp] theorem advance_cmd (t : Nat) : (advance t s).cmd = s.cmd := rfl
@[simp] theorem advance_evt (t : Nat) : (advance t s).evt = s.evt := rfl
@[simp] theorem advance_evtRun (t : Nat) : (advance t s).evtRun = s.evtRun := rfl
@[simp] theorem advance_ploamIn (t : Nat) : (advance t s).ploamIn = s.ploamIn := rfl
@[simp] theorem advance_tsHops (t : Nat) : (advance t s).tsHops = s.tsHops := rfl
@[simp] theorem advance_plates (t : Nat) : (advance t s).plates = s.plates := rfl
@[simp] theorem advance_trees (t : Nat) : (advance t s).trees = s.trees := rfl
@[simp] theorem advance_terms (t : Nat) : (advance t s).terms = s.terms := rfl
@[simp] theorem advance_taps (t : Nat) : (advance t s).taps = s.taps := rfl
@[simp] theorem advance_keys (t : Nat) : (advance t s).keys = s.keys := rfl
@[simp] theorem advance_mill (t : Nat) : (advance t s).mill = s.mill := rfl
@[simp] theorem advance_tribs (t : Nat) : (advance t s).tribs = s.tribs := rfl
@[simp] theorem advance_screens (t : Nat) : (advance t s).screens = s.screens := rfl
@[simp] theorem advance_ports (t : Nat) : (advance t s).ports = s.ports := rfl
@[simp] theorem advance_defects (t : Nat) : (advance t s).defects = s.defects := rfl
@[simp] theorem advance_timing (t : Nat) : (advance t s).timing = s.timing := rfl
@[simp] theorem advance_time (t : Nat) : (advance t s).time = s.time := rfl
@[simp] theorem advance_pair (t : Nat) : (advance t s).pair = s.pair := rfl
@[simp] theorem advance_power (t : Nat) : (advance t s).power = s.power := rfl
@[simp] theorem advance_seen (t : Nat) : (advance t s).seen = s.seen := rfl

/-! ### cntRestart -/

@[simp] theorem cntRestart_pending (a : Nat) : (cntRestart a s).pending = s.pending := rfl
@[simp] theorem cntRestart_free (a : Nat) : (cntRestart a s).free = s.free := rfl
@[simp] theorem cntRestart_fuse (a : Nat) : (cntRestart a s).fuse = s.fuse := rfl
@[simp] theorem cntRestart_now (a : Nat) : (cntRestart a s).now = s.now := rfl
@[simp] theorem cntRestart_strokeNext (a : Nat) : (cntRestart a s).strokeNext = s.strokeNext := rfl
@[simp] theorem cntRestart_imprNext (a : Nat) : (cntRestart a s).imprNext = s.imprNext := rfl
@[simp] theorem cntRestart_imprNum (a : Nat) : (cntRestart a s).imprNum = s.imprNum := rfl
@[simp] theorem cntRestart_imprAt (a : Nat) : (cntRestart a s).imprAt = s.imprAt := rfl
@[simp] theorem cntRestart_imprCount (a : Nat) : (cntRestart a s).imprCount = s.imprCount := rfl
@[simp] theorem cntRestart_phaseOff (a : Nat) : (cntRestart a s).phaseOff = s.phaseOff := rfl
@[simp] theorem cntRestart_regs (a : Nat) : (cntRestart a s).regs = s.regs := rfl
@[simp] theorem cntRestart_hold (a : Nat) : (cntRestart a s).hold = s.hold := rfl
@[simp] theorem cntRestart_cntWrap (a : Nat) : (cntRestart a s).cntWrap = s.cntWrap := rfl
@[simp] theorem cntRestart_holdWrap (a : Nat) : (cntRestart a s).holdWrap = s.holdWrap := rfl
@[simp] theorem cntRestart_snapNum (a : Nat) : (cntRestart a s).snapNum = s.snapNum := rfl
@[simp] theorem cntRestart_snapAt (a : Nat) : (cntRestart a s).snapAt = s.snapAt := rfl
@[simp] theorem cntRestart_cntKeep (a : Nat) : (cntRestart a s).cntKeep = s.cntKeep := rfl
@[simp] theorem cntRestart_holdKeep (a : Nat) : (cntRestart a s).holdKeep = s.holdKeep := rfl
@[simp] theorem cntRestart_bwMs (a : Nat) : (cntRestart a s).bwMs = s.bwMs := rfl
@[simp] theorem cntRestart_bwStatus (a : Nat) : (cntRestart a s).bwStatus = s.bwStatus := rfl
@[simp] theorem cntRestart_bwAt (a : Nat) : (cntRestart a s).bwAt = s.bwAt := rfl
@[simp] theorem cntRestart_rates (a : Nat) : (cntRestart a s).rates = s.rates := rfl
@[simp] theorem cntRestart_cyc (a : Nat) : (cntRestart a s).cyc = s.cyc := rfl
@[simp] theorem cntRestart_snapCycle (a : Nat) : (cntRestart a s).snapCycle = s.snapCycle := rfl
@[simp] theorem cntRestart_bwPart (a : Nat) : (cntRestart a s).bwPart = s.bwPart := rfl
@[simp] theorem cntRestart_bwFrom (a : Nat) : (cntRestart a s).bwFrom = s.bwFrom := rfl
@[simp] theorem cntRestart_bwAll (a : Nat) : (cntRestart a s).bwAll = s.bwAll := rfl
@[simp] theorem cntRestart_cmd (a : Nat) : (cntRestart a s).cmd = s.cmd := rfl
@[simp] theorem cntRestart_evt (a : Nat) : (cntRestart a s).evt = s.evt := rfl
@[simp] theorem cntRestart_evtRun (a : Nat) : (cntRestart a s).evtRun = s.evtRun := rfl
@[simp] theorem cntRestart_ploamIn (a : Nat) : (cntRestart a s).ploamIn = s.ploamIn := rfl
@[simp] theorem cntRestart_tsHops (a : Nat) : (cntRestart a s).tsHops = s.tsHops := rfl
@[simp] theorem cntRestart_plates (a : Nat) : (cntRestart a s).plates = s.plates := rfl
@[simp] theorem cntRestart_trees (a : Nat) : (cntRestart a s).trees = s.trees := rfl
@[simp] theorem cntRestart_terms (a : Nat) : (cntRestart a s).terms = s.terms := rfl
@[simp] theorem cntRestart_taps (a : Nat) : (cntRestart a s).taps = s.taps := rfl
@[simp] theorem cntRestart_keys (a : Nat) : (cntRestart a s).keys = s.keys := rfl
@[simp] theorem cntRestart_mill (a : Nat) : (cntRestart a s).mill = s.mill := rfl
@[simp] theorem cntRestart_tribs (a : Nat) : (cntRestart a s).tribs = s.tribs := rfl
@[simp] theorem cntRestart_screens (a : Nat) : (cntRestart a s).screens = s.screens := rfl
@[simp] theorem cntRestart_ports (a : Nat) : (cntRestart a s).ports = s.ports := rfl
@[simp] theorem cntRestart_defects (a : Nat) : (cntRestart a s).defects = s.defects := rfl
@[simp] theorem cntRestart_timing (a : Nat) : (cntRestart a s).timing = s.timing := rfl
@[simp] theorem cntRestart_time (a : Nat) : (cntRestart a s).time = s.time := rfl
@[simp] theorem cntRestart_pair (a : Nat) : (cntRestart a s).pair = s.pair := rfl
@[simp] theorem cntRestart_power (a : Nat) : (cntRestart a s).power = s.power := rfl
@[simp] theorem cntRestart_seen (a : Nat) : (cntRestart a s).seen = s.seen := rfl

/-! ### bump -/

theorem bump_only (a n : Nat) : bump a n s = { s with cnt := (bump a n s).cnt } := by
  unfold bump; split <;> rfl

@[simp] theorem bump_pending (a n : Nat) : (bump a n s).pending = s.pending := by unfold bump; split <;> rfl
@[simp] theorem bump_free (a n : Nat) : (bump a n s).free = s.free := by unfold bump; split <;> rfl
@[simp] theorem bump_fuse (a n : Nat) : (bump a n s).fuse = s.fuse := by unfold bump; split <;> rfl
@[simp] theorem bump_now (a n : Nat) : (bump a n s).now = s.now := by unfold bump; split <;> rfl
@[simp] theorem bump_strokeNext (a n : Nat) : (bump a n s).strokeNext = s.strokeNext := by unfold bump; split <;> rfl
@[simp] theorem bump_imprNext (a n : Nat) : (bump a n s).imprNext = s.imprNext := by unfold bump; split <;> rfl
@[simp] theorem bump_imprNum (a n : Nat) : (bump a n s).imprNum = s.imprNum := by unfold bump; split <;> rfl
@[simp] theorem bump_imprAt (a n : Nat) : (bump a n s).imprAt = s.imprAt := by unfold bump; split <;> rfl
@[simp] theorem bump_imprCount (a n : Nat) : (bump a n s).imprCount = s.imprCount := by unfold bump; split <;> rfl
@[simp] theorem bump_phaseOff (a n : Nat) : (bump a n s).phaseOff = s.phaseOff := by unfold bump; split <;> rfl
@[simp] theorem bump_regs (a n : Nat) : (bump a n s).regs = s.regs := by unfold bump; split <;> rfl
@[simp] theorem bump_hold (a n : Nat) : (bump a n s).hold = s.hold := by unfold bump; split <;> rfl
@[simp] theorem bump_cntWrap (a n : Nat) : (bump a n s).cntWrap = s.cntWrap := by unfold bump; split <;> rfl
@[simp] theorem bump_holdWrap (a n : Nat) : (bump a n s).holdWrap = s.holdWrap := by unfold bump; split <;> rfl
@[simp] theorem bump_snapNum (a n : Nat) : (bump a n s).snapNum = s.snapNum := by unfold bump; split <;> rfl
@[simp] theorem bump_snapAt (a n : Nat) : (bump a n s).snapAt = s.snapAt := by unfold bump; split <;> rfl
@[simp] theorem bump_cntKeep (a n : Nat) : (bump a n s).cntKeep = s.cntKeep := by unfold bump; split <;> rfl
@[simp] theorem bump_holdKeep (a n : Nat) : (bump a n s).holdKeep = s.holdKeep := by unfold bump; split <;> rfl
@[simp] theorem bump_bwMs (a n : Nat) : (bump a n s).bwMs = s.bwMs := by unfold bump; split <;> rfl
@[simp] theorem bump_bwStatus (a n : Nat) : (bump a n s).bwStatus = s.bwStatus := by unfold bump; split <;> rfl
@[simp] theorem bump_bwAt (a n : Nat) : (bump a n s).bwAt = s.bwAt := by unfold bump; split <;> rfl
@[simp] theorem bump_rates (a n : Nat) : (bump a n s).rates = s.rates := by unfold bump; split <;> rfl
@[simp] theorem bump_cyc (a n : Nat) : (bump a n s).cyc = s.cyc := by unfold bump; split <;> rfl
@[simp] theorem bump_snapCycle (a n : Nat) : (bump a n s).snapCycle = s.snapCycle := by unfold bump; split <;> rfl
@[simp] theorem bump_bwPart (a n : Nat) : (bump a n s).bwPart = s.bwPart := by unfold bump; split <;> rfl
@[simp] theorem bump_bwFrom (a n : Nat) : (bump a n s).bwFrom = s.bwFrom := by unfold bump; split <;> rfl
@[simp] theorem bump_bwAll (a n : Nat) : (bump a n s).bwAll = s.bwAll := by unfold bump; split <;> rfl
@[simp] theorem bump_bwSrc (a n : Nat) : (bump a n s).bwSrc = s.bwSrc := by unfold bump; split <;> rfl
@[simp] theorem bump_cmd (a n : Nat) : (bump a n s).cmd = s.cmd := by unfold bump; split <;> rfl
@[simp] theorem bump_evt (a n : Nat) : (bump a n s).evt = s.evt := by unfold bump; split <;> rfl
@[simp] theorem bump_evtRun (a n : Nat) : (bump a n s).evtRun = s.evtRun := by unfold bump; split <;> rfl
@[simp] theorem bump_ploamIn (a n : Nat) : (bump a n s).ploamIn = s.ploamIn := by unfold bump; split <;> rfl
@[simp] theorem bump_tsHops (a n : Nat) : (bump a n s).tsHops = s.tsHops := by unfold bump; split <;> rfl
@[simp] theorem bump_plates (a n : Nat) : (bump a n s).plates = s.plates := by unfold bump; split <;> rfl
@[simp] theorem bump_trees (a n : Nat) : (bump a n s).trees = s.trees := by unfold bump; split <;> rfl
@[simp] theorem bump_terms (a n : Nat) : (bump a n s).terms = s.terms := by unfold bump; split <;> rfl
@[simp] theorem bump_taps (a n : Nat) : (bump a n s).taps = s.taps := by unfold bump; split <;> rfl
@[simp] theorem bump_keys (a n : Nat) : (bump a n s).keys = s.keys := by unfold bump; split <;> rfl
@[simp] theorem bump_mill (a n : Nat) : (bump a n s).mill = s.mill := by unfold bump; split <;> rfl
@[simp] theorem bump_tribs (a n : Nat) : (bump a n s).tribs = s.tribs := by unfold bump; split <;> rfl
@[simp] theorem bump_screens (a n : Nat) : (bump a n s).screens = s.screens := by unfold bump; split <;> rfl
@[simp] theorem bump_ports (a n : Nat) : (bump a n s).ports = s.ports := by unfold bump; split <;> rfl
@[simp] theorem bump_defects (a n : Nat) : (bump a n s).defects = s.defects := by unfold bump; split <;> rfl
@[simp] theorem bump_timing (a n : Nat) : (bump a n s).timing = s.timing := by unfold bump; split <;> rfl
@[simp] theorem bump_time (a n : Nat) : (bump a n s).time = s.time := by unfold bump; split <;> rfl
@[simp] theorem bump_pair (a n : Nat) : (bump a n s).pair = s.pair := by unfold bump; split <;> rfl
@[simp] theorem bump_power (a n : Nat) : (bump a n s).power = s.power := by unfold bump; split <;> rfl
@[simp] theorem bump_seen (a n : Nat) : (bump a n s).seen = s.seen := by unfold bump; split <;> rfl
@[simp] theorem bumpS_pending (a : Nat) (i : Int) : (bumpS a i s).pending = s.pending := by unfold bumpS; split <;> rfl
@[simp] theorem bumpS_free (a : Nat) (i : Int) : (bumpS a i s).free = s.free := by unfold bumpS; split <;> rfl
@[simp] theorem bumpS_fuse (a : Nat) (i : Int) : (bumpS a i s).fuse = s.fuse := by unfold bumpS; split <;> rfl
@[simp] theorem bumpS_now (a : Nat) (i : Int) : (bumpS a i s).now = s.now := by unfold bumpS; split <;> rfl
@[simp] theorem bumpS_strokeNext (a : Nat) (i : Int) : (bumpS a i s).strokeNext = s.strokeNext := by unfold bumpS; split <;> rfl
@[simp] theorem bumpS_imprNext (a : Nat) (i : Int) : (bumpS a i s).imprNext = s.imprNext := by unfold bumpS; split <;> rfl
@[simp] theorem bumpS_imprNum (a : Nat) (i : Int) : (bumpS a i s).imprNum = s.imprNum := by unfold bumpS; split <;> rfl
@[simp] theorem bumpS_imprAt (a : Nat) (i : Int) : (bumpS a i s).imprAt = s.imprAt := by unfold bumpS; split <;> rfl
@[simp] theorem bumpS_imprCount (a : Nat) (i : Int) : (bumpS a i s).imprCount = s.imprCount := by unfold bumpS; split <;> rfl
@[simp] theorem bumpS_phaseOff (a : Nat) (i : Int) : (bumpS a i s).phaseOff = s.phaseOff := by unfold bumpS; split <;> rfl
@[simp] theorem bumpS_regs (a : Nat) (i : Int) : (bumpS a i s).regs = s.regs := by unfold bumpS; split <;> rfl
@[simp] theorem bumpS_hold (a : Nat) (i : Int) : (bumpS a i s).hold = s.hold := by unfold bumpS; split <;> rfl
@[simp] theorem bumpS_cntWrap (a : Nat) (i : Int) : (bumpS a i s).cntWrap = s.cntWrap := by unfold bumpS; split <;> rfl
@[simp] theorem bumpS_holdWrap (a : Nat) (i : Int) : (bumpS a i s).holdWrap = s.holdWrap := by unfold bumpS; split <;> rfl
@[simp] theorem bumpS_snapNum (a : Nat) (i : Int) : (bumpS a i s).snapNum = s.snapNum := by unfold bumpS; split <;> rfl
@[simp] theorem bumpS_snapAt (a : Nat) (i : Int) : (bumpS a i s).snapAt = s.snapAt := by unfold bumpS; split <;> rfl
@[simp] theorem bumpS_cntKeep (a : Nat) (i : Int) : (bumpS a i s).cntKeep = s.cntKeep := by unfold bumpS; split <;> rfl
@[simp] theorem bumpS_holdKeep (a : Nat) (i : Int) : (bumpS a i s).holdKeep = s.holdKeep := by unfold bumpS; split <;> rfl
@[simp] theorem bumpS_bwMs (a : Nat) (i : Int) : (bumpS a i s).bwMs = s.bwMs := by unfold bumpS; split <;> rfl
@[simp] theorem bumpS_bwStatus (a : Nat) (i : Int) : (bumpS a i s).bwStatus = s.bwStatus := by unfold bumpS; split <;> rfl
@[simp] theorem bumpS_bwAt (a : Nat) (i : Int) : (bumpS a i s).bwAt = s.bwAt := by unfold bumpS; split <;> rfl
@[simp] theorem bumpS_rates (a : Nat) (i : Int) : (bumpS a i s).rates = s.rates := by unfold bumpS; split <;> rfl
@[simp] theorem bumpS_cyc (a : Nat) (i : Int) : (bumpS a i s).cyc = s.cyc := by unfold bumpS; split <;> rfl
@[simp] theorem bumpS_snapCycle (a : Nat) (i : Int) : (bumpS a i s).snapCycle = s.snapCycle := by unfold bumpS; split <;> rfl
@[simp] theorem bumpS_bwPart (a : Nat) (i : Int) : (bumpS a i s).bwPart = s.bwPart := by unfold bumpS; split <;> rfl
@[simp] theorem bumpS_bwFrom (a : Nat) (i : Int) : (bumpS a i s).bwFrom = s.bwFrom := by unfold bumpS; split <;> rfl
@[simp] theorem bumpS_bwAll (a : Nat) (i : Int) : (bumpS a i s).bwAll = s.bwAll := by unfold bumpS; split <;> rfl
@[simp] theorem bumpS_bwSrc (a : Nat) (i : Int) : (bumpS a i s).bwSrc = s.bwSrc := by unfold bumpS; split <;> rfl
@[simp] theorem bumpS_cmd (a : Nat) (i : Int) : (bumpS a i s).cmd = s.cmd := by unfold bumpS; split <;> rfl
@[simp] theorem bumpS_evt (a : Nat) (i : Int) : (bumpS a i s).evt = s.evt := by unfold bumpS; split <;> rfl
@[simp] theorem bumpS_evtRun (a : Nat) (i : Int) : (bumpS a i s).evtRun = s.evtRun := by unfold bumpS; split <;> rfl
@[simp] theorem bumpS_ploamIn (a : Nat) (i : Int) : (bumpS a i s).ploamIn = s.ploamIn := by unfold bumpS; split <;> rfl
@[simp] theorem bumpS_tsHops (a : Nat) (i : Int) : (bumpS a i s).tsHops = s.tsHops := by unfold bumpS; split <;> rfl
@[simp] theorem bumpS_plates (a : Nat) (i : Int) : (bumpS a i s).plates = s.plates := by unfold bumpS; split <;> rfl
@[simp] theorem bumpS_trees (a : Nat) (i : Int) : (bumpS a i s).trees = s.trees := by unfold bumpS; split <;> rfl
@[simp] theorem bumpS_terms (a : Nat) (i : Int) : (bumpS a i s).terms = s.terms := by unfold bumpS; split <;> rfl
@[simp] theorem bumpS_taps (a : Nat) (i : Int) : (bumpS a i s).taps = s.taps := by unfold bumpS; split <;> rfl
@[simp] theorem bumpS_keys (a : Nat) (i : Int) : (bumpS a i s).keys = s.keys := by unfold bumpS; split <;> rfl
@[simp] theorem bumpS_mill (a : Nat) (i : Int) : (bumpS a i s).mill = s.mill := by unfold bumpS; split <;> rfl
@[simp] theorem bumpS_tribs (a : Nat) (i : Int) : (bumpS a i s).tribs = s.tribs := by unfold bumpS; split <;> rfl
@[simp] theorem bumpS_screens (a : Nat) (i : Int) : (bumpS a i s).screens = s.screens := by unfold bumpS; split <;> rfl
@[simp] theorem bumpS_ports (a : Nat) (i : Int) : (bumpS a i s).ports = s.ports := by unfold bumpS; split <;> rfl
@[simp] theorem bumpS_defects (a : Nat) (i : Int) : (bumpS a i s).defects = s.defects := by unfold bumpS; split <;> rfl
@[simp] theorem bumpS_timing (a : Nat) (i : Int) : (bumpS a i s).timing = s.timing := by unfold bumpS; split <;> rfl
@[simp] theorem bumpS_time (a : Nat) (i : Int) : (bumpS a i s).time = s.time := by unfold bumpS; split <;> rfl
@[simp] theorem bumpS_pair (a : Nat) (i : Int) : (bumpS a i s).pair = s.pair := by unfold bumpS; split <;> rfl
@[simp] theorem bumpS_power (a : Nat) (i : Int) : (bumpS a i s).power = s.power := by unfold bumpS; split <;> rfl
@[simp] theorem bumpS_seen (a : Nat) (i : Int) : (bumpS a i s).seen = s.seen := by unfold bumpS; split <;> rfl
/-! ### post -/

@[simp] theorem post_pending (x : Landing) : (post x s).pending = s.pending := rfl
@[simp] theorem post_free (x : Landing) : (post x s).free = s.free := rfl
@[simp] theorem post_fuse (x : Landing) : (post x s).fuse = s.fuse := rfl
@[simp] theorem post_now (x : Landing) : (post x s).now = s.now := rfl
@[simp] theorem post_strokeNext (x : Landing) : (post x s).strokeNext = s.strokeNext := rfl
@[simp] theorem post_imprNext (x : Landing) : (post x s).imprNext = s.imprNext := rfl
@[simp] theorem post_imprNum (x : Landing) : (post x s).imprNum = s.imprNum := rfl
@[simp] theorem post_imprAt (x : Landing) : (post x s).imprAt = s.imprAt := rfl
@[simp] theorem post_imprCount (x : Landing) : (post x s).imprCount = s.imprCount := rfl
@[simp] theorem post_phaseOff (x : Landing) : (post x s).phaseOff = s.phaseOff := rfl
@[simp] theorem post_regs (x : Landing) : (post x s).regs = s.regs := rfl
@[simp] theorem post_cnt (x : Landing) : (post x s).cnt = s.cnt := rfl
@[simp] theorem post_hold (x : Landing) : (post x s).hold = s.hold := rfl
@[simp] theorem post_cntWrap (x : Landing) : (post x s).cntWrap = s.cntWrap := rfl
@[simp] theorem post_holdWrap (x : Landing) : (post x s).holdWrap = s.holdWrap := rfl
@[simp] theorem post_snapNum (x : Landing) : (post x s).snapNum = s.snapNum := rfl
@[simp] theorem post_snapAt (x : Landing) : (post x s).snapAt = s.snapAt := rfl
@[simp] theorem post_cntKeep (x : Landing) : (post x s).cntKeep = s.cntKeep := rfl
@[simp] theorem post_holdKeep (x : Landing) : (post x s).holdKeep = s.holdKeep := rfl
@[simp] theorem post_bwMs (x : Landing) : (post x s).bwMs = s.bwMs := rfl
@[simp] theorem post_bwStatus (x : Landing) : (post x s).bwStatus = s.bwStatus := rfl
@[simp] theorem post_bwAt (x : Landing) : (post x s).bwAt = s.bwAt := rfl
@[simp] theorem post_rates (x : Landing) : (post x s).rates = s.rates := rfl
@[simp] theorem post_cyc (x : Landing) : (post x s).cyc = s.cyc := rfl
@[simp] theorem post_snapCycle (x : Landing) : (post x s).snapCycle = s.snapCycle := rfl
@[simp] theorem post_bwPart (x : Landing) : (post x s).bwPart = s.bwPart := rfl
@[simp] theorem post_bwFrom (x : Landing) : (post x s).bwFrom = s.bwFrom := rfl
@[simp] theorem post_bwAll (x : Landing) : (post x s).bwAll = s.bwAll := rfl
@[simp] theorem post_bwSrc (x : Landing) : (post x s).bwSrc = s.bwSrc := rfl
@[simp] theorem post_cmd (x : Landing) : (post x s).cmd = s.cmd := rfl
@[simp] theorem post_evt (x : Landing) : (post x s).evt = s.evt := rfl
@[simp] theorem post_evtRun (x : Landing) : (post x s).evtRun = s.evtRun := rfl
@[simp] theorem post_ploamIn (x : Landing) : (post x s).ploamIn = s.ploamIn := rfl
@[simp] theorem post_tsHops (x : Landing) : (post x s).tsHops = s.tsHops := rfl
@[simp] theorem post_plates (x : Landing) : (post x s).plates = s.plates := rfl
@[simp] theorem post_trees (x : Landing) : (post x s).trees = s.trees := rfl
@[simp] theorem post_terms (x : Landing) : (post x s).terms = s.terms := rfl
@[simp] theorem post_taps (x : Landing) : (post x s).taps = s.taps := rfl
@[simp] theorem post_keys (x : Landing) : (post x s).keys = s.keys := rfl
@[simp] theorem post_tribs (x : Landing) : (post x s).tribs = s.tribs := rfl
@[simp] theorem post_screens (x : Landing) : (post x s).screens = s.screens := rfl
@[simp] theorem post_ports (x : Landing) : (post x s).ports = s.ports := rfl
@[simp] theorem post_defects (x : Landing) : (post x s).defects = s.defects := rfl
@[simp] theorem post_timing (x : Landing) : (post x s).timing = s.timing := rfl
@[simp] theorem post_time (x : Landing) : (post x s).time = s.time := rfl
@[simp] theorem post_pair (x : Landing) : (post x s).pair = s.pair := rfl
@[simp] theorem post_power (x : Landing) : (post x s).power = s.power := rfl
@[simp] theorem post_seen (x : Landing) : (post x s).seen = s.seen := rfl
@[simp] theorem post_landing (x : Landing) : (post x s).mill.landing = s.mill.landing ++ [posted x s] := rfl

/-! ### takeSample -/

@[simp] theorem takeSample_pending : (takeSample s).pending = s.pending := rfl
@[simp] theorem takeSample_free : (takeSample s).free = s.free := rfl
@[simp] theorem takeSample_fuse : (takeSample s).fuse = s.fuse := rfl
@[simp] theorem takeSample_now : (takeSample s).now = s.now := rfl
@[simp] theorem takeSample_strokeNext : (takeSample s).strokeNext = s.strokeNext := rfl
@[simp] theorem takeSample_imprNext : (takeSample s).imprNext = s.imprNext := rfl
@[simp] theorem takeSample_imprNum : (takeSample s).imprNum = s.imprNum := rfl
@[simp] theorem takeSample_imprAt : (takeSample s).imprAt = s.imprAt := rfl
@[simp] theorem takeSample_imprCount : (takeSample s).imprCount = s.imprCount := rfl
@[simp] theorem takeSample_phaseOff : (takeSample s).phaseOff = s.phaseOff := rfl
@[simp] theorem takeSample_regs : (takeSample s).regs = s.regs := rfl
@[simp] theorem takeSample_cnt : (takeSample s).cnt = s.cnt := rfl
@[simp] theorem takeSample_hold : (takeSample s).hold = s.hold := rfl
@[simp] theorem takeSample_cntWrap : (takeSample s).cntWrap = s.cntWrap := rfl
@[simp] theorem takeSample_holdWrap : (takeSample s).holdWrap = s.holdWrap := rfl
@[simp] theorem takeSample_snapNum : (takeSample s).snapNum = s.snapNum := rfl
@[simp] theorem takeSample_snapAt : (takeSample s).snapAt = s.snapAt := rfl
@[simp] theorem takeSample_cntKeep : (takeSample s).cntKeep = s.cntKeep := rfl
@[simp] theorem takeSample_holdKeep : (takeSample s).holdKeep = s.holdKeep := rfl
@[simp] theorem takeSample_bwMs : (takeSample s).bwMs = s.bwMs := rfl
@[simp] theorem takeSample_bwStatus : (takeSample s).bwStatus = s.bwStatus := rfl
@[simp] theorem takeSample_bwAt : (takeSample s).bwAt = s.bwAt := rfl
@[simp] theorem takeSample_rates : (takeSample s).rates = s.rates := rfl
@[simp] theorem takeSample_cyc : (takeSample s).cyc = s.cyc := rfl
@[simp] theorem takeSample_snapCycle : (takeSample s).snapCycle = s.snapCycle := rfl
@[simp] theorem takeSample_bwPart : (takeSample s).bwPart = s.bwPart := rfl
@[simp] theorem takeSample_bwFrom : (takeSample s).bwFrom = s.bwFrom := rfl
@[simp] theorem takeSample_bwAll : (takeSample s).bwAll = s.bwAll := rfl
@[simp] theorem takeSample_bwSrc : (takeSample s).bwSrc = s.bwSrc := rfl
@[simp] theorem takeSample_cmd : (takeSample s).cmd = s.cmd := rfl
@[simp] theorem takeSample_evt : (takeSample s).evt = s.evt := rfl
@[simp] theorem takeSample_evtRun : (takeSample s).evtRun = s.evtRun := rfl
@[simp] theorem takeSample_ploamIn : (takeSample s).ploamIn = s.ploamIn := rfl
@[simp] theorem takeSample_tsHops : (takeSample s).tsHops = s.tsHops := rfl
@[simp] theorem takeSample_plates : (takeSample s).plates = s.plates := rfl
@[simp] theorem takeSample_trees : (takeSample s).trees = s.trees := rfl
@[simp] theorem takeSample_terms : (takeSample s).terms = s.terms := rfl
@[simp] theorem takeSample_taps : (takeSample s).taps = s.taps := rfl
@[simp] theorem takeSample_keys : (takeSample s).keys = s.keys := rfl
@[simp] theorem takeSample_mill : (takeSample s).mill = s.mill := rfl
@[simp] theorem takeSample_tribs : (takeSample s).tribs = s.tribs := rfl
@[simp] theorem takeSample_screens : (takeSample s).screens = s.screens := rfl
@[simp] theorem takeSample_ports : (takeSample s).ports = s.ports := rfl
@[simp] theorem takeSample_defects : (takeSample s).defects = s.defects := rfl
@[simp] theorem takeSample_timing : (takeSample s).timing = s.timing := rfl
@[simp] theorem takeSample_time : (takeSample s).time = s.time := rfl
@[simp] theorem takeSample_pair : (takeSample s).pair = s.pair := rfl
@[simp] theorem takeSample_power : (takeSample s).power = s.power := rfl
@[simp] theorem takeSample_sampled : sampled (takeSample s) = takeSample s := rfl

/-! ### postCmd -/

@[simp] theorem postCmd_pending (b : Bool) (k : Pkt) : (postCmd b k s).pending = s.pending := rfl
@[simp] theorem postCmd_free (b : Bool) (k : Pkt) : (postCmd b k s).free = s.free := rfl
@[simp] theorem postCmd_fuse (b : Bool) (k : Pkt) : (postCmd b k s).fuse = s.fuse := rfl
@[simp] theorem postCmd_now (b : Bool) (k : Pkt) : (postCmd b k s).now = s.now := rfl
@[simp] theorem postCmd_strokeNext (b : Bool) (k : Pkt) : (postCmd b k s).strokeNext = s.strokeNext := rfl
@[simp] theorem postCmd_imprNext (b : Bool) (k : Pkt) : (postCmd b k s).imprNext = s.imprNext := rfl
@[simp] theorem postCmd_imprNum (b : Bool) (k : Pkt) : (postCmd b k s).imprNum = s.imprNum := rfl
@[simp] theorem postCmd_imprAt (b : Bool) (k : Pkt) : (postCmd b k s).imprAt = s.imprAt := rfl
@[simp] theorem postCmd_imprCount (b : Bool) (k : Pkt) : (postCmd b k s).imprCount = s.imprCount := rfl
@[simp] theorem postCmd_phaseOff (b : Bool) (k : Pkt) : (postCmd b k s).phaseOff = s.phaseOff := rfl
@[simp] theorem postCmd_regs (b : Bool) (k : Pkt) : (postCmd b k s).regs = s.regs := rfl
@[simp] theorem postCmd_cnt (b : Bool) (k : Pkt) : (postCmd b k s).cnt = s.cnt := rfl
@[simp] theorem postCmd_hold (b : Bool) (k : Pkt) : (postCmd b k s).hold = s.hold := rfl
@[simp] theorem postCmd_cntWrap (b : Bool) (k : Pkt) : (postCmd b k s).cntWrap = s.cntWrap := rfl
@[simp] theorem postCmd_holdWrap (b : Bool) (k : Pkt) : (postCmd b k s).holdWrap = s.holdWrap := rfl
@[simp] theorem postCmd_snapNum (b : Bool) (k : Pkt) : (postCmd b k s).snapNum = s.snapNum := rfl
@[simp] theorem postCmd_snapAt (b : Bool) (k : Pkt) : (postCmd b k s).snapAt = s.snapAt := rfl
@[simp] theorem postCmd_cntKeep (b : Bool) (k : Pkt) : (postCmd b k s).cntKeep = s.cntKeep := rfl
@[simp] theorem postCmd_holdKeep (b : Bool) (k : Pkt) : (postCmd b k s).holdKeep = s.holdKeep := rfl
@[simp] theorem postCmd_bwMs (b : Bool) (k : Pkt) : (postCmd b k s).bwMs = s.bwMs := rfl
@[simp] theorem postCmd_bwStatus (b : Bool) (k : Pkt) : (postCmd b k s).bwStatus = s.bwStatus := rfl
@[simp] theorem postCmd_bwAt (b : Bool) (k : Pkt) : (postCmd b k s).bwAt = s.bwAt := rfl
@[simp] theorem postCmd_rates (b : Bool) (k : Pkt) : (postCmd b k s).rates = s.rates := rfl
@[simp] theorem postCmd_cyc (b : Bool) (k : Pkt) : (postCmd b k s).cyc = s.cyc := rfl
@[simp] theorem postCmd_snapCycle (b : Bool) (k : Pkt) : (postCmd b k s).snapCycle = s.snapCycle := rfl
@[simp] theorem postCmd_bwPart (b : Bool) (k : Pkt) : (postCmd b k s).bwPart = s.bwPart := rfl
@[simp] theorem postCmd_bwFrom (b : Bool) (k : Pkt) : (postCmd b k s).bwFrom = s.bwFrom := rfl
@[simp] theorem postCmd_bwAll (b : Bool) (k : Pkt) : (postCmd b k s).bwAll = s.bwAll := rfl
@[simp] theorem postCmd_bwSrc (b : Bool) (k : Pkt) : (postCmd b k s).bwSrc = s.bwSrc := rfl
@[simp] theorem postCmd_cmd (b : Bool) (k : Pkt) : (postCmd b k s).cmd = s.cmd := rfl
@[simp] theorem postCmd_evt (b : Bool) (k : Pkt) : (postCmd b k s).evt = s.evt := rfl
@[simp] theorem postCmd_evtRun (b : Bool) (k : Pkt) : (postCmd b k s).evtRun = s.evtRun := rfl
@[simp] theorem postCmd_ploamIn (b : Bool) (k : Pkt) : (postCmd b k s).ploamIn = s.ploamIn := rfl
@[simp] theorem postCmd_tsHops (b : Bool) (k : Pkt) : (postCmd b k s).tsHops = s.tsHops := rfl
@[simp] theorem postCmd_plates (b : Bool) (k : Pkt) : (postCmd b k s).plates = s.plates := rfl
@[simp] theorem postCmd_trees (b : Bool) (k : Pkt) : (postCmd b k s).trees = s.trees := rfl
@[simp] theorem postCmd_terms (b : Bool) (k : Pkt) : (postCmd b k s).terms = s.terms := rfl
@[simp] theorem postCmd_taps (b : Bool) (k : Pkt) : (postCmd b k s).taps = s.taps := rfl
@[simp] theorem postCmd_keys (b : Bool) (k : Pkt) : (postCmd b k s).keys = s.keys := rfl
@[simp] theorem postCmd_tribs (b : Bool) (k : Pkt) : (postCmd b k s).tribs = s.tribs := rfl
@[simp] theorem postCmd_screens (b : Bool) (k : Pkt) : (postCmd b k s).screens = s.screens := rfl
@[simp] theorem postCmd_ports (b : Bool) (k : Pkt) : (postCmd b k s).ports = s.ports := rfl
@[simp] theorem postCmd_defects (b : Bool) (k : Pkt) : (postCmd b k s).defects = s.defects := rfl
@[simp] theorem postCmd_timing (b : Bool) (k : Pkt) : (postCmd b k s).timing = s.timing := rfl
@[simp] theorem postCmd_time (b : Bool) (k : Pkt) : (postCmd b k s).time = s.time := rfl
@[simp] theorem postCmd_pair (b : Bool) (k : Pkt) : (postCmd b k s).pair = s.pair := rfl
@[simp] theorem postCmd_power (b : Bool) (k : Pkt) : (postCmd b k s).power = s.power := rfl
@[simp] theorem postCmd_seen (b : Bool) (k : Pkt) : (postCmd b k s).seen = s.seen := rfl

end Sys2Proof.Machine
end

