-- ==== Sys2Proof/Laws/Events.lean ====
section
/-! SUPPORT. What reporting changes: an event touches the event hopper, sequence-cleared registers, counters, MSI-X signals and the index of free values,
nothing else; the protection status besides where it is reported. -/

namespace Sys2Proof.Machine

variable (s : State)

theorem Reports.refl : Reports s s := rfl

theorem Reports.trans {s t u : State} (h1 : Reports s t) (h2 : Reports t u) : Reports s u := by
  unfold Reports at *; rw [h2]; rw [h1]

/-- Reporting commutes with what it does not touch: the fields outside a report are those before it. -/
theorem Reports.fields {s t : State} (h : Reports s t) :
    t.pending = s.pending ∧ t.fuse = s.fuse ∧ t.now = s.now ∧ t.plates = s.plates ∧ t.trees = s.trees ∧ t.terms = s.terms ∧ t.taps = s.taps
      ∧ t.keys = s.keys ∧ t.mill = s.mill ∧ t.tribs = s.tribs ∧ t.screens = s.screens ∧ t.ports = s.ports ∧ t.defects = s.defects ∧ t.timing = s.timing
      ∧ t.time = s.time ∧ t.pair = s.pair ∧ t.power = s.power ∧ t.seen = s.seen := by
  unfold Reports at h; rw [h]; simp

/-! ### Registers and counters -/

theorem setRaw_only (a : Nat) (v : Word) : setRaw a v s = { s with regs := (setRaw a v s).regs } := rfl

theorem bump_reports (a n : Nat) : Reports s (bump a n s) := by
  unfold Reports bump; split <;> rfl

theorem bumpS_reports (a : Nat) (i : Int) : Reports s (bumpS a i s) := by
  unfold Reports bumpS; split <;> rfl

theorem scEvent_reports (a : Nat) (b : Word) : Reports s (scEvent a b s) := by
  unfold scEvent
  split
  · rfl
  · simp only; split <;> rfl

theorem hopLevel_reports (h : Nat) (x : Hopper) (r0 r1 : Nat) : Reports s (hopLevel h x r0 r1 s) := by
  unfold hopLevel
  split
  · simp only; split
    · exact (scEvent_reports s (aHEVT h) 1).trans rfl
    · exact scEvent_reports ..
  · rfl

theorem evtPush_reports (src : Nat) (mk : BitVec 32 → List Byte) : Reports s (evtPush src mk s) := by
  unfold evtPush
  simp only
  split
  · exact Reports.trans (t := { s with evt := _, evtRun := _ }) rfl (hopLevel_reports ..)
  · refine Reports.trans ?_ (scEvent_reports ..)
    refine Reports.trans ?_ (scEvent_reports ..)
    exact Reports.trans (t := { s with evt := _, evtRun := _ }) rfl (bump_reports ..)

theorem scEvents_reports (l : List (Nat × Word)) : Reports s (l.foldl (fun s t => scEvent t.1 t.2 s) s) := by
  induction l generalizing s with
  | nil => rfl
  | cons x l ih => exact (scEvent_reports s x.1 x.2).trans (ih _)

theorem fresh_reports : Reports s (fresh s).2 := rfl

theorem evtRaw_reports (code cls b0 b1 idx : Nat) (d : List Byte) (l : List (Nat × Word)) : Reports s (evtRaw code cls b0 b1 idx d l s) := by
  have h := scEvents_reports s l
  unfold evtRaw
  generalize l.foldl (fun s t => scEvent t.1 t.2 s) s = u at h
  refine h.trans ?_
  by_cases hc : fwStamped code = true
  · simp only [hc, if_true]
    have h2 := fresh_reports u
    generalize fresh u = f at h2
    exact h2.trans (evtPush_reports ..)
  · simp only [hc, if_false, Bool.false_eq_true]
    exact evtPush_reports ..

/-- An event only reports. -/
theorem event_reports (code cls idx : Nat) (d : List Byte) : Reports s (event code cls idx d s) := evtRaw_reports ..
theorem defEvent_reports (set : Bool) (cls idx code cause : Nat) : Reports s (defEvent set cls idx code cause s) := evtRaw_reports ..
theorem eccEvent_reports (store w : Nat) : Reports s (eccEvent store w s) := (bump_reports s _ _).trans (event_reports ..)

/-- The protection status only reports. -/
theorem protStroke_reports : ReportsProt s (protStroke s) := by
  unfold ReportsProt protStroke
  simp only
  split
  · rfl
  · have h := event_reports { s with defects := { s.defects with prot := protNow s } } 0x0502 0 0 (beBytes 1 s.defects.prot ++ beBytes 1 (protNow s))
    have hd := h.fields.2.2.2.2.2.2.2.2.2.2.2.2.1
    rw [hd]
    exact h

/-! ### What a report leaves alone, field by field -/

@[simp] theorem event_pending (c k i : Nat) (d : List Byte) : (event c k i d s).pending = s.pending := (event_reports s c k i d).fields.1
@[simp] theorem event_fuse (c k i : Nat) (d : List Byte) : (event c k i d s).fuse = s.fuse := (event_reports s c k i d).fields.2.1
@[simp] theorem event_now (c k i : Nat) (d : List Byte) : (event c k i d s).now = s.now := (event_reports s c k i d).fields.2.2.1
@[simp] theorem event_plates (c k i : Nat) (d : List Byte) : (event c k i d s).plates = s.plates := (event_reports s c k i d).fields.2.2.2.1
@[simp] theorem event_trees (c k i : Nat) (d : List Byte) : (event c k i d s).trees = s.trees := (event_reports s c k i d).fields.2.2.2.2.1
@[simp] theorem event_terms (c k i : Nat) (d : List Byte) : (event c k i d s).terms = s.terms := (event_reports s c k i d).fields.2.2.2.2.2.1
@[simp] theorem event_taps (c k i : Nat) (d : List Byte) : (event c k i d s).taps = s.taps := (event_reports s c k i d).fields.2.2.2.2.2.2.1
@[simp] theorem event_keys (c k i : Nat) (d : List Byte) : (event c k i d s).keys = s.keys := (event_reports s c k i d).fields.2.2.2.2.2.2.2.1
@[simp] theorem event_mill (c k i : Nat) (d : List Byte) : (event c k i d s).mill = s.mill := (event_reports s c k i d).fields.2.2.2.2.2.2.2.2.1
@[simp] theorem event_tribs (c k i : Nat) (d : List Byte) : (event c k i d s).tribs = s.tribs := (event_reports s c k i d).fields.2.2.2.2.2.2.2.2.2.1
@[simp] theorem event_screens (c k i : Nat) (d : List Byte) : (event c k i d s).screens = s.screens := (event_reports s c k i d).fields.2.2.2.2.2.2.2.2.2.2.1
@[simp] theorem event_ports (c k i : Nat) (d : List Byte) : (event c k i d s).ports = s.ports := (event_reports s c k i d).fields.2.2.2.2.2.2.2.2.2.2.2.1
@[simp] theorem event_defects (c k i : Nat) (d : List Byte) : (event c k i d s).defects = s.defects := (event_reports s c k i d).fields.2.2.2.2.2.2.2.2.2.2.2.2.1
@[simp] theorem event_timing (c k i : Nat) (d : List Byte) : (event c k i d s).timing = s.timing := (event_reports s c k i d).fields.2.2.2.2.2.2.2.2.2.2.2.2.2.1
@[simp] theorem event_time (c k i : Nat) (d : List Byte) : (event c k i d s).time = s.time := (event_reports s c k i d).fields.2.2.2.2.2.2.2.2.2.2.2.2.2.2.1
@[simp] theorem event_pair (c k i : Nat) (d : List Byte) : (event c k i d s).pair = s.pair := (event_reports s c k i d).fields.2.2.2.2.2.2.2.2.2.2.2.2.2.2.2.1
@[simp] theorem event_power (c k i : Nat) (d : List Byte) : (event c k i d s).power = s.power := (event_reports s c k i d).fields.2.2.2.2.2.2.2.2.2.2.2.2.2.2.2.2.1
@[simp] theorem event_seen (c k i : Nat) (d : List Byte) : (event c k i d s).seen = s.seen := (event_reports s c k i d).fields.2.2.2.2.2.2.2.2.2.2.2.2.2.2.2.2.2

@[simp] theorem defEvent_pending (b : Bool) (c i k u : Nat) : (defEvent b c i k u s).pending = s.pending := (defEvent_reports s b c i k u).fields.1
@[simp] theorem defEvent_fuse (b : Bool) (c i k u : Nat) : (defEvent b c i k u s).fuse = s.fuse := (defEvent_reports s b c i k u).fields.2.1
@[simp] theorem defEvent_now (b : Bool) (c i k u : Nat) : (defEvent b c i k u s).now = s.now := (defEvent_reports s b c i k u).fields.2.2.1
@[simp] theorem defEvent_plates (b : Bool) (c i k u : Nat) : (defEvent b c i k u s).plates = s.plates := (defEvent_reports s b c i k u).fields.2.2.2.1
@[simp] theorem defEvent_trees (b : Bool) (c i k u : Nat) : (defEvent b c i k u s).trees = s.trees := (defEvent_reports s b c i k u).fields.2.2.2.2.1
@[simp] theorem defEvent_terms (b : Bool) (c i k u : Nat) : (defEvent b c i k u s).terms = s.terms := (defEvent_reports s b c i k u).fields.2.2.2.2.2.1
@[simp] theorem defEvent_taps (b : Bool) (c i k u : Nat) : (defEvent b c i k u s).taps = s.taps := (defEvent_reports s b c i k u).fields.2.2.2.2.2.2.1
@[simp] theorem defEvent_keys (b : Bool) (c i k u : Nat) : (defEvent b c i k u s).keys = s.keys := (defEvent_reports s b c i k u).fields.2.2.2.2.2.2.2.1
@[simp] theorem defEvent_mill (b : Bool) (c i k u : Nat) : (defEvent b c i k u s).mill = s.mill := (defEvent_reports s b c i k u).fields.2.2.2.2.2.2.2.2.1
@[simp] theorem defEvent_tribs (b : Bool) (c i k u : Nat) : (defEvent b c i k u s).tribs = s.tribs := (defEvent_reports s b c i k u).fields.2.2.2.2.2.2.2.2.2.1
@[simp] theorem defEvent_screens (b : Bool) (c i k u : Nat) : (defEvent b c i k u s).screens = s.screens := (defEvent_reports s b c i k u).fields.2.2.2.2.2.2.2.2.2.2.1
@[simp] theorem defEvent_ports (b : Bool) (c i k u : Nat) : (defEvent b c i k u s).ports = s.ports := (defEvent_reports s b c i k u).fields.2.2.2.2.2.2.2.2.2.2.2.1
@[simp] theorem defEvent_defects (b : Bool) (c i k u : Nat) : (defEvent b c i k u s).defects = s.defects := (defEvent_reports s b c i k u).fields.2.2.2.2.2.2.2.2.2.2.2.2.1
@[simp] theorem defEvent_timing (b : Bool) (c i k u : Nat) : (defEvent b c i k u s).timing = s.timing := (defEvent_reports s b c i k u).fields.2.2.2.2.2.2.2.2.2.2.2.2.2.1
@[simp] theorem defEvent_time (b : Bool) (c i k u : Nat) : (defEvent b c i k u s).time = s.time := (defEvent_reports s b c i k u).fields.2.2.2.2.2.2.2.2.2.2.2.2.2.2.1
@[simp] theorem defEvent_pair (b : Bool) (c i k u : Nat) : (defEvent b c i k u s).pair = s.pair := (defEvent_reports s b c i k u).fields.2.2.2.2.2.2.2.2.2.2.2.2.2.2.2.1
@[simp] theorem defEvent_power (b : Bool) (c i k u : Nat) : (defEvent b c i k u s).power = s.power := (defEvent_reports s b c i k u).fields.2.2.2.2.2.2.2.2.2.2.2.2.2.2.2.2.1
@[simp] theorem defEvent_seen (b : Bool) (c i k u : Nat) : (defEvent b c i k u s).seen = s.seen := (defEvent_reports s b c i k u).fields.2.2.2.2.2.2.2.2.2.2.2.2.2.2.2.2.2

@[simp] theorem eccEvent_pending (c k : Nat) : (eccEvent c k s).pending = s.pending := (eccEvent_reports s c k).fields.1
@[simp] theorem eccEvent_fuse (c k : Nat) : (eccEvent c k s).fuse = s.fuse := (eccEvent_reports s c k).fields.2.1
@[simp] theorem eccEvent_now (c k : Nat) : (eccEvent c k s).now = s.now := (eccEvent_reports s c k).fields.2.2.1
@[simp] theorem eccEvent_plates (c k : Nat) : (eccEvent c k s).plates = s.plates := (eccEvent_reports s c k).fields.2.2.2.1
@[simp] theorem eccEvent_trees (c k : Nat) : (eccEvent c k s).trees = s.trees := (eccEvent_reports s c k).fields.2.2.2.2.1
@[simp] theorem eccEvent_terms (c k : Nat) : (eccEvent c k s).terms = s.terms := (eccEvent_reports s c k).fields.2.2.2.2.2.1
@[simp] theorem eccEvent_taps (c k : Nat) : (eccEvent c k s).taps = s.taps := (eccEvent_reports s c k).fields.2.2.2.2.2.2.1
@[simp] theorem eccEvent_keys (c k : Nat) : (eccEvent c k s).keys = s.keys := (eccEvent_reports s c k).fields.2.2.2.2.2.2.2.1
@[simp] theorem eccEvent_mill (c k : Nat) : (eccEvent c k s).mill = s.mill := (eccEvent_reports s c k).fields.2.2.2.2.2.2.2.2.1
@[simp] theorem eccEvent_tribs (c k : Nat) : (eccEvent c k s).tribs = s.tribs := (eccEvent_reports s c k).fields.2.2.2.2.2.2.2.2.2.1
@[simp] theorem eccEvent_screens (c k : Nat) : (eccEvent c k s).screens = s.screens := (eccEvent_reports s c k).fields.2.2.2.2.2.2.2.2.2.2.1
@[simp] theorem eccEvent_ports (c k : Nat) : (eccEvent c k s).ports = s.ports := (eccEvent_reports s c k).fields.2.2.2.2.2.2.2.2.2.2.2.1
@[simp] theorem eccEvent_defects (c k : Nat) : (eccEvent c k s).defects = s.defects := (eccEvent_reports s c k).fields.2.2.2.2.2.2.2.2.2.2.2.2.1
@[simp] theorem eccEvent_timing (c k : Nat) : (eccEvent c k s).timing = s.timing := (eccEvent_reports s c k).fields.2.2.2.2.2.2.2.2.2.2.2.2.2.1
@[simp] theorem eccEvent_time (c k : Nat) : (eccEvent c k s).time = s.time := (eccEvent_reports s c k).fields.2.2.2.2.2.2.2.2.2.2.2.2.2.2.1
@[simp] theorem eccEvent_pair (c k : Nat) : (eccEvent c k s).pair = s.pair := (eccEvent_reports s c k).fields.2.2.2.2.2.2.2.2.2.2.2.2.2.2.2.1
@[simp] theorem eccEvent_power (c k : Nat) : (eccEvent c k s).power = s.power := (eccEvent_reports s c k).fields.2.2.2.2.2.2.2.2.2.2.2.2.2.2.2.2.1
@[simp] theorem eccEvent_seen (c k : Nat) : (eccEvent c k s).seen = s.seen := (eccEvent_reports s c k).fields.2.2.2.2.2.2.2.2.2.2.2.2.2.2.2.2.2



@[simp] theorem scEvent_pending (a : Nat) (b : Word) : (scEvent a b s).pending = s.pending := (scEvent_reports s a b).fields.1
@[simp] theorem scEvent_fuse (a : Nat) (b : Word) : (scEvent a b s).fuse = s.fuse := (scEvent_reports s a b).fields.2.1
@[simp] theorem scEvent_now (a : Nat) (b : Word) : (scEvent a b s).now = s.now := (scEvent_reports s a b).fields.2.2.1
@[simp] theorem scEvent_plates (a : Nat) (b : Word) : (scEvent a b s).plates = s.plates := (scEvent_reports s a b).fields.2.2.2.1
@[simp] theorem scEvent_trees (a : Nat) (b : Word) : (scEvent a b s).trees = s.trees := (scEvent_reports s a b).fields.2.2.2.2.1
@[simp] theorem scEvent_terms (a : Nat) (b : Word) : (scEvent a b s).terms = s.terms := (scEvent_reports s a b).fields.2.2.2.2.2.1
@[simp] theorem scEvent_taps (a : Nat) (b : Word) : (scEvent a b s).taps = s.taps := (scEvent_reports s a b).fields.2.2.2.2.2.2.1
@[simp] theorem scEvent_keys (a : Nat) (b : Word) : (scEvent a b s).keys = s.keys := (scEvent_reports s a b).fields.2.2.2.2.2.2.2.1
@[simp] theorem scEvent_mill (a : Nat) (b : Word) : (scEvent a b s).mill = s.mill := (scEvent_reports s a b).fields.2.2.2.2.2.2.2.2.1
@[simp] theorem scEvent_tribs (a : Nat) (b : Word) : (scEvent a b s).tribs = s.tribs := (scEvent_reports s a b).fields.2.2.2.2.2.2.2.2.2.1
@[simp] theorem scEvent_screens (a : Nat) (b : Word) : (scEvent a b s).screens = s.screens := (scEvent_reports s a b).fields.2.2.2.2.2.2.2.2.2.2.1
@[simp] theorem scEvent_ports (a : Nat) (b : Word) : (scEvent a b s).ports = s.ports := (scEvent_reports s a b).fields.2.2.2.2.2.2.2.2.2.2.2.1
@[simp] theorem scEvent_defects (a : Nat) (b : Word) : (scEvent a b s).defects = s.defects := (scEvent_reports s a b).fields.2.2.2.2.2.2.2.2.2.2.2.2.1
@[simp] theorem scEvent_timing (a : Nat) (b : Word) : (scEvent a b s).timing = s.timing := (scEvent_reports s a b).fields.2.2.2.2.2.2.2.2.2.2.2.2.2.1
@[simp] theorem scEvent_time (a : Nat) (b : Word) : (scEvent a b s).time = s.time := (scEvent_reports s a b).fields.2.2.2.2.2.2.2.2.2.2.2.2.2.2.1
@[simp] theorem scEvent_pair (a : Nat) (b : Word) : (scEvent a b s).pair = s.pair := (scEvent_reports s a b).fields.2.2.2.2.2.2.2.2.2.2.2.2.2.2.2.1
@[simp] theorem scEvent_power (a : Nat) (b : Word) : (scEvent a b s).power = s.power := (scEvent_reports s a b).fields.2.2.2.2.2.2.2.2.2.2.2.2.2.2.2.2.1
@[simp] theorem scEvent_seen (a : Nat) (b : Word) : (scEvent a b s).seen = s.seen := (scEvent_reports s a b).fields.2.2.2.2.2.2.2.2.2.2.2.2.2.2.2.2.2

@[simp] theorem protStroke_pending : (protStroke s).pending = s.pending := (protStroke_reports s).fields.1
@[simp] theorem protStroke_fuse : (protStroke s).fuse = s.fuse := (protStroke_reports s).fields.2.1
@[simp] theorem protStroke_now : (protStroke s).now = s.now := (protStroke_reports s).fields.2.2.1
@[simp] theorem protStroke_plates : (protStroke s).plates = s.plates := (protStroke_reports s).fields.2.2.2.1
@[simp] theorem protStroke_trees : (protStroke s).trees = s.trees := (protStroke_reports s).fields.2.2.2.2.1
@[simp] theorem protStroke_terms : (protStroke s).terms = s.terms := (protStroke_reports s).fields.2.2.2.2.2.1
@[simp] theorem protStroke_taps : (protStroke s).taps = s.taps := (protStroke_reports s).fields.2.2.2.2.2.2.1
@[simp] theorem protStroke_keys : (protStroke s).keys = s.keys := (protStroke_reports s).fields.2.2.2.2.2.2.2.1
@[simp] theorem protStroke_mill : (protStroke s).mill = s.mill := (protStroke_reports s).fields.2.2.2.2.2.2.2.2.1
@[simp] theorem protStroke_tribs : (protStroke s).tribs = s.tribs := (protStroke_reports s).fields.2.2.2.2.2.2.2.2.2.1
@[simp] theorem protStroke_screens : (protStroke s).screens = s.screens := (protStroke_reports s).fields.2.2.2.2.2.2.2.2.2.2.1
@[simp] theorem protStroke_ports : (protStroke s).ports = s.ports := (protStroke_reports s).fields.2.2.2.2.2.2.2.2.2.2.2.1
@[simp] theorem protStroke_timing : (protStroke s).timing = s.timing := (protStroke_reports s).fields.2.2.2.2.2.2.2.2.2.2.2.2.2.1
@[simp] theorem protStroke_time : (protStroke s).time = s.time := (protStroke_reports s).fields.2.2.2.2.2.2.2.2.2.2.2.2.2.2.1
@[simp] theorem protStroke_pair : (protStroke s).pair = s.pair := (protStroke_reports s).fields.2.2.2.2.2.2.2.2.2.2.2.2.2.2.2.1
@[simp] theorem protStroke_power : (protStroke s).power = s.power := (protStroke_reports s).fields.2.2.2.2.2.2.2.2.2.2.2.2.2.2.2.2.1
@[simp] theorem protStroke_seen : (protStroke s).seen = s.seen := (protStroke_reports s).fields.2.2.2.2.2.2.2.2.2.2.2.2.2.2.2.2.2

end Sys2Proof.Machine
end

