-- ==== Sys2Proof/Laws/Intake.lean ====
section
/-! SUPPORT. What intake, acceptance and the answer do: an accepted command that nothing holds back runs at once on `taken`; what `taken` and
`answered` leave alone. -/

namespace Sys2Proof.Machine

/-! ### What sending a record changes -/

/-- A record pushed changes the pair's stream and a counter. -/
theorem sendRec_only (r : StreamRec) (s : State) : sendRec s r = { s with pair := (sendRec s r).pair, cnt := (sendRec s r).cnt } := by
  unfold sendRec
  simp only
  split
  · rfl
  · rw [bump_only]

theorem sendRecs_only (l : List StreamRec) (s : State) :
    sendRecs l s = { s with pair := (sendRecs l s).pair, cnt := (sendRecs l s).cnt } := by
  induction l generalizing s with
  | nil => rfl
  | cons r l ih =>
    show sendRecs l (sendRec s r) = { s with pair := (sendRecs l (sendRec s r)).pair, cnt := (sendRecs l (sendRec s r)).cnt }
    rw [ih (sendRec s r)]
    generalize sendRecs l (sendRec s r) = u
    rw [sendRec_only]

theorem streamAt_only (t : Nat) (b : Rec) (s : State) :
    streamAt t b s = { s with pair := (streamAt t b s).pair, cnt := (streamAt t b s).cnt } := by
  unfold streamAt
  split
  · exact sendRecs_only ..
  · rfl

/-- Mirroring changes the pair's stream and a counter. -/
theorem mirror_only (t : Nat) (k : Pkt) (s : State) : mirror t k s = { s with pair := (mirror t k s).pair, cnt := (mirror t k s).cnt } := by
  unfold mirror
  cases k.cmd with
  | none => rfl
  | some c =>
    simp only
    split
    · exact streamAt_only _ _ _
    · rfl

/-- A command that is not of column M leaves no record. -/
theorem told_plain {k : Pkt} (h : opMirrored k.opcode.toNat k.cmd = false) (s : State) : told k s = s := by
  unfold told mirror
  cases hc : k.cmd with
  | none => rfl
  | some c => rw [hc] at h; simp [h]

theorem does_plain {k : Pkt} (h : opMirrored k.opcode.toNat k.cmd = false) (o : Op) (s : State) : o.does k s = o.run s := by
  unfold Op.does; rw [told_plain h]; simp

/-- A mirrored command that its checks admit runs behind its record. -/
theorem does_ok {o : Op} {s : State} (h : (o.run s).status ≤ 1) (k : Pkt) : o.does k s = o.run (told k s) := if_pos h

/-- A command that its checks refuse leaves no record. -/
theorem does_not {o : Op} {s : State} (h : ¬ (o.run s).status ≤ 1) (k : Pkt) : o.does k s = o.run s := if_neg h

theorem setPortSt_used_queues (p : Port) (n : Nat) (s : State) :
    allQueued (setPortSt p { portSt s p with used := n } s) = allQueued s := by
  cases p <;> rfl

theorem setPortSt_waiting (p : Port) (x : PortState) (s : State) : (setPortSt p x s).cmd.waiting = s.cmd.waiting := by cases p <;> rfl
theorem setPortSt_timed (p : Port) (x : PortState) (s : State) : (setPortSt p x s).cmd.timed = s.cmd.timed := by cases p <;> rfl

/-- Acceptance leaves what is under way as it was. -/
theorem taken_queues (i : Instr) (h : Hdr) (s : State) :
    allQueued (taken i h s) = allQueued s ∧ (taken i h s).cmd.timed = s.cmd.timed ∧ (taken i h s).cmd.waiting = s.cmd.waiting
      ∧ (taken i h s).mill.landing = s.mill.landing := by
  unfold taken accept
  cases h.port <;> exact ⟨rfl, rfl, rfl, rfl⟩

theorem blocked_congr {s t : State} (h1 : allQueued t = allQueued s) (h2 : t.cmd.timed = s.cmd.timed) (h3 : t.cmd.waiting = s.cmd.waiting)
    (h4 : t.mill.landing = s.mill.landing) (k : Pkt) : blocked t k = blocked s k := by
  unfold blocked underWay; rw [h1, h2, h3, h4]

theorem oldestStartable_congr {s t : State} (h1 : allQueued t = allQueued s) (h2 : t.cmd.timed = s.cmd.timed)
    (h3 : t.cmd.waiting = s.cmd.waiting) (h4 : t.mill.landing = s.mill.landing) : oldestStartable t = oldestStartable s := by
  unfold oldestStartable
  rw [h1]
  have : (fun k => !blocked t k) = (fun k => !blocked s k) := funext (fun k => by rw [blocked_congr h1 h2 h3 h4])
  rw [this]

theorem executing_congr {s t : State} (h3 : t.cmd.waiting = s.cmd.waiting) (h4 : t.mill.landing = s.mill.landing) : executing t = executing s := by
  unfold executing; rw [h3, h4]

theorem blocked_none {s : State} {k : Pkt} (hu : ∀ x ∈ underWay s, x.hdr.port = k.hdr.port → ordered x.hdr = false) : blocked s k = false := by
  unfold blocked
  rw [List.any_eq_false]
  intro x hx
  have := hu x hx
  by_cases hp : x.hdr.port = k.hdr.port <;> simp_all

/-- Opcodes are 16-bit numbers. -/
theorem opcode_small (i : Instr) : (BitVec.ofNat 16 (opcodeOf i)).toNat = opcodeOf i := by
  cases i <;> rfl

/-- An accepted command that nothing holds back starts on `taken`. -/
theorem submit_starts {i : Instr} {h : Hdr} {s : State} (o : Op) (hs : Accepted i h s) (hu : Unblocked h s) :
    submit i o s = start (takenPkt i h s) o (taken i h s) := by
  obtain ⟨h1, h2, h3⟩ := hs
  obtain ⟨hw, ho, hu⟩ := hu
  have hq := taken_queues i h s
  have hbl : blocked (taken i h s) (takenPkt i h s) = false := by
    rw [blocked_congr hq.1 hq.2.1 hq.2.2.1 hq.2.2.2]
    exact blocked_none hu
  have hol : oldestStartable (taken i h s) = none := by rw [oldestStartable_congr hq.1 hq.2.1 hq.2.2.1 hq.2.2.2]; exact ho
  have hwl : executing (taken i h s) < 16 := by rw [executing_congr hq.2.2.1 hq.2.2.2]; exact hw
  unfold submit
  rw [h1]
  simp only [deliver, h2, h3]
  show (if _ then _ else _) = _
  simp only [Bool.false_eq_true, if_false]
  have hnb : (!blocked (accept h (opcodeOf i) (some i) 0 s).2 (accept h (opcodeOf i) (some i) 0 s).1) = true := by
    unfold taken takenPkt at hbl
    rw [hbl]; rfl
  exact if_pos ⟨hwl, hol, hnb⟩

theorem awaitsStroke_taken (op : Nat) (i : Instr) (h : Hdr) (s : State) : awaitsStroke op (taken i h s) = awaitsStroke op s := by
  unfold awaitsStroke copyPending; rw [(taken_queues i h s).2.2.2]

/-- A started immediate command, its parameters in range, posts its effect where that waits for a stroke boundary, and else runs at once
(R22, R363). -/
theorem start_immediate {i : Instr} {h : Hdr} {s : State} (o : Op) (hi : Immediate (opcodeOf i) h) (hb : o.bad (taken i h s) = 0) :
    start (takenPkt i h s) o (taken i h s) =
      if awaitsStroke (opcodeOf i) s then postCmd false (takenPkt i h s) (taken i h s)
      else complete (taken i h s).mill.landing.length (takenPkt i h s) (o.does (takenPkt i h s) (taken i h s)) := by
  obtain ⟨he, ha⟩ := hi
  have hk : (takenPkt i h s).hdr = h := rfl
  have hbad : (takenPkt i h s).badAt.toNat = 0 := rfl
  have hop : (takenPkt i h s).opcode.toNat = opcodeOf i := opcode_small i
  unfold start
  simp only [hk, hop, he, hb, hbad, awaitsStroke_taken, offMin, ne_eq, not_true_eq_false, false_and, if_false, false_or]
  cases hx : asap h with
  | false => simp
  | true => simp [(ha hx).1, (ha hx).2]

/-- A command that waits for no stroke boundary: its own checks and effect come to `r`. -/
theorem exec_does {i : Instr} {h : Hdr} {s : State} (o : Op) (hs : Starts i h s) (hb : o.bad (taken i h s) = 0)
    (hop : awaitsStroke (opcodeOf i) s = false) {st : Nat} {ps : List Byte} {t : State}
    (hr : o.does (takenPkt i h s) (taken i h s) = ⟨st, ps, t⟩) (hst : st ≠ stWait) : command i o s = .next (answered i h s st ps t) := by
  unfold command
  rw [submit_starts o hs.1 hs.2.1, start_immediate o hs.2.2 hb, hop, hr, (taken_queues i h s).2.2.2]
  unfold complete answered
  simp [hst]

/-- One that is mirrored and that its checks admit runs on `begun`. -/
theorem exec_begun {i : Instr} {h : Hdr} {s : State} (o : Op) (hs : Starts i h s) (hb : o.bad (taken i h s) = 0)
    (hop : awaitsStroke (opcodeOf i) s = false) {st : Nat} {ps : List Byte} {t : State}
    (hok : (o.run (taken i h s)).status ≤ 1) (hr : o.run (begun i h s) = ⟨st, ps, t⟩) (hst : st ≠ stWait) :
    command i o s = .next (answered i h s st ps t) :=
  exec_does o hs hb hop ((does_ok hok _).trans hr) hst

/-- One that is not of column M runs on `taken`. -/
theorem exec_answers {i : Instr} {h : Hdr} {s : State} (o : Op) (hs : Starts i h s) (hb : o.bad (taken i h s) = 0)
    (hop : awaitsStroke (opcodeOf i) s = false) (hm : opMirrored (opcodeOf i) (some i) = false) {st : Nat} {ps : List Byte}
    {t : State} (hr : o.run (taken i h s) = ⟨st, ps, t⟩) (hst : st ≠ stWait) : command i o s = .next (answered i h s st ps t) :=
  exec_does o hs hb hop
    ((does_plain (k := takenPkt i h s) (by show opMirrored (BitVec.ofNat 16 (opcodeOf i)).toNat (some i) = false; rw [opcode_small]; exact hm) o _).trans hr)
    hst

/-- A command that changes the datapath waits for the stroke boundary of its effect (R22). -/
theorem exec_posts {i : Instr} {h : Hdr} {s : State} (o : Op) (hs : Starts i h s) (hb : o.bad (taken i h s) = 0)
    (hop : awaitsStroke (opcodeOf i) s = true) : command i o s = .next (postCmd false (takenPkt i h s) (taken i h s)) := by
  unfold command
  rw [submit_starts o hs.1 hs.2.1, start_immediate o hs.2.2 hb, hop]
  rfl

end Sys2Proof.Machine
end

