-- ==== Sys2Proof/Laws/Taken.lean ====
section
/-! SUPPORT. An accepted command starts on `taken`: the state at its acceptance but for the interpreter; `begun` differs from it in the pair's stream
and its drop counter alone. -/

namespace Sys2Proof.Machine

variable (i : Instr) (h : Hdr) (s : State)

theorem taken_only : taken i h s = { s with cmd := (taken i h s).cmd } := by
  unfold taken accept; cases h.port <;> rfl

theorem begun_only : begun i h s = { taken i h s with pair := (begun i h s).pair, cnt := (begun i h s).cnt } := by
  unfold begun told; exact mirror_only ..

@[simp] theorem taken_pending : (taken i h s).pending = s.pending := by rw [taken_only]
@[simp] theorem taken_free : (taken i h s).free = s.free := by rw [taken_only]
@[simp] theorem taken_fuse : (taken i h s).fuse = s.fuse := by rw [taken_only]
@[simp] theorem taken_now : (taken i h s).now = s.now := by rw [taken_only]
@[simp] theorem taken_strokeNext : (taken i h s).strokeNext = s.strokeNext := by rw [taken_only]
@[simp] theorem taken_imprNext : (taken i h s).imprNext = s.imprNext := by rw [taken_only]
@[simp] theorem taken_imprNum : (taken i h s).imprNum = s.imprNum := by rw [taken_only]
@[simp] theorem taken_imprAt : (taken i h s).imprAt = s.imprAt := by rw [taken_only]
@[simp] theorem taken_imprCount : (taken i h s).imprCount = s.imprCount := by rw [taken_only]
@[simp] theorem taken_phaseOff : (taken i h s).phaseOff = s.phaseOff := by rw [taken_only]
@[simp] theorem taken_regs : (taken i h s).regs = s.regs := by rw [taken_only]
@[simp] theorem taken_hold : (taken i h s).hold = s.hold := by rw [taken_only]
@[simp] theorem taken_cntWrap : (taken i h s).cntWrap = s.cntWrap := by rw [taken_only]
@[simp] theorem taken_holdWrap : (taken i h s).holdWrap = s.holdWrap := by rw [taken_only]
@[simp] theorem taken_snapNum : (taken i h s).snapNum = s.snapNum := by rw [taken_only]
@[simp] theorem taken_snapAt : (taken i h s).snapAt = s.snapAt := by rw [taken_only]
@[simp] theorem taken_bwMs : (taken i h s).bwMs = s.bwMs := by rw [taken_only]
@[simp] theorem taken_bwStatus : (taken i h s).bwStatus = s.bwStatus := by rw [taken_only]
@[simp] theorem taken_bwAt : (taken i h s).bwAt = s.bwAt := by rw [taken_only]
@[simp] theorem taken_rates : (taken i h s).rates = s.rates := by rw [taken_only]
@[simp] theorem taken_cyc : (taken i h s).cyc = s.cyc := by rw [taken_only]
@[simp] theorem taken_snapCycle : (taken i h s).snapCycle = s.snapCycle := by rw [taken_only]
@[simp] theorem taken_bwPart : (taken i h s).bwPart = s.bwPart := by rw [taken_only]
@[simp] theorem taken_bwFrom : (taken i h s).bwFrom = s.bwFrom := by rw [taken_only]
@[simp] theorem taken_bwAll : (taken i h s).bwAll = s.bwAll := by rw [taken_only]
@[simp] theorem taken_bwSrc : (taken i h s).bwSrc = s.bwSrc := by rw [taken_only]
@[simp] theorem taken_evt : (taken i h s).evt = s.evt := by rw [taken_only]
@[simp] theorem taken_evtRun : (taken i h s).evtRun = s.evtRun := by rw [taken_only]
@[simp] theorem taken_ploamIn : (taken i h s).ploamIn = s.ploamIn := by rw [taken_only]
@[simp] theorem taken_tsHops : (taken i h s).tsHops = s.tsHops := by rw [taken_only]
@[simp] theorem taken_plates : (taken i h s).plates = s.plates := by rw [taken_only]
@[simp] theorem taken_trees : (taken i h s).trees = s.trees := by rw [taken_only]
@[simp] theorem taken_terms : (taken i h s).terms = s.terms := by rw [taken_only]
@[simp] theorem taken_taps : (taken i h s).taps = s.taps := by rw [taken_only]
@[simp] theorem taken_keys : (taken i h s).keys = s.keys := by rw [taken_only]
@[simp] theorem taken_mill : (taken i h s).mill = s.mill := by rw [taken_only]
@[simp] theorem taken_tribs : (taken i h s).tribs = s.tribs := by rw [taken_only]
@[simp] theorem taken_screens : (taken i h s).screens = s.screens := by rw [taken_only]
@[simp] theorem taken_ports : (taken i h s).ports = s.ports := by rw [taken_only]
@[simp] theorem taken_defects : (taken i h s).defects = s.defects := by rw [taken_only]
@[simp] theorem taken_timing : (taken i h s).timing = s.timing := by rw [taken_only]
@[simp] theorem taken_time : (taken i h s).time = s.time := by rw [taken_only]
@[simp] theorem taken_power : (taken i h s).power = s.power := by rw [taken_only]
@[simp] theorem taken_seen : (taken i h s).seen = s.seen := by rw [taken_only]
@[simp] theorem taken_pair : (taken i h s).pair = s.pair := by rw [taken_only]
@[simp] theorem taken_cnt : (taken i h s).cnt = s.cnt := by rw [taken_only]
@[simp] theorem taken_cntKeep : (taken i h s).cntKeep = s.cntKeep := by rw [taken_only]
@[simp] theorem taken_holdKeep : (taken i h s).holdKeep = s.holdKeep := by rw [taken_only]

/-! ### What the record of a mirrored command leaves -/

@[simp] theorem begun_pending : (begun i h s).pending = s.pending := by rw [begun_only]; simp
@[simp] theorem begun_free : (begun i h s).free = s.free := by rw [begun_only]; simp
@[simp] theorem begun_fuse : (begun i h s).fuse = s.fuse := by rw [begun_only]; simp
@[simp] theorem begun_now : (begun i h s).now = s.now := by rw [begun_only]; simp
@[simp] theorem begun_strokeNext : (begun i h s).strokeNext = s.strokeNext := by rw [begun_only]; simp
@[simp] theorem begun_imprNext : (begun i h s).imprNext = s.imprNext := by rw [begun_only]; simp
@[simp] theorem begun_imprNum : (begun i h s).imprNum = s.imprNum := by rw [begun_only]; simp
@[simp] theorem begun_imprAt : (begun i h s).imprAt = s.imprAt := by rw [begun_only]; simp
@[simp] theorem begun_imprCount : (begun i h s).imprCount = s.imprCount := by rw [begun_only]; simp
@[simp] theorem begun_phaseOff : (begun i h s).phaseOff = s.phaseOff := by rw [begun_only]; simp
@[simp] theorem begun_regs : (begun i h s).regs = s.regs := by rw [begun_only]; simp
@[simp] theorem begun_hold : (begun i h s).hold = s.hold := by rw [begun_only]; simp
@[simp] theorem begun_cntWrap : (begun i h s).cntWrap = s.cntWrap := by rw [begun_only]; simp
@[simp] theorem begun_holdWrap : (begun i h s).holdWrap = s.holdWrap := by rw [begun_only]; simp
@[simp] theorem begun_snapNum : (begun i h s).snapNum = s.snapNum := by rw [begun_only]; simp
@[simp] theorem begun_snapAt : (begun i h s).snapAt = s.snapAt := by rw [begun_only]; simp
@[simp] theorem begun_bwMs : (begun i h s).bwMs = s.bwMs := by rw [begun_only]; simp
@[simp] theorem begun_bwStatus : (begun i h s).bwStatus = s.bwStatus := by rw [begun_only]; simp
@[simp] theorem begun_bwAt : (begun i h s).bwAt = s.bwAt := by rw [begun_only]; simp
@[simp] theorem begun_rates : (begun i h s).rates = s.rates := by rw [begun_only]; simp
@[simp] theorem begun_cyc : (begun i h s).cyc = s.cyc := by rw [begun_only]; simp
@[simp] theorem begun_snapCycle : (begun i h s).snapCycle = s.snapCycle := by rw [begun_only]; simp
@[simp] theorem begun_bwPart : (begun i h s).bwPart = s.bwPart := by rw [begun_only]; simp
@[simp] theorem begun_bwFrom : (begun i h s).bwFrom = s.bwFrom := by rw [begun_only]; simp
@[simp] theorem begun_bwAll : (begun i h s).bwAll = s.bwAll := by rw [begun_only]; simp
@[simp] theorem begun_bwSrc : (begun i h s).bwSrc = s.bwSrc := by rw [begun_only]; simp
@[simp] theorem begun_evt : (begun i h s).evt = s.evt := by rw [begun_only]; simp
@[simp] theorem begun_evtRun : (begun i h s).evtRun = s.evtRun := by rw [begun_only]; simp
@[simp] theorem begun_ploamIn : (begun i h s).ploamIn = s.ploamIn := by rw [begun_only]; simp
@[simp] theorem begun_tsHops : (begun i h s).tsHops = s.tsHops := by rw [begun_only]; simp
@[simp] theorem begun_plates : (begun i h s).plates = s.plates := by rw [begun_only]; simp
@[simp] theorem begun_trees : (begun i h s).trees = s.trees := by rw [begun_only]; simp
@[simp] theorem begun_terms : (begun i h s).terms = s.terms := by rw [begun_only]; simp
@[simp] theorem begun_taps : (begun i h s).taps = s.taps := by rw [begun_only]; simp
@[simp] theorem begun_keys : (begun i h s).keys = s.keys := by rw [begun_only]; simp
@[simp] theorem begun_mill : (begun i h s).mill = s.mill := by rw [begun_only]; simp
@[simp] theorem begun_tribs : (begun i h s).tribs = s.tribs := by rw [begun_only]; simp
@[simp] theorem begun_screens : (begun i h s).screens = s.screens := by rw [begun_only]; simp
@[simp] theorem begun_ports : (begun i h s).ports = s.ports := by rw [begun_only]; simp
@[simp] theorem begun_defects : (begun i h s).defects = s.defects := by rw [begun_only]; simp
@[simp] theorem begun_timing : (begun i h s).timing = s.timing := by rw [begun_only]; simp
@[simp] theorem begun_time : (begun i h s).time = s.time := by rw [begun_only]; simp
@[simp] theorem begun_power : (begun i h s).power = s.power := by rw [begun_only]; simp
@[simp] theorem begun_seen : (begun i h s).seen = s.seen := by rw [begun_only]; simp
@[simp] theorem begun_cntKeep : (begun i h s).cntKeep = s.cntKeep := by rw [begun_only]; simp
@[simp] theorem begun_holdKeep : (begun i h s).holdKeep = s.holdKeep := by rw [begun_only]; simp
@[simp] theorem begun_cmd : (begun i h s).cmd = (taken i h s).cmd := by rw [begun_only]

end Sys2Proof.Machine
end

