-- ==== Sys2Proof/Machine/Layout.lean ====
section
/-! DEFINITION. The bytes of a downstream frame on the line: data layout, PLOAM messages, XGEM frames, LDPC codewords, scrambling
(R95 to R101, R107, R139, R145, R164). -/

namespace Sys2Proof.Machine

open Config

/-! ### PLOAM messages -/

/-- EQD in the units of Ranging_Time, to the nearest, ties toward the smaller (R145, log 88). -/
def rangingUnits (eqd : Nat) : Nat := let u := 1 + rangingUnit; (2 * eqd + u - 1) / (2 * u)

/-- What a message tells: the host's content, a profile's class, rate, preamble length and delimiter (R107), a serial number, an allocation ID, an
equalisation delay; of Disable_Serial_Number, whose content R142 does not give, an enable byte alone (DESIGN CHOICE, log 147). -/
def ploamContent (m : PMsg) : List Byte :=
  match m.kind with
  | .host _ => m.content
  | .burstProfile i _ =>
    let (c, r, l) := profileOf i m.value
    beBytes 1 i ++ beBytes 1 c ++ beBytes 1 r ++ beBytes 4 l ++ beBytes 20 delimPattern.toNat
  | .rangingTime _ => beBytes 4 (rangingUnits m.value)
  | .assignOnu => beBytes 8 m.value
  | .assignAlloc _ => beBytes 2 m.value
  | .disableSn on => beBytes 1 on.toNat
  | .deactivate | .requestReg | .protection | .systemProfile | .channelProfile => []

/-- The 48 bytes of a message: addressee, type, sequence number and content as G.9804.2 lays them out, then the MIC under the key chosen (R139);
1023 addresses every terminal. -/
def ploamBytes (m : PMsg) : List Byte :=
  let b := ploamLayout (m.slot.getD 1023) (ploamType m.kind) m.seq.toNat (ploamContent m)
  let key := match m.mic with | .key k => k | _ => defaultKey
  beBytes 40 b.toNat ++ beBytes 8 (Config.mic false key b).toNat

/-! ### Data bytes (Table 3.2) -/

/-- The 8 bytes of an allocation structure (R98, R105). -/
def structureBytes (e : MapEntry) : List Byte :=
  let id := match e.use with
    | .alloc i => i | .discovery => discoveryAlloc | .unassigned => unassignedAlloc
  beBytes 8 (allocStructure id (startTime e) (grantSize e) e.profile e.ploamu e.dbru).toNat

/-- Byte of a list of 8-byte or 48-byte items. -/
def itemByte {α : Type} (n : Nat) (f : α → List Byte) (l : List α) (i : Nat) : Byte := (((l[i / n]?).map f).getD [])[i % n]?.getD 0

/-- Byte k of an idle XGEM frame of len bytes in all; a piece of fewer than 8 bytes holds no header (R101, log 118). -/
def idleFrame (len k : Nat) : Byte :=
  if len < 8 then padByte k
  else if k < 8 then (beBytes 8 (xgemHeader (len - 8) 0 idlePort 0 true).toNat)[k]?.getD 0
  else idleByte (k - 8)

/-- Byte k of what is placed: an XGEM header and payload, Options 0 (R164), or an idle frame. -/
def placedByte (x : Placed) (k : Nat) : Byte :=
  if x.idle = 0 then (beBytes 8 (xgemHeader x.data.length x.key x.portId 0 x.last).toNat ++ x.data)[k]?.getD 0 else idleFrame x.idle k

/-- Composable byte p of `area`: of what is placed there; what nothing has composed, as on a LIT tree, carries idle XGEM frames (R101). -/
def composableByte (area : Nat) (l : List Placed) (p : Nat) : Byte :=
  match (l ++ idlePieces ((l.getLast?.map placedEnd).getD 0) area).find? (fun x => decide (x.pos ≤ p) && decide (p < placedEnd x)) with
  | some x => placedByte x (p - x.pos)
  | none => padByte p

/-- Data byte q of the frame on the line of tree n (Table 3.2). Structures beyond one to a window take their bytes from the idle XGEM frame that
follows the PLOAM messages, so that the composable bytes begin where R68 has them (log 87). -/
def dataByte (n : Nat) (c : Comp) (l : List Placed) (q : Nat) : Byte :=
  let m := 8 * c.map.length
  let first := 1280 + 8 * (c.map.length - c.extra)
  let p := c.msgs.length
  if q < 24 then psbd c.superframe n q
  else if q < 28 then itemByte 4 (fun _ => beBytes 4 (fsHeader c.map.length p).toNat) [()] (q - 24)
  else if q < 28 + m then itemByte 8 structureBytes c.map (q - 28)
  else if q < 28 + m + 48 * p then itemByte 48 ploamBytes c.msgs (q - 28 - m)
  else if q < first then idleFrame (1252 - 48 * p - 8 * c.extra) (q - 28 - m - 48 * p)
  else composableByte (656640 - first) l (q - first)

/-! ### Line bytes (R97) -/

/-- The 1,824 data bytes of codeword k. -/
def codewordData (n : Nat) (c : Comp) (l : List Placed) (k : Nat) : List Byte := (List.range 1824).map (fun j => dataByte n c l (1824 * k + j))

/-- Line byte i of a frame: 360 codewords of 1,824 data bytes and 336 parity bytes; all but the PSBd scrambled. -/
def lineByte (n : Nat) (c : Comp) (l : List Placed) (i : Nat) : Byte :=
  let k := i / 2160
  let j := i % 2160
  let b := if j < 1824 then dataByte n c l (1824 * k + j) else parity (codewordData n c l k) (j - 1824)
  if i < 24 then b else b ^^^ scramble c.superframe i

/-- What tree n emits as line byte i of its frame: nothing in OFF and DARK, or with its transmitter squelched (R91, R95). -/
def txByte (s : State) (n i : Nat) : Option Byte :=
  let t := tree s n
  if emitting s ∧ (t.st = .lit ∨ t.st = .serving) ∧ t.txValid ≤ s.now then t.lineNow.map (fun c => lineByte n c t.placed i) else none

end Sys2Proof.Machine
end

