-- ==== Sys2Proof/Machine/Balls.lean ====
section
/-! DEFINITION. Balls: their positions and supplies (R452 to R457), the state of every output ball (R458, R464, Tables 15.5, 15.8), and the limits
of supplies and hold-up capacitor (R439, R466, R467). -/

namespace Sys2Proof.Machine

/-! ### The grid (R452) -/

/-- A ball by row index and column, 1 to 70. -/
structure Ball where
  row : Nat
  col : Nat
  deriving DecidableEq, Repr

/-- The letters of Table 15.1. -/
def rowLetters : List Char := "ABCDEFGHJKLMNPTUVWY".toList

/-- Row name of index r. -/
def rowName (r : Nat) : List Char :=
  let last := [rowLetters.getD ((r - 1) % 19) '?']
  match (r - 1) / 19 with
  | 0 => last
  | 1 => 'A' :: last
  | 2 => 'B' :: last
  | _ => 'C' :: last

/-- ball(s, d, j) of Table 15.2. -/
def ballAt (s d j : Nat) : Ball :=
  match s with
  | 0 => ⟨1 + d, j⟩
  | 1 => ⟨j, 70 - d⟩
  | 2 => ⟨70 - d, 71 - j⟩
  | _ => ⟨71 - j, 1 + d⟩

/-- Depth and position of a ball seen from side s. -/
def edgeOf (s : Nat) (b : Ball) : Nat × Nat :=
  match s with
  | 0 => (b.row - 1, b.col)
  | 1 => (70 - b.col, b.row)
  | 2 => (70 - b.row, 71 - b.col)
  | _ => (b.col - 1, 71 - b.row)

/-! ### Signals (R453 to R455) -/

/-- The signal balls; `neg` is the N ball of a pair. -/
inductive Sig
  | treeTx (n : Nat) (neg : Bool) | treeRx (n : Nat) (neg : Bool) | brst (n : Nat) | sd (n : Nat)
  | ulTx (u : Nat) (neg : Bool) | ulRx (u : Nat) (neg : Bool)
  | plTx (k : Nat) (neg : Bool) | plRx (k : Nat) (neg : Bool)
  | peTx (k : Nat) (neg : Bool) | peRx (k : Nat) (neg : Bool) | peRefclk (neg : Bool) | pePerstN
  | gpio (k : Nat) | i2cScl (k : Nat) | i2cSda (k : Nat) | pmbScl | pmbSda | pmbAlertN
  | spiClk | spiCsN | spiMosi | spiMiso | porstN | intN | tck | tms | tdi | tdo | trstN
  | leaseTx | leaseRx | zcal | thermDp | thermDn | vsense | sgnd | oscIn
  | refin (k : Nat) (neg : Bool) | clkOut (k : Nat) (neg : Bool) | ppsIn (k : Nat) | ppsOut (k : Nat) | frameOut (k : Nat)
  deriving DecidableEq, Repr

/-- Ball of a signal: trees by R453, uplink lanes by R454, the rest by Table 15.3. -/
def sigBall (x : Sig) : Ball :=
  let tree := fun (n d j : Nat) => ballAt (n / 16) d (4 + 4 * (n % 16) + j)
  let lane := fun (u d j : Nat) => ballAt (u / 8) d (12 + 6 * (u % 8) + j)
  match x with
  | .treeTx n g => tree n 0 (1 + g.toNat)
  | .treeRx n g => tree n 1 (1 + g.toNat)
  | .brst n => tree n 2 1
  | .sd n => tree n 2 2
  | .ulTx u g => lane u 4 (1 + g.toNat)
  | .ulRx u g => lane u 5 (1 + g.toNat)
  | .plTx k g => ⟨9, 14 + 4 * k + g.toNat⟩
  | .plRx k g => ⟨11, 14 + 4 * k + g.toNat⟩
  | .peTx k g => ⟨9, 40 + 4 * k + g.toNat⟩
  | .peRx k g => ⟨11, 40 + 4 * k + g.toNat⟩
  | .peRefclk g => ⟨9, 56 + g.toNat⟩
  | .pePerstN => ⟨8, 56⟩
  | .gpio k => ⟨13, 12 + k⟩
  | .i2cScl k => ⟨13, 30 + 2 * k⟩
  | .i2cSda k => ⟨13, 31 + 2 * k⟩
  | .pmbScl => ⟨13, 48⟩ | .pmbSda => ⟨13, 49⟩ | .pmbAlertN => ⟨13, 50⟩
  | .spiClk => ⟨15, 12⟩ | .spiCsN => ⟨15, 13⟩ | .spiMosi => ⟨15, 14⟩ | .spiMiso => ⟨15, 15⟩
  | .porstN => ⟨15, 18⟩ | .intN => ⟨15, 19⟩
  | .tck => ⟨15, 22⟩ | .tms => ⟨15, 23⟩ | .tdi => ⟨15, 24⟩ | .tdo => ⟨15, 25⟩ | .trstN => ⟨15, 26⟩
  | .leaseTx => ⟨15, 30⟩ | .leaseRx => ⟨15, 31⟩
  | .zcal => ⟨15, 34⟩ | .thermDp => ⟨15, 36⟩ | .thermDn => ⟨15, 37⟩ | .vsense => ⟨15, 40⟩ | .sgnd => ⟨15, 41⟩
  | .oscIn => ⟨17, 12⟩
  | .refin k g => ⟨17, 16 + 3 * k + g.toNat⟩
  | .clkOut k g => ⟨17, 30 + 3 * k + g.toNat⟩
  | .ppsIn k => ⟨17, 44 + k⟩
  | .ppsOut k => ⟨17, 48 + k⟩
  | .frameOut k => ⟨17, 54 + k⟩

/-- Every signal. -/
def allSigs : List Sig :=
  let two := fun (f : Nat → Bool → Sig) (n : Nat) => (List.range n).flatMap (fun k => [f k false, f k true])
  two .treeTx 64 ++ two .treeRx 64 ++ (List.range 64).map .brst ++ (List.range 64).map .sd ++ two .ulTx 32 ++ two .ulRx 32
    ++ two .plTx 4 ++ two .plRx 4 ++ two .peTx 4 ++ two .peRx 4 ++ [.peRefclk false, .peRefclk true, .pePerstN]
    ++ (List.range 16).map .gpio ++ (List.range 8).map .i2cScl ++ (List.range 8).map .i2cSda
    ++ [.pmbScl, .pmbSda, .pmbAlertN, .spiClk, .spiCsN, .spiMosi, .spiMiso, .porstN, .intN, .tck, .tms, .tdi, .tdo, .trstN, .leaseTx, .leaseRx,
        .zcal, .thermDp, .thermDn, .vsense, .sgnd, .oscIn]
    ++ two .refin 4 ++ two .clkOut 4 ++ (List.range 2).map .ppsIn ++ (List.range 4).map .ppsOut ++ (List.range 2).map .frameOut

/-! ### Supplies (R456) -/

inductive Supply
  | gnd | vdd | vddm | vddaT | vddaU | vddh | vio | vhold | nc
  deriving DecidableEq, Repr

/-- A ball within depths lo to hi of some side, at positions a to b along it: its depth and position there. -/
def onEdge (lo hi a z : Nat) (b : Ball) : Option (Nat × Nat) :=
  ((List.range 4).map (fun s => edgeOf s b)).find? (fun e => lo ≤ e.1 && e.1 ≤ hi && a ≤ e.2 && e.2 ≤ z)

/-- Table 15.4: the first rule that matches a ball no signal has. -/
def supplyBall (b : Ball) : Supply :=
  let r := b.row
  let c := b.col
  let even := decide (c % 2 = 0)
  match onEdge 0 2 4 67 b, onEdge 3 3 5 66 b, onEdge 4 5 12 59 b, onEdge 6 6 12 59 b with
  | some (d, j), _, _, _ => if d = 2 ∧ (j - 4) % 4 = 3 then .vddaT else .gnd
  | _, some (_, j), _, _ => if j % 2 = 1 then .vddaT else .gnd
  | _, _, some _, _ => .gnd
  | _, _, _, some (_, j) => if j % 2 = 1 then .vddaU else .vddh
  | none, none, none, none =>
    let mid := 8 ≤ c && decide (c ≤ 62)
    if r = 8 ∧ mid then (if even then .vddaU else .gnd)
    else if 9 ≤ r ∧ r ≤ 11 ∧ mid then .gnd
    else if r = 12 ∧ mid then (if even then .vddh else .gnd)
    else if 13 ≤ r ∧ r ≤ 17 ∧ mid then (if even then .vio else .gnd)
    else if 24 ≤ r ∧ r ≤ 47 ∧ 24 ≤ c ∧ c ≤ 47 then (if (r + c) % 2 = 0 then .vdd else .gnd)
    else if 18 ≤ r ∧ r ≤ 53 ∧ 18 ≤ c ∧ c ≤ 53 then (if (r + c) % 2 = 0 then .vddm else .gnd)
    else .gnd

/-- What a ball is: a signal, hold-up, keep-out (Table 15.3), or a supply. -/
def ballUse (b : Ball) : Sig ⊕ Supply :=
  match allSigs.find? (fun x => sigBall x = b) with
  | some x => .inl x
  | none =>
    if b.row ≤ 2 ∧ b.col ≤ 2 then .inr .vhold
    else if b.row ≤ 3 ∧ b.col ≤ 3 then .inr .nc
    else .inr (supplyBall b)

/-! ### Output balls (R458, R464) -/

/-- What stands at a signal ball: nothing, where the package does not connect it; its boundary cell; an idle state of its type; a level; the signal its
unit sends; or, of an input, what the board drives, ignored or taken. -/
inductive Drive
  | open_ | cell (v : Bool) | commonMode | highZ | released | squelched | level (v : Bool) | signal
  | terminated | receiverOff | ignored | input
  /-- rising edges at `reset` and every num / den mill cycles after it (R299) -/
  | clock (reset num den : Nat)
  deriving DecidableEq, Repr

/-- Pull resistors (R458). -/
inductive Pull | none | down | up
  deriving DecidableEq, Repr

/-- The pull of a ball: PULL of a GPIO, else its type's (Tables 15.5, 15.6). -/
def ballPull (s : State) : Sig → Pull
  | .gpio k => (match regFld s (aGPIO k) 27 26 with | 1 => .down | 2 => .up | _ => .none)
  | .brst _ | .sd _ | .spiClk | .spiMosi | .porstN | .tck | .trstN => .down
  | .spiCsN | .tms | .tdi => .up
  | _ => .none

/-- Tree n's domain or uplink lane u's domain is off, or the device is in rescue mode (R458). -/
def treeBallOff (s : State) (n : Nat) : Bool := s.power.rescue || !pwrOn s n
def laneBallOff (s : State) (u : Nat) : Bool := s.power.rescue || !pwrOn s (64 + u / 4)

/-- The unit is between D and P (Table 15.8 row 4). -/
def inSag (s : State) : Bool := s.power.phase = .saving || s.power.phase = .saved

/-- An I2C transfer is on bus k. -/
def i2cBusy (s : State) (k : Nat) : Bool := !s.power.rescue && s.cmd.waiting.any (fun w => (i2cWaits k w).isSome)

/-- Rows 2 to 7 of Table 15.8 for each ball. SPI_CS_N is high and the PMBus idle between the events of the model. In rescue mode every ball of Table 15.5
with an "Off" state takes it (R458), the PCI Express balls too, though R449 has the host port answer configuration requests (log 155). -/
def ballOut (s : State) (x : Sig) : Drive :=
  let por := decide (s.power.phase = .porst)
  match x with
  | .treeTx n _ => if por || treeBallOff s n then .commonMode else if inSag s || isFenced s || !txOn s n then .squelched else .signal
  | .ulTx u _ => if por || laneBallOff s u then .commonMode else if inSag s then .squelched else .signal
  | .plTx _ _ => if por || s.power.rescue then .commonMode else .signal
  | .treeRx n _ => if por || treeBallOff s n then .terminated else .input
  | .ulRx u _ => if por || laneBallOff s u then .terminated else .input
  | .plRx _ _ => if por || s.power.rescue then .terminated else .input
  | .peTx _ _ => if por || s.power.rescue then .receiverOff else .signal
  | .peRx _ _ | .peRefclk _ | .pePerstN => if por || s.power.rescue then .receiverOff else .input
  | .brst n => if por || treeBallOff s n then .highZ else match brstLevel s n s.now with | some v => .level v | none => .highZ
  | .sd n => if por || treeBallOff s n then .ignored else .input
  | .leaseTx => if por then .level false else .signal
  | .gpio k => if por then .input else match gpioBall s k with | some v => .level v | none => .input
  | .spiMiso | .tdo => .highZ
  | .intN => if intLow s then .level false else .released
  | .i2cScl k | .i2cSda k => if !por && i2cBusy s k then .signal else .released
  | .pmbScl | .pmbSda => .released
  | .ppsOut k => .level (!por && pulseLevel s k)
  | .frameOut k => .level (!por && pulseLevel s (4 + k))
  | .clkOut k _ => if por || !regBit s (aCCFG k) 31 || squelched s (regFld s (aCCFG k) 30 29) then .level false
    else .clock (clkOf s k).resetAt (clkOf s k).den (8 * regFld s (aCCFG k) 23 0)
  | .leaseRx | .spiClk | .spiCsN | .spiMosi | .pmbAlertN | .oscIn | .refin _ _ | .ppsIn _ => if por then .ignored else .input
  | .porstN | .tck | .tms | .tdi | .trstN | .zcal | .thermDp | .thermDn | .vsense | .sgnd => .input

/-- The ball of an absent tree is not connected inside the package (R453). -/
def notConnected (s : State) : Sig → Bool
  | .treeTx n _ | .treeRx n _ | .brst n | .sd n => !treeOk s n
  | _ => false

/-- Balls without a boundary cell: the analogue and oscillator balls and those of the test access port (R465). -/
def noCell : Sig → Bool
  | .zcal | .thermDp | .thermDn | .vsense | .sgnd | .oscIn | .tck | .tms | .tdi | .tdo | .trstN => true
  | _ => false

/-- What stands at a signal ball (Table 15.8): a boundary-scan instruction that takes the balls comes first; HIGHZ leaves them undriven. -/
def ballState (s : State) (x : Sig) : Drive :=
  if notConnected s x then .open_
  else if noCell x || !ballTaking s.power.jtag then ballOut s x
  else if s.power.jtag = .highz then .highZ
  else .cell (Config.cellLevel s.power.cells (allSigs.idxOf x))

/-! ### Limits (R439, R466, R467) -/

/-- Absolute limits of a supply in mV (Table 15.10); none for GND and keep-out. -/
def absMax : Supply → Option (Int × Int)
  | .vdd | .vddm => some (-300, 950)
  | .vddaT | .vddaU => some (-300, 1050)
  | .vddh => some (-300, 1400)
  | .vio => some (-300, 2100)
  | .vhold => some (-300, 14000)
  | .gnd | .nc => none

/-- Recommended range of a supply in mV (Table 15.11); VDD is the command, 3 % either way. -/
def recommended (vddCmd : Nat) : Supply → Option (Nat × Nat)
  | .vdd => some (ceilDiv (vddCmd * 97) 100, vddCmd * 103 / 100)
  | .vddm => some (776, 824)
  | .vddaT | .vddaU => some (873, 927)
  | .vddh => some (1164, 1236)
  | .vio => some (1710, 1890)
  | .vhold => some (7000, 13200)
  | .gnd | .nc => none

/-- Twice the energy of a capacitor between V0 and 7.0 V, C × (V0² − 7.0²), in 10^-15 J for C in nF and V0 in mV (R439). -/
def holdEnergy2 (nF v0 : Nat) : Nat := nF * (v0 * v0 - 7000 * 7000)

/-- The hold-up capacitor holds at least 8.4 mJ (R439). -/
def holdOk (nF v0 : Nat) : Bool := 2 * 8400000000000 ≤ holdEnergy2 nF v0

end Sys2Proof.Machine
end

