-- ==== Sys2Proof/Tests/Slice0.lean ====
section
/-! SUPPORT. Small tests: ill-formed terms refused, commands run, and for every statement with hypotheses a state and operands that meet them. -/

namespace Sys2Proof.Tests

open Sys2Proof Sys2Proof.Machine

/-! ### Small states -/

/-- A header on a port, under session 5, with flags and an execution time. -/
def hdr (p : Port) (flags : BitVec 8 := 0) (e : Word := 0) : Hdr := { port := p, flags := flags, tag := 7, session := 5, exec := e }

/-- A session on every port, and every feature agreed. -/
def joined (s : State) : State :=
  let p : PortState := { session := some { id := 5, agreed := 0x7FF } }
  { s with cmd := { s.cmd with board := p, host := p, inband := p, pair := p, featFixed := true, featD := 0x7FF } }

/-- The state after reset with its sessions opened. -/
def s1 : State := joined State.reset

/-- A plate of the given flows and quiet windows. -/
def plate (fl : List Flow) (qs : List Quiet) : Plate :=
  { format := 1, id := 9, trees := 64, grade := 0, features := 0, bursts := [], quiets := qs, slackups := [], downs := [], flows := fl, millrace := [],
    egress := [], doms := [] }

/-- A flow of tree 0, terminal 0 (a tributary, upstream or down). -/
def flow (trib up : Bool) : Flow :=
  { id := 3, dom := 0, up := up, trib := trib, tree := 0, term := 0, alloc := 0, lane := 0, port := 0, maxFrame := 1518, minFrame := 64, fpb := 3000,
    bound := 0, label := 3 }

def engaging (p : Plate) (s : State) : State := { s with plates := { s.plates with bank0 := { st := .engaged, plate := some p } } }
def withTree (t : Tree) (s : State) : State := { s with trees := [(0, t)] }
def withTerm (t : Term) (s : State) : State := { s with terms := [(0, t)] }
def withPair (p : Pair) (s : State) : State := { s with pair := p }
/-- PAIR_CFG MODE 2. -/
def mode2 (s : State) : State := setRaw aPAIR_CFG 0x80000000 s
/-- A standby unit of a pair in step. -/
def standby (p : Pair) : State := mode2 (withPair { p with sails := false } s1)
def withPower (p : Power) (s : State) : State := { s with power := p }
/-- Every lane's quad powered, and the port of lane 0 in service. -/
def withPort (u : UPort) (s : State) : State :=
  setRaw (aPORT 0) 0x80000000 { s with ports := [(0, u)], power := { s.power with doms := [(64, .on), (72, .on)] } }
def withTime (d : TDom) (s : State) : State := { s with time := { s.time with domA := d } }

/-! ### Checks of the hypotheses' own words -/

def acceptedB (i : Instr) (h : Hdr) (s : State) : Bool :=
  decide (hdrOf i = some h) && !notReady h.port s && (intake h (opcodeOf i) (some i) s).isNone

def unblockedB (h : Hdr) (s : State) : Bool :=
  decide (executing s < 16) && (oldestStartable s).isNone
    && (underWay s).all (fun x => !(decide (x.hdr.port = h.port) && ordered x.hdr))

def startsB (i : Instr) (h : Hdr) (s : State) : Bool :=
  acceptedB i h s && unblockedB h s && decide (h.exec = 0) && (!asap h || (opAsap (opcodeOf i) && !opTimed (opcodeOf i)))

theorem test_accepted_of {i h s} (e : acceptedB i h s = true) : Accepted i h s := by
  simpa [acceptedB, Accepted, and_assoc] using e

theorem test_unblocked_of {h s} (e : unblockedB h s = true) : Unblocked h s := by
  simp only [unblockedB, Bool.and_eq_true, decide_eq_true_eq] at e
  refine ⟨e.1.1, by simpa using e.1.2, fun x hx hp => ?_⟩
  simpa [hp] using List.all_eq_true.mp e.2 x hx

theorem test_starts_of {i h s} (e : startsB i h s = true) : Starts i h s := by
  simp only [startsB, Bool.and_eq_true, decide_eq_true_eq, Bool.or_eq_true, Bool.not_eq_true'] at e
  exact ⟨test_accepted_of e.1.1.1, test_unblocked_of e.1.1.2, e.1.2, fun a => by simpa [a] using e.2⟩

/-- A command that starts, in a state that meets more. -/
theorem test_starts_and {i h s} {P : Prop} [Decidable P] (e : (startsB i h s && decide P) = true) : Starts i h s ∧ P := by
  simp only [Bool.and_eq_true, decide_eq_true_eq] at e
  exact ⟨test_starts_of e.1, e.2⟩

/-- A unit that runs, in a state that meets more. -/
theorem test_running_and {s : State} {P : Prop} [Decidable P] (e : (decide (s.power.phase = .running) && decide P) = true) : Running s ∧ P := by
  simpa [Running] using e

/-- A unit whose BAR0 writes take hold, in a state that meets more. -/
theorem test_open_and {s : State} {P : Prop} [Decidable P]
    (e : (decide (s.power.phase = .running) && !s.power.rescue && !barLocked s && decide P) = true) : BarOpen s ∧ P := by
  simpa [BarOpen, and_assoc] using e

/-! ### Witnesses of the statements' hypotheses, clause by clause -/

theorem test_wit_StepRunsFront : ({ State.reset with pending := [.trst, .leave] } : State).pending = [Instr.trst, .leave] := by decide

theorem test_wit_IdleTicks : State.reset.pending = [] := by decide

theorem test_wit_SessionCommandsComplete :
    Starts (.nop (hdr .board)) (hdr .board) s1 ∧ Starts (.bye (hdr .host)) (hdr .host) s1 ∧ Starts (.features (hdr .board) 0 0) (hdr .board) s1
    ∧ (Starts (.features (hdr .board) 1 0x7FF) (hdr .board) s1 ∧ regBit s1 aLOCKS 0 = false ∧ featuresFree s1 = true)
    ∧ (let s := setRaw aLOCKS 1 s1
      Starts (.features (hdr .board) 1 0) (hdr .board) s ∧ regBit s aLOCKS 0 = true)
    ∧ (let s := engaging (plate [] []) s1
      Starts (.features (hdr .board) 1 0) (hdr .board) s ∧ regBit s aLOCKS 0 = false ∧ featuresFree s = false) := by
  exact ⟨test_starts_of (by decide), test_starts_of (by decide), test_starts_of (by decide), test_starts_and (by decide), test_starts_and (by decide),
    test_starts_and (by decide)⟩

theorem test_wit_SessionCommandsComplete_fence :
    (Accepted (.fence (hdr .board) 1) (hdr .board) s1 ∧ ordered (hdr .board) = false ∧ s1.pair.fencedCmd = false)
    ∧ (let s := withPair { fencedCmd := true } s1
      Accepted (.fence (hdr .board) 0) (hdr .board) s ∧ s.pair.fencedCmd = true) :=
  ⟨⟨test_accepted_of (by decide), by decide, by decide⟩, test_accepted_of (by decide), by decide⟩

theorem test_wit_HelloOpensSession :
    Starts (.hello (hdr .board) 0x7FF 1 0 0 0 0) (hdr .board) s1
    ∧ (Starts (.hello (hdr .inband) 0 1 0 0 0 0) (hdr .inband) s1 ∧ s1.cmd.featFixed = true)
    ∧ (let s : State := { s1 with cmd := { s1.cmd with featFixed := false } }
      Starts (.hello (hdr .inband) 0 1 0 0 0 0) (hdr .inband) s ∧ s.cmd.featFixed = false)
    ∧ (let s : State := { s1 with cmd := { s1.cmd with featFixed := false } }
      Starts (.hello (hdr .pair) 0 1 1 1 0xB0 0) (hdr .pair) s ∧ s.cmd.featFixed = false) :=
  ⟨test_starts_of (by decide), test_starts_and (by decide), test_starts_and (by decide), test_starts_and (by decide)⟩

theorem test_pairCause_none {s : State} {k : BitVec 128} (l : Bool) (m : regBit s aPAIR_CFG 29 = false) (q : regBit s aSEL_CFG 24 = true)
    (w : s.power.kwk = some k) : pairCause s l 1 1 0xB0 (kcv k) = none := by
  cases l <;> simp [pairCause, m, q, w]

theorem test_pairCause_unit {s : State} (l : Bool) (m : regBit s aPAIR_CFG 29 = false) (f r : BitVec 8) (k : BitVec 24) :
    pairCause s l 0 f r k = some (1, 28) := by
  simp [pairCause, m]

theorem test_wit_HelloOpensSession_pair :
    let s := setRaw aSEL_CFG 0x01000000 (withPower { kwk := some 1 } s1)
    let q := fun k => partnerInfo (taken (.hello (hdr .pair) 0x7FF 1 k 1 0xB0 (kcv 1)) (hdr .pair) s)
    (Starts (.hello (hdr .pair) 0x7FF 1 1 1 0xB0 (kcv 1)) (hdr .pair) s ∧ s.cmd.featFixed = true ∧ featOn s 5 = true
      ∧ pairCause (q 1).2 (wouldSail (q 1).2 (q 1).1) 1 1 0xB0 (kcv 1) = none)
    ∧ (Starts (.hello (hdr .pair) 0x7FF 1 0 1 0xB0 (kcv 1)) (hdr .pair) s
      ∧ pairCause (q 0).2 (wouldSail (q 0).2 (q 0).1) 0 1 0xB0 (kcv 1) = some (1, 28))
    ∧ featOn { s with cmd := { s.cmd with featD := 0 } } 5 = false :=
  ⟨⟨test_starts_of (by decide), by decide, by decide, test_pairCause_none _ (by decide) (by decide) rfl⟩,
    ⟨test_starts_of (by decide), test_pairCause_unit _ (by decide) _ _ _⟩, by decide⟩

theorem test_wit_RegisterCommandsComplete :
    (Starts (.regRd (hdr .board) 0x10120 8 2) (hdr .board) s1 ∧ (2 : BitVec 16).toNat * max (8 : BitVec 8).toNat 4 ≤ 4096
      ∧ (0x10120 : BitVec 32).toNat % 8 = 0 ∧ (List.range 2).all (fun i => !isAlias (0x10120 + i * 8)) = true)
    ∧ (let h := hdr .board
      let l := wrList 0x28 4 1 [0, 0, 0, 3]
      Starts (.regWr h 0x28 4 1 [0, 0, 0, 3]) h s1 ∧ (writeBars h 0x101 4 (l.map Prod.fst) s1).isNone = true ∧ gpioClash s1 (writeAll l 4 s1) = none)
    ∧ (let h := hdr .board
      Starts (.regRmw h 0x28 3 1) h s1 ∧ (writeBars h 0x102 4 [0x28] s1).isNone = true
        ∧ gpioClash s1 (writeAll [(0x28, (((readAny s1 0x28) &&& ~~~3) ||| (1 &&& 3)).setWidth 64)] 4 s1) = none)
    ∧ Starts (.snapshot (hdr .host)) (hdr .host) s1
    ∧ (Starts (.bwWindow (hdr .board) 1000) (hdr .board) s1 ∧ windowOk 1000 = true) :=
  ⟨test_starts_and (by decide), test_starts_and (by decide), test_starts_and (by decide), test_starts_of (by decide), test_starts_and (by decide)⟩

theorem test_wit_CounterReads :
    (let c : BitVec 16 := 1;
      Starts (.cntRead (hdr .board) 0x10120 c) (hdr .board) s1 ∧ (List.range c.toNat).all (fun j => isCounter s1 (0x10120 + 8 * j)) = true)
    ∧ (let c : BitVec 16 := 341
      Starts (.cntRead (hdr .board) 0x20 c) (hdr .board) s1 ∧ (List.range c.toNat).all (fun j => isCounter s1 (0x20 + 8 * j)) = false)
    ∧ Starts (.cntRead (hdr .board) 0x10120 0) (hdr .board) s1 ∧ Starts (.cntRead (hdr .board) 0x10120 342) (hdr .board) s1 :=
  ⟨test_starts_and (by decide), test_starts_and (by decide), test_starts_of (by decide), test_starts_of (by decide)⟩

/-- A LOADING bank 0 of the board's session, its banks' domains on. -/
def loading : State :=
  { s1 with plates := { bank0 := { st := .loading, owner := some (.board, 5) } }, power := { doms := [(72, .on), (76, .on), (77, .on)] } }
/-- Bank 1 holds a proven plate, bank 0 what is given. -/
def provenB (b : Bank) (t : Option Turn) : State :=
  { s1 with plates := { bank0 := b, bank1 := { st := .proven, plate := some (plate [] []) }, turn := t } }
def engagedBank : Bank := { st := .engaged, plate := some (plate [] []) }

theorem test_wit_PlateCommandsComplete :
    (let s : State := { loading with plates := {} };
      Starts (.plateOpen (hdr .board) 1) (hdr .board) s ∧ pwrOn s 72 = true ∧ pwrOn s 76 = true ∧ pwrOn s 77 = true ∧ (bank s true).st = .empty)
    ∧ (Starts (.plateData (hdr .board) 0 5242864 (List.replicate 16 1)) (hdr .board) loading
      ∧ (bank loading false).st = .loading ∧ (bank loading false).owner = some (.board, 5))
    ∧ (Starts (.plateProof (hdr .board) 0) (hdr .board) loading ∧ (bank loading false).st = .loading ∧ (bank loading true).st ≠ .proving)
    ∧ (let s := provenB {} none
      let h := hdr .board 0x40
      Starts (.plateTurn h 1 9 0) h s ∧ (bank s true).st = .proven ∧ (bank s true).plate = some (plate [] []) ∧ turnChecks s (plate [] []) = 0
        ∧ asap h = true ∧ engaged s = none)
    ∧ (let s := provenB engagedBank none
      let h := hdr .board 0x40
      Starts (.plateTurn h 1 9 0) h s ∧ (bank s true).st = .proven ∧ turnChecks s (plate [] []) = 0 ∧ asap h = true ∧ engaged s ≠ none)
    ∧ (let s := provenB engagedBank none
      let h := hdr .board
      Starts (.plateTurn h 1 9 1) h s ∧ (bank s true).st = .proven ∧ turnChecks s (plate [] []) = 0 ∧ asap h = false ∧ engaged s ≠ none
        ∧ 0 < ((1 : Word) - s.imprNum).toNat
        ∧ checkTime s h + Config.TURN_CUTOFF < s.imprNext + (((1 : Word) - s.imprNum).toNat - 1) * Config.IMPRESSION) :=
  ⟨test_starts_and (by decide), test_starts_and (by decide), test_starts_and (by decide), test_starts_and (by decide), test_starts_and (by decide),
    test_starts_and (by decide)⟩

theorem test_wit_PlateCommandsComplete_abort :
    (Starts (.plateAbort (hdr .board) 0) (hdr .board) s1 ∧ (bank s1 false).st = .empty)
    ∧ (Starts (.plateAbort (hdr .board) 0) (hdr .board) loading ∧ (bank loading false).st = .loading)
    ∧ (let s := provenB { st := .turning } none
      Starts (.plateAbort (hdr .board) 0) (hdr .board) s ∧ (bank s false).st = .turning)
    ∧ (let s := provenB engagedBank none
      Starts (.plateAbort (hdr .board) 0) (hdr .board) s ∧ (bank s false).st = .engaged ∧ (bank s true).st ≠ .turning ∧ s.plates.disengage = none)
    ∧ Starts (.plateInfo (hdr .board) 1) (hdr .board) s1 :=
  ⟨test_starts_and (by decide), test_starts_and (by decide), test_starts_and (by decide), test_starts_and (by decide), test_starts_of (by decide)⟩

theorem test_wit_PlateChunks :
    (Starts (.plateData (hdr .board) 0 0 (List.replicate 32 1)) (hdr .board) loading
      ∧ (bank loading false).st = .loading ∧ (bank loading false).owner = some (.board, 5))
    ∧ Starts (.plateData (hdr .board) 0 8 (List.replicate 16 1)) (hdr .board) loading
    ∧ Starts (.plateData (hdr .board) 0 16 (List.replicate 12 1)) (hdr .board) loading
    ∧ Starts (.plateData (hdr .board) 0 5242880 (List.replicate 16 1)) (hdr .board) loading
    ∧ (Starts (.plateData (hdr .host) 0 16 (List.replicate 16 1)) (hdr .host) loading ∧ (bank loading false).owner ≠ some (.host, 5)) :=
  ⟨test_starts_and (by decide), test_starts_of (by decide), test_starts_of (by decide), test_starts_of (by decide), test_starts_and (by decide)⟩

theorem test_wit_TerminalCommandsComplete :
    let q := TermArg.slot 0x80 0 0 0 0 0 0 0 0
    let z := TermArg.slot 0 0 0 0 0 0 0 0 0
    let a := TermArg.slot 0x40 0 77 1024 1025 1026 16383 0 0
    let x := TermArg.settings 43000 200 1 16 4 1 20 4 1000 30
    (Starts (.termAdd (hdr .board) 63 127 q) (hdr .board) s1 ∧ treeOk s1 63 = true)
    ∧ (Starts (.termAdd (hdr .board) 0 127 z) (hdr .board) s1 ∧ (term s1 (slotIx 0 127)).st = .unseen)
    ∧ (Starts (.termAdd (hdr .board) 0 0 a) (hdr .board) s1 ∧ rateOk s1 0 = true ∧ allocBad s1 0 [1024, 1025, 1026, 16383] = none ∧ slotOf s1 77 = none)
    ∧ (Starts (.termAdd (hdr .board) 0 0xFF x) (hdr .board) s1 ∧ settingsBad 43000 200 1 16 4 1 20 4 1000 30 = 0 ∧ treeBusy s1 0 = false) :=
  ⟨test_starts_and (by decide), test_starts_and (by decide), test_starts_and (by decide), test_starts_and (by decide)⟩

/-- Terminal 0 in a state, with a serial number. -/
def atSt (x : TermSt) : State := withTerm { st := x, serial := 77 } s1

/-- A burst of terminal 0. -/
def burst0 : Burst :=
  { tree := 0, term := 0, alloc := 0, rate := 0, pclass := 0, period := 1, phase := 0, chain := false, ploamu := false, dbru := false, start := 0,
    len := 2000 }

/-- The key-encryption key and the wrapped key of RFC 3394, 4.1. -/
def kek : BitVec 128 := 0x000102030405060708090A0B0C0D0E0F
def wrapped : BitVec 192 := 0x1FA68B0A8112B447AEF34BD8FB5A7B829D3E862371D2CFE5
/-- RFC 3394, 4.1: the wrapped key unwraps to the key data. -/
theorem test_unwrap : unwrapOk kek wrapped = true ∧ plainKey kek wrapped = 0x00112233445566778899AABBCCDDEEFF := by decide +kernel
/-- FIPS-197, C.1. -/
theorem test_aes : aesEnc kek 0x00112233445566778899AABBCCDDEEFF = 0x69C4E0D86A7B0430D8CDB78070B4C55A := by decide +kernel

theorem test_wit_TerminalCommandsComplete_more :
    (let a := TermArg.slot 0x40 0 77 1024 1025 1026 16383 0 0;
      Starts (.termAdd (hdr .board) 0 1 a) (hdr .board) (atSt .active) ∧ slotOf (atSt .active) 77 = some 0 ∧ (term (atSt .active) (slotIx 0 1)).st = .unseen)
    ∧ (let s := withPower { kwk := some kek } s1
      let a := TermArg.slot 0x60 0 77 1024 1025 1026 16383 1 wrapped
      Starts (.termAdd (hdr .board) 0 1 a) (hdr .board) s ∧ mirrorFlag (hdr .board) = false ∧ s.power.kwk = some kek ∧ rateOk s 0 = true
        ∧ allocBad s 1 [1024, 1025, 1026, 16383] = none ∧ slotOf s 77 = none ∧ boundaryLate s s.now 1 = false)
    ∧ (let x := TermArg.settings 42000 200 1 16 4 1 20 4 1000 30
      Starts (.termAdd (hdr .board) 0 0xFF x) (hdr .board) (atSt .ranged) ∧ settingsBad 42000 200 1 16 4 1 20 4 1000 30 = 0
        ∧ treeBusy (atSt .ranged) 0 = true ∧ 42000 ≠ (tree (atSt .ranged) 0).set.rtdMin)
    ∧ (Starts (.termRate (hdr .board) 0 0 1) (hdr .board) s1 ∧ (term s1 (slotIx 0 0)).serial = 0)
    ∧ (Starts (.termRate (hdr .board) 0 0 0) (hdr .board) (atSt .disabled) ∧ (term (atSt .disabled) (slotIx 0 0)).rate = 0)
    ∧ (let s := engaging { plate [] [] with bursts := [burst0] } (atSt .active)
      Starts (.termRate (hdr .board) 0 0 1) (hdr .board) s ∧ (term s (slotIx 0 0)).st = .active ∧ plateBursts s (slotIx 0 0) = [burst0]) :=
  ⟨test_starts_and (by decide), test_starts_and (by decide), test_starts_and (by decide), test_starts_and (by decide), test_starts_and (by decide),
    test_starts_and (by decide)⟩

theorem test_wit_TerminalCommandsComplete_states :
    (Starts (.termRange (hdr .board) 0 0) (hdr .board) (atSt .discovered) ∧ (term (atSt .discovered) (slotIx 0 0)).st = .discovered)
    ∧ (Starts (.termRange (hdr .board) 0 0) (hdr .board) (atSt .rogue) ∧ (term (atSt .rogue) (slotIx 0 0)).st = .rogue)
    ∧ (Starts (.termRange (hdr .board) 0 0) (hdr .board) (atSt .popup) ∧ (term (atSt .popup) (slotIx 0 0)).st = .popup)
    ∧ (Starts (.termActivate (hdr .board) 0 0) (hdr .board) (atSt .ranged) ∧ (term (atSt .ranged) (slotIx 0 0)).actFailed = false)
    ∧ (Starts (.termActivate (hdr .board) 0 0) (hdr .board) (atSt .active) ∧ (term (atSt .active) (slotIx 0 0)).st ≠ .ranged)
    ∧ (Starts (.termDisable (hdr .board) 0 0 1) (hdr .board) (atSt .unseen) ∧ (term (atSt .unseen) (slotIx 0 0)).serial ≠ 0)
    ∧ (Starts (.termDisable (hdr .board) 0 0 2) (hdr .board) (atSt .rogue) ∧ (term (atSt .rogue) (slotIx 0 0)).st = .rogue)
    ∧ (Starts (.ploamSend (hdr .board) 0 0xFF 0x30 (List.replicate 36 0)) (hdr .board) s1 ∧ deviceTypes.contains 0x30 = false
      ∧ (tree s1 0).hostMsgs.length < 64)
    ∧ (Starts (.termRate (hdr .board) 0 0 2) (hdr .board) (atSt .disabled) ∧ rateOk (atSt .disabled) 2 = true)
    ∧ (Starts (.termRate (hdr .board) 0 0 1) (hdr .board) (atSt .active) ∧ plateBursts (atSt .active) 0 = []) :=
  ⟨test_starts_and (by decide), test_starts_and (by decide), test_starts_and (by decide), test_starts_and (by decide), test_starts_and (by decide),
    test_starts_and (by decide), test_starts_and (by decide), test_starts_and (by decide), test_starts_and (by decide), test_starts_and (by decide)⟩

/-- The key-wrapping key set and tree 0 on; key set 0 of tree 0 downstream as given. -/
def keyed (k : KeySet) : State := { s1 with keys := [(0, k)], power := { kwk := some 1, doms := [(0, .on)] } }

theorem test_wit_KeyCommandsComplete :
    (let s := keyed {};
      Starts (.termKey (hdr .board) 0 0 0 0 0 3) (hdr .board) s ∧ s.power.kwk = some 1 ∧ pwrOn s 0 = true
        ∧ slotSt (keySet s (keyIx 0 0 false)) (loadSlot (keySet s (keyIx 0 0 false))) = .empty)
    ∧ (let s := keyed { st0 := .staged }
      Starts (.termKey (hdr .board) 0 0 0 1 1 0) (hdr .board) s ∧ (keySet s (keyIx 0 0 false)).st0 = .staged
        ∧ keyBoundary s (hdr .board) 1 = some 1)
    ∧ (let s := keyed {}
      Starts (.termKey (hdr .board) 0 63 1 2 1 0) (hdr .board) s ∧ keyBoundary s (hdr .board) 1 = some 1)
    ∧ (Starts (.kwkSet (hdr .board) 1) (hdr .board) s1 ∧ regBit s1 aLOCKS 7 = false ∧ s1.keys = [] ∧ s1.terms = [] ∧ s1.pair.contact = false)
    ∧ (let s := setRaw aLOCKS 0x80 s1
      Starts (.kwkSet (hdr .board) 1) (hdr .board) s ∧ regBit s aLOCKS 7 = true) :=
  ⟨test_starts_and (by decide), test_starts_and (by decide), test_starts_and (by decide), test_starts_and (by decide), test_starts_and (by decide)⟩

/-- A slack flow entry for tree 0, terminal 0, on queue 0 or 1. -/
def sfEntry (q : Bool) : List Word := (if q then 0x80002000 else 0x80000000) :: List.replicate 7 0
/-- A frame of flow 0 in a weir. -/
def weirHeld (s : State) : State :=
  { s with mill := { s.mill with lanes := [(0, { weir := [{ flow := 0, dom := 0, len := 64, point := 0, chaff := false, data := [] }] })] } }
/-- A screen on a MAC address, without recovery. -/
def scEntry : List Byte := [1, 0, 0, 0, 0, 0, 0, 0, 2, 0, 0, 0, 0, 1, 0, 3, 0, 0, 0, 0, 0, 0, 0, 0]
/-- The key bytes of the same entry. -/
def scKeyEntry : List Byte := [1, 0, 0, 0, 0, 0, 0, 0, 2, 0, 0, 0, 0, 1] ++ List.replicate 10 0
/-- The same with sequence recovery. -/
def scRecEntry : List Byte := [1, 128, 2, 0, 0, 0, 0, 0, 2, 0, 0, 0, 0, 1, 0, 3, 3, 232, 0, 0, 0, 0, 0, 0]
/-- A screen on another address. -/
def scRecEntry2 : List Byte := [1, 0, 0, 0, 0, 0, 0, 0, 2, 0, 0, 0, 0, 2, 0, 3, 0, 0, 0, 0, 0, 0, 0, 0]
/-- A tributary entry of flow 3: packet kind, one frame of 66 bytes. -/
def trEntry : List Byte := [0, 3, 0xC0, 1, 0, 66] ++ List.replicate 26 0

theorem test_wit_MappingCommandsComplete :
    (Starts (.millSet (hdr .board) 5 0 (sfEntry false)) (hdr .board) s1 ∧ entryOk s1 5 0 = true ∧ wordBad (entryRules s1 5 0 (sfEntry false)) = 0
      ∧ entryBusy s1 5 0 (sfEntry false) = false ∧ entryOver s1 5 0 (sfEntry false) = false)
    ∧ (let s := weirHeld s1
      Starts (.millSet (hdr .board) 5 0 (sfEntry true)) (hdr .board) s ∧ entryOk s 5 0 = true ∧ wordBad (entryRules s 5 0 (sfEntry true)) = 0
        ∧ entryBusy s 5 0 (sfEntry true) = true)
    ∧ (Starts (.millGet (hdr .board) 0 262143) (hdr .board) s1 ∧ entryOk s1 0 262143 = true)
    ∧ (Starts (.tribSet (hdr .board) trEntry) (hdr .board) s1 ∧ natAt trEntry 2 1 % 4 = 0 ∧ (readTrib trEntry).vtags = 0 ∧ (readTrib trEntry).k = 1
      ∧ (readTrib trEntry).payLen = 66 ∧ (readTrib trEntry).kindPacket = true ∧ natAt trEntry 29 3 = 0)
    ∧ Starts (.tribGet (hdr .board) 65535) (hdr .board) s1
    ∧ (Starts (.screenSet (hdr .board) scRecEntry) (hdr .board) s1 ∧ firstBad (scRules scRecEntry) = 0 ∧ featOn s1 9 = true ∧ s1.screens.length < 65536)
    ∧ (let s : State := { s1 with cmd := { s1.cmd with featD := 0 } }
      Starts (.screenSet (hdr .board) scRecEntry) (hdr .board) s ∧ featOn s 9 = false)
    ∧ (let s : State := { s1 with screens := [readScreen scEntry] }
      Starts (.screenGet (hdr .board) scKeyEntry) (hdr .board) s ∧ natAt scKeyEntry 1 3 = 0 ∧ natAt scKeyEntry 14 10 = 0
        ∧ s.screens.find? (fun x => keyOfScreen x = scKey scKeyEntry) = some (readScreen scEntry))
    ∧ Starts (.genSet (hdr .board) 65535 1) (hdr .board) s1
    ∧ Starts (.genGet (hdr .board) 0) (hdr .board) s1 :=
  ⟨test_starts_and (by decide), test_starts_and (by decide), test_starts_and (by decide), test_starts_and (by decide), test_starts_of (by decide),
    test_starts_and (by decide), test_starts_and (by decide), test_starts_and (by decide), test_starts_of (by decide), test_starts_of (by decide)⟩

/-- 64 slack flows of tree 0, terminal 0. -/
def sfFull : State := { s1 with mill := { s1.mill with sflows := (List.range 64).map (fun j => (j + 1, readSFlow (sfEntry false))) } }
/-- 65,536 screens, all of one key. -/
def scFull : State := { s1 with screens := List.replicate 65536 (readScreen scEntry) }

theorem test_wit_MappingCommandsComplete_full :
    (Starts (.millSet (hdr .board) 5 0 (sfEntry false)) (hdr .board) sfFull ∧ entryOver sfFull 5 0 (sfEntry false) = true
      ∧ entryBusy sfFull 5 0 (sfEntry false) = false)
    ∧ 65536 ≤ scFull.screens.length ∧ scFull.screens.any (fun x => keyOfScreen x = scKey scRecEntry2) = false ∧ natAt scRecEntry2 0 1 ≠ 0
    ∧ firstBad (scRules scRecEntry2) = 0 := by
  refine ⟨test_starts_and (by decide), Nat.le_of_eq (List.length_replicate ..).symm, ?_, by decide, by decide⟩
  show List.any (List.replicate 65536 (readScreen scEntry)) _ = false
  rw [List.any_replicate]; decide

/-- Time domain A in a state. -/
def timed (x : DomSt) : State := withTime { st := x } s1
def oneDom : State := { s1 with cmd := { s1.cmd with featD := 0x7EF } }

theorem test_wit_TimeCommandsComplete :
    (Starts (.timeArm (hdr .board) 0) (hdr .board) s1 ∧ (tdom s1 false).st = .unset)
    ∧ (Starts (.timeArm (hdr .board) 1) (hdr .board) s1 ∧ twoDom s1 = true)
    ∧ (Starts (.timeArm (hdr .board) 0) (hdr .board) (timed .stepArmed) ∧ (tdom (timed .stepArmed) false).st = .stepArmed)
    ∧ (Starts (.timeArm (hdr .board) 0) (hdr .board) (timed .hold) ∧ (tdom (timed .hold) false).st = .hold)
    ∧ (Starts (.timeSet (hdr .board) 0 1 999999999) (hdr .board) (timed .stepArmed) ∧ (tdom (timed .stepArmed) false).st = .stepArmed)
    ∧ (Starts (.timeSet (hdr .board) 0 1 0) (hdr .board) (timed .tracking) ∧ (tdom (timed .tracking) false).st ≠ .stepArmed)
    ∧ (Starts (.timeDisable (hdr .board) 0) (hdr .board) s1 ∧ (tdom s1 false).st = .unset)
    ∧ (Starts (.timeDisable (hdr .board) 0) (hdr .board) (timed .tracking) ∧ (tdom (timed .tracking) false).st ≠ .unset)
    ∧ (Starts (.timeSel (hdr .board) 1) (hdr .board) s1 ∧ twoDom s1 = true ∧ s1.time.sel = false)
    ∧ (Starts (.acceptPathStep (hdr .board) 0 0x80000000) (hdr .board) (timed .bridging) ∧ (tdom (timed .bridging) false).st = .bridging)
    ∧ (let s := withTime { st := .tracking, past := [(0, 0, 0, 0, false)] } s1
      Starts (.timeConv (hdr .board) 0 0) (hdr .board) s ∧ (tdom s false).past.find? (fun e => decide (e.1 ≤ 0)) = some (0, 0, 0, 0, false))
    ∧ (let s := withTree { sentTimes := [(4, 100)] } s1
      Starts (.todGet (hdr .board) 0 4) (hdr .board) s ∧ (tree s 0).sentTimes.find? (fun e => decide (e.1 = 4)) = some (4, 100))
    ∧ (Starts (.timeArm (hdr .board) 1) (hdr .board) oneDom ∧ twoDom oneDom = false) :=
  ⟨test_starts_and (by decide), test_starts_and (by decide), test_starts_and (by decide), test_starts_and (by decide), test_starts_and (by decide),
    test_starts_and (by decide), test_starts_and (by decide), test_starts_and (by decide), test_starts_and (by decide), test_starts_and (by decide),
    test_starts_and (by decide), test_starts_and (by decide), test_starts_and (by decide)⟩

def sailing (p : Pair) : State := mode2 (withPair { p with sails := true } s1)
/-- The raise of a standby needs the verdict (PAIR_CFG.RAISE by verdict, bit 27). -/
def verdictMode (s : State) : State := setRaw aPAIR_CFG 0x88000000 s

theorem test_wit_PairCommandsComplete :
    (let s := sailing { st := .solo, contact := true };
      Starts (.pairJoin (hdr .board)) (hdr .board) s ∧ s.pair.contact = true ∧ s.pair.st = .solo ∧ s.pair.sails = true ∧ s.pair.partnerSails = false)
    ∧ (let s := standby { st := .inStep }
      Starts (.pairLeave (hdr .board)) (hdr .board) s ∧ isStandby s = true)
    ∧ (let s := sailing { st := .inStep }
      Starts (.pairLeave (hdr .board)) (hdr .board) s ∧ isStandby s = false)
    ∧ (let s := sailing { st := .inStep }
      Starts (.pairSwitch (hdr .board)) (hdr .board) s ∧ s.pair.sails = true ∧ s.pair.st = .inStep ∧ s.pair.handover = none)
    ∧ (let s := sailing { st := .solo }
      Starts (.pairSwitch (hdr .board)) (hdr .board) s ∧ s.pair.st ≠ .inStep)
    ∧ (let s := verdictMode (sailing { epoch := 3 })
      Starts (.pairVerdict (hdr .board) 2 3) (hdr .board) s ∧ s.pair.epoch = 3 ∧ s.pair.contact = false ∧ regBit s aPAIR_CFG 27 = true ∧ s.pair.sails = true)
    ∧ (let s := verdictMode (standby { epoch := 3 })
      Starts (.pairVerdict (hdr .board) 2 3) (hdr .board) s ∧ s.pair.epoch = 3 ∧ s.pair.contact = false ∧ regBit s aPAIR_CFG 27 = true ∧ s.pair.sails = false)
    ∧ (let s := verdictMode (sailing { epoch := 3 })
      Starts (.pairVerdict (hdr .board) 1 3) (hdr .board) s ∧ s.pair.sails = true ∧ regBit s aPAIR_CFG 27 = true)
    ∧ (let s := verdictMode (withPair { epoch := 3, fencedLease := true } s1)
      Starts (.pairVerdict (hdr .board) 1 3) (hdr .board) s ∧ s.pair.sails = false ∧ s.pair.fencedLease = true ∧ regBit s aPAIR_CFG 27 = true)
    ∧ (let s := verdictMode (standby { st := .inStep, epoch := 3 })
      Starts (.pairVerdict (hdr .board) 1 3) (hdr .board) s ∧ isStandby s = true ∧ s.pair.handover = none)
    ∧ (let s := sailing { contact := true }
      Starts (.pairVerdict (hdr .board) 1 0) (hdr .board) s ∧ s.pair.contact = true)
    ∧ Starts (.pairInfo (hdr .board)) (hdr .board) s1
    ∧ (let s := verdictMode (withPair { epoch := 3 } s1)
      Starts (.pairVerdict (hdr .board) 1 3) (hdr .board) s ∧ s.pair.sails = false ∧ s.pair.fencedLease = false ∧ regBit s aPAIR_CFG 27 = true
        ∧ s.pair.handover = none) :=
  ⟨test_starts_and (by decide), test_starts_and (by decide), test_starts_and (by decide), test_starts_and (by decide), test_starts_and (by decide),
    test_starts_and (by decide), test_starts_and (by decide), test_starts_and (by decide), test_starts_and (by decide), test_starts_and (by decide),
    test_starts_and (by decide), test_starts_of (by decide), test_starts_and (by decide)⟩

theorem test_wit_PairCommandsComplete_protection :
    (Starts (.protCfg (hdr .board) (.tree 0 1 1 16 15 (-248))) (hdr .board) s1 ∧ (-248 : BitVec 16).toInt = -248
      ∧ s1.pair.handover.any (fun y => y.2.1 = 6) = false)
    ∧ (let s := sailing { handover := some (80, 6, 1, 0) }
      Starts (.protCfg (hdr .board) (.tree 0 1 1 2 15 248)) (hdr .board) s ∧ s.pair.handover.any (fun y => y.2.1 = 6) = true)
    ∧ (let s := engaging { plate [] [] with egress := [{ first := 31, mode := 0, ents := [] }] } s1
      Starts (.protCfg (hdr .board) (.port 0 31 1)) (hdr .board) s ∧ (engaged s).any (fun y => y.egress.any (fun e => e.first = 31)) = true)
    ∧ (Starts (.protCfg (hdr .board) (.port 0 31 1)) (hdr .board) s1 ∧ firstLane s1 0 = true ∧ firstLane s1 31 = true
      ∧ quadMode s1 (31 / 4) = quadMode s1 (0 / 4) ∧ (engaged s1).any (fun y => y.egress.any (fun e => e.first = 31)) = false)
    ∧ (Starts (.protSwitch (hdr .board) 0) (hdr .board) s1 ∧ (uport s1 0).rehashed = false)
    ∧ (let s := withPort { rehashed := true, spare := some 1 } { s1 with now := 2000000000 }
      Starts (.protSwitch (hdr .board) 0) (hdr .board) s ∧ (uport s 0).rehashed = true ∧ portTrig s 0 = false
        ∧ (uport s 0).clearAt + ulClr s 0 ≤ s.now)
    ∧ (let s := withPort { rehashed := true, spare := some 1 } s1
      Starts (.protSwitch (hdr .board) 0) (hdr .board) s ∧ (uport s 0).rehashed = true ∧ s.now < (uport s 0).clearAt + ulClr s 0) :=
  ⟨test_starts_and (by decide), test_starts_and (by decide), test_starts_and (by decide), test_starts_and (by decide), test_starts_and (by decide),
    test_starts_and (by decide), test_starts_and (by decide)⟩

theorem test_wit_StreamAndCopyComplete :
    Starts (.stream (hdr .pair) [⟨80, .delivered 1 2⟩]) (hdr .pair) (mode2 s1)
    ∧ Starts (.stream (hdr .pair) []) (hdr .pair) (mode2 s1)
    ∧ (let s := standby { st := .joining }
      Starts (.copy (hdr .pair) 1 6 0 [1, 2, 3, 4]) (hdr .pair) s ∧ isStandby s = true ∧ 0 + 4 ≤ copyLimit 1 6)
    ∧ (let s := sailing {}
      Starts (.copy (hdr .pair) 2 1 0 []) (hdr .pair) s ∧ isStandby s = false ∧ 0 + 0 ≤ copyLimit 2 1) :=
  ⟨test_starts_of (by decide), test_starts_of (by decide), test_starts_and (by decide), test_starts_and (by decide)⟩

/-- Quad domain 64 on, slot B being written. -/
def dom64 (x : PwrSt) : State := withPower { doms := [(64, x)] } s1
def fwB (x : FwSt) (v : Option Bool) : State := withPower { fwB := { st := x }, fwVerify := v } s1

theorem test_wit_PowerCommandsComplete :
    (Starts (.pwrSet (hdr .board) 64 1) (hdr .board) s1 ∧ pwrOf s1 64 = .off)
    ∧ (Starts (.pwrSet (hdr .board) 77 1) (hdr .board) (withPower { doms := [(77, .ramping)] } s1) ∧ pwrOf (dom64 .ramping) 64 ≠ .off)
    ∧ (Starts (.pwrSet (hdr .board) 64 0) (hdr .board) s1 ∧ pwrOf s1 64 = .off)
    ∧ (Starts (.pwrSet (hdr .board) 64 0) (hdr .board) (dom64 .on) ∧ pwrOf (dom64 .on) 64 ≠ .off ∧ offHolder (dom64 .on) 64 = none)
    ∧ (Starts (.pwrSet (hdr .board) 64 0) (hdr .board) (withPort {} s1) ∧ pwrOf (withPort {} s1) 64 ≠ .off ∧ offHolder (withPort {} s1) 64 = some (2, 0))
    ∧ Starts (.pwrInfo (hdr .board)) (hdr .board) s1
    ∧ (Starts (.sagCfg (hdr .board) 90) (hdr .board) s1 ∧ regBit s1 aLOCKS 3 = false)
    ∧ (Starts (.sagCfg (hdr .board) 114) (hdr .board) (setRaw aLOCKS 8 s1) ∧ regBit (setRaw aLOCKS 8 s1) aLOCKS 3 = true)
    ∧ (Starts (.fwOpen (hdr .board) 1) (hdr .board) s1 ∧ regBit s1 aLOCKS 1 = false ∧ fwHeld s1 true = false)
    ∧ (Starts (.fwOpen (hdr .board) 0) (hdr .board) s1 ∧ fwHeld s1 false = true)
    ∧ (Starts (.fwOpen (hdr .board) 1) (hdr .board) (setRaw aLOCKS 2 s1) ∧ regBit (setRaw aLOCKS 2 s1) aLOCKS 1 = true)
    ∧ (Starts (.fwData (hdr .board) 1 6291440 (List.replicate 16 9)) (hdr .board) (fwB .writing none)
      ∧ (fwSlot (fwB .writing none) true).st = .writing ∧ (fwB .writing none).power.fwVerify ≠ some true)
    ∧ (Starts (.fwCommit (hdr .board) 1) (hdr .board) (fwB .writing none) ∧ (fwB .writing none).power.fwVerify = none)
    ∧ (Starts (.fwCommit (hdr .board) 1) (hdr .board) (fwB .valid none) ∧ (fwSlot (fwB .valid none) true).st ≠ .writing)
    ∧ Starts (.fwInfo (hdr .board)) (hdr .board) s1
    ∧ (Starts (.reset (hdr .board) 1) (hdr .board) s1 ∧ regBit s1 aLOCKS 2 = false) :=
  ⟨test_starts_and (by decide), test_starts_and (by decide), test_starts_and (by decide), test_starts_and (by decide), test_starts_and (by decide),
    test_starts_of (by decide), test_starts_and (by decide), test_starts_and (by decide), test_starts_and (by decide), test_starts_and (by decide),
    test_starts_and (by decide), test_starts_and (by decide), test_starts_and (by decide), test_starts_and (by decide), test_starts_of (by decide),
    test_starts_and (by decide)⟩

theorem test_wit_PowerCommandsComplete_more :
    (Starts (.reset (hdr .host) 0) (hdr .host) (setRaw aLOCKS 4 s1) ∧ regBit (setRaw aLOCKS 4 s1) aLOCKS 2 = true)
    ∧ Starts (.logRead (hdr .board) 0 4096) (hdr .board) s1
    ∧ (Starts (.i2cXfer (hdr .board) 7 127 0 2 []) (hdr .board) s1 ∧ regBit s1 aLOCKS 6 = false)
    ∧ (Starts (.i2cXfer (hdr .host) 0 16 0 2 []) (hdr .host) (setRaw aLOCKS 0x40 s1) ∧ regBit (setRaw aLOCKS 0x40 s1) aLOCKS 6 = true)
    ∧ (let s := withTree { st := .lit } s1
      Starts (.todGet (hdr .board) 0 8) (hdr .board) s ∧ (tree s 0).sentTimes = [] ∧ (tree s 0).superframe = 0 ∧ (tree s 0).st = .lit)
    ∧ Starts (.todGet (hdr .board) 0 9) (hdr .board) s1 :=
  ⟨test_starts_and (by decide), test_starts_of (by decide), test_starts_and (by decide), test_starts_and (by decide), test_starts_and (by decide),
    test_starts_of (by decide)⟩

theorem test_wit_DefectCommandsComplete :
    (Starts (.defectGet (hdr .board) 1 0x80 63) (hdr .board) s1 ∧ objOk s1 1 63 = true)
    ∧ (Starts (.defectGet (hdr .board) 6 0 15) (hdr .board) s1 ∧ objOk s1 6 15 = true)
    ∧ Starts (.defectCfg (hdr .board) 2 9 5 1 600) (hdr .board) s1 :=
  ⟨test_starts_and (by decide), test_starts_and (by decide), test_starts_of (by decide)⟩

/-- The PLOAM hopper released past its mark. -/
def markGone : State := { s1 with ploamIn := { s1.ploamIn with mark := 0, rel := 1 } }

theorem test_wit_HopperCommandsComplete :
    (Starts (.hopRead (hdr .board) 0x10 4 0x80) (hdr .board) s1 ∧ (hopOf s1 0x10).isSome = true)
    ∧ (Starts (.hopRead (hdr .host) 1 0 0) (hdr .host) s1 ∧ (hopOf s1 1).map Hopper.owner = some (ownerOf .host))
    ∧ (Starts (.hopMark (hdr .host) 0) (hdr .host) s1 ∧ (hopOf s1 0).map Hopper.owner = some (ownerOf .host))
    ∧ (Starts (.hopRewind (hdr .host) 1) (hdr .host) markGone ∧ (hopOf markGone 1).map (fun x => seqLt x.mark x.rel) = some true)
    ∧ (Starts (.hopRewind (hdr .host) 1) (hdr .host) s1 ∧ (hopOf s1 1).map (fun x => seqLt x.mark x.rel) = some false)
    ∧ (Starts (.hopRelease (hdr .host) 1 0xFFFFFFFF) (hdr .host) s1 ∧ (hopOf s1 1).map (fun x => seqLe x.rd 0xFFFFFFFF) = some false)
    ∧ (Starts (.hopRelease (hdr .host) 1 0) (hdr .host) s1 ∧ (hopOf s1 1).map (fun x => seqLe x.rd 0) = some true)
    ∧ (Starts (.hopMark (hdr .board) 0) (hdr .board) s1 ∧ (hopOf s1 0).map Hopper.owner ≠ some (ownerOf .board)) :=
  ⟨test_starts_and (by decide), test_starts_and (by decide), test_starts_and (by decide), test_starts_and (by decide), test_starts_and (by decide),
    test_starts_and (by decide), test_starts_and (by decide), test_starts_and (by decide)⟩

theorem test_wit_HopperOwnership :
    (Starts (.hopCfg (hdr .board) 1 2 1023) (hdr .board) s1 ∧ (hopOf s1 1).map Hopper.slots = some 1024 ∧ (readWord s1 (aHCFG 1)).getLsbD 29 = false)
    ∧ (Starts (.hopCfg (hdr .board) 1 1 1024) (hdr .board) s1 ∧ (hopOf s1 1).map Hopper.slots = some 1024)
    ∧ (BarOpen s1 ∧ (hopOf s1 0).map Hopper.slots = some 4096)
    ∧ (∀ e ∈ [HItem.entry 0 []], seqLe (0 : BitVec 32) (itemPos e) = true) ∧ (hopOf s1 0).map (fun x => { x with level := 0 }.level) = some 0 :=
  ⟨test_starts_and (by decide), test_starts_and (by decide), test_open_and (by decide), by decide, by decide⟩

/-- MW_SEL names table 5, index 0; MW_DATA0 as given. -/
def window (d0 : Word) : State := setRaw (aMW_DATA 0) d0 (setRaw aMW_SEL 0xA0000000 s1)

theorem test_wit_RegisterWritesStore :
    (BarOpen s1 ∧ (0x28 : Word).toNat % 4 = 0 ∧ regThere s1 0x28 = true ∧ badWidth s1 0x28 4 = false ∧ classBits (regBase 0x28) = 0
      ∧ lockedBits s1 (regBase 0x28) = 0)
    ∧ (BarOpen s1 ∧ isAlias 0x20000500 = true ∧ regThere s1 0x20000500 = true ∧ badWidth s1 0x20000500 4 = false ∧ classBits (regBase 0x20000500) = 0
      ∧ isAlias 0x28 = false)
    ∧ (let s := setRaw aLOCKS 0x20 s1
      s.power.phase = .running ∧ s.power.rescue = false ∧ barLocked s = true ∧ barExempt 0x28 = false)
    ∧ (withPower { rescue := true } s1).power.rescue = true ∧ (withPower { phase := .saved } s1).power.phase ≠ .running
    ∧ (Running s1 ∧ ((0x60000 : Word), (0x80000000 : Word)) ∈ [((0x20 : Word), (0xFF : Word)), (0x60000, 0x80000000), (0x60004, 0x80000000)])
    ∧ (Running s1 ∧ (0x8 : Word).toNat % 4 = 0 ∧ wide s1 0x8 = true ∧ barWaits s1 = false)
    ∧ (let s := post (.bar 0x28 4 1 0) s1
      Running s ∧ barWaits s = true ∧ wide s 0x8 = true)
    ∧ (Running s1 ∧ (0x20000501 : Word).toNat % 4 ≠ 0 ∧ isAlias 0x20000501 = true) :=
  ⟨test_open_and (by decide), test_open_and (by decide), by decide, by decide, by decide, test_running_and (by decide), test_running_and (by decide),
    test_running_and (by decide), test_running_and (by decide)⟩

theorem test_wit_SequenceClearedWrites :
    (BarOpen s1 ∧ writable s1 (seqRegs.getD 0 (0, 0)).1 = true ∧ writable s1 (seqRegs.getD 117 (0, 0)).1 = false)
    ∧ (let s : State := { s1 with trees := [(63, { st := .dark })] }
      BarOpen s ∧ writable s (seqRegs.getD 117 (0, 0)).1 = true)
    ∧ (∀ b ∈ [(1 : Word), 0x40], b &&& 0xFF00 = 0) :=
  ⟨test_open_and (by decide), test_open_and (by decide), by simp⟩

theorem test_wit_TreeControlCompletes :
    (BarOpen s1 ∧ treeOk s1 63 = true)
    ∧ (let s := setRaw (aTREE 0) 2 (withTree { st := .dark, moving := some (.lit, 80) } s1)
      Running s ∧ (tree s 0).moving = some (.lit, 80) ∧ (tree s 0).st = .dark ∧ treeTarget s 0 = 2)
    ∧ (let s := setRaw (aTREE 0) 1 (withTree { moving := some (.dark, 80) } s1)
      Running s ∧ treeOk s 0 = true ∧ (tree s 0).moving = some (.dark, 80) ∧ (tree s 0).st = .off ∧ treeTarget s 0 = 1)
    ∧ (let s := withTree { st := .lit, moving := some (.serving, 80) } s1
      Running s ∧ (tree s 0).moving = some (.serving, 80) ∧ (tree s 0).st = .lit ∧ (engaged s).any (fun p => plateNames p 0) = false) :=
  ⟨test_open_and (by decide), test_running_and (by decide), test_running_and (by decide), test_running_and (by decide)⟩

theorem test_wit_MillWindowCompletes :
    (BarOpen (window 0x80000000) ∧ mwTable (window 0x80000000) = 5 ∧ entryOk (window 0x80000000) 5 (mwIdx (window 0x80000000)) = true
      ∧ wordBad (entryRules (window 0x80000000) 5 (mwIdx (window 0x80000000)) (mwData (window 0x80000000))) = 0
      ∧ entryBusy (window 0x80000000) 5 (mwIdx (window 0x80000000)) (mwData (window 0x80000000)) = false
      ∧ entryOver (window 0x80000000) 5 (mwIdx (window 0x80000000)) (mwData (window 0x80000000)) = false)
    ∧ (let s := weirHeld (window 0x80002000)
      BarOpen s ∧ mwTable s = 5 ∧ entryOk s 5 (mwIdx s) = true ∧ wordBad (entryRules s 5 (mwIdx s) (mwData s)) = 0
        ∧ entryBusy s 5 (mwIdx s) (mwData s) = true)
    ∧ (let s := setRaw aMW_SEL 0x60000FFF s1
      BarOpen s ∧ mwTable s ≤ 5 ∧ entryOk s (mwTable s) (mwIdx s) = false) :=
  ⟨test_open_and (by decide), test_open_and (by decide), test_open_and (by decide)⟩

theorem test_wit_TimeAndWatermarkRegisters :
    (BarOpen s1 ∧ twoDom s1 = true ∧ s1.time.sel = (s1.time.sel && twoDom s1)) ∧ (BarOpen s1 ∧ (hopOf s1 0x17).isSome = true) ∧ hopListed 0x60 = false :=
  ⟨test_open_and (by decide), test_open_and (by decide), by decide⟩

theorem test_wit_RingAndPairRegisters :
    (Running s1 ∧ s1.power.rescue = false ∧ s1.cmd.ringRun = false)
    ∧ ({ s1 with cmd := { s1.cmd with ringRun := true } } : State).cmd.ringRun = true
    ∧ (BarOpen s1 ∧ regBit s1 aLOCKS 4 = false ∧ (0x40000000 : Word).toNat / 2 ^ 30 = 1 ∧ pairMode s1 = 0)
    ∧ (BarOpen s1 ∧ (0x80000000 : Word).toNat / 2 ^ 30 = 2 ∧ featOn s1 5 = true)
    ∧ (BarOpen s1 ∧ (0xC0000000 : Word).toNat / 2 ^ 30 = 3) :=
  ⟨test_running_and (by decide), by decide, test_open_and (by decide), test_open_and (by decide), test_open_and (by decide)⟩

theorem test_wit_TimingRegistersComplete :
    (BarOpen s1 ∧ timingOk (aPCFG 5) (regRaw s1 (aPCFG 5) &&& 0xFF000000) = true)
    ∧ (BarOpen s1 ∧ timingOk aSEL_CFG (regRaw s1 aSEL_CFG &&& 0xFF7803FF) = true)
    ∧ timingOk aSEL_CFG ((regRaw s1 aSEL_CFG &&& 0x077803FF) ||| ((15 : BitVec 5).setWidth 32 <<< 27)) = true
    ∧ timingOk aSEL_CFG ((regRaw s1 aSEL_CFG &&& 0x077803FF) ||| ((16 : BitVec 5).setWidth 32 <<< 27)) = false
    ∧ clkOk 10 (regRaw s1 (aCDEN 3)).toNat = true ∧ clkOk 0 (regRaw s1 (aCDEN 3)).toNat = false :=
  ⟨test_open_and (by decide), test_open_and (by decide), by decide, by decide, by decide, by decide⟩

theorem test_wit_UplinkRegistersComplete :
    (BarOpen s1 ∧ quadBusy s1 7 = false)
    ∧ (BarOpen (withPort {} s1) ∧ quadBusy (withPort {} s1) 0 = true ∧ quadMode (withPort {} s1) 0 ≠ 3)
    ∧ (BarOpen (withPort {} s1) ∧ firstLane (withPort {} s1) 0 = true ∧ portPowered (withPort {} s1) 0 = true ∧ twinOk (withPort {} s1) 0 31 = true
      ∧ twinOk (withPort {} s1) 0 0 = false) :=
  ⟨test_open_and (by decide), test_open_and (by decide), test_open_and (by decide)⟩

theorem test_oneHolder : oneHolder s1 := by unfold oneHolder; decide
theorem test_wit_GpioFunctionsStayDistinct :
    (∀ j, j < 16 → j ≠ 3 → regFld s1 (aGPIO j) 31 28 ≠ (0x50000000 : Word).toNat / 2 ^ 28)
    ∧ (BarOpen s1 ∧ regFld s1 (aGPIO 2) 31 28 = (0x40000000 : Word).toNat / 2 ^ 28 ∧ 2 ≠ 15) ∧ oneHolder s1 :=
  ⟨by decide, test_open_and (by decide), test_oneHolder⟩

/-- The oldest reply on the board port. -/
def reply1 : Reply := { opcode := 0, tag := 0, status := 0, port := .board, credit := true, dseq := 1, params := [] }
def held : State := { s1 with cmd := { s1.cmd with board := { s1.cmd.board with replies := [reply1] } } }
/-- The host rings running with one command descriptor and one reply to write. -/
def rings : State :=
  setRaw aRPL_TAIL 1 (setRaw aCMD_TAIL 1 { s1 with cmd := { s1.cmd with ringRun := true, host := { s1.cmd.host with replies := [reply1] } } })

theorem test_wit_TransportsComplete :
    (notReady .board s1 = false ∧ [(0 : Byte)].length < 20 + pktPlen [0] ∧ s1.cmd.board.replies = [])
    ∧ (notReady .board held = false ∧ held.cmd.board.replies = [reply1] ∧ 4 + (replyBytes held reply1).length ≤ 24 ∧ 23 < 4 + (replyBytes held reply1).length)
    ∧ fetchReady rings = true ∧ fetchReady s1 = false
    ∧ (rings.cmd.ringRun = true ∧ notReady .host rings = false ∧ rings.cmd.rplHead % 1024 ≠ regFld rings aRPL_TAIL 9 0
      ∧ rings.cmd.host.replies = [reply1]) := by decide

/-- An accepted packet of command i. -/
def pkt (i : Instr) (op : BitVec 16) : Pkt :=
  { hdr := hdr .board, opcode := op, cmd := some i, badAt := 0, dseq := 1, sid := 5, ord := 0, at_ := 0 }
def queued : State := { s1 with cmd := { s1.cmd with board := { s1.cmd.board with queue := [pkt (.nop (hdr .board)) 0], used := 1 } } }
def due (i : Instr) (op : BitVec 16) (s : State) : State := { s with cmd := { s.cmd with timed := [{ pkt := pkt i op, at_ := 2488 }] } }

theorem test_wit_InterpreterStepsComplete :
    (Running queued ∧ executing queued < 16 ∧ oldestStartable queued = some (pkt (.nop (hdr .board)) 0))
    ∧ (Running s1 ∧ oldestStartable s1 = none ∧ s1.cmd.timed = [])
    ∧ (let s := due (.snapshot (hdr .board)) 0x103 s1
      Running s ∧ nextTimed s = some { pkt := pkt (.snapshot (hdr .board)) 0x103, at_ := 2488 } ∧ max s.strokeNext (strokeAt s (max s.now 2488)) < nextBoundary s)
    ∧ (let s := due (.termActivate (hdr .board) 0 0) 0x302 s1
      Running s ∧ nextTimed s = some { pkt := pkt (.termActivate (hdr .board) 0 0) 0x302, at_ := 2488 } ∧ max s.strokeNext (strokeAt s (max s.now 2488)) < nextBoundary s
        ∧ (term s (slotIx 0 0)).st ≠ .ranged)
    ∧ (let s : State := { due (.snapshot (hdr .board)) 0x103 s1 with imprNext := 2488 }
      Running s ∧ (nextTimed s).isSome = true ∧ nextBoundary s ≤ max s.strokeNext (strokeAt s (max s.now 2488))) :=
  ⟨test_running_and (by decide), test_running_and (by decide), test_running_and (by decide), test_running_and (by decide), test_running_and (by decide)⟩

theorem test_wit_BootRomStarts :
    (let p : Power := { phase := .porst };
      p.fwA.st = .active ∧ p.fwB.st ≠ .pending ∧ p.save = none)
    ∧ (let p : Power := { phase := .porst, fwB := { st := .pending } }
      p.fwA.st ≠ .pending ∧ p.fwB.st = .pending)
    ∧ (let p : Power := { phase := .porst, fwA := { st := .failed } }
      ∀ x ∈ [p.fwA.st, p.fwB.st], x ≠ FwSt.pending ∧ x ≠ .active ∧ x ≠ .valid)
    ∧ (let p : Power := { phase := .booting, fwTrial := true, fwRun := true, bootSig := true, fwB := { st := .pending } }
      p.boot = .por ∧ p.save = none ∧ p.fwA.st = .active)
    ∧ (Running (fwB .writing (some true)) ∧ (fwB .writing (some true)).power.fwVerify = some true) :=
  ⟨by decide, by decide, by decide, by decide, test_running_and (by decide)⟩

/-- A save set of an empty unit, and power with the pointer on it, in a save format. -/
def save0 (f : Nat) : Save :=
  { format := f, num := 1, cause := 0, featD := 0, devLast := 0, locLast := 0, devEff := 0, locEff := 0, at_ := 0, impr := 0, imprMc := 0, plateId := 0,
    bank := none, epoch := 0, pairCfg := 0, prot := 0, terms := [], keys := [], domA := {}, domB := {}, sel := false, k := 0, kAt := 0, dpll := .freerun,
    steer := 0, model := {}, hoppers := [], counters := [] }
def savedPower (f : Nat) (p : Power) : Power := { p with area0 := some (save0 f), ptr0 := some ⟨false, 1, false⟩, ptr1 := some ⟨false, 1, false⟩ }

theorem test_wit_SagStopsTheUnit :
    (Running s1 ∧ s1.cmd.featFixed = true ∧ featOn s1 8 = true ∧ s1.power.restored = false)
    ∧ (let s := withPower (savedPower 1 { restored := true }) s1
      Running s ∧ s.power.restored = true ∧ s.power.consumed = false)
    ∧ (let s := withPower { phase := .saving, cause := 1, sagAt := 0 } s1
      s.power.phase = .saving ∧ s.power.cause = 1 ∧ s.power.sagAt = s.now)
    ∧ (let s := withPower { phase := .saved, cause := 0 } s1
      s.power.phase = .saved ∧ s.power.cause ≠ 1)
    ∧ (withPower { phase := .booting } s1).power.phase = .booting ∧ (withPower { phase := .porst } s1).power.phase = .porst :=
  ⟨test_running_and (by decide), test_running_and (by decide), by decide, by decide, by decide, by decide⟩

/-- The state the sag of a saving unit leaves. -/
def afterSag : State := match exec (.sagDetection 900) s1 with | .next t => t | _ => s1
theorem test_wit_SaveEnds : afterSag.power.phase = .saving ∧ afterSag.power.pendingSave.isSome = true := by decide

theorem test_wit_WarmRestartResets :
    let s := withPower { phase := .saved } s1;
    s.power.phase = .saved ∧ s.power.fwA.st = .active ∧ s.power.fwB.st ≠ .pending ∧ s.power.save = none := by decide

theorem test_wit_WarmRestartResets_save :
    (let s := withPower (savedPower 1 { phase := .saved, boot := .warm }) s1;
      s.power.phase = .saved ∧ s.power.boot ≠ .por ∧ s.power.save = some (save0 1) ∧ s.power.consumed = false ∧ s.power.useSave = true
        ∧ (save0 1).format = 1)
    ∧ (let s := withPower (savedPower 2 { phase := .saved, boot := .warm }) s1
      s.power.boot ≠ .por ∧ s.power.save.any (fun v => v.format ≠ 1) = true ∧ s.power.save ≠ none ∧ s.power.useSave = true) := by decide

theorem test_wit_PorstResets_torn :
    let s := withPower { phase := .saving, pendingSave := some (save0 1) } s1
    s.power.pendingSave.isSome = true ∧ s1.power.pendingSave = none := by decide

/-- An I2C read of two bytes waits on bus 7. -/
def i2cHeld : State := { s1 with cmd := { s1.cmd with waiting := [{ pkt := pkt (.i2cXfer (hdr .board) 7 127 0 2 []) 0x806 }] } }

theorem test_wit_SupplyEventsComplete :
    (Running (dom64 .ramping) ∧ pwrOf (dom64 .ramping) 64 = .ramping) ∧ (Running s1 ∧ pwrOf s1 79 ≠ .ramping)
    ∧ (let s := setRaw aAVS_CFG 0x80000000 (withPower { vddCmd := 795 } s1)
      Running s ∧ regBit s aAVS_CFG 31 = true ∧ s.power.avs ≠ 2 ∧ min 800 (s.power.vddCmd + 10) ≠ s.power.vddCmd)
    ∧ (let s := setRaw aAVS_CFG 0x80000000 s1
      Running s ∧ regBit s aAVS_CFG 31 = true ∧ min 800 (s.power.vddCmd + 10) = s.power.vddCmd)
    ∧ (Running (withPower { avs := 2 } s1) ∧ (withPower { avs := 2 } s1).power.avs = 2 ∧ ulinear16 s1.power.voutMode = true)
    ∧ (let s := setRaw aAVS_CFG 0x80000000 (withPower { vddCmd := 795, voutMode := 0x40 } s1)
      Running s ∧ s.power.avs ≠ 2 ∧ ulinear16 s.power.voutMode = false ∧ min 800 (s.power.vddCmd + 10) ≠ s.power.vddCmd)
    ∧ (let s := setRaw aAVS_CFG 0 (withPower { avs := 1 } s1)
      Running s ∧ regBit s aAVS_CFG 31 = false ∧ s.power.avs ≠ 2 ∧ s.power.avs ≠ 3)
    ∧ (Running i2cHeld ∧ (i2cHeld.cmd.waiting.find? (fun w => (i2cWaits 7 w).isSome)).isSome = true
      ∧ i2cHeld.cmd.waiting.map (i2cWaits 7) = [some 2]) :=
  ⟨test_running_and (by decide), test_running_and (by decide), test_running_and (by decide), test_running_and (by decide), test_running_and (by decide),
    test_running_and (by decide), test_running_and (by decide), test_running_and (by decide)⟩

theorem test_wit_PinEventsComplete :
    (Running s1 ∧ gpioHolder s1 4 = some 2 ∧ s1.pair.fencedPin = false) ∧ gpioHolder (setRaw (aGPIO 2) 0 s1) 4 = none ∧ ballTaking .sample = false
    ∧ (Running s1 ∧ ballTaking .highz = true ∧ s1.pair.fencedScan = false) :=
  ⟨test_running_and (by decide), by decide, by decide, test_running_and (by decide)⟩

def declaring (l : List Nat) (s : State) : State := { s with defects := { s.defects with on := l.map (fun k => (k, true)) } }

theorem test_wit_PlateEngineRuns :
    (let s : State := { s1 with plates := { bank1 := { st := .proving } } };
      Running s ∧ (bank s true).st = .proving ∧ s.plates.restore ≠ some true ∧ imageGroups (bank s true).image = [])
    ∧ (let s : State := { s1 with plates := { bank1 := { st := .proving }, restore := some true, mram := some (plate [] [], [(0, 1)]) } }
      Running s ∧ (bank s true).st = .proving ∧ s.plates.restore = some true ∧ s.plates.mram = some (plate [] [], [(0, 1)]) ∧ calGroups (plate [] []).millrace = [])
    ∧ (let s := provenB {} (some { bank := true, target := 1, at_ := 12441600, first := false, id := 9 })
      Running s ∧ (bank s true).st = .proven ∧ (bank s true).plate = some (plate [] [])
        ∧ turnChecks { s with now := max s.now (12441600 - 12442) } (plate [] []) = 0 ∧ (bank s true).plate.any (fun p => p.id = 9) = true)
    ∧ (let q : Quiet := { tree := 0, purpose := 0, period := 1, phase := 0, start := 0, len := 0, reach := 1 }
      let s : State := { s1 with plates := { bank1 := { st := .proven, plate := some (plate [] [q]) } } }
      turnChecks { s with now := max s.now 0 } (plate [] [q]) ≠ 0)
    ∧ (let s : State := { s1 with plates := { bank0 := engagedBank, mramBusy := some false } }
      Running s ∧ s.plates.mramBusy = some false ∧ (bank s false).plate = some (plate [] []) ∧ s.plates.bank0.st = .engaged) :=
  ⟨test_running_and (by decide), test_running_and (by decide), test_running_and (by decide), by decide, test_running_and (by decide)⟩

theorem test_wit_ImpressionBoundaryTurns :
    (Running s1 ∧ s1.plates.turn = none ∧ s1.plates.disengage ≠ some s1.imprNext)
    ∧ ({ s1 with plates := { s1.plates with disengage := some 12441600 } } : State).plates.disengage = some s1.imprNext
    ∧ (let s := provenB engagedBank (some { bank := true, target := 2, at_ := 24883200, first := false, id := 9 })
      Running s ∧ s.plates.turn.any (fun x => x.first) = false ∧ s.imprNext < 24883200)
    ∧ (let x : Turn := { bank := true, target := 1, at_ := 12441600, first := false, id := 9 }
      let s := provenB engagedBank (some x)
      Running s ∧ s.plates.turn.any (fun x => x.first) = false ∧ 12441600 ≤ s.imprNext ∧ s.pair.fencedLease = false ∧ turnReady s x = true
        ∧ s.pair.sails = false ∧ (bank s false).st = .engaged ∧ s.plates.disengage ≠ some 12441600)
    ∧ (let x : Turn := { bank := true, target := 1, at_ := 12441600, first := false, id := 8 }
      let s := withPair { st := .inStep } (provenB engagedBank (some x))
      Running s ∧ x.at_ ≤ s.imprNext ∧ turnReady s x = false ∧ s.pair.fencedLease = false ∧ s.pair.st = .inStep)
    ∧ (let x : Turn := { bank := true, target := 1, at_ := 12441520, first := true, id := 9 }
      let s := provenB {} (some x)
      Running s ∧ 12441520 < s.imprNext ∧ s.pair.fencedLease = false ∧ turnReady s x = true ∧ s.pair.sails = false) :=
  ⟨test_running_and (by decide), by decide, test_running_and (by decide), test_running_and (by decide), test_running_and (by decide),
    test_running_and (by decide)⟩

theorem test_wit_StrokeBoundaryLands :
    (Running s1 ∧ nextStrokeAt s1 < nextBoundary s1)
    ∧ (let s : State := { s1 with strokeNext := 12441600 }
      Running s ∧ nextBoundary s ≤ nextStrokeAt s)
    ∧ ((post (.feather 2) s1).mill.landing = [posted (.feather 2) s1] ∧ (posted (.feather 2) s1).at_ + 6 ≤ 80 ∧ 80 < (posted (.feather 2) { s1 with now := 75 }).at_ + 6)
    ∧ (let l := (post (.feather 2) { post .raise_ s1 with cmd := { s1.cmd with ord := 9 } }).mill.landing
      l.map Posted.ord = [s1.cmd.ord, 9] ∧ s1.cmd.ord < 9 ∧ l.all (fun x => decide (x.at_ + 6 ≤ 80)) = true)
    ∧ (let s : State := { s1 with bwMs := 10, imprAt := 12441600, imprNext := 24883200, now := 12441600 }
      Running s ∧ bwDue s = some 12441600) :=
  ⟨test_running_and (by decide), test_running_and (by decide), by decide, by decide, test_running_and (by decide)⟩

/-- A grant of terminal 0 on tree 0, decoded or not. -/
def grant0 (f : Option Int) : Grant :=
  { term := 0, rate := 2, pclass := 0, start := 1000, len := 500, allocs := [], ploamu := true, dynamic := false, found := f, xgem := 100 }
def granted (f : Option Int) : State := withTree { st := .serving, grants := [grant0 f] } s1

theorem test_wit_BurstsRun :
    (Running (granted none) ∧ grantAt (granted none) 0 0 = some (grant0 none) ∧ (grant0 none).announced = false ∧ (grant0 none).received = false
      ∧ (grant0 none).found = none ∧ prevGrant (granted none) 0 0 (grant0 none) = none)
    ∧ delimWin 2 (dlmThreshold (granted none) 0 2) [] = none
    ∧ delimWin 2 (dlmThreshold (granted none) 0 2) [(200, delimPattern), (-200, delimPattern), (-201, delimPattern), (-190, ~~~delimPattern)] = some (-200)
    ∧ (Running (granted (some 0)) ∧ (grantAt (granted (some 0)) 0 0).map (fun g => g.found.isSome) = some true) :=
  ⟨test_running_and (by decide), by decide, by decide, test_running_and (by decide)⟩

/-- The same tree with the flow 3 of the engaged plate. -/
def served (k : KeySet) : State := { engaging (plate [flow false true] []) (granted (some 0)) with keys := [(1, k)] }
def xgem (p : BitVec 16) (k : BitVec 2) (e : Bool) : Xgem := { portId := p, key := k, pos := 8, last := false, data := [1, 2], erased := e }

theorem test_wit_TreeEventsRun :
    (Running (served {}) ∧ grantAt (served {}) 0 0 = some (grant0 (some 0)) ∧ (xgem 3 0 true).erased = true
      ∧ (grant0 (some 0)).used + 8 + (xgem 3 0 true).data.length ≤ (grant0 (some 0)).xgem)
    ∧ (flowTerm (grantPlate (served {}) (grant0 (some 0))) (served {}) 4 ≠ some 0 ∧ (xgem 4 0 false).erased = false)
    ∧ (flowTerm (grantPlate (served {}) (grant0 (some 0))) (served {}) 3 = some 0
      ∧ (keySet (served {}) (keyIx 0 0 true)).st0 = .empty ∧ (xgem 3 1 false).key ≠ 0)
    ∧ (keySet (served { encrypt := true }) (keyIx 0 0 true)).encrypt = true
    ∧ ((keySet (served {}) (keyIx 0 0 true)).encrypt = false ∧ (tree (served {}) 0).frags = [] ∧ (xgem 3 0 false).data.length ≤ 9600)
    ∧ ((keySet (served { st0 := .current }) (keyIx 0 0 true)).st0 ≠ .empty ∧ (xgem 3 1 false).key = 1 ∧ (xgem 3 1 false).last = false)
    ∧ (inMask (granted none) 0 1000 = true ∧ inMask (granted none) 0 2000 = false ∧ regBit (granted none) (aTREE 0 + 0x0C) 24 = false)
    ∧ (let s := withTree { frags := [{ term := 0, portId := 3, since := 0, data := [] }] } s1
      Running s ∧ ((tree s 0).frags.find? (fun f => f.term = 0 && f.portId = 3)).isSome = true)
    ∧ (Running (granted none) ∧ (tree (granted none) 0).st ≠ .off ∧ (tree s1 0).st = .off)
    ∧ (Running (withTree { st := .lit } s1) ∧ stAt (withTree { st := .lit } s1) 0 (composeAt (withTree { st := .lit } s1) 0) = .lit)
    ∧ (Running (served {}) ∧ stAt (served {}) 0 (composeAt (served {}) 0) = .serving ∧ stAt s1 0 (composeAt s1 0) = .off) :=
  ⟨test_running_and (by decide), by decide, by decide, by decide, by decide, by decide, by decide, test_running_and (by decide),
    test_running_and (by decide), test_running_and (by decide), test_running_and (by decide)⟩

/-- Tree 0 LIT with a window. -/
def windowed (w : Window) : State := withTree { st := .lit, window := some w } s1
def disc : Window := { purpose := 0, start := 1000, len := 300000, packed := [], band := none }

theorem test_wit_DiscoveryAndRangingRun :
    (let s := withTree { st := .lit, plans := [disc, { disc with purpose := 1 }] } s1;
      Running s ∧ (tree s 0).plans.find? (fun w => decide (w.purpose ≠ 1)) = some disc
        ∧ (tree s 0).plans.find? (fun w => decide (w.purpose = 1)) = some { disc with purpose := 1 })
    ∧ (let s := withTree { st := .lit, frame := 2, bandQ := [0] } s1
      Running s ∧ (tree s 0).plans.find? (fun w => decide (w.purpose = 1)) = none ∧ probeList s 0 = [] ∧ ploamOnly s 0 = []
        ∧ (bandList s 0).find? (fun k => !([] : List Nat).contains k) = some 0)
    ∧ (Running (windowed disc) ∧ isStandby (windowed disc) = false ∧ (tree (windowed disc) 0).window = some disc
      ∧ respSeen (windowed disc) 0 delimPattern = true ∧ respSeen (windowed disc) 0 (~~~delimPattern) = false
      ∧ ((0 : Nat) : Int) - 40 * skewOf (windowed disc) 0 < 40 * (disc.start + Config.PRE_X - 20 : Nat))
    ∧ (let d : Nat := 40 * (1000 + 1991 - 20)
      Running (windowed disc) ∧ 40 * (disc.start + Config.PRE_X - 20 : Nat) ≤ ((d : Nat) : Int) - 40 * skewOf (windowed disc) 0
        ∧ (d : Int) - 40 * skewOf (windowed disc) 0
          < 40 * (disc.start + (tree (windowed disc) 0).set.reach * Config.RTT_PER_100M + Config.RAND_SPAN + Config.PRE_X + 20 : Nat)
        ∧ (tree (windowed disc) 0).discCount < (tree (windowed disc) 0).set.discLimit ∧ slotOf (windowed disc) 77 = none
        ∧ muted (windowed disc) 77 = false)
    ∧ (let s : State := { windowed disc with terms := [(0, { serial := 77, st := .popup })] }
      Running s ∧ slotOf s 77 = some 0 ∧ (term s 0).st = .popup) :=
  ⟨test_running_and (by decide), test_running_and (by decide), test_running_and (by decide), test_running_and (by decide),
    test_running_and (by decide)⟩

/-- A band ranging of terminal 0 at S = 400,000 over the whole range. -/
def banding (n : Nat) : State :=
  { windowed { purpose := 1, start := 9000, len := 12442, packed := [], band := some (0, 20000000, 0, 20000000) } with
    terms := [(0, { serial := 77, st := .discovered, tries := n })] }
theorem test_wit_DiscoveryAndRangingRun_band :
    let s := banding 0;
    (Running s ∧ isStandby s = false ∧ (tree s 0).window.bind Window.band = some (0, 20000000, 0, 20000000) ∧ pairMode s ≠ 2
      ∧ (term s 0).st = .discovered ∧ (term s 0).tries < 2
      ∧ (let base : Int := 20000000 + (term s 0).eqd - tEq s 0 + 40 * Config.PRE_X
         base ≤ 20000000 - 40 * skewOf s 0 ∧ 0 ≤ (20000000 - 40 * skewOf s 0 - base).toNat ∧ (20000000 - 40 * skewOf s 0 - base).toNat ≤ 20000000))
    ∧ measures s 0 = false ∧ respSeen s 0 delimPattern = true ∧ integrity s 0 s.now = .dflt ∧ (term (banding 2) 0).tries = 2 :=
  ⟨test_running_and (by decide), by decide, by decide, by decide, by decide⟩

/-- A probe of terminal 0, POPUP, in packed slot 0. -/
def probing : State :=
  { windowed { purpose := 1, start := 9000, len := 12442, packed := [(0, true)], band := none } with
    terms := [(0, { serial := 77, st := .popup, rtd := 11000000, eqd := 472000 })] }
theorem test_wit_DiscoveryAndRangingRun_probe :
    let s := probing
    let w : Window := { purpose := 1, start := 9000, len := 12442, packed := [(0, true)], band := none }
    let d : Nat := 40 * (9000 + 20 + Config.PRE_X)
    Running s ∧ isStandby s = false ∧ (tree s 0).window = some w ∧ w.packed.findIdx? (fun y => y.1 = 0 && y.2) = some 0 ∧ measures s 0 = false
      ∧ (term s 0).st = .popup ∧ respOk s 0 { delim := d, seen := delimPattern, cwOk := true, onu := 0, mic := .dflt } = true
      ∧ slotExpect w 0 - 800 ≤ (d : Int) - 40 * skewOf s 0 ∧ (d : Int) - 40 * skewOf s 0 ≤ slotExpect w 0 + 800
      ∧ ((priorBand s 0).1 : Int) ≤ (d : Int) - 40 * skewOf s 0 - slotExpect w 0 + tEq s 0 - (term s 0).eqd
      ∧ (d : Int) - 40 * skewOf s 0 - slotExpect w 0 + tEq s 0 - (term s 0).eqd ≤ (priorBand s 0).2 :=
  test_running_and (by decide)

def await0 (k : PKind) : Await := { msg := { slot := some 0, kind := k, seq := 4, value := 9, content := [] }, resends := 0, since := 0 }
def awaiting (x : TermSt) (t : Nat) : State :=
  { withTree {} (withTerm { st := x, serial := 77, timer := t, awaits := [await0 (.rangingTime true)] } s1) with imprCount := 1000 }

theorem test_wit_TerminalTimersRun :
    (Running (awaiting .active 0) ∧ isStandby (awaiting .active 0) = false
      ∧ (term (awaiting .active 0) 0).awaits.find? (fun a => a.msg.seq = 4) = some (await0 (.rangingTime true))
      ∧ (await0 (.rangingTime true)).since + (tree (awaiting .active 0) 0).set.tAck ≤ (awaiting .active 0).imprCount
      ∧ (tree (awaiting .active 0) 0).msgs = [] ∧ (await0 (.rangingTime true)).resends < 3 ∧ integrity (awaiting .active 0) 0 0 = .dflt)
    ∧ (Running (awaiting .discovered 1000) ∧ (tree (awaiting .discovered 1000) 0).set.tDisc ≤ (term (awaiting .discovered 1000) 0).timer)
    ∧ (Running (awaiting .popup 30) ∧ (tree (awaiting .popup 30) 0).set.tPopup ≤ (term (awaiting .popup 30) 0).timer)
    ∧ (Running (awaiting .rogue 100) ∧ (term (awaiting .rogue 100) 0).st = .rogue ∧ 100 ≤ (term (awaiting .rogue 100) 0).timer) :=
  ⟨test_running_and (by decide), test_running_and (by decide), test_running_and (by decide), test_running_and (by decide)⟩

def roguing (r : Rogue) (x : TermSt) : State := withTree { st := .lit, rogue := r, oogImpr := 4 } (withTerm { st := x, serial := 77 } s1)

theorem test_wit_RogueAndKeyEventsRun :
    (Running (roguing {} .active) ∧ isStandby (roguing {} .active) = false ∧ (tree (roguing {} .active) 0).rogue.running = false
      ∧ rogueDue (roguing {} .active) 0 = true ∧ (tree (roguing {} .active) 0).st = .lit)
    ∧ (let s := roguing { running := true, quiet := 2 } .active
      Running s ∧ (tree s 0).rogue.running = true ∧ 2 ≤ (tree s 0).rogue.quiet)
    ∧ (let s := roguing { running := true, named := some 0 } .active
      Running s ∧ (tree s 0).rogue.named = some 0 ∧ (tree s 0).rogue.suspect ≠ some 0 ∧ (term s 0).serial ≠ 0 ∧ (term s 0).st ≠ .rogue
        ∧ (term s 0).st ≠ .disabled)
    ∧ (let s := roguing { running := true, heldAt := some 0, cands := [0], withheld := [0] } .active
      isStandby s = false ∧ (tree s 0).rogue.heldAt = some 0 ∧ (tree s 0).rogue.cands = [0] ∧ (tree s 0).rogue.heard = false ∧ (tree s 0).rogue.heldSpan.2 ≤ 155520
        ∧ (tree s 0).rogue.suspect ≠ some 0 ∧ (term s 0).serial ≠ 0 ∧ (term s 0).st ≠ .rogue ∧ (term s 0).st ≠ .disabled)
    ∧ (let s := roguing { running := true, named := some 0, suspect := some 0, again := true } .disabled
      Running s ∧ (tree s 0).rogue.named = some 0 ∧ (tree s 0).rogue.suspect = some 0 ∧ (term s 0).st = .disabled)
    ∧ (let s : State := { keyed { st0 := .draining, switchedAt := 0 } with imprCount := 2 }
      Running s ∧ (keySet s (keyIx 0 0 false)).switchedAt + 2 ≤ s.imprCount ∧ (keySet s (keyIx 0 0 false)).st0 = .draining)
    ∧ (let s := withTree { xtrig := 0 } s1
      Running s ∧ (tree s 0).xtrig.getLsbD 3 = false) :=
  ⟨test_running_and (by decide), test_running_and (by decide), test_running_and (by decide), by decide, test_running_and (by decide),
    test_running_and (by decide), test_running_and (by decide)⟩

/-- Tree 0 serves flow 3, a tributary with a slot in every frame. -/
def tribbed (up : Bool) (t : Trib) : State :=
  { engaging { plate [flow true up] [] with downs := [{ tree := 0, period := 1, phase := 0, flow := 3, off := 0, len := 4000 }] }
      (withTree { st := .serving } s1) with tribs := [(3, t)], now := 4000000 }

theorem test_wit_TributariesRun :
    (Running (tribbed false {}) ∧ (canonPlate (tribbed false {})).bind (flowIn · 3) = some (flow true false) ∧ (trib (tribbed false {}) 3).held = false
      ∧ (tree (tribbed false {}) (flow true false).tree).st = .serving
      ∧ (nextSlot (tribbed false {}) 0 3).map (fun x => (x.1, x.2.1.off)) = some (4043520, 0))
    ∧ (Running (tribbed true {}) ∧ flowOf (tribbed true {}) 3 = some (flow true true) ∧ (flow true true).up = true)
    ∧ (let s := tribbed true { oofSince := some 0, oofDecisions := 2 }
      Running s ∧ masked s 3 3 TB_LOF = false ∧ (trib s 3).oofSince = some 0 ∧ 0 + 3732480 ≤ s.now ∧ 2 ≤ (trib s 3).oofDecisions)
    ∧ (let s := tribbed true { syncSince := some 267520 }
      Running s ∧ (trib s 3).oofSince = none ∧ (trib s 3).syncSince = some 267520 ∧ 267520 + 3732480 ≤ s.now) :=
  ⟨test_running_and (by decide), test_running_and (by decide), test_running_and (by decide), test_running_and (by decide)⟩

def frame0 : Frame := { flow := 3, dom := 0, len := 64, point := 0, chaff := false, data := [] }
def laned (f : Option (BitVec 32)) : State := { s1 with mill := { s1.mill with lanes := [(0, { hopper := [(0, frame0, true)], failed := f })] } }

theorem test_wit_LanesCommit :
    (Running (laned none) ∧ (0 : BitVec 32) = (lane (laned none) 0).committed + 1
      ∧ (lane (laned none) 0).hopper.find? (fun e => e.1 = 0) = some (0, frame0, true) ∧ crossed (lane (laned none) 0) 0 frame0 true = true
      ∧ (lane (laned none) 0).failed ≠ some 0)
    ∧ (Running (laned (some 0)) ∧ (lane (laned (some 0)) 0).failed = some 0 ∧ (lane (laned (some 0)) 0).retired = false)
    ∧ (1 : BitVec 32) ≠ (lane (laned none) 0).committed + 1 :=
  ⟨test_running_and (by decide), test_running_and (by decide), by decide⟩

/-- A frame of 64 bytes of an EtherType. -/
def etherFrame (ty : Nat) (rest : List Byte) : List Byte :=
  [2, 0, 0, 0, 0, 1, 2, 0, 0, 0, 0, 2] ++ [BitVec.ofNat 8 (ty / 256), BitVec.ofNat 8 (ty % 256)] ++ rest ++ List.replicate (50 - rest.length) 0

theorem test_wit_UplinksRun :
    (let s := withPort {} s1;
      Running s ∧ portOn s (portOf s 0) = true ∧ macFails s (portOf s 0) 63 true = some 0x18 ∧ macFails s (portOf s 0) 64 true = none
        ∧ etherType (etherFrame 0x0800 []) = 0x0800 ∧ regBit s (aPORT 0) 28 = false ∧ keyKind (etherFrame 0x0800 []) = some (1, 0x020000000001)
        ∧ s.screens = [])
    ∧ (etherType (etherFrame 0x8808 [0, 2]) = 0x8808 ∧ natAt (etherFrame 0x8808 [0, 2]) (etherAt (etherFrame 0x8808 [0, 2]) + 2) 2 = 2)
    ∧ (Running s1 ∧ portOn s1 (portOf s1 0) = false)
    ∧ (let s := withPort {} s1
      Running s ∧ declared s 4 (portOf s 0) UL_LOS = false ∧ declared s 4 (portOf s 0) UL_LOF = false)
    ∧ (let s := withPort { trigAt := 80, spare := some 1 } s1
      Running s ∧ portOn s 0 = true ∧ (uport s 0).trigAt ≠ 0 ∧ (uport s 0).rehashed = false ∧ regBit s (aPORT 0) 26 = false
        ∧ (uport s 0).spare = some 1)
    ∧ (Running s1 ∧ (uport s1 0).trigAt = 0)
    ∧ (Running (withPort { pausedTo := 9 } s1) ∧ (uport (withPort { pausedTo := 9 } s1) 0).pausedTo ≠ 0)
    ∧ (let s : State := { s1 with screens := [{ readScreen scRecEntry with recov := some 4 }] }
      Running s ∧ s.screens.find? (fun x => keyOfScreen x = scKey scRecEntry) = some { readScreen scRecEntry with recov := some 4 }
        ∧ (readScreen scRecEntry).recEn = true)
    ∧ (let s := setRaw (aPORT 0) 0xE0000000 (withPort { esmcQl := some 3 } s1)
      Running s ∧ portOn s 0 = true ∧ (uport s 0).esmcQl.isSome = true ∧ regBit s (aPORT 0) 29 = true ∧ regBit s (aPORT 0) 30 = true ∧ twoDom s = true) :=
  ⟨test_running_and (by decide), by decide, test_running_and (by decide), test_running_and (by decide), test_running_and (by decide),
    test_running_and (by decide), test_running_and (by decide), test_running_and (by decide), test_running_and (by decide)⟩

theorem test_wit_LeaseRuns :
    (let s := sailing { st := .inStep, contact := true };
      Running s ∧ s.pair.sails = true ∧ pairMode s = 2 ∧ s.pair.st ≠ .solo ∧ s.pair.contact = true ∧ s.pair.renewing = false)
    ∧ (let s := standby { st := .inStep }
      Running s ∧ s.pair.sails = false ∧ isStandby s = true ∧ s.pair.granted = false ∧ s.pair.handover = none ∧ s.pair.st ≠ .joining
        ∧ seqLt (0 : BitVec 32) s.pair.epoch = false)
    ∧ (let s := sailing { st := .inStep, granted := true, expiry := 1244160, num := 4, epoch := 2 }
      Running s ∧ s.pair.sails = true ∧ s.pair.num = 4 ∧ s.pair.epoch = 2 ∧ s.pair.granted = true ∧ s.pair.expiry ≠ 0)
    ∧ (let s := standby { st := .inStep, granted := true, expiry := 1244160, renewAt := 7 }
      Running s ∧ isStandby s = true ∧ s.pair.granted = true ∧ s.pair.expiry ≠ 0 ∧ regBit s aPAIR_CFG 27 = false ∧ s.pair.handover = none)
    ∧ (let s := sailing { contact := true, renewing := true, grantBack := true, expiry := 1244160 }
      Running s ∧ s.pair.sails = true ∧ pairMode s = 2 ∧ s.pair.st ≠ .solo ∧ s.pair.renewing = true ∧ s.pair.grantBack = true)
    ∧ (let s := sailing { contact := true, epoch := 2 }
      Running s ∧ seqLt s.pair.epoch (nearEpoch s 3) = true ∧ s.mill.landing.any (fun x => x.eff = .feather 3) = false ∧ nearTime s 5 = 5)
    ∧ (Running (withPair { sbGood := true } s1) ∧ (withPair { sbGood := true } s1).pair.sbGood = true)
    ∧ (Running s1 ∧ s1.pair.sbGood = false) :=
  ⟨test_running_and (by decide), test_running_and (by decide), test_running_and (by decide), test_running_and (by decide), test_running_and (by decide), test_running_and (by decide), test_running_and (by decide),
    test_running_and (by decide)⟩

theorem test_wit_SwitchoversRun :
    (let s := sailing { st := .inStep, handover := some (1280, 6, 1, 0) };
      Running s ∧ s.pair.handover = some (1280, 6, 1, 0) ∧ s.pair.sails = true)
    ∧ (let s := standby { st := .inStep, handover := some (1280, 5, 0, 0) }
      Running s ∧ s.pair.handover = some (1280, 5, 0, 0) ∧ isStandby s = true ∧ s.pair.lag = [])
    ∧ (Running s1 ∧ s1.pair.handover = none ∧ s1.pair.heldTriggers = [])
    ∧ (let s := sailing { heldTriggers := [(0, 0xFF)] }
      Running s ∧ s.pair.heldTriggers = [(0, 0xFF)] ∧ handoverFree s = true ∧ s.pair.sails = true)
    ∧ (Running (withTree { xtrig := 0 } s1) ∧ (tree (withTree { xtrig := 0 } s1) 0).xtrig.getLsbD 3 = false)
    ∧ (Running s1 ∧ s1.cmd.pair.session ≠ none ∧ State.reset.cmd.pair.session = none) :=
  ⟨test_running_and (by decide), test_running_and (by decide), test_running_and (by decide), test_running_and (by decide), test_running_and (by decide),
    test_running_and (by decide)⟩

def rec0 : StreamRec := ⟨80, .delivered 3 9⟩
/-- A NOP packet of the board's session. -/
def nopBytes : List Byte := encodePacket (.nop (hdr .board))

theorem test_wit_StreamRecordsRun :
    (let s := standby { st := .inStep, lag := [rec0], contact := true };
      Running s ∧ isStandby s = true ∧ lagFirst s.pair.lag = some rec0 ∧ s.pair.contact = true ∧ treeOk s 63 = true)
    ∧ (Running s1 ∧ isStandby s1 = false ∧ s1.pair.lag = [])
    ∧ (let s := standby { st := .inStep, copies := [frame0] }
      Running s ∧ copyOf s 3 64 9 = some frame0 ∧ copyOf s 3 65 9 = none)
    ∧ (standby { st := .joining }).pair.quickDone = false
    ∧ (Running (standby { st := .inStep }) ∧ isStandby (standby { st := .inStep }) = true ∧ (decodePacket .board [3, 0, 0x7F, 0]).1 = none)
    ∧ (decodePacket .board nopBytes = (some (.nop (hdr .board)), 0) ∧ opcodeOf (.nop (hdr .board)) ≠ 0x203)
    ∧ (let s := sailing { st := .inStep, contact := true }
      Running s ∧ s.pair.contact = true ∧ s.pair.sails = true ∧ treeOk s 0 = true ∧ (tree s 0).triggered = false) :=
  ⟨test_running_and (by decide), test_running_and (by decide), test_running_and (by decide), by decide, test_running_and (by decide), by decide,
    test_running_and (by decide)⟩

def digesting (x : PairSt) (q : Bool) : State := sailing { st := x, contact := true, quickDone := q, digestOwn := some (4, 77) }

theorem test_wit_DigestsAndTiersRun :
    (Running (digesting .joining true) ∧ (digesting .joining true).pair.digestOwn = some (4, 77) ∧ (digesting .joining true).pair.quickDone = true)
    ∧ (Running (digesting .inStep true) ∧ (78 : BitVec 128) ≠ 77 ∧ declared (digesting .inStep true) 5 0 PL_LOS = false
      ∧ (digesting .inStep true).pair.digestPartner = none)
    ∧ (let s := sailing { contact := true }
      Running s ∧ s.pair.digestOwn.any (fun x => x.1 = 4) = false)
    ∧ (let s := sailing { contact := true, tier := 1 }
      Running s ∧ s.pair.st = .joining ∧ s.pair.tier = 1 ∧ s.pair.contact = true ∧ s.pair.sails = true)
    ∧ (let s := sailing { st := .eligible, tier := 2 }
      Running s ∧ s.pair.st = .eligible ∧ s.pair.tier = 2) :=
  ⟨test_running_and (by decide), test_running_and (by decide), test_running_and (by decide), test_running_and (by decide), test_running_and (by decide)⟩

def withTiming (t : Timing) (s : State) : State := { s with timing := t }

theorem test_wit_TimingEventsRun :
    (Running (withTiming { steer := 800000 } s1) ∧ (withTiming { steer := 800000 } s1).timing.steer ≤ 800000)
    ∧ (Running (withTiming { refs := [(15, { wtr := 5 })] } s1) ∧ (refOf (withTiming { refs := [(15, { wtr := 5 })] } s1) 15).wtr ≠ 0)
    ∧ (let s := withTiming { dpll := .acquiring, lockFrom := some 0 } s1
      Running s ∧ s.timing.dpll = .acquiring ∧ s.timing.lockFrom = some 0)
    ∧ (let s := declaring [defKey 6 0 RF_LOS, defKey 6 8 RF_FREQ, defKey 6 9 RF_PHASE] s1
      Running s ∧ declared s 6 8 RF_FREQ = true ∧ declared s 6 9 RF_PHASE = true)
    ∧ (Running (setRaw (aREF_CFG 4) 0x80000000 s1) ∧ refOn (setRaw (aREF_CFG 4) 0x80000000 s1) 4 = true)
    ∧ (Running (withTiming { dpll := .locked, following := true } s1) ∧ (withTiming { dpll := .locked } s1).timing.following = false)
    ∧ (Running s1 ∧ s1.timing.dpll ≠ .locked)
    ∧ (let s := setRaw aHOLD_CFG 0x80000000 (withTiming { tempFails := 2 } s1)
      Running s ∧ regBit s aHOLD_CFG 31 = true ∧ 2 ≤ s.timing.tempFails)
    ∧ (let s := setRaw (aPCFG 5) 0x80000000 (withTiming { pulses := [(5, { grid := some 100 })] } s1)
      Running s ∧ regBit s (aPCFG 5) 31 = true ∧ nextPulse s 5 (max s.now ((pulseOf s 5).lastEdge + 1)) = some 100)
    ∧ (Running s1 ∧ regBit s1 (aPCFG 0) 31 = false) :=
  ⟨test_running_and (by decide), test_running_and (by decide), test_running_and (by decide), test_running_and (by decide), test_running_and (by decide),
    test_running_and (by decide), test_running_and (by decide), test_running_and (by decide), test_running_and (by decide), test_running_and (by decide)⟩

theorem test_wit_TimeDomainsRun :
    (Running s1 ∧ (true = true → twoDom s1 = true) ∧ isStandby s1 = false)
    ∧ (Running (standby { st := .inStep }) ∧ isStandby (standby { st := .inStep }) = true)
    ∧ (let s := withTime { st := .stepArmed, valids := 7 } s1
      Running s ∧ (tdom s false).st = .stepArmed ∧ (tdom s false).mpds.length < 16 ∧ (tdom s false).valids = 7)
    ∧ (Running (timed .tracking) ∧ isStandby (timed .tracking) = false ∧ (tdom (timed .tracking) false).st = .tracking)
    ∧ (Running (timed .hold) ∧ (tdom (timed .hold) false).st ≠ .tracking)
    ∧ (Running oneDom ∧ twoDom oneDom = false) :=
  ⟨test_running_and (by decide), test_running_and (by decide), test_running_and (by decide), test_running_and (by decide), test_running_and (by decide),
    test_running_and (by decide)⟩

theorem test_wit_ExecAndAsapAdmitted :
    (Accepted (.nop (hdr .board 0 1)) (hdr .board 0 1) s1 ∧ Unblocked (hdr .board 0 1) s1)
    ∧ (Accepted (.nop (hdr .board 0x40)) (hdr .board 0x40) s1 ∧ Unblocked (hdr .board 0x40) s1)
    ∧ (Accepted (.snapshot (hdr .board 0 2488)) (hdr .board 0 2488) s1 ∧ Unblocked (hdr .board 0 2488) s1
      ∧ (opOf (.snapshot (hdr .board 0 2488))).bad (taken (.snapshot (hdr .board 0 2488)) (hdr .board 0 2488) s1) = 0 ∧ s1.cmd.timed.length < 64
      ∧ execAt s1 (hdr .board 0 2488) s1.now = some 2488)
    ∧ (Accepted (.plateTurn (hdr .board 0x40) 0 9 0) (hdr .board 0x40) s1 ∧ Unblocked (hdr .board 0x40) s1
      ∧ (opOf (.plateTurn (hdr .board 0x40) 0 9 0)).bad (taken (.plateTurn (hdr .board 0x40) 0 9 0) (hdr .board 0x40) s1) = 0) :=
  ⟨⟨test_accepted_of (by decide), test_unblocked_of (by decide)⟩, ⟨test_accepted_of (by decide), test_unblocked_of (by decide)⟩,
    ⟨test_accepted_of (by decide), test_unblocked_of (by decide), by decide, by decide, by decide⟩,
    test_accepted_of (by decide), test_unblocked_of (by decide), by decide⟩

theorem test_wit_AcceptedCommandsChecked :
    (∀ e ∈ [(2487 : Word), 2488, 0x7FFFFFFF, 0x80000000],
      Accepted (.snapshot (hdr .board 0 e)) (hdr .board 0 e) s1 ∧ Unblocked (hdr .board 0 e) s1 ∧ (hdr .board 0 e).exec ≠ 0)
    ∧ (let s : State := { s1 with cmd := { s1.cmd with timed := List.replicate 64 { pkt := pkt (.snapshot (hdr .board 0 1)) 0x103, at_ := 9 } } }
      Accepted (.snapshot (hdr .board 0 2488)) (hdr .board 0 2488) s ∧ Unblocked (hdr .board 0 2488) s ∧ 64 ≤ s.cmd.timed.length)
    ∧ (Accepted (.plateOpen (hdr .board) 2) (hdr .board) s1 ∧ Unblocked (hdr .board) s1
      ∧ (opOf (.plateOpen (hdr .board) 2)).bad (taken (.plateOpen (hdr .board) 2) (hdr .board) s1) = 16) := by
  refine ⟨?_, ⟨test_accepted_of (by decide), test_unblocked_of (by decide), by decide⟩, test_accepted_of (by decide), test_unblocked_of (by decide),
    by decide⟩
  simp only [List.mem_cons, List.not_mem_nil, or_false, forall_eq_or_imp, forall_eq]
  exact ⟨⟨test_accepted_of (by decide), test_unblocked_of (by decide), by decide⟩, ⟨test_accepted_of (by decide), test_unblocked_of (by decide), by decide⟩,
    ⟨test_accepted_of (by decide), test_unblocked_of (by decide), by decide⟩, test_accepted_of (by decide), test_unblocked_of (by decide), by decide⟩

theorem test_wit_IntakeRefuses :
    (hdrOf (.snapshot (hdr .board 0x20)) = some (hdr .board 0x20) ∧ notReady .board s1 = false ∧ (hdr .board 0x20).flags &&& 0x2F ≠ 0)
    ∧ (notReady .board (withPower { phase := .saved } s1) = false ∧ (withPower { phase := .saved } s1).power.phase ≠ .running)
    ∧ freeCredits { s1 with cmd := { s1.cmd with board := { s1.cmd.board with used := 8 } } } .board = 0
    ∧ (portSt State.reset .board).session = none ∧ freeCredits State.reset .board ≠ 0
    ∧ ({ hdr .board with session := 4 } : Hdr).session ≠ 5
    ∧ ((hdr .host).session = 5 ∧ opcodeOf (.kwkSet (hdr .host) 0) = 0x807)
    ∧ (let s := standby { st := .inStep }
      Running s ∧ isStandby s = true ∧ standbyOk s 0x200 (some (.plateOpen (hdr .board) 0)) = false
        ∧ (classOk .board 0x200 && setOk .board (some (.plateOpen (hdr .board) 0)) && mapOk s .board 0x200) = true) :=
  ⟨by decide, by decide, by decide, by decide, by decide, by decide, by decide, test_running_and (by decide)⟩

theorem test_wit_Packets :
    let i := Instr.plateTurn (hdr .board 0x80) 1 0x0123456789ABCDEF0123456789ABCDEF 0xFFFFFFFF;
    hdrOf i = some (hdr .board 0x80) ∧ i.wf = true ∧ opcodeOf i ≠ 0x6F0 ∧ (paramBytes i).length % 4 = 0 ∧ notReady .board s1 = false := by decide

theorem test_wit_EveryStepKeeps : Kept s1 ∧ step s1 = .next { s1 with now := 1 } := ⟨⟨by decide, by decide⟩, rfl⟩

/-! ### Further clauses: an event that finds nothing to do, and the cases of a rule that the witnesses above leave out -/

theorem test_wit_PlateCommandsComplete_clauses :
    (let s : State := { s1 with plates := { bank0 := engagedBank, bank1 := { st := .turning } } };
      Starts (.plateAbort (hdr .board) 0) (hdr .board) s ∧ (bank s false).st = .engaged ∧ (bank s true).st = .turning)
    ∧ (let s : State := { s1 with plates := { bank0 := engagedBank, disengage := some 12441600 } }
      Starts (.plateAbort (hdr .board) 0) (hdr .board) s ∧ (bank s true).st ≠ .turning ∧ s.plates.disengage ≠ none) :=
  ⟨test_starts_and (by decide), test_starts_and (by decide)⟩

theorem test_wit_TerminalCommandsComplete_clauses :
    (let s := withTerm { st := .ranged, serial := 77, actFailed := true } s1;
      Starts (.termActivate (hdr .board) 0 0) (hdr .board) s ∧ (term s 0).st = .ranged ∧ (term s 0).actFailed = true)
    ∧ (let m : PMsg := { slot := none, kind := .host 0x30, seq := 0, value := 0, content := [] }
      let s := withTree { hostMsgs := List.replicate 64 m } s1
      Starts (.ploamSend (hdr .board) 0 0xFF 0x30 (List.replicate 36 0)) (hdr .board) s ∧ 64 ≤ (tree s 0).hostMsgs.length)
    ∧ (let s := withPower { kwk := some kek } s1
      boundaryLate s s.now 0 = true) :=
  ⟨test_starts_and (by decide), test_starts_and (by decide), by decide⟩

theorem test_wit_KeyCommandsComplete_clauses :
    (let s : State := { keyed {} with power := { kwk := some kek, doms := [(0, .on)] } };
      Starts (.termKey (hdr .board) 0 0 0 0 0 wrapped) (hdr .board) s ∧ s.power.kwk = some kek ∧ pwrOn s 0 = true
        ∧ slotSt (keySet s (keyIx 0 0 false)) (loadSlot (keySet s (keyIx 0 0 false))) ≠ .draining)
    ∧ (Starts (.termKey (hdr .board) 0 0 0 0 0 wrapped) (hdr .board) s1 ∧ s1.power.kwk = none)
    ∧ (Starts (.termKey (hdr .board) 0 0 0 1 1 0) (hdr .board) s1 ∧ (keySet s1 (keyIx 0 0 false)).st0 ≠ .staged
      ∧ (keySet s1 (keyIx 0 0 false)).st1 ≠ .staged) :=
  ⟨test_starts_and (by decide), test_starts_and (by decide), test_starts_and (by decide)⟩

/-- A wrapped key that does not unwrap. -/
theorem test_unwrap_bad : unwrapOk kek 0 = false := by decide +kernel

theorem test_wit_MappingCommandsComplete_clauses :
    (let s : State := { s1 with tribs := [(3, { next := [(readTrib trEntry, 0)] })] };
      s.tribs = [(3, { next := [(readTrib trEntry, 0)] })] ∧ 0 + Config.TURN_CUTOFF ≤ 12442 ∧ 12440 < 0 + Config.TURN_CUTOFF)
    ∧ (let s : State := { s1 with time := { s1.time with selNext := some true } }
      s.time.selNext = some true ∧ true ≠ s.time.sel) := by decide

theorem test_wit_PairCommandsComplete_clauses :
    (let s := sailing { st := .solo, contact := true, partnerSails := true };
      Starts (.pairJoin (hdr .board)) (hdr .board) s ∧ s.pair.partnerSails = true ∧ s.pair.resyncLimit = false)
    ∧ (let s := withTree { protNext := some (true, 1, 3, 2, 15) } s1
      (tree s 0).protNext = some (true, 1, 3, 2, 15))
    ∧ (let s := withPair { fencedLease := true } s1
      s.pair.sails = false ∧ s.pair.fencedLease = true ∧ s.pair.fencedCmd = false ∧ s.pair.fencedPin = false ∧ s.pair.fencedScan = false) :=
  ⟨test_starts_and (by decide), by decide, by decide⟩

theorem test_wit_DefectCommandsComplete_clauses :
    ({ s1 with defects := { s1.defects with next := [(2, { sdExp := 9, sfExp := 5, setT := 1, clrT := 600 })] } } : State).defects.next
      = [(2, { sdExp := 9, sfExp := 5, setT := 1, clrT := 600 })] := by decide

theorem test_wit_PlateEngineRuns_clauses :
    (let s := provenB {} none;
      Running s ∧ s.plates.turn = none ∧ s.plates.mramBusy = none ∧ s.plates.bank0.st ≠ .engaged ∧ s.plates.bank1.st ≠ .engaged)
    ∧ (Running s1 ∧ (bank s1 false).st ≠ .proving)
    ∧ (let s : State := { s1 with plates := { bank1 := engagedBank } }
      Running s ∧ s.plates.bank0.st ≠ .engaged ∧ s.plates.bank1.st = .engaged) :=
  ⟨test_running_and (by decide), test_running_and (by decide), test_running_and (by decide)⟩

theorem test_wit_BootRomStarts_clauses :
    (let s := withPower { phase := .booting, fwTrial := true, fwRun := true } s1;
      s.power.phase = .booting ∧ s.power.fwTrial = true ∧ s.power.fwRun = true)
    ∧ (let s := withPower { boot := .cold } s1
      s.power.boot = .cold ∧ s.power.trialFailed = [])
    ∧ (let s := setRaw aSAG_CFG 0x80 (withPower (savedPower 1 { boot := .por }) s1)
      s.power.boot = .por ∧ s.power.save = some (save0 1) ∧ s.power.consumed = false ∧ regBit s aSAG_CFG 7 = true ∧ s.power.bad = none)
    ∧ (let s := setRaw aSAG_CFG 0x80 (withPower (savedPower 2 { boot := .por }) s1)
      s.power.save = some (save0 2) ∧ s.power.consumed = false ∧ (save0 2).format ≠ 1 ∧ s.power.trialFailed = [])
    ∧ (let s := withPower { boot := .por, trialFailed := [true] } s1
      s.power.boot = .por ∧ s.power.save = none ∧ s.power.trialFailed = [true])
    ∧ (let s := withPower { boot := .por, owed := [0x108] } s1
      s.power.boot = .por ∧ s.power.save = none ∧ s.power.trialFailed = [] ∧ s.power.owed = [0x108])
    ∧ (s1.power.phase ≠ .porst ∧ s1.power.phase ≠ .booting) := by decide

theorem test_wit_BurstsRun_clauses :
    (Running s1 ∧ grantAt s1 0 0 = none)
    ∧ (let g := { grant0 (some 0) with announced := true, received := true, uncorr := 0 }
      let s := withTree { st := .serving, grants := [g] } s1
      Running s ∧ grantAt s 0 0 = some g ∧ g.announced = true ∧ g.received = true ∧ g.found.isSome = true ∧ g.uncorr = 0 ∧ featOn s 6 = true) :=
  ⟨test_running_and (by decide), test_running_and (by decide)⟩

theorem test_wit_TreeEventsRun_clauses :
    (Running (granted none) ∧ grantAt (granted none) 0 0 = some (grant0 none) ∧ (grant0 none).found = none)
    ∧ ((tree s1 0).frags.find? (fun f => f.term = 0 && f.portId = 3) = none ∧ (withTree { sdRun := 7 } s1).power.phase = .running)
    ∧ (let s := withTree { st := .lit, sdRun := 7 } s1
      Running s ∧ (tree s 0).st ≠ .off ∧ inMask s 0 0 = false ∧ 7 ≤ (tree s 0).sdRun ∧ (tree s 0).sdHeld = false) :=
  ⟨test_running_and (by decide), by decide, test_running_and (by decide)⟩

theorem test_wit_DiscoveryAndRangingRun_clauses :
    (Running s1 ∧ (tree s1 0).window = none ∧ (tree s1 0).plans = [])
    ∧ (let s := windowed disc
      isStandby s = false ∧ (disc.start : Nat) = 1000 ∧ (tree s 0).discSeen = [] ∧ slotOf s 77 = none ∧ muted s 77 = false)
    ∧ (let s := withTerm { st := .disabled, serial := 77 } s1
      slotOf s 77 = some 0 ∧ 0 / 128 = 0 ∧ (term s 0).st = .disabled)
    ∧ (let s := withTerm { st := .active, serial := 77 } s1
      (term s 0).st ≠ .discovered ∧ (term s 0).st ≠ .popup)
    ∧ (Running (granted (some 0)) ∧ (ploamCarrier 0 none (granted (some 0))).1 = none)
    ∧ (let s := withTree { st := .serving, grants := [{ grant0 (some 0) with decoded := 1 }] } s1
      Running s ∧ (ploamCarrier 0 none s).1 = some 1500 ∧ integrity s 0 s.now = .dflt) :=
  ⟨test_running_and (by decide), by decide, by decide, by decide, test_running_and (by decide), test_running_and (by decide)⟩

theorem test_wit_TerminalTimersRun_clauses :
    (Running s1 ∧ (term s1 0).awaits = [])
    ∧ (let s := { awaiting .active 0 with imprCount := 0 }
      Running s ∧ s.imprCount < (await0 (.rangingTime true)).since + (tree s 0).set.tAck)
    ∧ (let a := { await0 (.rangingTime true) with resends := 3 }
      let s : State := { withTerm { st := .active, serial := 77, awaits := [a] } s1 with imprCount := 1000 }
      Running s ∧ (term s 0).awaits.find? (fun a => a.msg.seq = 4) = some a ∧ 3 ≤ a.resends)
    ∧ (let s := withTerm { st := .ranged, tries := 1 } s1
      (term s 0).st = .ranged ∧ (term s 0).tries < 2 ∧ (term s 0).actFailed = false) :=
  ⟨test_running_and (by decide), test_running_and (by decide), test_running_and (by decide), by decide⟩

theorem test_wit_RogueAndKeyEventsRun_clauses :
    (let s := roguing { running := true } .active;
      Running s ∧ isStandby s = false ∧ (tree s 0).rogue.running = true ∧ rogueDue s 0 = true ∧ (tree s 0).rogue.quiet < 2 ∧ rogueIdle (tree s 0).rogue = false)
    ∧ (Running s1 ∧ rogueDue s1 0 = false ∧ (tree s1 0).st = .off)
    ∧ (let s : State := { keyed { st0 := .draining, switchedAt := 4 } with imprCount := 5 }
      Running s ∧ s.imprCount < (keySet s (keyIx 0 0 false)).switchedAt + 2) :=
  ⟨test_running_and (by decide), test_running_and (by decide), test_running_and (by decide)⟩

theorem test_wit_TributariesRun_clauses :
    (let s := tribbed false { held := true };
      Running s ∧ flowOf s 3 = some (flow true false) ∧ (trib s 3).held = true)
    ∧ (Running s1 ∧ flowOf s1 3 = none)
    ∧ (let s := tribbed true { present := true }
      Running s ∧ flowOf s 3 = some (flow true true) ∧ (trib s 3).held = false ∧ (trib s 3).present = true)
    ∧ (let s := declaring [defKey 3 3 TB_AIS, defKey 1 0 TR_LOS] (tribbed true {})
      Running s ∧ masked s 3 3 TB_LOF = true) :=
  ⟨test_running_and (by decide), test_running_and (by decide), test_running_and (by decide), test_running_and (by decide)⟩

theorem test_wit_LanesCommit_clauses :
    (let s : State := { s1 with mill := { s1.mill with lanes := [(0, { hopper := [(0, frame0, true)], failed := some 0, retired := true })] } };
      Running s ∧ (lane s 0).failed = some 0 ∧ (lane s 0).retired = true)
    ∧ ({ frame0 with gone := true } : Frame).gone = true ∧ frame0.gone = false
    ∧ flowOf s1 3 = none ∧ flowOf (tribbed false {}) 3 = some (flow true false)
    ∧ (let s := tribbed false { cfg := readTrib trEntry }
      (trib s 3).cfg.kindPacket = true ∧ (2 : Nat) ≤ (trib s 3).cfg.payLen - 2 ∧ storeDepth (trib s 3) < 2 * (trib s 3).cfg.k) :=
  ⟨test_running_and (by decide), by decide, by decide, by decide, by decide, by decide⟩

theorem test_wit_UplinksRun_clauses :
    (let s := withPort { rfRx := true } s1;
      Running s ∧ portOn s (portOf s 0) = true ∧ (uport s 0).rfRx = true)
    ∧ (let x : Screen := { readScreen scRecEntry with recov := some 4, lastPass := 10, resetMs := 1 }
      x.recEn = true ∧ x.recov = some 4 ∧ (20 : Nat) < x.lastPass + x.resetMs * 1244160 ∧ sameCycle x 0 5 20 = none ∧ ((5 : BitVec 16) - 4).toInt = 1
        ∧ (1 : Int) < x.histLen)
    ∧ (Running s1 ∧ (uport s1 0).pausedTo = 0 ∧ s1.screens = [] ∧ (uport s1 0).esmcQl = none ∧ mute s1 = true)
    ∧ (let s := setRaw aPAIR_CFG 0x40000000 (setRaw (aPORT 0) 0xE0000000 (withPort {} s1))
      Running s ∧ mute s = false ∧ portOn s 0 = true ∧ s.time.stamped = []) :=
  ⟨test_running_and (by decide), by decide, test_running_and (by decide), test_running_and (by decide)⟩

theorem test_wit_LeaseRuns_clauses :
    (let s := sailing { contact := true, renewing := true, expiry := 1244160 };
      Running s ∧ s.pair.renewing = true ∧ s.pair.grantBack = false)
    ∧ (Running s1 ∧ s1.pair.sails = false ∧ s1.pair.expiry = 0 ∧ isStandby s1 = false)
    ∧ (let s := standby { st := .inStep, granted := true, num := 4, epoch := 2, handover := some (1280, 5, 0, 0), expiry := 1244160 }
      Running s ∧ isStandby s = true ∧ s.pair.granted = true ∧ s.pair.num = 4 % 16 ∧ s.pair.epoch = nearEpoch s 2
        ∧ s.pair.handover.any (fun y => decide (y.1 ≤ s.pair.expiry + 124400)) = true ∧ seqLt (nearEpoch s 1) s.pair.epoch = true)
    ∧ (let s := standby { st := .joining, granted := true }
      Running s ∧ isStandby s = true ∧ s.pair.st = .joining ∧ s.pair.granted = true ∧ s.pair.handover = none) :=
  ⟨test_running_and (by decide), test_running_and (by decide), test_running_and (by decide), test_running_and (by decide)⟩

theorem test_wit_SwitchoversRun_clauses :
    (let s := withTree { protTypeB := true } (sailing { st := .inStep });
      (tree s 0).protTypeB = true ∧ s.pair.sails = true ∧ s.pair.st = .inStep ∧ declared s 5 0 PL_LOS = false ∧ (tree s 0).triggered = false
        ∧ s.pair.handover = none ∧ partnerGood (tree s 0) (strokeAt s 0) 1 = true ∧ handoverFree s = true)
    ∧ (let s := withTree { protTypeB := true, partnerDefects := [TR_LOS] } (sailing { st := .inStep })
      (List.range 64).any (fun m => (tree s m).protTypeB && partnerTrig (tree s m) && !treeTrig s m) = true)
    ∧ (let s := sailing { st := .inStep, lastHandover := some 0 }
      Running s ∧ handoverFree s = false)
    ∧ (Running (standby { st := .inStep }) ∧ isStandby (standby { st := .inStep }) = true) :=
  ⟨by decide, by decide, test_running_and (by decide), test_running_and (by decide)⟩

theorem test_wit_StreamRecordsRun_clauses :
    (let s := standby { st := .inStep, lag := [rec0], contact := true };
      Running s ∧ executes s = true)
    ∧ (let s := standby { st := .joining, contact := true, cutAt := some 160 }
      Running s ∧ isStandby s = true ∧ executes s = false ∧ s.pair.cutAt.any (fun c => decide (80 < c)) = true)
    ∧ (let s : State := { standby { st := .inStep } with now := 2481 }
      isStandby s = true ∧ (80 : Nat) + 2400 < s.now ∧ s.pair.st ≠ .joining)
    ∧ (let s := { s1 with cmd := { s1.cmd with devLast := 5 } }
      numAfter s.cmd.devLast 6 = true ∧ numAfter s.cmd.devLast 4 = false)
    ∧ (let s := sailing { st := .inStep, contact := true, orderedAt := 80, handover := some (1280, 6, TR_LOS, 0) }
      Running s ∧ s.pair.orderedAt = 80 ∧ s.pair.handover = some (1280, 6, TR_LOS, 0))
    ∧ (let s := { granted (some 0) with pair := { st := .inStep, contact := true } }
      Running s ∧ treeOk s 0 = true
        ∧ (tree s 0).grants.reverse.find? (fun x => decide (x.term = 0) && (x.allocs.map (·.1)).headD 0 = 0 && decide (x.start < 1040)) = some (grant0 (some 0))
        ∧ treeOk s 64 = false)
    ∧ (let s := sailing { st := .inStep, contact := true, streamMark := 3, streamRel := 4 }
      Running s ∧ seqLt s.pair.streamMark s.pair.streamRel = true) :=
  ⟨test_running_and (by decide), test_running_and (by decide), by decide, by decide, test_running_and (by decide), test_running_and (by decide),
    test_running_and (by decide)⟩

theorem test_wit_DigestsAndTiersRun_clauses :
    (let s := sailing { st := .inStep, contact := true, digestDue := some (12441600, 4) };
      Running s ∧ s.pair.digestDue = some (12441600, 4))
    ∧ (let s := sailing { st := .inStep, digestOwn := some (4, 77), digestPartner := some (4, 78) }
      s.pair.digestOwn = some (4, 77) ∧ s.pair.digestPartner = some (4, 78) ∧ pairMode s = 2 ∧ declared s 5 0 PL_LOS = false)
    ∧ (s1.pair.digestOwn = none ∧ (sailing { st := .solo }).pair.st = .solo) := 
  ⟨test_running_and (by decide), by decide, by decide⟩

theorem test_wit_TimingEventsRun_clauses :
    ((refOf s1 0).wtr = 0 ∧ s1.timing.lockFrom = none ∧ declared s1 6 0 RF_FREQ = false ∧ declared s1 6 0 RF_PHASE = false ∧ (refOf s1 4).good < 2
      ∧ refOn s1 0 = false)
    ∧ (let s := setRaw aDPLL_CFG 0x40000000 (withTiming { dpll := .acquiring, lockFrom := some 0, history := 60 } s1)
      Running s ∧ regBit s aDPLL_CFG 31 = false ∧ regBit s aDPLL_CFG 30 = true ∧ 60 ≤ s.timing.history)
    ∧ (let s := withTiming { dpll := .acquiring, lockFrom := some 0, history := 59 } s1
      Running s ∧ regBit s aDPLL_CFG 31 = false ∧ s.timing.history < 60)
    ∧ (let s := withPower { phase := .saved } (withTiming { refs := [(15, { wtr := 5 })] } s1)
      s.power.phase = .saved ∧ (refOf s 15).wtr ≠ 0)
    ∧ (withPower { phase := .porst } s1).power.phase = .porst
    ∧ (let s := setRaw (aPCFG 0) 0x88000000 (withTiming { pulses := [(0, { grid := some 100, slew := -3 })] } s1)
      Running s ∧ regBit s (aPCFG 0) 27 = true ∧ pulseSrc s 0 ≤ 1 ∧ nextPulse s 0 (max s.now ((pulseOf s 0).lastEdge + 1)) = some 100) :=
  ⟨by decide, test_running_and (by decide), test_running_and (by decide), by decide, by decide, test_running_and (by decide)⟩

theorem test_wit_TimeDomainsRun_clauses :
    (Running (withTime { skip := 1 } s1) ∧ 0 < (tdom (withTime { skip := 1 } s1) false).skip)
    ∧ (Running (withTime { masterId := some 7 } s1) ∧ (tdom (withTime { masterId := some 7 } s1) false).masterId = some 7 ∧ (7 : BitVec 64) ≠ 8
      ∧ (tdom (withTime { masterId := some 7 } s1) false).skip = 0)
    ∧ (let s := withTime { st := .tracking, mpds := List.replicate 16 0, suspects := 3 } s1
      Running s ∧ 16 ≤ (tdom s false).mpds.length ∧ 16 * regFld s (aDOM_CFG false) 25 16 < ((16001 : Int) - (tdom s false).mpd).natAbs
        ∧ (tdom s false).suspects = 3 ∧ (tdom s false).pathStep = false)
    ∧ (let s := withTime { st := .bridging, mpds := List.replicate 16 0, near := 15 } s1
      Running s ∧ (tdom s false).st = .bridging ∧ (tdom s false).near = 15)
    ∧ (let s := withTime { st := .stepArmed, valids := 8, due := some 5 } s1
      (tdom s false).due = some 5 ∧ 8 ≤ (tdom s false).valids)
    ∧ (let s := withTime { st := .tracking, pathDue := true, lostDue := true, masterOk := true } s1
      Running s ∧ (tdom s false).pathDue = true ∧ (tdom s false).lostDue = true ∧ (tdom s false).masterOk = true ∧ (tdom s false).st = .tracking)
    ∧ (tdom s1 false).masterOk = false :=
  ⟨test_running_and (by decide), test_running_and (by decide), test_running_and (by decide), test_running_and (by decide), by decide,
    test_running_and (by decide), by decide⟩

theorem test_wit_ExecAndAsapAdmitted_clauses :
    let h := hdr .host 0 2488
    let i := Instr.regWr h 0x20 4 1 [0, 0, 0, 0]
    Accepted i h s1 ∧ Unblocked h s1 ∧ execAt s1 h s1.now = some 2488 ∧ ((opOf i).run (taken i h s1)).status = 3 :=
  ⟨test_accepted_of (by decide), test_unblocked_of (by decide), by decide, by decide⟩

/-! ### Reserved bits, pending copies, effects that wait and events that find a change -/

theorem test_wit_reserved :
    Starts (.features (hdr .board) 1 0x800) (hdr .board) s1 ∧ Starts (.hello (hdr .board) 0x800 1 0 0 0 0) (hdr .board) s1
    ∧ ((0x800 : BitVec 64) &&& ~~~Config.OFFER ≠ 0 ∧ (0x7FF : BitVec 64) &&& ~~~Config.OFFER = 0) :=
  ⟨test_starts_of (by decide), test_starts_of (by decide), by decide⟩

theorem test_wit_fence_boundary :
    Accepted (.fence (hdr .board) 1) (hdr .board) s1 ∧ s1.pair.fencedCmd = decide ((0 : BitVec 8) = 1)
    ∧ (withPair { fencedCmd := true } s1).pair.fencedCmd = decide ((1 : BitVec 8) = 1) := ⟨test_accepted_of (by decide), by decide, by decide⟩

/-- A copy of the counters pending. -/
def copying : State := post (.bar 0x80000 4 1 0) s1
theorem test_wit_RegisterCommandsComplete_copy :
    (Starts (.snapshot (hdr .host)) (hdr .host) s1 ∧ copyPending s1 = false ∧ s1.snapCycle ≠ some s1.now)
    ∧ (Starts (.snapshot (hdr .host)) (hdr .host) { s1 with snapCycle := some 0 } ∧ (some 0 : Option Nat) = some s1.now)
    ∧ (Starts (.snapshot (hdr .host)) (hdr .host) copying ∧ copyPending copying = true ∧ awaitsStroke 0x103 copying = true) :=
  ⟨test_starts_and (by decide), test_starts_and (by decide), test_starts_and (by decide)⟩

theorem test_wit_PairCommandsComplete_behind :
    let s := sailing { st := .inStep, handover := some (1280, 5, 0, 0) }
    Starts (.pairSwitch (hdr .board)) (hdr .board) s ∧ s.pair.sails = true ∧ s.pair.st = .inStep ∧ s.pair.handover = some (1280, 5, 0, 0) :=
  test_starts_and (by decide)

theorem test_wit_StreamAndCopyComplete_sections :
    sectionsHeld (standby { st := .joining, sections := quickSecs }) = true ∧ sectionsHeld (standby { st := .joining, sections := [1] }) = false
    ∧ (sailing { sent := [rec0, { rec0 with stroke := 160 }] }).pair.sent.dropWhile (fun r => decide (r.stroke ≤ 80)) = [{ rec0 with stroke := 160 }] := by decide

theorem test_wit_RegisterWritesStore_landing :
    (BarOpen s1 ∧ regThere s1 aPAIR_CFG = true ∧ badWidth s1 aPAIR_CFG 4 = false ∧ isAlias aPAIR_CFG = false ∧ lockedBits s1 aPAIR_CFG = 0
      ∧ lockedBits (setRaw aLOCKS 0x10 s1) aPAIR_CFG ≠ 0)
    ∧ (BarOpen s1 ∧ regThere s1 aSAG_CFG = true ∧ badWidth s1 aSAG_CFG 4 = false ∧ classBits aSAG_CFG = 0 ∧ lockedBits s1 aSAG_CFG = 0
      ∧ lockedBits (setRaw aLOCKS 8 s1) aSAG_CFG ≠ 0)
    ∧ (Running copying ∧ barWaits copying = true ∧ barWaits s1 = false ∧ isAlias 0x10020 = false) :=
  ⟨test_open_and (by decide), test_open_and (by decide), test_running_and (by decide)⟩

theorem test_wit_StrokeBoundaryLands_cycles :
    (let x := posted (.bar 0x400000 4 0 0) s1
      let y := posted (.bar 0x400010 4 0 0) s1
      cycleOf y = cycleOf x ∧ (landsOn x).filterMap modeQuad = [0] ∧ (landsOn y).filterMap enableQuad = [0] ∧ (landsOn y).filterMap modeQuad = [])
    ∧ (let x := posted (.bar 0x400000 4 0 0) s1
      let y := posted (.bar 0x400010 4 0 0) { s1 with now := 1 }
      cycleOf y ≠ cycleOf x)
    ∧ (let s : State := { s1 with bwMs := 10, imprAt := 12441600, imprNext := 24883200, now := 12441600, bwPart := true }
      Running s ∧ bwDue s = some 12441600 ∧ s.bwPart = true) :=
  ⟨by decide, by decide, test_running_and (by decide)⟩

theorem test_wit_TreeEventsRun_heard :
    let s := withTree { st := .lit, sdRun := 7, rogue := { running := true, heldAt := some 0 } } s1
    Running s ∧ inMask s 0 0 = false ∧ (tree s 0).rogue.heldAt = some 0 ∧ 0 ≤ max s.now 0 ∧ max s.now 0 < 155520 := test_running_and (by decide)

theorem test_wit_TributariesRun_none :
    (Running s1 ∧ (canonPlate s1).bind (flowIn · 3) = none)
    ∧ (let s := { engaging (plate [flow true false] []) (withTree { st := .serving } s1) with tribs := [(3, {})] }
      Running s ∧ (canonPlate s).bind (flowIn · 3) = some (flow true false) ∧ nextSlot s 0 3 = none) :=
  ⟨test_running_and (by decide), test_running_and (by decide)⟩

theorem test_wit_UplinksRun_twin :
    (let s := setRaw (aPORT 0) 0x84000000 (withPort { trigAt := 80, spare := some 1 } s1);
      Running s ∧ regBit s (aPORT 0) 26 = true)
    ∧ (((true :: [some 0, none, some 1].map Option.isNone).reverse.take 1).any id = false
      ∧ ((true :: [some 0, none, some 1].map Option.isNone).reverse.take 2).any id = true ∧ ((true :: ([] : List (Option Nat)).map Option.isNone).reverse.take 1).any id = true) :=
  ⟨test_running_and (by decide), by decide⟩

theorem test_wit_LeaseRuns_forms :
    (let s := sailing { st := .solo, contact := true };
      Running s ∧ s.pair.st = .solo)
    ∧ (let s := standby { st := .joining, granted := true, expiry := 1244160 }
      Running s ∧ isStandby s = true ∧ s.pair.granted = true ∧ s.pair.expiry ≠ 0 ∧ regBit s aPAIR_CFG 27 = false
        ∧ s.pair.handover.any (fun y => decide (y.1 ≤ s.pair.expiry + 124400)) = false)
    ∧ (standby { handover := some (1280, 5, 0, 0) }).pair.handover = some (1280, 5, 0, 0) :=
  ⟨test_running_and (by decide), test_running_and (by decide), by decide⟩

theorem test_wit_SwitchoversRun_hoppers :
    (let s := declaring [defKey 1 0 TR_LOS] (withTree { protTypeB := true } (sailing { st := .inStep, refused := [(0, TR_LOS)] }));
      (0, TR_LOS) ∈ s.pair.refused ∧ (0, TR_LOS) ∉ s.pair.heldTriggers ∧ TR_LOS ∈ classCodes 1 ∧ (tree s 0).protTypeB = true
        ∧ trigBy (tree s 0) (declared s 1 0) TR_LOS = true)
    ∧ (let s : State := { s1 with ploamIn := { s1.ploamIn with items := [.entry 0 []], wr := 1 } }
      Running s ∧ (hopOf s 1).map (fun x => (x.rd, x.items)) = some (0, [HItem.entry 0 []]) ∧ hopOf s 2 = none)
    ∧ (Running s1 ∧ (hopOf s1 1).map Hopper.items = some [] ∧ featOn s1 0 = true)
    ∧ (let s : State := { s1 with cmd := { s1.cmd with featD := 0 } }
      Running s ∧ (hopOf s 1).isSome = true ∧ featOn s 0 = false)
    ∧ (Running i2cHeld ∧ i2cHeld.mill.landing = [] ∧ i2cHeld.cmd.waiting = [{ pkt := pkt (.i2cXfer (hdr .board) 7 127 0 2 []) 0x806 }]) :=
  ⟨by decide, test_running_and (by decide), test_running_and (by decide), test_running_and (by decide), test_running_and (by decide)⟩

theorem test_wit_StreamRecordsRun_codeword :
    (let s : State := { standby { st := .inStep, contact := true } with trees := [(0, { st := .serving, grants := [grant0 (some 0)] })] };
      Running s ∧ isStandby s = true
        ∧ (tree s 0).grants.reverse.find? (fun x => decide (x.term = 0) && (x.allocs.map (·.1)).headD 0 = 0 && decide (x.start < 1040)) = some (grant0 (some 0)))
    ∧ (let g := { grant0 (some 0) with decoded := 2, erased := [0] }
      let s : State := { sailing { st := .inStep, contact := true } with trees := [(0, { st := .serving, grants := [g] })] }
      Running s ∧ s.pair.sails = true ∧ g.found.isSome = true
        ∧ [0, 1, 2].filter (fun c => decide (c < g.decoded) && !g.erased.contains c) = [1]) :=
  ⟨test_running_and (by decide), test_running_and (by decide)⟩

theorem test_wit_TimingEventsRun_edges :
    (let s := setRaw (aPCFG 0) 0x80000000 { withTiming { pulses := [(0, { due := some 10 })] } s1 with now := 50 };
      Running s ∧ regBit s (aPCFG 0) 31 = true ∧ (pulseOf s 0).due = some 10 ∧ 10 + 40 ≤ s.now)
    ∧ (let s := setRaw (aPCFG 0) 0x80000000 s1
      Running s ∧ regBit s (aPCFG 0) 31 = true ∧ nextPulse (pulseReady 0 s) 0 (max s.now ((pulseOf s 0).lastEdge + 1)) = none) :=
  ⟨test_running_and (by decide), test_running_and (by decide)⟩

/-! ### Decoding: a packet's bytes written out from Tables 12.1 and 12.10 -/

/-- PLATE_OPEN of bank 1: VERSION 3, FLAGS, OPCODE 0x0200, TAG 7, PLEN 4, SESSION 5, EXEC 0; BANK and three reserved bytes; CRC-32C. -/
def openBytes : List Byte := [3, 0, 2, 0, 0, 7, 0, 4, 0, 0, 0, 5, 0, 0, 0, 0, 1, 0, 0, 0]

theorem test_encode_plateOpen : (encodePacket (.plateOpen (hdr .board) 1)).take 20 = openBytes := by decide
theorem test_decode_plateOpen : decodePacket .board (openBytes ++ [0, 0, 0, 0]) = (some (.plateOpen (hdr .board) 1), 0) := by decide

/-! ### Ill-formed terms, refused by the check they offend -/

theorem test_wf_regWr : (Instr.regWr (hdr .board) 0x28 4 2 [0, 0, 0, 1]).wf = false := by decide
theorem test_wf_plateData : (Instr.plateData (hdr .board) 0 0 [1, 2, 3]).wf = false := by decide
theorem test_wf_fwData : (Instr.fwData (hdr .board) 0 0 [1]).wf = false := by decide
theorem test_wf_copy : (Instr.copy (hdr .pair) 1 1 0 [1, 2]).wf = false := by decide
theorem test_wf_termAdd_slot : (Instr.termAdd (hdr .board) 0 0xFF (.slot 0 0 0 0 0 0 0 0 0)).wf = false := by decide
theorem test_wf_termAdd_settings : (Instr.termAdd (hdr .board) 0 0 (.settings 0 0 0 0 0 0 0 0 0 0)).wf = false := by decide
theorem test_wf_ploamSend : (Instr.ploamSend (hdr .board) 0 0 0 []).wf = false := by decide
theorem test_wf_millSet : (Instr.millSet (hdr .board) 0 0 [0]).wf = false := by decide
theorem test_wf_tribSet : (Instr.tribSet (hdr .board) []).wf = false := by decide
theorem test_wf_screenSet : (Instr.screenSet (hdr .board) []).wf = false := by decide
theorem test_wf_screenGet : (Instr.screenGet (hdr .board) []).wf = false := by decide
theorem test_wf_frerReset : (Instr.frerReset []).wf = false := by decide
theorem test_wf_i2cXfer : (Instr.i2cXfer (hdr .board) 0 0 5 0 [1, 2, 3, 4]).wf = false := by decide
theorem test_wf_ploamIn : (Instr.ploamIn 0 0 0x30 [] ⟨.dflt, none⟩).wf = false := by decide
theorem test_wf_nop : (Instr.nop (hdr .board)).wf = true := by decide

/-! ### A few commands run from the state after reset -/

/-- One field of the state after a command. -/
def after (i : Instr) (s : State) : State := match exec i s with | .next t => t | _ => s

/-- Sequence numbers start at 1 (R360), and an accepted command's reply carries its own. -/
theorem test_run_nop : ((after (.nop (hdr .board)) s1).cmd.board.replies.map (fun r => (r.status, r.dseq))) = [(0, 1)] := by decide
/-- R406: the reply of SNAPSHOT is the counter value of the copy. -/
theorem test_run_snapshot : ((after (.snapshot (hdr .board)) { s1 with now := 0x123456 }).cmd.board.replies.map Reply.params)
    = [[0, 0, 0, 0, 0, 0x12, 0x34, 0x56]] := by decide
/-- R54: a chunk whose length is no multiple of 16 is BAD_PARAM with OFFSET 24, the DATA field. -/
theorem test_run_plateData : ((after (.plateData (hdr .board) 0 16 (List.replicate 12 1)) loading).cmd.board.replies.map (fun r => (r.status, r.params)))
    = [(4, [0, 24, 0, 0])] := by decide
/-- R402: a write with a stale EVT_SEQ clears nothing, at its stroke boundary (R22). -/
theorem test_run_sequenceClear :
    regRaw (landAll 6 (after (.sequenceClear 0x24 0x0107) (setRaw 0x24 0x0003 s1))) 0x24 = 0x0003
    ∧ regRaw (landAll 6 (after (.sequenceClear 0x24 0x0001) (setRaw 0x24 0x0003 s1))) 0x24 = 0x0002
    ∧ regRaw (landAll 5 (after (.sequenceClear 0x24 0x0001) (setRaw 0x24 0x0003 s1))) 0x24 = 0x0003 := by decide
/-- R417: a new owner of PLOAM_IN starts at REL. -/
theorem test_run_owner : (landAll 6 (after (.owner 1 2) { s1 with ploamIn := { s1.ploamIn with rd := 5, rel := 3 } })).ploamIn.rd = 3 := by decide
/-- 03_tree_ports.md, one burst cycle by cycle: 8 codewords without PLOAMu or DBRu carry 14,584 bytes; BRST over [9,960, 9,976). -/
theorem test_burst_example : xgemBytes 8 false 0 = 14584 := by decide
theorem test_brst_example :
    let s := setRaw (aTREE 0 + 0x0C) 0x2810 (withTree { st := .serving, grants := [{ grant0 none with start := 10000, len := 3659 }] } s1)
    [9959, 9960, 9975, 9976].map (brstOn s 0) = [false, true, true, false] := by decide
/-- 15_pinout.md: tree 37's TXP is at CN46, uplink lane 13's at BE66; a 330 µF capacitor at end of life holds enough from 11.35 V. -/
theorem test_ball_examples : sigBall (.treeTx 37 false) = ⟨70, 46⟩ ∧ rowName 70 = "CN".toList ∧ sigBall (.sd 37) = ⟨68, 45⟩
    ∧ sigBall (.ulTx 13 false) = ⟨43, 66⟩ ∧ rowName 43 = "BE".toList ∧ sigBall (.ulRx 13 true) = ⟨44, 65⟩ := by decide
theorem test_hold_example : holdOk 237600 11350 = true := by decide
/-- R303: on an empty queue the counter advances by one. -/
theorem test_run_idle : step s1 = .next { s1 with now := 1 } := rfl

end Sys2Proof.Tests
end

section
/-! PROOFS. The lasting part of a state (the queue, the fused part, the images in the plate banks and in MRAM), and what each function of the model does
to it: nothing. -/

namespace Sys2Proof.Machine

open Config

/-- What a step keeps of a state, as `Kept` speaks of it, and what else it may not touch: the queue, the fused part, and the images in the two plate banks
and in MRAM. -/
structure Lasting where
  queue : List Instr
  fuse : Fuse
  image0 : Map Byte
  image1 : Map Byte
  mram : Option (Map Byte)

/-- The lasting part of a state. -/
def lasting (s : State) : Lasting := ⟨s.pending, s.fuse, s.plates.bank0.image, s.plates.bank1.image, s.plates.mram.map Prod.snd⟩

/-- The image of a bank. -/
def Lasting.image (l : Lasting) (b : Bool) : Map Byte := if b then l.image1 else l.image0

theorem bank_image (s : State) (b : Bool) : (bank s b).image = (lasting s).image b := by cases b <;> rfl

/-- An update that leaves the queue, the fused part and the images alone. -/
@[simp] theorem lasting_mk (s : State)
    (free now strokeNext imprNext imprNum imprAt imprCount phaseOff regs cnt hold cyc cntWrap cntKeep holdWrap holdKeep snapNum snapAt snapCycle
    bwMs bwStatus bwAt rates bwSrc bwPart bwFrom bwAll cmd evt evtRun ploamIn tsHops plates trees terms taps keys mill tribs screens ports
    defects timing time pair power seen)
    (h0 : plates.bank0.image = s.plates.bank0.image) (h1 : plates.bank1.image = s.plates.bank1.image)
    (hm : plates.mram.map Prod.snd = s.plates.mram.map Prod.snd) :
    lasting { s with
      free, now, strokeNext, imprNext, imprNum, imprAt, imprCount, phaseOff, regs, cnt, hold, cyc, cntWrap, cntKeep, holdWrap, holdKeep, snapNum,
      snapAt, snapCycle, bwMs, bwStatus, bwAt, rates, bwSrc, bwPart, bwFrom, bwAll, cmd, evt, evtRun, ploamIn, tsHops, plates, trees, terms, taps,
      keys, mill, tribs, screens, ports, defects, timing, time, pair, power, seen } = lasting s := by
  unfold lasting; rw [h0, h1, hm]

/-- A bank whose image stays. -/
@[simp] theorem lasting_setBank {b : Bool} {x : Bank} {s : State} (h : x.image = (bank s b).image) : lasting (setBank b x s) = lasting s := by
  cases b <;> simp [lasting, setBank, bank, h] at *

@[simp] theorem lasting_ite (c : Prop) [Decidable c] (s t : State) : lasting (if c then s else t) = if c then lasting s else lasting t :=
  apply_ite ..

@[simp] theorem lasting_ite_res (c : Prop) [Decidable c] (x y : Res) :
    lasting (if c then x else y).s = if c then lasting x.s else lasting y.s := by split <;> rfl

section
variable {α β γ : Type}

@[simp] theorem lasting_ite_snd (c : Prop) [Decidable c] (x y : β × State) :
    lasting (if c then x else y).2 = if c then lasting x.2 else lasting y.2 := by split <;> rfl

@[simp] theorem lasting_ite_snd_snd (c : Prop) [Decidable c] (x y : β × γ × State) :
    lasting (if c then x else y).2.2 = if c then lasting x.2.2 else lasting y.2.2 := by split <;> rfl

/-- The state of a pair that has been taken apart. -/
theorem lasting_of_eq {x : β × State} {b : β} {s t : State} (e : x = (b, t)) (h : lasting x.2 = lasting s) : lasting t = lasting s := by
  rw [e] at h; exact h

@[simp] theorem lasting_foldl {g : State → α → State} (l : List α) (s : State) (h : ∀ s x, lasting (g s x) = lasting s) :
    lasting (l.foldl g s) = lasting s := by
  induction l generalizing s with
  | nil => rfl
  | cons x l ih => rw [List.foldl_cons, ih, h]

theorem lasting_foldl_fst {g : State × β → α → State × β} (l : List α) (x : State × β) (h : ∀ x a, lasting (g x a).1 = lasting x.1) :
    lasting (l.foldl g x).1 = lasting x.1 := by
  induction l generalizing x with
  | nil => rfl
  | cons a l ih => rw [List.foldl_cons, ih, h]

theorem lasting_foldl_snd {g : β × State → α → β × State} (l : List α) (x : β × State) (h : ∀ x a, lasting (g x a).2 = lasting x.2) :
    lasting (l.foldl g x).2 = lasting x.2 := by
  induction l generalizing x with
  | nil => rfl
  | cons a l ih => rw [List.foldl_cons, ih, h]

theorem lasting_getD_map {o : Option α} {f : α → State} {s t : State} (h : ∀ x, lasting (f x) = lasting t) (hs : lasting s = lasting t) :
    lasting ((o.map f).getD s) = lasting t := by
  cases o with
  | none => exact hs
  | some x => exact h x

end

/-! ### Ops.lean -/

@[simp] theorem lasting_setTree (n : Nat) (t : Tree) (s : State) : lasting (setTree n t s) = lasting s := by simp [setTree]

@[simp] theorem lasting_updTree (n : Nat) (f : Tree → Tree) (s : State) : lasting (updTree n f s) = lasting s := by simp [updTree]

@[simp] theorem lasting_setTerm (g : Nat) (t : Term) (s : State) : lasting (setTerm g t s) = lasting s := by simp [setTerm]

@[simp] theorem lasting_updTerm (g : Nat) (f : Term → Term) (s : State) : lasting (updTerm g f s) = lasting s := by simp [updTerm]

@[simp] theorem lasting_setPort (p : Nat) (u : UPort) (s : State) : lasting (setPort p u s) = lasting s := by simp [setPort]

@[simp] theorem lasting_updPort (p : Nat) (f : UPort → UPort) (s : State) : lasting (updPort p f s) = lasting s := by simp [updPort]

@[simp] theorem lasting_setTrib (f : Nat) (t : Trib) (s : State) : lasting (setTrib f t s) = lasting s := by simp [setTrib]

@[simp] theorem lasting_setLane (k : Nat) (l : Lane) (s : State) : lasting (setLane k l s) = lasting s := by simp [setLane]

@[simp] theorem lasting_setKey (i : Nat) (k : KeySet) (s : State) : lasting (setKey i k s) = lasting s := by simp [setKey]

@[simp] theorem lasting_setTdom (b : Bool) (d : TDom) (s : State) : lasting (setTdom b d s) = lasting s := by simp [setTdom]

@[simp] theorem lasting_setRef (r : Nat) (x : Ref) (s : State) : lasting (setRef r x s) = lasting s := by simp [setRef]

@[simp] theorem lasting_setPortSt (p : Port) (x : PortState) (s : State) : lasting (setPortSt p x s) = lasting s := by
  unfold setPortSt
  split <;> simp

@[simp] theorem lasting_fresh (s : State) : lasting (fresh s).2 = lasting s := by simp [fresh]

@[simp] theorem lasting_tick (s : State) : lasting (tick s) = lasting s := by simp [tick]

@[simp] theorem lasting_advance (t : Nat) (s : State) : lasting (advance t s) = lasting s := by simp [advance]

@[simp] theorem lasting_post (x : Landing) (s : State) : lasting (post x s) = lasting s := by simp [post]

@[simp] theorem lasting_takeSample (s : State) : lasting (takeSample s) = lasting s := by simp [takeSample]

@[simp] theorem lasting_bump (a n : Nat) (s : State) : lasting (bump a n s) = lasting s := by simp [bump]

@[simp] theorem lasting_unbump (a n : Nat) (s : State) : lasting (unbump a n s) = lasting s := by simp [unbump]

@[simp] theorem lasting_bumpS (a : Nat) (i : Int) (s : State) : lasting (bumpS a i s) = lasting s := by simp [bumpS]

@[simp] theorem lasting_cntRestart (a : Nat) (s : State) : lasting (cntRestart a s) = lasting s := by simp [cntRestart]

@[simp] theorem lasting_setHop (h : Nat) (x : Hopper) (s : State) : lasting (setHop h x s) = lasting s := by simp [setHop]

/-! ### Regs.lean -/

@[simp] theorem lasting_setRaw (a : Nat) (w : Word) (s : State) : lasting (setRaw a w s) = lasting s := by simp [setRaw]

/-! ### Flags.lean -/

@[simp] theorem lasting_sigMsix (v : Nat) (s : State) : lasting (sigMsix v s) = lasting s := by simp [sigMsix]

@[simp] theorem lasting_scEvent (a : Nat) (bits : Word) (s : State) : lasting (scEvent a bits s) = lasting s := by simp [scEvent]

@[simp] theorem lasting_hopLevel (h : Nat) (x : Hopper) (r0 r1 : Nat) (s : State) : lasting (hopLevel h x r0 r1 s) = lasting s := by simp [hopLevel]

@[simp] theorem lasting_evtPush (src : Nat) (mk : BitVec 32 → List Byte) (s : State) : lasting (evtPush src mk s) = lasting s := by simp [evtPush]

@[simp] theorem lasting_evtRaw (code cls b0 b1 idx : Nat) (d : List Byte) (targets : List (Nat × Word)) (s : State) :
    lasting (evtRaw code cls b0 b1 idx d targets s) = lasting s := by simp [evtRaw]

@[simp] theorem lasting_event (code cls idx : Nat) (d : List Byte) (s : State) : lasting (event code cls idx d s) = lasting s := by simp [event]

@[simp] theorem lasting_defEvent (set : Bool) (cls idx code cause : Nat) (s : State) : lasting (defEvent set cls idx code cause s) = lasting s := by
  simp [defEvent]

@[simp] theorem lasting_hopPushN (h : Nat) (mk : BitVec 32 → List Byte) (s : State) : lasting (hopPushN h mk s) = lasting s := by
  unfold hopPushN
  split <;> simp

@[simp] theorem lasting_hopReset (h : Nat) (s : State) : lasting (hopReset h s) = lasting s := by
  unfold hopReset
  split <;> simp

@[simp] theorem lasting_hopCorrected (h : Nat) (s : State) : lasting (hopCorrected h s) = lasting s := by simp [hopCorrected]

@[simp] theorem lasting_eccEvent (store w : Nat) (s : State) : lasting (eccEvent store w s) = lasting s := by simp [eccEvent]

@[simp] theorem lasting_hopEcc (h : Nat) (s : State) : lasting (hopEcc h s) = lasting s := by
  unfold hopEcc
  split <;> simp

/-! ### Operands.lean -/

@[simp] theorem lasting_resOk (p : List Byte) (s : State) : lasting (resOk p s).s = lasting s := by simp [resOk]

@[simp] theorem lasting_resAcc (p : List Byte) (s : State) : lasting (resAcc p s).s = lasting s := by simp [resAcc]

@[simp] theorem lasting_resBad (off : Nat) (s : State) : lasting (resBad off s).s = lasting s := by simp [resBad]

@[simp] theorem lasting_resBadCause (off cause : Nat) (s : State) : lasting (resBadCause off cause s).s = lasting s := by simp [resBadCause]

@[simp] theorem lasting_resWidth (a : Nat) (s : State) : lasting (resWidth a s).s = lasting s := by simp [resWidth]

@[simp] theorem lasting_resAlign (a : Nat) (s : State) : lasting (resAlign a s).s = lasting s := by simp [resAlign]

@[simp] theorem lasting_resLocked (a : Nat) (s : State) : lasting (resLocked a s).s = lasting s := by simp [resLocked]

@[simp] theorem lasting_resLate (now earliest : Nat) (s : State) : lasting (resLate now earliest s).s = lasting s := by simp [resLate]

@[simp] theorem lasting_resConflict (kind ix : Nat) (s : State) : lasting (resConflict kind ix s).s = lasting s := by simp [resConflict]

@[simp] theorem lasting_resBusy (s : State) : lasting (resBusy s).s = lasting s := by simp [resBusy]

@[simp] theorem lasting_resNotNeg (bit : Nat) (s : State) : lasting (resNotNeg bit s).s = lasting s := by simp [resNotNeg]

@[simp] theorem lasting_resRejected (code : Nat) (s : State) : lasting (resRejected code s).s = lasting s := by simp [resRejected]

@[simp] theorem lasting_resStale (s : State) : lasting (resStale s).s = lasting s := by simp [resStale]

@[simp] theorem lasting_resPriv (p : Port) (op : Nat) (s : State) : lasting (resPriv p op s).s = lasting s := by simp [resPriv]

@[simp] theorem lasting_resWait (s : State) : lasting (resWait s).s = lasting s := by simp [resWait]

/-! ### Intake.lean -/

@[simp] theorem lasting_postReply (r : Reply) (s : State) : lasting (postReply r s) = lasting s := by
  unfold postReply
  split <;> simp

@[simp] theorem lasting_freeCredit (p : Port) (s : State) : lasting (freeCredit p s) = lasting s := by simp [freeCredit]

@[simp] theorem lasting_refuseIntake (p : Port) (op : Nat) (tag : BitVec 16) (st : Nat) (det : List Byte) (s : State) :
    lasting (refuseIntake p op tag st det s) = lasting s := by
  unfold refuseIntake
  repeat' split
  all_goals simp

@[simp] theorem lasting_accept (h : Hdr) (op : Nat) (c : Option Instr) (badAt : Nat) (s : State) : lasting (accept h op c badAt s).2 = lasting s := by
  simp [accept]

@[simp] theorem lasting_sendRec (s : State) (r : StreamRec) : lasting (sendRec s r) = lasting s := by simp [sendRec]

@[simp] theorem lasting_sendRecs (l : List StreamRec) (s : State) : lasting (sendRecs l s) = lasting s := by simp [sendRecs]

@[simp] theorem lasting_streamAt (t : Nat) (b : Rec) (s : State) : lasting (streamAt t b s) = lasting s := by simp [streamAt]

@[simp] theorem lasting_streamPush (b : Rec) (s : State) : lasting (streamPush b s) = lasting s := by simp [streamPush]

@[simp] theorem lasting_mirrorBar (a : Nat) (v : Word) (s : State) : lasting (mirrorBar a v s) = lasting s := by simp [mirrorBar]

@[simp] theorem lasting_markEff (q : BitVec 32) (s : State) : lasting (markEff q s) = lasting s := by simp [markEff]

@[simp] theorem lasting_tookEffect (n : Nat) (k : Pkt) (s : State) : lasting (tookEffect n k s) = lasting s := by
  unfold tookEffect
  repeat' split
  all_goals simp

@[simp] theorem lasting_finish (k : Pkt) (held : Bool) (st : Nat) (params : List Byte) (s : State) :
    lasting (finish k held st params s) = lasting s := by simp [finish]

@[simp] theorem lasting_mirror (t : Nat) (k : Pkt) (s : State) : lasting (mirror t k s) = lasting s := by
  unfold mirror
  split <;> simp

@[simp] theorem lasting_told (k : Pkt) (s : State) : lasting (told k s) = lasting s := by simp [told]

@[simp] theorem lasting_postCmd (timed : Bool) (k : Pkt) (s : State) : lasting (postCmd timed k s) = lasting s := by simp [postCmd]

@[simp] theorem lasting_enqueue (k : Pkt) (s : State) : lasting (enqueue k s) = lasting s := by simp [enqueue]

/-! ### Defects.lean -/

@[simp] theorem lasting_tellDefect (cls n code : Nat) (on : Bool) (s : State) : lasting (tellDefect cls n code on s) = lasting s := by simp [tellDefect]

@[simp] theorem lasting_estEmpty (f : Nat → Bool) (s : State) : lasting (estEmpty f s) = lasting s := by simp [estEmpty]

@[simp] theorem lasting_tribsAfresh (f : Nat → Bool) (s : State) : lasting (tribsAfresh f s) = lasting s := by simp [tribsAfresh]

@[simp] theorem lasting_estLift (cls idx code : Nat) (s : State) : lasting (estLift cls idx code s) = lasting s := by simp [estLift]

@[simp] theorem lasting_defClear (cls idx code cause : Nat) (s : State) : lasting (defClear cls idx code cause s) = lasting s := by simp [defClear]

@[simp] theorem lasting_sweepMasked (s : State) : lasting (sweepMasked s) = lasting s := by simp [sweepMasked]

@[simp] theorem lasting_defSet (cls idx code : Nat) (s : State) : lasting (defSet cls idx code s) = lasting s := by simp [defSet]

@[simp] theorem lasting_defLeave (cls idx : Nat) (s : State) : lasting (defLeave cls idx s) = lasting s := by simp [defLeave]

@[simp] theorem lasting_sweepLeft (s : State) : lasting (sweepLeft s) = lasting s := by simp [sweepLeft]

@[simp] theorem lasting_protStroke (s : State) : lasting (protStroke s) = lasting s := by simp [protStroke]

@[simp] theorem lasting_leaseSend (k : LeaseKind) (num e : Nat) (s : State) : lasting (leaseSend k num e s) = lasting s := by simp [leaseSend]

@[simp] theorem lasting_pushDelivered (s : State) : lasting (pushDelivered s) = lasting s := by simp [pushDelivered]

@[simp] theorem lasting_delivers (f : Nat) (q : BitVec 32) (s : State) : lasting (delivers f q s) = lasting s := by simp [delivers]

@[simp] theorem lasting_switchTake (s : State) : lasting (switchTake s) = lasting s := by simp [switchTake]

@[simp] theorem lasting_dropHandover (s : State) : lasting (dropHandover s) = lasting s := by simp [dropHandover]

@[simp] theorem lasting_releaseAt (form cause tr t : Nat) (s : State) : lasting (releaseAt form cause tr t s) = lasting s := by simp [releaseAt]

@[simp] theorem lasting_feederTrigger (n c d : Nat) (s : State) : lasting (feederTrigger n c d s) = lasting s := by simp [feederTrigger]

@[simp] theorem lasting_askTrigger (n c : Nat) (s : State) : lasting (askTrigger n c s) = lasting s := by simp [askTrigger]

@[simp] theorem lasting_judgeTriggers (s : State) : lasting (judgeTriggers s) = lasting s := by simp [judgeTriggers]

@[simp] theorem lasting_treeDefect (n code : Nat) (s : State) : lasting (treeDefect n code s) = lasting s := by simp [treeDefect]

@[simp] theorem lasting_estAdd (cls idx u n : Nat) (s : State) : lasting (estAdd cls idx u n s) = lasting s := by simp [estAdd]

@[simp] theorem lasting_estOne (cls idx code e : Nat) (cfg : EstCfg) (l : List (Nat × Nat)) (s : State) :
    lasting (estOne cls idx code e cfg l s) = lasting s := by
  unfold estOne
  repeat' split
  all_goals simp

@[simp] theorem lasting_estSlot (cls idx sd sf : Nat) (cfg : EstCfg) (s : State) : lasting (estSlot cls idx sd sf cfg s) = lasting s := by simp [estSlot]

@[simp] theorem lasting_estDrop (cls idx : Nat) (s : State) : lasting (estDrop cls idx s) = lasting s := by simp [estDrop]

/-! ### PairCore.lean -/

@[simp] theorem lasting_loseReceived (s : State) : lasting (loseReceived s) = lasting s := by simp [loseReceived]

@[simp] theorem lasting_loseFrames (s : State) : lasting (loseFrames s) = lasting s := by simp [loseFrames]

@[simp] theorem lasting_flushMill (s : State) : lasting (flushMill s) = lasting s := by simp [flushMill]

@[simp] theorem lasting_freeReplies (s : State) : lasting (freeReplies s) = lasting s := by simp [freeReplies]

@[simp] theorem lasting_switchEvent (form cause tr : Nat) (s : State) : lasting (switchEvent form cause tr s) = lasting s := by simp [switchEvent]

@[simp] theorem lasting_cutFrames (s : State) : lasting (cutFrames s) = lasting s := by
  refine lasting_foldl _ _ fun s p => ?_
  dsimp only
  split <;> simp

@[simp] theorem lasting_feather (s : State) : lasting (feather s) = lasting s := by simp [feather]

@[simp] theorem lasting_releaseLease (cause : Nat) (s : State) : lasting (releaseLease cause s) = lasting s := by simp [releaseLease]

@[simp] theorem lasting_leavePair (s : State) : lasting (leavePair s) = lasting s := by simp [leavePair]

@[simp] theorem lasting_stopUnit (cause : Nat) (s : State) : lasting (stopUnit cause s) = lasting s := by simp [stopUnit]

@[simp] theorem lasting_fenceEvent (cause : Nat) (s : State) : lasting (fenceEvent cause s) = lasting s := by simp [fenceEvent]

@[simp] theorem lasting_txFrom (s : State) : lasting (txFrom s) = lasting s := by simp [txFrom]

@[simp] theorem lasting_raiseSails (s : State) : lasting (raiseSails s) = lasting s := by simp [raiseSails]

@[simp] theorem lasting_tsGap (s : State) : lasting (tsGap s) = lasting s := by simp [tsGap]

@[simp] theorem lasting_switchCmd (s : State) : lasting (switchCmd s) = lasting s := by simp [switchCmd]

@[simp] theorem lasting_giveSails (form cause tr : Nat) (s : State) : lasting (giveSails form cause tr s) = lasting s := by simp [giveSails]

@[simp] theorem lasting_dropReply (p : Nat) (s : State) : lasting (dropReply p s) = lasting s := by simp [dropReply]

@[simp] theorem lasting_portLeaves (p : Nat) (s : State) : lasting (portLeaves p s) = lasting s := by simp [portLeaves]

@[simp] theorem lasting_portStarts (p : Nat) (s : State) : lasting (portStarts p s) = lasting s := by simp [portStarts]

@[simp] theorem lasting_portsFollow (was : List Nat) (s : State) : lasting (portsFollow was s) = lasting s := by simp [portsFollow]

@[simp] theorem lasting_countFromZero (s : State) : lasting (countFromZero s) = lasting s := by simp [countFromZero]

@[simp] theorem lasting_postCut (s : State) : lasting (postCut s) = lasting s := by simp [postCut]

@[simp] theorem lasting_startQuick (s : State) : lasting (startQuick s) = lasting s := by simp [startQuick]

/-! ### PowerCore.lean -/

@[simp] theorem lasting_setPwr (d : Nat) (x : PwrSt) (s : State) : lasting (setPwr d x s) = lasting s := by simp [setPwr]

@[simp] theorem lasting_pwrUp (d : Nat) (s : State) : lasting (pwrUp d s) = lasting s := by simp [pwrUp]

@[simp] theorem lasting_domRestart (d : Nat) (s : State) : lasting (domRestart d s) = lasting s := by simp [domRestart]

@[simp] theorem lasting_domOn (d : Nat) (s : State) : lasting (domOn d s) = lasting s := by simp [domOn]

@[simp] theorem lasting_domOff (d : Nat) (s : State) : lasting (domOff d s) = lasting s := by simp [domOff]

/-! ### TimeCore.lean -/

@[simp] theorem lasting_keepSet (b : Bool) (c : Nat) (s : State) : lasting (keepSet b c s) = lasting s := by simp [keepSet]

@[simp] theorem lasting_noteRate (b : Bool) (s : State) : lasting (noteRate b s) = lasting s := by simp [noteRate]

@[simp] theorem lasting_setRate1 (b : Bool) (r : Int) (s : State) : lasting (setRate1 b r s) = lasting s := by simp [setRate1]

@[simp] theorem lasting_setRate (b : Bool) (r : Int) (s : State) : lasting (setRate b r s) = lasting s := by simp [setRate]

@[simp] theorem lasting_moveDom1 (b : Bool) (st : DomSt) (cause : Nat) (s : State) : lasting (moveDom1 b st cause s) = lasting s := by simp [moveDom1]

@[simp] theorem lasting_adoptDom (b : Bool) (d : TDom) (s : State) : lasting (adoptDom b d s) = lasting s := by simp [adoptDom]

@[simp] theorem lasting_moveDom (b : Bool) (st : DomSt) (cause : Nat) (s : State) : lasting (moveDom b st cause s) = lasting s := by simp [moveDom]

@[simp] theorem lasting_holdDom (b path : Bool) (cause : Nat) (s : State) : lasting (holdDom b path cause s) = lasting s := by simp [holdDom]

@[simp] theorem lasting_stepDom (b : Bool) (amount : Int) (cause : Nat) (s : State) : lasting (stepDom b amount cause s) = lasting s := by simp [stepDom]

@[simp] theorem lasting_selectDom (b : Bool) (s : State) : lasting (selectDom b s) = lasting s := by simp [selectDom]

@[simp] theorem lasting_askSel (b : Bool) (s : State) : lasting (askSel b s) = lasting s := by simp [askSel]

/-! ### Plates.lean -/

@[simp] theorem lasting_cancelTurn (code : Nat) (s : State) : lasting (cancelTurn code s) = lasting s := by
  unfold cancelTurn
  split <;> simp

@[simp] theorem lasting_dropTurnOf (b : Bool) (s : State) : lasting (dropTurnOf b s) = lasting s := by simp [dropTurnOf]

@[simp] theorem lasting_scheduleTurn (b : Bool) (id : BitVec 128) (target : BitVec 32) (at_ : Nat) (first : Bool) (s : State) :
    lasting (scheduleTurn b id target at_ first s).s = lasting s := by simp [scheduleTurn]

@[simp] theorem lasting_turnPlace (h : Hdr) (b : Bool) (id : BitVec 128) (target : Word) (t : Nat) (s : State) :
    lasting (turnPlace h b id target t s).s = lasting s := by simp [turnPlace]

@[simp] theorem lasting_turnRun (h : Hdr) (bk : BitVec 8) (id : BitVec 128) (target : Word) (s : State) :
    lasting (turnRun h bk id target s).s = lasting s := by
  unfold turnRun
  dsimp only
  split <;> simp

@[simp] theorem lasting_opPlateProof (h : Hdr) (bk : BitVec 8) (s : State) : lasting ((opPlateProof h bk).run s).s = lasting s := by
  simp [opPlateProof, bank_image]

@[simp] theorem lasting_opPlateTurn (h : Hdr) (bk : BitVec 8) (id : BitVec 128) (target : Word) (s : State) :
    lasting ((opPlateTurn h bk id target).run s).s = lasting s := by simp [opPlateTurn]

@[simp] theorem lasting_opPlateInfo (h : Hdr) (bk : BitVec 8) (s : State) : lasting ((opPlateInfo h bk).run s).s = lasting s := by simp [opPlateInfo]

@[simp] theorem lasting_turnCutoff (s : State) : lasting (turnCutoff s) = lasting s := by
  simp only [turnCutoff]
  repeat' split
  all_goals simp

@[simp] theorem lasting_turnLead (s : State) : lasting (turnLead s) = lasting s := by
  unfold turnLead
  split <;> simp [bank_image]

@[simp] theorem lasting_plateEcc (word : Word) (s : State) : lasting (plateEcc word s) = lasting s := by simp [plateEcc]

@[simp] theorem lasting_failTurn (s : State) : lasting (failTurn s) = lasting s := by
  unfold failTurn
  split <;> simp

/-! ### Session.lean -/

@[simp] theorem lasting_opNop (s : State) : lasting (opNop.run s).s = lasting s := by simp [opNop]

@[simp] theorem lasting_cutSessions (s : State) : lasting (cutSessions s) = lasting s := by simp [cutSessions]

@[simp] theorem lasting_opFeatures (h : Hdr) (set : BitVec 8) (mask : BitVec 64) (s : State) :
    lasting ((opFeatures h set mask).run s).s = lasting s := by simp [opFeatures]

@[simp] theorem lasting_fenceOn (cause : Nat) (s : State) : lasting (fenceOn cause s) = lasting s := by simp [fenceOn]

@[simp] theorem lasting_fenceLifted (s : State) : lasting (fenceLifted s) = lasting s := by simp [fenceLifted]

@[simp] theorem lasting_opFence (action : BitVec 8) (s : State) : lasting ((opFence action).run s).s = lasting s := by simp [opFence]

@[simp] theorem lasting_snapshotAll (s : State) : lasting (snapshotAll s) = lasting s := by simp [snapshotAll]

@[simp] theorem lasting_opSnapshot (s : State) : lasting (opSnapshot.run s).s = lasting s := by simp [opSnapshot]

@[simp] theorem lasting_opCntRead (addr : Word) (count : BitVec 16) (s : State) : lasting ((opCntRead addr count).run s).s = lasting s := by simp [opCntRead]

@[simp] theorem lasting_opDefectGet (cls flags : BitVec 8) (ix : BitVec 16) (s : State) : lasting ((opDefectGet cls flags ix).run s).s = lasting s := by
  simp [opDefectGet]

@[simp] theorem lasting_opDefectCfg (kind sd sf : BitVec 8) (setT clrT : BitVec 16) (s : State) :
    lasting ((opDefectCfg kind sd sf setT clrT).run s).s = lasting s := by simp [opDefectCfg]

@[simp] theorem lasting_opBwWindow (ms : Word) (s : State) : lasting ((opBwWindow ms).run s).s = lasting s := by simp [opBwWindow]

@[simp] theorem lasting_consumer (h : Hdr) (hop : BitVec 16) {f : Hopper → State → Res} (hf : ∀ x s, lasting (f x s).s = lasting s) (s : State) :
    lasting (consumer h hop f s).s = lasting s := by
  unfold consumer
  split <;> simp [hf]

@[simp] theorem lasting_putHop (hop : Nat) (x' : Hopper) (s : State) : lasting (putHop hop x' s) = lasting s := by
  unfold putHop
  split <;> simp

@[simp] theorem lasting_hopReadRes (hop : BitVec 16) (count : Nat) (peek : Bool) (x : Hopper) (s : State) :
    lasting (hopReadRes hop count peek x s).s = lasting s := by simp [hopReadRes]

@[simp] theorem lasting_opHopRead (h : Hdr) (hop count : BitVec 16) (flags : BitVec 8) (s : State) :
    lasting ((opHopRead h hop count flags).run s).s = lasting s := by
  simp only [opHopRead]
  repeat' split
  all_goals simp

@[simp] theorem lasting_opHopMark (h : Hdr) (hop : BitVec 16) (s : State) : lasting ((opHopMark h hop).run s).s = lasting s := by simp [opHopMark]

@[simp] theorem lasting_opHopRewind (h : Hdr) (hop : BitVec 16) (s : State) : lasting ((opHopRewind h hop).run s).s = lasting s := by simp [opHopRewind]

@[simp] theorem lasting_opHopRelease (h : Hdr) (hop : BitVec 16) (q : Word) (s : State) : lasting ((opHopRelease h hop q).run s).s = lasting s := by
  simp [opHopRelease]

@[simp] theorem lasting_setOwner (hop : Nat) (o : BitVec 2) (s : State) : lasting (setOwner hop o s) = lasting s := by
  unfold setOwner
  split <;> simp

@[simp] theorem lasting_setLevel (hop l : Nat) (s : State) : lasting (setLevel hop l s) = lasting s := by
  unfold setLevel
  split <;> simp

@[simp] theorem lasting_opHopCfg (h : Hdr) (hop : BitVec 16) (owner : BitVec 8) (level : Word) (s : State) :
    lasting ((opHopCfg h hop owner level).run s).s = lasting s := by simp [opHopCfg]

/-! ### TermCore.lean -/

@[simp] theorem lasting_tellTerm (g : Nat) (s : State) : lasting (tellTerm g s) = lasting s := by simp [tellTerm]

@[simp] theorem lasting_dropTaps (g : Nat) (s : State) : lasting (dropTaps g s) = lasting s := by simp [dropTaps]

@[simp] theorem lasting_queueMsg (n : Nat) (slot : Option Nat) (k : PKind) (value : Nat) (s : State) :
    lasting (queueMsg n slot k value s) = lasting s := by simp [queueMsg]

@[simp] theorem lasting_dropMsgs (g : Nat) (f : PKind → Bool) (s : State) : lasting (dropMsgs g f s) = lasting s := by simp [dropMsgs]

@[simp] theorem lasting_sendRanging (g : Nat) (drift : Bool) (s : State) : lasting (sendRanging g drift s) = lasting s := by simp [sendRanging]

@[simp] theorem lasting_sendProfiles (g : Nat) (l : List Nat) (change : Bool) (rate : Nat) (s : State) :
    lasting (sendProfiles g l change rate s) = lasting s := by simp [sendProfiles]

@[simp] theorem lasting_sendAct (g : Nat) (k : PKind) (s : State) : lasting (sendAct g k s) = lasting s := by
  unfold sendAct
  split <;> simp

@[simp] theorem lasting_queueBand (g : Nat) (s : State) : lasting (queueBand g s) = lasting s := by simp [queueBand]

@[simp] theorem lasting_cdrAdjust (g : Nat) (d : Int) (s : State) : lasting (cdrAdjust g d s) = lasting s := by simp [cdrAdjust]

@[simp] theorem lasting_driftTo (g eqd : Nat) (s : State) : lasting (driftTo g eqd s) = lasting s := by simp [driftTo]

@[simp] theorem lasting_requeueBand (g : Nat) (s : State) : lasting (requeueBand g s) = lasting s := by simp [requeueBand]

@[simp] theorem lasting_termService (g : Nat) (st : TermSt) (s : State) : lasting (termService g st s) = lasting s := by simp [termService]

@[simp] theorem lasting_moveTerm (g : Nat) (st : TermSt) (cause : Nat) (s : State) : lasting (moveTerm g st cause s) = lasting s := by simp [moveTerm]

@[simp] theorem lasting_rangeFail (g cause : Nat) (s : State) : lasting (rangeFail g cause s) = lasting s := by simp [rangeFail]

@[simp] theorem lasting_rangeMiss (g : Nat) (again : Bool) (s : State) : lasting (rangeMiss g again s) = lasting s := by simp [rangeMiss]

@[simp] theorem lasting_discover (g rc : Nat) (s : State) : lasting (discover g rc s) = lasting s := by simp [discover]

@[simp] theorem lasting_ranged (g rtd : Nat) (s : State) : lasting (ranged g rtd s) = lasting s := by simp [ranged]

@[simp] theorem lasting_actStep (g : Nat) (s : State) : lasting (actStep g s) = lasting s := by simp [actStep]

@[simp] theorem lasting_termLos (g : Nat) (s : State) : lasting (termLos g s) = lasting s := by simp [termLos]

@[simp] theorem lasting_oogEvent (n : Nat) (s : State) : lasting (oogEvent n s) = lasting s := by simp [oogEvent]

/-! ### Line.lean -/

@[simp] theorem lasting_respFound (n delim : Nat) (s : State) : lasting (respFound n delim s) = lasting s := by simp [respFound]

@[simp] theorem lasting_tapsLive (n : Nat) (s : State) : lasting (tapsLive n s) = lasting s := by simp [tapsLive]

/-! ### TribCore.lean -/

@[simp] theorem lasting_oversize (f d len : Nat) (s : State) : lasting (oversize f d len s) = lasting s := by simp [oversize]

@[simp] theorem lasting_rdiCapture (p : Plate) (n b : Nat) (s : State) : lasting (rdiCapture p n b s) = lasting s := by simp [rdiCapture]

@[simp] theorem lasting_storePut (f : Nat) (p : List Byte) (s : State) : lasting (storePut f p s) = lasting s := by simp [storePut]

@[simp] theorem lasting_tribStream (f : Nat) (l : List Byte) (s : State) : lasting (tribStream f l s) = lasting s := by
  simp only [tribStream]
  repeat' split
  all_goals simp

@[simp] theorem lasting_tribPacket (f d : Nat) (l : List Byte) (s : State) : lasting (tribPacket f d l s) = lasting s := by simp [tribPacket]

@[simp] theorem lasting_tribStore (f d : Nat) (p : Option Nat) (l : List Byte) (s : State) : lasting (tribStore f d p l s) = lasting s := by
  unfold tribStore
  split <;> simp

/-! ### MillCore.lean -/

@[simp] theorem lasting_updLane (k : Nat) (f : Lane → Lane) (s : State) : lasting (updLane k f s) = lasting s := by simp [updLane]

@[simp] theorem lasting_weirEnter (k : Nat) (fr : Frame) (s : State) : lasting (weirEnter k fr s) = lasting s := by simp [weirEnter]

@[simp] theorem lasting_fillPurge (cs : List Cal) (k n : Nat) (s : State) : lasting (fillPurge cs k n s) = lasting s := by
  induction n generalizing s with
  | zero => rfl
  | succ n ih =>
    unfold fillPurge
    dsimp only
    split <;> simp [ih]

@[simp] theorem lasting_enterAt (k : Nat) (r : Route) (port : Option Nat) (fr : Frame) (s : State) : lasting (enterAt k r port fr s) = lasting s := by
  unfold enterAt
  split <;> simp

@[simp] theorem lasting_enterCanon (r : Route) (port : Option Nat) (fr : Frame) (s : State) : lasting (enterCanon r port fr s) = lasting s := by
  simp [enterCanon]

@[simp] theorem lasting_keepCopy (down old : Bool) (tag : Option (BitVec 16)) (fr : Frame) (s : State) :
    lasting (keepCopy down old tag fr s) = lasting s := by simp [keepCopy]

@[simp] theorem lasting_repairSend (b : Rec) (s : State) : lasting (repairSend b s) = lasting s := by simp [repairSend]

@[simp] theorem lasting_tellFrame (lack : Bool) (lane : Nat) (fr : Frame) (s : State) : lasting (tellFrame lack lane fr s) = lasting s := by simp [tellFrame]

@[simp] theorem lasting_allowTake (f len : Nat) (src : Option (Nat × Nat × Nat × Nat)) (s : State) : lasting (allowTake f len src s) = lasting s := by
  unfold allowTake
  split <;> simp

@[simp] theorem lasting_takeIn (x : Came) (pl : Option Plate) (noFlow f : Nat) (data : List Byte) (s : State) :
    lasting (takeIn x pl noFlow f data s) = lasting s := by
  unfold takeIn
  dsimp only
  split <;> simp

@[simp] theorem lasting_useCells (d c : Nat) (s : State) : lasting (useCells d c s) = lasting s := by simp [useCells]

@[simp] theorem lasting_freeCells (d c : Nat) (s : State) : lasting (freeCells d c s) = lasting s := by simp [freeCells]

@[simp] theorem lasting_countRefused (fr : Frame) (x : Nat × Nat × Bool) (s : State) : lasting (countRefused fr x s) = lasting s := by simp [countRefused]

@[simp] theorem lasting_setNode (k : Nat) (x : NodeSt) (s : State) : lasting (setNode k x s) = lasting s := by simp [setNode]

@[simp] theorem lasting_refill (n : Nat) (s : State) : lasting (refill n s) = lasting s := by simp [refill]

@[simp] theorem lasting_sluChange (k : Nat) (old new : NodeCfg) (s : State) : lasting (sluChange k old new s) = lasting s := by simp [sluChange]

@[simp] theorem lasting_drrPick (root : Nat) (hs : List (List Nat × Nat × Bool)) (s : State) : lasting (drrPick root hs s).2 = lasting s := by simp [drrPick]

@[simp] theorem lasting_chargeTokens (ks : List Nat) (c : Nat) (s : State) : lasting (chargeTokens ks c s) = lasting s := by simp [chargeTokens]

@[simp] theorem lasting_serveCharge (below all : List Nat) (c : Nat) (s : State) : lasting (serveCharge below all c s) = lasting s := by simp [serveCharge]

@[simp] theorem lasting_clearEmpty (ks : List Nat) (some_ : Nat → Bool) (s : State) : lasting (clearEmpty ks some_ s) = lasting s := by simp [clearEmpty]

@[simp] theorem lasting_clearAllocAt (P d g a : Nat) (s : State) : lasting (clearAllocAt P d g a s) = lasting s := by simp [clearAllocAt]

@[simp] theorem lasting_clearAlloc (a : Nat) (s : State) : lasting (clearAlloc a s) = lasting s := by simp [clearAlloc]

@[simp] theorem lasting_pondTake (q : Nat) (s : State) : lasting (pondTake q s) = lasting s := by simp [pondTake]

@[simp] theorem lasting_pondPop (q : Nat) (fr : Frame) (s : State) : lasting (pondPop q fr s) = lasting s := by simp [pondPop]

@[simp] theorem lasting_clearIdle (s : State) : lasting (clearIdle s) = lasting s := by simp [clearIdle]

@[simp] theorem lasting_dropDelivered (s : State) : lasting (dropDelivered s) = lasting s := by simp [dropDelivered]

@[simp] theorem lasting_clearQueue (q : Nat) (s : State) : lasting (clearQueue q s) = lasting s := by simp [clearQueue]

@[simp] theorem lasting_drawBad (fr : Frame) (s : State) : lasting (drawBad fr s) = lasting s := by simp [drawBad]

@[simp] theorem lasting_drawLoop (p : Plate) (t : Nat) (dom : Option Nat) (n left room : Nat) (bad : List Nat) (s : State) :
    lasting (drawLoop p t dom n left room bad s).2.2 = lasting s := by
  induction n generalizing left room bad s with
  | zero => rfl
  | succ n ih =>
    unfold drawLoop
    split
    · rfl
    · dsimp only
      split
      · next s' e => exact lasting_of_eq e (lasting_drrPick ..)
      · next leaf c s' e =>
        have h := lasting_of_eq e (lasting_drrPick ..)
        split
        · exact h
        · simp [ih, h]

/-! ### Trees.lean -/

@[simp] theorem lasting_treeLeaves (n : Nat) (s : State) : lasting (treeLeaves n s) = lasting s := by simp [treeLeaves]

@[simp] theorem lasting_treePowerOff (n : Nat) (s : State) : lasting (treePowerOff n s) = lasting s := by simp [treePowerOff]

@[simp] theorem lasting_treeDecide (n : Nat) (s : State) : lasting (treeDecide n s) = lasting s := by
  simp only [treeDecide]
  repeat' split
  all_goals simp

@[simp] theorem lasting_treeCtl (n : Nat) (g : BitVec 2) (s : State) : lasting (treeCtl n g s) = lasting s := by simp [treeCtl]

@[simp] theorem lasting_treeEnter (n : Nat) (x : TreeSt) (s : State) : lasting (treeEnter n x s) = lasting s := by simp [treeEnter]

@[simp] theorem lasting_treeTransition (n : Nat) (s : State) : lasting (treeTransition n s) = lasting s := by
  unfold treeTransition
  split <;> simp

@[simp] theorem lasting_setGrant (n k : Nat) (g : Grant) (s : State) : lasting (setGrant n k g s) = lasting s := by simp [setGrant]

@[simp] theorem lasting_burstAnnounce (n k : Nat) (tapEcc : Bool) (s : State) : lasting (burstAnnounce n k tapEcc s) = lasting s := by
  unfold burstAnnounce
  split <;> simp

@[simp] theorem lasting_rdiSeen (ix : Nat) (rdi : Bool) (s : State) : lasting (rdiSeen ix rdi s) = lasting s := by simp [rdiSeen]

@[simp] theorem lasting_report (a v start : Nat) (s : State) : lasting (report a v start s) = lasting s := by simp [report]

@[simp] theorem lasting_burstRx_tellBurst (n : Nat) (g : Grant) (found : Option Int) (bip : Bool) (cws : List (Option Nat)) (s : State) :
    lasting (burstRx.tellBurst n g found bip cws s) = lasting s := by simp [burstRx.tellBurst]

@[simp] theorem lasting_adaptTaps (n : Nat) (s : State) : lasting (adaptTaps n s) = lasting s := by simp [adaptTaps]

@[simp] theorem lasting_burstRx (n k : Nat) (o : BurstObs) (s : State) : lasting (burstRx n k o s) = lasting s := by
  unfold burstRx
  split
  · rfl
  · dsimp only
    split
    · rfl
    · split <;> simp

@[simp] theorem lasting_burstDefects (ix : Nat) (found sd : Bool) (s : State) : lasting (burstDefects ix found sd s) = lasting s := by simp [burstDefects]

@[simp] theorem lasting_burstEnd (n k : Nat) (s : State) : lasting (burstEnd n k s) = lasting s := by
  unfold burstEnd
  split <;> simp

@[simp] theorem lasting_bankRelease (n k : Nat) (s : State) : lasting (bankRelease n k s) = lasting s := by
  unfold bankRelease
  split <;> simp

@[simp] theorem lasting_treeFrameEnd (n e : Nat) (s : State) : lasting (treeFrameEnd n e s) = lasting s := by simp [treeFrameEnd]

@[simp] theorem lasting_fragDrop (n t p : Nat) (s : State) : lasting (fragDrop n t p s) = lasting s := by simp [fragDrop]

@[simp] theorem lasting_reassemble (n : Nat) (g : Grant) (x : Xgem) (plain : List Byte) (isTrib : Bool) (s : State) :
    lasting (reassemble n g x plain isTrib s) = lasting s := by simp [reassemble]

@[simp] theorem lasting_upstreamXgem (n k : Nat) (x : Xgem) (s : State) : lasting (upstreamXgem n k x s) = lasting s := by
  unfold upstreamXgem
  split <;> simp

@[simp] theorem lasting_fragTimeout (n t p : Nat) (s : State) : lasting (fragTimeout n t p s) = lasting s := by
  unfold fragTimeout
  split <;> simp

/-! ### Takeover.lean -/

@[simp] theorem lasting_epochTake (e : BitVec 32) (s : State) : lasting (epochTake e s) = lasting s := by simp [epochTake]

@[simp] theorem lasting_takePairSec (l : List Byte) (s : State) : lasting (takePairSec l s) = lasting s := by simp [takePairSec]

@[simp] theorem lasting_takeTerms (l : List Byte) (s : State) : lasting (takeTerms l s) = lasting s := by simp [takeTerms]

@[simp] theorem lasting_takeEntries (l : List Byte) (s : State) : lasting (takeEntries l s) = lasting s := by simp [takeEntries]

@[simp] theorem lasting_takeLive (l : List Byte) (s : State) : lasting (takeLive l s) = lasting s := by simp [takeLive]

@[simp] theorem lasting_takeCounters (s : State) : lasting (takeCounters s) = lasting s := by simp [takeCounters]

@[simp] theorem lasting_slowTierLost (s : State) : lasting (slowTierLost s) = lasting s := by simp [slowTierLost]

@[simp] theorem lasting_landCut (s : State) : lasting (landCut s) = lasting s := by simp [landCut]

@[simp] theorem lasting_restartTerm (g : Nat) (s : State) : lasting (restartTerm g s) = lasting s := by
  unfold restartTerm
  split <;> simp

@[simp] theorem lasting_restartTerms (s : State) : lasting (restartTerms s) = lasting s := by simp [restartTerms]

/-! ### Mill.lean -/

@[simp] theorem lasting_sflowLimit (s : State) : lasting (sflowLimit s) = lasting s := by
  refine lasting_foldl _ _ fun s g => ?_
  dsimp only
  split <;> simp

@[simp] theorem lasting_flushQueue (q : Nat) (s : State) : lasting (flushQueue q s) = lasting s := by simp [flushQueue]

@[simp] theorem lasting_landLargeOff (s : State) : lasting (landLargeOff s) = lasting s := by simp [landLargeOff]

@[simp] theorem lasting_landEntry (t i : Nat) (d : List Word) (s : State) : lasting (landEntry t i d s) = lasting s := by
  unfold landEntry
  split <;> simp

@[simp] theorem lasting_opMillSet (t : BitVec 8) (i : Word) (d : List Word) (s : State) : lasting ((opMillSet t i d).run s).s = lasting s := by simp [opMillSet]

@[simp] theorem lasting_opMillGet (t : BitVec 8) (i : Word) (s : State) : lasting ((opMillGet t i).run s).s = lasting s := by simp [opMillGet]

@[simp] theorem lasting_setMwErr (e : Nat) (s : State) : lasting (setMwErr e s) = lasting s := by simp [setMwErr]

@[simp] theorem lasting_mwRead (s : State) : lasting (mwRead s) = lasting s := by simp [mwRead]

@[simp] theorem lasting_mwWrite (s : State) : lasting (mwWrite s) = lasting s := by simp [mwWrite]

@[simp] theorem lasting_hopperAdd (k : Nat) (fr : Frame) (thr : Bool) (s : State) : lasting (hopperAdd k fr thr s) = lasting s := by simp [hopperAdd]

@[simp] theorem lasting_laneMoved (k w : Nat) (s : State) : lasting (laneMoved k w s) = lasting s := by simp [laneMoved]

@[simp] theorem lasting_throughLoop (k f n b : Nat) (s : State) : lasting (throughLoop k f n b s).2 = lasting s := by
  induction n generalizing b s with
  | zero => rfl
  | succ n ih =>
    unfold throughLoop
    split <;> simp [ih]

@[simp] theorem lasting_throughStroke (j k f : Nat) (s : State) : lasting (throughStroke j k f s) = lasting s := by simp [throughStroke]

@[simp] theorem lasting_fillLoop (k : Nat) (dom : Option Nat) (rest : List Cal) (n b : Nat) (s : State) :
    lasting (fillLoop k dom rest n b s).2 = lasting s := by
  induction n generalizing b s with
  | zero => rfl
  | succ n ih =>
    unfold fillLoop
    dsimp only
    split
    · rfl
    · split
      · rfl
      · split <;> simp [ih]

@[simp] theorem lasting_fillStroke (p : Plate) (j k : Nat) (e : Cal) (rest : List Cal) (s : State) :
    lasting (fillStroke p j k e rest s) = lasting s := by simp [fillStroke]

@[simp] theorem lasting_drawStroke (p : Plate) (j k : Nat) (e : Cal) (rest : List Cal) (bad : List Nat) (s : State) :
    lasting (drawStroke p j k e rest bad s).2 = lasting s := by simp [drawStroke]

@[simp] theorem lasting_laneStroke (p : Plate) (st k : Nat) (x : List Nat × State) : lasting (laneStroke p st k x).2 = lasting x.2 := by
  unfold laneStroke
  repeat' split
  all_goals simp

@[simp] theorem lasting_hopperMarks (s : State) : lasting (hopperMarks s) = lasting s := by simp [hopperMarks]

@[simp] theorem lasting_turnPurge (t : Nat) (s : State) : lasting (turnPurge t s) = lasting s := by
  unfold turnPurge
  repeat' split
  all_goals simp

@[simp] theorem lasting_millStroke (t : Nat) (ecc : List Nat) (s : State) : lasting (millStroke t ecc s) = lasting s := by
  unfold millStroke
  dsimp only
  split
  · simp
  · rw [lasting_foldl_snd] <;> simp

@[simp] theorem lasting_chaffStore (f d len : Nat) (s : State) : lasting (chaffStore f d len s) = lasting s := by simp [chaffStore]

@[simp] theorem lasting_commitFrame (fr : Frame) (thr : Bool) (s : State) : lasting (commitFrame fr thr s) = lasting s := by
  unfold commitFrame
  repeat' split
  all_goals simp

@[simp] theorem lasting_commit (k : Nat) (q : BitVec 32) (good : Bool) (s : State) : lasting (commit k q good s) = lasting s := by
  simp only [commit]
  repeat' split
  all_goals simp

/-! ### Time.lean -/

@[simp] theorem lasting_withDom (d : BitVec 8) {f : Bool → State → Res} (hf : ∀ b s, lasting (f b s).s = lasting s) (s : State) :
    lasting (withDom d f s).s = lasting s := by
  unfold withDom
  split <;> simp [hf]

@[simp] theorem lasting_opTimeArm (d : BitVec 8) (s : State) : lasting ((opTimeArm d).run s).s = lasting s := by
  refine lasting_withDom _ (fun b s => ?_) s
  dsimp only
  split <;> simp

@[simp] theorem lasting_opTimeSet (d : BitVec 8) (sec : BitVec 48) (ns : Word) (s : State) : lasting ((opTimeSet d sec ns).run s).s = lasting s := by
  simp [opTimeSet]

@[simp] theorem lasting_opTimeDisable (d : BitVec 8) (s : State) : lasting ((opTimeDisable d).run s).s = lasting s := by simp [opTimeDisable]

@[simp] theorem lasting_opTimeSel (d : BitVec 8) (s : State) : lasting ((opTimeSel d).run s).s = lasting s := by simp [opTimeSel]

@[simp] theorem lasting_opAcceptPathStep (d : BitVec 8) (asym : Word) (s : State) : lasting ((opAcceptPathStep d asym).run s).s = lasting s := by
  simp [opAcceptPathStep]

@[simp] theorem lasting_opTimeConv (d : BitVec 8) (count : BitVec 64) (s : State) : lasting ((opTimeConv d count).run s).s = lasting s := by
  refine lasting_withDom _ (fun b s => ?_) s
  dsimp only
  split <;> simp

@[simp] theorem lasting_opTodGet (tr : BitVec 8) (sf : Word) (s : State) : lasting ((opTodGet tr sf).run s).s = lasting s := by
  unfold opTodGet
  dsimp only
  split <;> simp

@[simp] theorem lasting_capture (s : State) : lasting (capture s) = lasting s := by simp [capture]

@[simp] theorem lasting_servo (b : Bool) (offset : Int) (s : State) : lasting (servo b offset s) = lasting s := by simp [servo]

@[simp] theorem lasting_pathStep (b : Bool) (mpd : Int) (s : State) : lasting (pathStep b mpd s) = lasting s := by simp [pathStep]

@[simp] theorem lasting_pathJudge (b : Bool) (s : State) : lasting (pathJudge b s) = lasting s := by simp [pathJudge]

@[simp] theorem lasting_lostJudge (b : Bool) (s : State) : lasting (lostJudge b s) = lasting s := by
  simp only [lostJudge]
  repeat' split
  all_goals simp

@[simp] theorem lasting_exchangeJudge (b : Bool) (s : State) : lasting (exchangeJudge b s) = lasting s := by
  simp only [exchangeJudge]
  repeat' split
  all_goals simp

@[simp] theorem lasting_selJudge (s : State) : lasting (selJudge s) = lasting s := by
  unfold selJudge
  split <;> simp

@[simp] theorem lasting_timeStroke (s : State) : lasting (timeStroke s) = lasting s := by simp [timeStroke]

@[simp] theorem lasting_bridgeExchange (b : Bool) (mpd : Int) (s : State) : lasting (bridgeExchange b mpd s) = lasting s := by simp [bridgeExchange]

@[simp] theorem lasting_suspectExchange (b : Bool) (mpd : Int) (s : State) : lasting (suspectExchange b mpd s) = lasting s := by simp [suspectExchange]

@[simp] theorem lasting_normalExchange (b : Bool) (offset mpd : Int) (s : State) : lasting (normalExchange b offset mpd s) = lasting s := by
  simp [normalExchange]

@[simp] theorem lasting_ptpExchange (b : Bool) (x : ExSrc) (raw mpd : Int) (s : State) : lasting (ptpExchange b x raw mpd s) = lasting s := by
  simp [ptpExchange]

@[simp] theorem lasting_masterLost (b announce : Bool) (s : State) : lasting (masterLost b announce s) = lasting s := by simp [masterLost]

/-! ### Timing.lean -/

@[simp] theorem lasting_refCleared (r : Nat) (s : State) : lasting (refCleared r s) = lasting s := by simp [refCleared]

@[simp] theorem lasting_refClear (r code : Nat) (s : State) : lasting (refClear r code s) = lasting s := by simp [refClear]

@[simp] theorem lasting_refLeave (r : Nat) (s : State) : lasting (refLeave r s) = lasting s := by simp [refLeave]

@[simp] theorem lasting_refMeasure (l : Int) (m : RefMeas) (s : State) : lasting (refMeasure l m s) = lasting s := by simp [refMeasure]

@[simp] theorem lasting_refLosTick (r : Nat) (s : State) : lasting (refLosTick r s) = lasting s := by simp [refLosTick]

@[simp] theorem lasting_refSpanTick (r : Nat) (s : State) : lasting (refSpanTick r s) = lasting s := by simp [refSpanTick]

@[simp] theorem lasting_wtrEnd (r : Nat) (s : State) : lasting (wtrEnd r s) = lasting s := by simp [wtrEnd]

@[simp] theorem lasting_wtrTick (s : State) : lasting (wtrTick s) = lasting s := by simp [wtrTick]

@[simp] theorem lasting_refSwitch (new old cause : Nat) (s : State) : lasting (refSwitch new old cause s) = lasting s := by simp [refSwitch]

@[simp] theorem lasting_tieClear (g : List Nat) (s : State) : lasting (tieClear g s) = lasting s := by simp [tieClear]

@[simp] theorem lasting_leftClear (old : Option Nat) (s : State) : lasting (leftClear old s) = lasting s := by
  unfold leftClear
  split <;> simp

@[simp] theorem lasting_refSelect (s : State) : lasting (refSelect s) = lasting s := by
  unfold refSelect
  extract_lets l q s1 man cur best g pick
  have h1 : lasting s1 = lasting s := by simp [s1]
  split
  next x cand s2 tied e =>
  have h2 : lasting s2 = lasting s1 := by
    split at e
    · cases e; rfl
    · split at e <;> cases e
      · rfl
      · simp
      · simp
  rw [← h1, ← h2]
  simp

@[simp] theorem lasting_dpllTo (x : Dpll) (s : State) : lasting (dpllTo x s) = lasting s := by simp [dpllTo]

@[simp] theorem lasting_dpllTick (changed : Bool) (phaseNs freqPpb : Int) (s : State) : lasting (dpllTick changed phaseNs freqPpb s) = lasting s := by
  simp only [dpllTick]
  repeat' split
  all_goals simp

@[simp] theorem lasting_steerTick (phaseNs freqPpb : Int) (s : State) : lasting (steerTick phaseNs freqPpb s) = lasting s := by simp [steerTick]

@[simp] theorem lasting_decisionTick (ms : List RefMeas) (phaseNs freqPpb : Int) (s : State) : lasting (decisionTick ms phaseNs freqPpb s) = lasting s := by
  unfold decisionTick
  extract_lets s1 g s2 l s3 s4 src s5 f g' s6 s7 s8
  have h2 : lasting s2 = lasting s := by simp [s2, s1]
  have h5 : lasting s5 = lasting s := by simp [s5, s4, s3, h2]
  have h6 : lasting s6 = lasting s := by simp only [s6, lasting_mk, h5]
  have h7 : lasting s7 = lasting s := by
    unfold s7
    split
    · exact h5
    · rw [lasting_refSwitch, h6]
  have h8 : lasting s8 = lasting s := by
    unfold s8
    rw [lasting_steerTick, lasting_dpllTick, h7]
  split
  · simp only [lasting_mk, h8]
  · exact h8

@[simp] theorem lasting_execRefDefectClear_setRef' (r : Nat) (s : State) : lasting (execRefDefectClear.setRef' r s) = lasting s := by
  simp [execRefDefectClear.setRef']

@[simp] theorem lasting_timingRefused (a : Nat) (s : State) : lasting (timingRefused a s) = lasting s := by simp [timingRefused]

@[simp] theorem lasting_holdoverSample (s : State) : lasting (holdoverSample s) = lasting s := by simp [holdoverSample]

@[simp] theorem lasting_tempSrcMoved (s : State) : lasting (tempSrcMoved s) = lasting s := by simp [tempSrcMoved]

@[simp] theorem lasting_tempRead (raw : Option (BitVec 16)) (s : State) : lasting (tempRead raw s) = lasting s := by
  unfold tempRead
  split <;> simp

@[simp] theorem lasting_setPulse (o : Nat) (x : Pulse) (s : State) : lasting (setPulse o x s) = lasting s := by simp [setPulse]

@[simp] theorem lasting_setClk (k : Nat) (x : ClkOut) (s : State) : lasting (setClk k x s) = lasting s := by simp [setClk]

@[simp] theorem lasting_resync (o : Nat) (s : State) : lasting (resync o s) = lasting s := by simp [resync]

@[simp] theorem lasting_edgeActs (c o : Nat) (s : State) : lasting (edgeActs c o s) = lasting s := by
  unfold edgeActs
  dsimp only
  split <;> simp

@[simp] theorem lasting_settlePulse (o : Nat) (s : State) : lasting (settlePulse o s) = lasting s := by
  unfold settlePulse
  split <;> simp

@[simp] theorem lasting_edgeFor (pps : Bool) (o : Nat) (s : State) : lasting (edgeFor pps o s) = lasting s := by simp [edgeFor]

@[simp] theorem lasting_inputEdge (pps : Bool) (s : State) : lasting (inputEdge pps s) = lasting s := by simp [inputEdge]

@[simp] theorem lasting_pulseReady (o : Nat) (s : State) : lasting (pulseReady o s) = lasting s := by
  unfold pulseReady
  split <;> simp

@[simp] theorem lasting_outputPulse (o : Nat) (s : State) : lasting (outputPulse o s) = lasting s := by
  simp only [outputPulse]
  repeat' split
  all_goals simp

@[simp] theorem lasting_ccfg (k : Nat) (v : Word) (s : State) : lasting (ccfg k v s) = lasting s := by simp [ccfg]

/-! ### Uplinks.lean -/

@[simp] theorem lasting_ulRefused (p a : Nat) (s : State) : lasting (ulRefused p a s) = lasting s := by simp [ulRefused]

@[simp] theorem lasting_twinJudge (s : State) : lasting (twinJudge s) = lasting s := by simp [twinJudge]

@[simp] theorem lasting_quadWrite (g m : Nat) (s : State) : lasting (quadWrite g m s) = lasting s := by simp [quadWrite]

@[simp] theorem lasting_portCfgWrite (p : Nat) (v : Word) (s : State) : lasting (portCfgWrite p v s) = lasting s := by simp [portCfgWrite]

@[simp] theorem lasting_frerReset (key : Nat × Nat × Nat × Nat) (cause : Nat) (s : State) : lasting (frerReset key cause s) = lasting s := by
  unfold frerReset
  split <;> simp

@[simp] theorem lasting_landScreen (e : List Byte) (s : State) : lasting (landScreen e s) = lasting s := by simp [landScreen]

@[simp] theorem lasting_opScreenSet (e : List Byte) (s : State) : lasting ((opScreenSet e).run s).s = lasting s := by simp [opScreenSet]

@[simp] theorem lasting_opScreenGet (e : List Byte) (s : State) : lasting ((opScreenGet e).run s).s = lasting s := by
  unfold opScreenGet
  dsimp only
  split <;> simp

@[simp] theorem lasting_frerTimeout (e : List Byte) (s : State) : lasting (frerTimeout e s) = lasting s := by
  unfold frerTimeout
  split <;> simp

@[simp] theorem lasting_landGen (f : Nat) (on : Bool) (s : State) : lasting (landGen f on s) = lasting s := by simp [landGen]

@[simp] theorem lasting_opGenSet (f : BitVec 16) (g : BitVec 8) (s : State) : lasting ((opGenSet f g).run s).s = lasting s := by simp [opGenSet]

@[simp] theorem lasting_opGenGet (f : BitVec 16) (s : State) : lasting ((opGenGet f).run s).s = lasting s := by simp [opGenGet]

@[simp] theorem lasting_sendEsmc (p : Nat) (ev : Bool) (s : State) : lasting (sendEsmc p ev s) = lasting s := by simp [sendEsmc]

@[simp] theorem lasting_esmcChanges (s : State) : lasting (esmcChanges s) = lasting s := by simp [esmcChanges]

@[simp] theorem lasting_esmcTimeout (p : Nat) (s : State) : lasting (esmcTimeout p s) = lasting s := by simp [esmcTimeout]

@[simp] theorem lasting_esmcRx (p e : Nat) (l : List Byte) (s : State) : lasting (esmcRx p e l s) = lasting s := by simp [esmcRx]

@[simp] theorem lasting_ptpSend (p : Nat) (b : Bool) (msg seq : Nat) (two : Bool) (s : State) : lasting (ptpSend p b msg seq two s) = lasting s := by
  simp only [ptpSend]
  repeat' split
  all_goals simp

@[simp] theorem lasting_announceRx (b : Bool) (x : Foreign) (s : State) : lasting (announceRx b x s) = lasting s := by simp [announceRx]

@[simp] theorem lasting_ptpRx (p h n : Nat) (l : List Byte) (s : State) : lasting (ptpRx p h n l s) = lasting s := by simp [ptpRx]

@[simp] theorem lasting_pauseExpiry (p : Nat) (s : State) : lasting (pauseExpiry p s) = lasting s := by simp [pauseExpiry]

@[simp] theorem lasting_trigMark (p : Nat) (was : Bool) (s : State) : lasting (trigMark p was s) = lasting s := by simp [trigMark]

@[simp] theorem lasting_portChange (p : Nat) {f : State → State} (hf : ∀ s, lasting (f s) = lasting s) (s : State) :
    lasting (portChange p f s) = lasting s := by
  simp [portChange, hf]

@[simp] theorem lasting_ulLos (l : Nat) (s : State) : lasting (ulLos l s) = lasting s := by simp [ulLos]

@[simp] theorem lasting_ulLof (l : Nat) (s : State) : lasting (ulLof l s) = lasting s := by simp [ulLof]

@[simp] theorem lasting_ulRdi (l : Nat) (s : State) : lasting (ulRdi l s) = lasting s := by simp [ulRdi]

@[simp] theorem lasting_ulClear (l : Nat) (s : State) : lasting (ulClear l s) = lasting s := by simp [ulClear]

@[simp] theorem lasting_remoteFault (l : Nat) (on : Bool) (s : State) : lasting (remoteFault l on s) = lasting s := by simp [remoteFault]

@[simp] theorem lasting_localFault (l : Nat) (on : Bool) (s : State) : lasting (localFault l on s) = lasting s := by simp [localFault]

@[simp] theorem lasting_rehash (p : Nat) (s : State) : lasting (rehash p s) = lasting s := by
  simp only [rehash]
  repeat' split
  all_goals simp

/-! ### Pair.lean -/

@[simp] theorem lasting_partnerInfo (s : State) : lasting (partnerInfo s).2 = lasting s := by simp [partnerInfo]

@[simp] theorem lasting_gainContact (x : Bool × Bool × Bool × BitVec 32) (s : State) : lasting (gainContact x s) = lasting s := by simp [gainContact]

@[simp] theorem lasting_startJoin (s : State) : lasting (startJoin s) = lasting s := by simp [startJoin]

@[simp] theorem lasting_plLosClear (s : State) : lasting (plLosClear s) = lasting s := by simp [plLosClear]

@[simp] theorem lasting_landSolo (s : State) : lasting (landSolo s) = lasting s := by simp [landSolo]

@[simp] theorem lasting_pairCfgWrite (v : Word) (s : State) : lasting (pairCfgWrite v s) = lasting s := by simp [pairCfgWrite]

@[simp] theorem lasting_landFenced (s : State) : lasting (landFenced s) = lasting s := by simp [landFenced]

@[simp] theorem lasting_leaseFence (cause form : Nat) (s : State) : lasting (leaseFence cause form s) = lasting s := by simp [leaseFence]

@[simp] theorem lasting_opPairJoin (s : State) : lasting (opPairJoin.run s).s = lasting s := by simp [opPairJoin]

@[simp] theorem lasting_opPairLeave (s : State) : lasting (opPairLeave.run s).s = lasting s := by simp [opPairLeave]

@[simp] theorem lasting_opPairSwitch (s : State) : lasting (opPairSwitch.run s).s = lasting s := by simp [opPairSwitch]

@[simp] theorem lasting_awaitX (x form cause tr : Nat) (s : State) : lasting (awaitX x form cause tr s) = lasting s := by simp [awaitX]

@[simp] theorem lasting_opPairVerdict (v : BitVec 8) (epoch : Word) (s : State) : lasting ((opPairVerdict v epoch).run s).s = lasting s := by
  simp [opPairVerdict]

@[simp] theorem lasting_opPairInfo (s : State) : lasting (opPairInfo.run s).s = lasting s := by simp [opPairInfo]

@[simp] theorem lasting_opProtCfg (a : ProtArg) (s : State) : lasting ((opProtCfg a).run s).s = lasting s := by
  unfold opProtCfg
  split <;> simp

@[simp] theorem lasting_opProtSwitch (p : BitVec 8) (s : State) : lasting ((opProtSwitch p).run s).s = lasting s := by simp [opProtSwitch]

@[simp] theorem lasting_epochSeen (e : BitVec 32) (s : State) : lasting (epochSeen e s) = lasting s := by simp [epochSeen]

@[simp] theorem lasting_leaseSilent (s : State) : lasting (leaseSilent s) = lasting s := by simp [leaseSilent]

@[simp] theorem lasting_renewal (s : State) : lasting (renewal s) = lasting s := by simp [renewal]

@[simp] theorem lasting_renewRx (num : Nat) (epoch : Word) (e : Nat) (s : State) : lasting (renewRx num epoch e s) = lasting s := by simp [renewRx]

@[simp] theorem lasting_grantRx (num : Nat) (epoch : Word) (s : State) : lasting (grantRx num epoch s) = lasting s := by simp [grantRx]

@[simp] theorem lasting_releaseRx (epoch : Word) (x : Option Nat) (s : State) : lasting (releaseRx epoch x s) = lasting s := by
  unfold releaseRx
  split <;> simp

@[simp] theorem lasting_fencedRx (epoch : Word) (s : State) : lasting (fencedRx epoch s) = lasting s := by simp [fencedRx]

@[simp] theorem lasting_leaveRx (epoch : Word) (s : State) : lasting (leaveRx epoch s) = lasting s := by
  simp only [leaveRx]
  repeat' split
  all_goals simp

@[simp] theorem lasting_sideband (s : State) : lasting (sideband s) = lasting s := by simp [sideband]

@[simp] theorem lasting_sbLost (s : State) : lasting (sbLost s) = lasting s := by simp [sbLost]

@[simp] theorem lasting_fencePoint (s : State) : lasting (fencePoint s) = lasting s := by simp [fencePoint]

@[simp] theorem lasting_noRenew (s : State) : lasting (noRenew s) = lasting s := by simp [noRenew]

@[simp] theorem lasting_handoverHeld (s : State) : lasting (handoverHeld s) = lasting s := by simp [handoverHeld]

@[simp] theorem lasting_commandFails (s : State) : lasting (commandFails s) = lasting s := by
  unfold commandFails
  split
  · exact lasting_getD_map (by simp) (by simp)
  · simp
  · rfl

@[simp] theorem lasting_internalUncorr (k n : Nat) (s : State) : lasting (internalUncorr k n s) = lasting s := by
  unfold internalUncorr
  split <;> simp

@[simp] theorem lasting_copyJoins (s : State) : lasting (copyJoins s) = lasting s := by simp [copyJoins]

@[simp] theorem lasting_copyCut (c : Nat) (s : State) : lasting (copyCut c s) = lasting s := by simp [copyCut]

@[simp] theorem lasting_askSections (s : State) : lasting (askSections s) = lasting s := by simp [askSections]

@[simp] theorem lasting_copyRun (tier sec off : Nat) (data : List Byte) (s : State) : lasting (copyRun tier sec off data s) = lasting s := by simp [copyRun]

@[simp] theorem lasting_opCopy (tier sec : BitVec 8) (off : Word) (data : List Byte) (s : State) :
    lasting ((opCopy tier sec off data).run s).s = lasting s := by simp [opCopy]

@[simp] theorem lasting_quickTier (s : State) : lasting (quickTier s) = lasting s := by simp [quickTier]

@[simp] theorem lasting_slowTier (s : State) : lasting (slowTier s) = lasting s := by simp [slowTier]

/-! ### Terminals.lean -/

@[simp] theorem lasting_slotRun (h : Hdr) (g : Nat) (flags rate : BitVec 8) (serial : BitVec 64) (l : List Nat) (impr : BitVec 32) (wrap : BitVec 192)
    (s : State) :
    lasting (slotRun h g flags rate serial l impr wrap s).s = lasting s := by
  unfold slotRun
  repeat' split
  all_goals simp

@[simp] theorem lasting_settingsRun (n : Nat) (x : TreeSet) (s : State) : lasting (settingsRun n x s).s = lasting s := by simp [settingsRun]

@[simp] theorem lasting_opTermAdd (h : Hdr) (tr sl : BitVec 8) (a : TermArg) (s : State) : lasting ((opTermAdd h tr sl a).run s).s = lasting s := by
  unfold opTermAdd
  split <;> simp

@[simp] theorem lasting_opTermRange (tr sl : BitVec 8) (s : State) : lasting ((opTermRange tr sl).run s).s = lasting s := by
  unfold opTermRange
  dsimp only
  split <;> simp

@[simp] theorem lasting_opTermActivate (tr sl : BitVec 8) (s : State) : lasting ((opTermActivate tr sl).run s).s = lasting s := by simp [opTermActivate]

@[simp] theorem lasting_opTermDisable (tr sl action : BitVec 8) (s : State) : lasting ((opTermDisable tr sl action).run s).s = lasting s := by
  simp [opTermDisable]

@[simp] theorem lasting_newRate (g r : Nat) (s : State) : lasting (newRate g r s) = lasting s := by simp [newRate]

@[simp] theorem lasting_opTermRate (tr sl rate : BitVec 8) (s : State) : lasting ((opTermRate tr sl rate).run s).s = lasting s := by simp [opTermRate]

@[simp] theorem lasting_opPloamSend (tr sl type : BitVec 8) (content : List Byte) (s : State) :
    lasting ((opPloamSend tr sl type content).run s).s = lasting s := by simp [opPloamSend]

@[simp] theorem lasting_opTermKey (h : Hdr) (tr dom dir action : BitVec 8) (target : Word) (wrapped : BitVec 192) (s : State) :
    lasting ((opTermKey h tr dom dir action target wrapped).run s).s = lasting s := by
  simp only [opTermKey]
  repeat' split
  all_goals simp

@[simp] theorem lasting_keyLoadLand (i : Nat) (slot : Bool) (wrapped : BitVec 192) (s : State) : lasting (keyLoadLand i slot wrapped s) = lasting s := by
  simp [keyLoadLand]

@[simp] theorem lasting_keyAct (i : Nat) (sw : Bool) (b : BitVec 32) (lost : Bool) (s : State) : lasting (keyAct i sw b lost s) = lasting s := by simp [keyAct]

@[simp] theorem lasting_keyBoundaryAll (b : BitVec 32) (s : State) : lasting (keyBoundaryAll b s) = lasting s := by
  refine lasting_foldl _ _ fun s e => ?_
  dsimp only
  rw [lasting_ite, lasting_setKey, lasting_foldl_fst _ _ (by simp), ite_self]

@[simp] theorem lasting_keyDrain (i : Nat) (s : State) : lasting (keyDrain i s) = lasting s := by simp [keyDrain]

@[simp] theorem lasting_keyEcc (n d : Nat) (up slot : Bool) (s : State) : lasting (keyEcc n d up slot s) = lasting s := by simp [keyEcc]

@[simp] theorem lasting_opKwkSet (key : BitVec 128) (s : State) : lasting ((opKwkSet key).run s).s = lasting s := by simp [opKwkSet]

@[simp] theorem lasting_requestAll (n : Nat) (w : Window) (s : State) : lasting (requestAll n w s) = lasting s := by
  exact lasting_foldl _ _ fun _ _ => lasting_queueMsg ..

@[simp] theorem lasting_slotsGiven (n : Nat) (w : Window) (held : List Nat) (s : State) : lasting (slotsGiven n w held s) = lasting s := by simp [slotsGiven]

@[simp] theorem lasting_planWindow (n : Nat) (held : List Nat) (x : List Window × State) (p : Nat × Nat × Nat) :
    lasting (planWindow n held x p).2 = lasting x.2 := by simp [planWindow]

@[simp] theorem lasting_openWindow (n : Nat) (f : Window → Bool) (s : State) : lasting (openWindow n f s) = lasting s := by
  unfold openWindow
  split <;> simp

@[simp] theorem lasting_discoveryWindow (n : Nat) (s : State) : lasting (discoveryWindow n s) = lasting s := by simp [discoveryWindow]

@[simp] theorem lasting_rangingWindow (n : Nat) (s : State) : lasting (rangingWindow n s) = lasting s := by simp [rangingWindow]

@[simp] theorem lasting_handleSerial (n : Nat) (serial : BitVec 64) (rc : Nat) (s : State) : lasting (handleSerial n serial rc s) = lasting s := by
  unfold handleSerial
  repeat' split
  all_goals simp

@[simp] theorem lasting_serialNumberOnu (n : Nat) (serial : BitVec 64) (delim : Nat) (seen : BitVec 160) (cwOk : Bool) (mic : MicKey) (s : State) :
    lasting (serialNumberOnu n serial delim seen cwOk mic s) = lasting s := by
  unfold serialNumberOnu
  dsimp only
  split <;> simp

@[simp] theorem lasting_setSkew (n : Nat) (v : Int) (s : State) : lasting (setSkew n v s) = lasting s := by simp [setSkew]

@[simp] theorem lasting_measureSkew (n : Nat) (s : State) : lasting (measureSkew n s) = lasting s := by simp [measureSkew]

@[simp] theorem lasting_respTaken (n : Nat) (hit : Option (RegResp × Int)) (s : State) : lasting (respTaken n hit s) = lasting s := by
  unfold respTaken
  split <;> simp

@[simp] theorem lasting_respReject (g : Nat) (x : RegResp) (s : State) : lasting (respReject g x s) = lasting s := by simp [respReject]

@[simp] theorem lasting_probeResp (g k : Nat) (w : Window) (hit : Option (RegResp × Int)) (s : State) : lasting (probeResp g k w hit s) = lasting s := by
  unfold probeResp
  repeat' split
  all_goals simp

@[simp] theorem lasting_bandResp (g sg lo hi : Nat) (hit : Option (RegResp × Int)) (s : State) : lasting (bandResp g sg lo hi hit s) = lasting s := by
  unfold bandResp
  repeat' split
  all_goals simp

@[simp] theorem lasting_registration (g : Nat) (r : Option RegResp) (s : State) : lasting (registration g r s) = lasting s := by
  simp only [registration]
  repeat' split
  all_goals simp

@[simp] theorem lasting_acked (g : Nat) (m : PMsg) (s : State) : lasting (acked g m s) = lasting s := by
  unfold acked
  repeat' split
  all_goals simp

@[simp] theorem lasting_ploamCarrier (g : Nat) (d : Option Delim) (s : State) : lasting (ploamCarrier g d s).2 = lasting s := by
  unfold ploamCarrier
  repeat' split
  all_goals simp

@[simp] theorem lasting_ploamPush (g e : Nat) (msg : List Byte) (s : State) : lasting (ploamPush g e msg s) = lasting s := by simp [ploamPush]

@[simp] theorem lasting_ploamTake (g : Nat) (v : PloamVia) {f : Nat → State → State} (hf : ∀ e s, lasting (f e s) = lasting s) (s : State) :
    lasting (ploamTake g v f s) = lasting s := by
  unfold ploamTake
  split
  · next s' e => exact lasting_of_eq e (lasting_ploamCarrier ..)
  · next x s' e =>
    have h := lasting_of_eq e (lasting_ploamCarrier ..)
    simp [hf, h]

@[simp] theorem lasting_acknowledgement (g : Nat) (seq : BitVec 8) (msg : List Byte) (e : Nat) (s : State) :
    lasting (acknowledgement g seq msg e s) = lasting s := by
  unfold acknowledgement
  repeat' split
  all_goals simp

@[simp] theorem lasting_actFailEvent (g : Nat) (k : PKind) (s : State) : lasting (actFailEvent g k s) = lasting s := by simp [actFailEvent]

@[simp] theorem lasting_ackFailed (g : Nat) (m : PMsg) (s : State) : lasting (ackFailed g m s) = lasting s := by
  unfold ackFailed
  split <;> simp

@[simp] theorem lasting_tAck (g : Nat) (seq : BitVec 8) (s : State) : lasting (tAck g seq s) = lasting s := by
  unfold tAck
  split <;> simp

@[simp] theorem lasting_tDisc (g : Nat) (s : State) : lasting (tDisc g s) = lasting s := by simp [tDisc]

@[simp] theorem lasting_tPopup (g : Nat) (s : State) : lasting (tPopup g s) = lasting s := by simp [tPopup]

@[simp] theorem lasting_tRedisable (g : Nat) (s : State) : lasting (tRedisable g s) = lasting s := by simp [tRedisable]

@[simp] theorem lasting_tSnMute (serial : BitVec 64) (s : State) : lasting (tSnMute serial s) = lasting s := by simp [tSnMute]

@[simp] theorem lasting_ploamIn (g : Nat) (type : BitVec 8) (msg : List Byte) (e : Nat) (s : State) : lasting (ploamIn g type msg e s) = lasting s := by
  simp [ploamIn]

@[simp] theorem lasting_rogueStep (n : Nat) (f : Rogue → Rogue) (s : State) : lasting (rogueStep n f s) = lasting s := by simp [rogueStep]

@[simp] theorem lasting_unlocated (n : Nat) (s : State) : lasting (unlocated n s) = lasting s := by simp [unlocated]

@[simp] theorem lasting_rogueAgain (n : Nat) (s : State) : lasting (rogueAgain n s) = lasting s := by simp [rogueAgain]

@[simp] theorem lasting_rogueTrigger (n : Nat) (s : State) : lasting (rogueTrigger n s) = lasting s := by simp [rogueTrigger]

@[simp] theorem lasting_rogueClear (n : Nat) (s : State) : lasting (rogueClear n s) = lasting s := by simp [rogueClear]

@[simp] theorem lasting_rogueNamed (n k stage : Nat) (s : State) : lasting (rogueNamed n k stage s) = lasting s := by simp [rogueNamed]

@[simp] theorem lasting_rogueLost (n : Nat) (s : State) : lasting (rogueLost n s) = lasting s := by
  unfold rogueLost
  dsimp only
  split <;> simp

@[simp] theorem lasting_bisectNext (n : Nat) (l : List Nat) (s : State) : lasting (bisectNext n l s) = lasting s := by simp [bisectNext]

@[simp] theorem lasting_rogueProbe (n : Nat) (onu : Option Nat) (energy sd : Bool) (s : State) : lasting (rogueProbe n onu energy sd s) = lasting s := by
  unfold rogueProbe
  repeat' split
  all_goals simp

@[simp] theorem lasting_rogueVerdict (n e : Nat) (s : State) : lasting (rogueVerdict n e s) = lasting s := by
  simp only [rogueVerdict]
  repeat' split
  all_goals simp

@[simp] theorem lasting_sdSample (n t : Nat) (level : Bool) (s : State) : lasting (sdSample n t level s) = lasting s := by simp [sdSample]

@[simp] theorem lasting_sdSamples (n t : Nat) (l : List Bool) (s : State) : lasting (sdSamples n t l s) = lasting s := by
  induction l generalizing t s with
  | nil => rfl
  | cons x l ih => simp [sdSamples, ih]

/-! ### Tribs.lean -/

@[simp] theorem lasting_opTribSet (h : Hdr) (e : List Byte) (s : State) : lasting ((opTribSet h e).run s).s = lasting s := by simp [opTribSet]

@[simp] theorem lasting_opTribGet (f : BitVec 16) (s : State) : lasting ((opTribGet f).run s).s = lasting s := by simp [opTribGet]

@[simp] theorem lasting_tribStart (f : Nat) (c : TCfg) (s : State) : lasting (tribStart f c s) = lasting s := by simp [tribStart]

@[simp] theorem lasting_tribEffects (b : Nat) (s : State) : lasting (tribEffects b s) = lasting s := by
  refine lasting_foldl _ _ fun s e => ?_
  dsimp only
  split <;> simp

@[simp] theorem lasting_tribCheckAll (s : State) : lasting (tribCheckAll s) = lasting s := by
  unfold tribCheckAll
  dsimp only
  split <;> simp

@[simp] theorem lasting_takePlace (f : Nat) (s : State) : lasting (takePlace f s).2 = lasting s := by
  unfold takePlace
  dsimp only
  split <;> simp

@[simp] theorem lasting_mapFrames (r : Flow) (rdi lost : Bool) (n : Nat) (s : State) : lasting (mapFrames r rdi lost n s).2 = lasting s := by
  induction n generalizing s with
  | zero => rfl
  | succ n ih =>
    simp only [mapFrames, ih]
    split <;> simp

@[simp] theorem lasting_runDefect (f code set_ clr n : Nat) (s : State) : lasting (runDefect f code set_ clr n s) = lasting s := by simp [runDefect]

@[simp] theorem lasting_tribConds (f label : Nat) (b : List Byte) (s : State) : lasting (tribConds f label b s) = lasting s := by simp [tribConds]

@[simp] theorem lasting_tribSend (r : Flow) (b : List Byte) (s : State) : lasting (tribSend r b s) = lasting s := by simp [tribSend]

@[simp] theorem lasting_streamOut (r : Flow) (p : Option (List Byte)) (s : State) : lasting (streamOut r p s) = lasting s := by simp [streamOut]

@[simp] theorem lasting_packetOut (r : Flow) (b : List Byte) (s : State) : lasting (packetOut r b s) = lasting s := by simp [packetOut]

@[simp] theorem lasting_frameDone (r : Flow) (fr : TFrame) (room : Nat) (s : State) : lasting (frameDone r fr room s) = lasting s := by simp [frameDone]

@[simp] theorem lasting_lofJudge (f : Nat) (s : State) : lasting (lofJudge f s) = lasting s := by simp [lofJudge]

@[simp] theorem lasting_occurrenceDecision (f : Nat) (s : State) : lasting (occurrenceDecision f s) = lasting s := by
  unfold occurrenceDecision
  split <;> simp

/-! ### Save.lean -/

@[simp] theorem lasting_owe (o : Nat) (s : State) : lasting (owe o s) = lasting s := by simp [owe]

@[simp] theorem lasting_pmuCount (o : Nat) (s : State) : lasting (pmuCount o s) = lasting s := by simp [pmuCount]

@[simp] theorem lasting_pmuEvent (code : Nat) (d : List Byte) (s : State) : lasting (pmuEvent code d s) = lasting s := by simp [pmuEvent]

@[simp] theorem lasting_dropCommands (s : State) : lasting (dropCommands s) = lasting s := by simp [dropCommands]

@[simp] theorem lasting_sagRelease (s : State) : lasting (sagRelease s).2 = lasting s := by simp [sagRelease]

@[simp] theorem lasting_sagTogether (s : State) : lasting (sagTogether s) = lasting s := by simp [sagTogether]

@[simp] theorem lasting_sagRunning (cause vhold : Nat) (s : State) : lasting (sagRunning cause vhold s) = lasting s := by simp [sagRunning]

@[simp] theorem lasting_sagBooting (cause vhold : Nat) (s : State) : lasting (sagBooting cause vhold s) = lasting s := by simp [sagBooting]

@[simp] theorem lasting_startSave (cause vhold : Nat) (s : State) : lasting (startSave cause vhold s) = lasting s := by
  unfold startSave
  split <;> simp

@[simp] theorem lasting_startSaveOpen (cause : Nat) (s : State) : lasting (startSaveOpen cause s) = lasting s := by simp [startSaveOpen]

@[simp] theorem lasting_saveDone (torn : Bool) (cycles vhold : Nat) (s : State) : lasting (saveDone torn cycles vhold s) = lasting s := by
  unfold saveDone
  split <;> simp

@[simp] theorem lasting_rootPllLoss (s : State) : lasting (rootPllLoss s) = lasting s := by simp [rootPllLoss]

@[simp] theorem lasting_rollGrid (s : State) : lasting (rollGrid s) = lasting s := by simp [rollGrid]

@[simp] theorem lasting_restoreHoppers (v : Save) (s : State) : lasting (restoreHoppers v s) = lasting s := by
  refine lasting_foldl _ _ fun s e => ?_
  split <;> simp

@[simp] theorem lasting_restoreProv (v : Save) (impr : BitVec 32) (s : State) : lasting (restoreProv v impr s) = lasting s := by simp [restoreProv]

@[simp] theorem lasting_restoreDomains (s : State) : lasting (restoreDomains s) = lasting s := by simp [restoreDomains]

@[simp] theorem lasting_restoreTiming (dpll : Dpll) (steer : Int) (model : HoldRec) (s : State) :
    lasting (restoreTiming dpll steer model s) = lasting s := by simp [restoreTiming]

@[simp] theorem lasting_restoreTime (lost : Bool) (s : State) : lasting (restoreTime lost s) = lasting s := by simp [restoreTime]

@[simp] theorem lasting_restorePair (s : State) : lasting (restorePair s) = lasting s := by simp [restorePair]

@[simp] theorem lasting_trialEvents (s : State) : lasting (trialEvents s) = lasting s := by simp [trialEvents]

@[simp] theorem lasting_lateEvents (s : State) : lasting (lateEvents s) = lasting s := by simp [lateEvents]

@[simp] theorem lasting_setFw (b : Bool) (x : FwSlot) (s : State) : lasting (setFw b x s) = lasting s := by simp [setFw]

@[simp] theorem lasting_rescueMode (s : State) : lasting (rescueMode s) = lasting s := by simp [rescueMode]

@[simp] theorem lasting_pmbTalk (cmd : Nat) (data : List Byte) (read : Bool) (s : State) : lasting (pmbTalk cmd data read s) = lasting s := by simp [pmbTalk]

@[simp] theorem lasting_voutWrite (mv : Nat) (s : State) : lasting (voutWrite mv s) = lasting s := by simp [voutWrite]

/-! ### Power.lean -/

@[simp] theorem lasting_quadZero (g : Nat) (s : State) : lasting (quadZero g s) = lasting s := by simp [quadZero]

@[simp] theorem lasting_loseHalf (h : Nat) (s : State) : lasting (loseHalf h s) = lasting s := by simp [loseHalf]

@[simp] theorem lasting_landDomOff (d : Nat) (s : State) : lasting (landDomOff d s) = lasting s := by simp [landDomOff]

@[simp] theorem lasting_opPwrSet (d st : BitVec 8) (s : State) : lasting ((opPwrSet d st).run s).s = lasting s := by
  simp only [opPwrSet]
  repeat' split
  all_goals simp

@[simp] theorem lasting_pwrDone (d : Nat) (s : State) : lasting (pwrDone d s) = lasting s := by simp [pwrDone]

@[simp] theorem lasting_opPwrInfo (s : State) : lasting (opPwrInfo.run s).s = lasting s := by simp [opPwrInfo]

@[simp] theorem lasting_avsFail (s : State) : lasting (avsFail s) = lasting s := by simp [avsFail]

@[simp] theorem lasting_voutTry (mv st : Nat) (ack : Bool) (s : State) : lasting (voutTry mv st ack s) = lasting s := by simp [voutTry]

@[simp] theorem lasting_avsAdjust (below twice ack : Bool) (s : State) : lasting (avsAdjust below twice ack s) = lasting s := by simp [avsAdjust]

@[simp] theorem lasting_pmbusPoll (ack : Bool) (vout iout : Nat) (s : State) : lasting (pmbusPoll ack vout iout s) = lasting s := by simp [pmbusPoll]

@[simp] theorem lasting_avsRetry (ack : Bool) (s : State) : lasting (avsRetry ack s) = lasting s := by simp [avsRetry]

@[simp] theorem lasting_pmbAlert (w : Option (BitVec 16)) (s : State) : lasting (pmbAlert w s) = lasting s := by
  unfold pmbAlert
  repeat' split
  all_goals simp

@[simp] theorem lasting_opSagCfg (th : BitVec 8) (s : State) : lasting ((opSagCfg th).run s).s = lasting s := by simp [opSagCfg]

@[simp] theorem lasting_fwLocked (s : State) {r : Res} (h : lasting r.s = lasting s) : lasting (fwLocked s r).s = lasting s := by
  unfold fwLocked
  split <;> simp [h]

@[simp] theorem lasting_opFwOpen (slot : BitVec 8) (s : State) : lasting ((opFwOpen slot).run s).s = lasting s := by simp [opFwOpen]

@[simp] theorem lasting_opFwData (slot : BitVec 8) (off : Word) (data : List Byte) (s : State) :
    lasting ((opFwData slot off data).run s).s = lasting s := by simp [opFwData]

@[simp] theorem lasting_opFwCommit (slot : BitVec 8) (s : State) : lasting ((opFwCommit slot).run s).s = lasting s := by simp [opFwCommit]

@[simp] theorem lasting_fwCommitted (b good : Bool) (s : State) : lasting (fwCommitted b good s) = lasting s := by simp [fwCommitted]

@[simp] theorem lasting_fwInfoOf (s : State) (b : Bool) : lasting (fwInfoOf s b).2 = lasting s := by simp [fwInfoOf]

@[simp] theorem lasting_opFwInfo (s : State) : lasting (opFwInfo.run s).s = lasting s := by simp [opFwInfo]

@[simp] theorem lasting_opReset (h : Hdr) (kind : BitVec 8) (s : State) : lasting ((opReset h kind).run s).s = lasting s := by simp [opReset]

@[simp] theorem lasting_opLogRead (off : Word) (len : BitVec 16) (s : State) : lasting ((opLogRead off len).run s).s = lasting s := by simp [opLogRead]

@[simp] theorem lasting_opI2cXfer (h : Hdr) (bus addr : BitVec 8) (s : State) : lasting ((opI2cXfer h bus addr).run s).s = lasting s := by simp [opI2cXfer]

@[simp] theorem lasting_i2cDone (bus : Nat) (ok busy : Bool) (rdata : List Byte) (s : State) : lasting (i2cDone bus ok busy rdata s) = lasting s := by
  unfold i2cDone
  split <;> simp

/-! ### RegRead.lean -/

@[simp] theorem lasting_setLatch (path : Nat) (l : Option (Nat × Word)) (s : State) : lasting (setLatch path l s) = lasting s := by simp [setLatch]

@[simp] theorem lasting_readAt (path a w : Nat) (s : State) : lasting (readAt path a w s).2 = lasting s := by
  unfold readAt
  repeat' split
  all_goals simp

@[simp] theorem lasting_readMany (path a w n : Nat) (s : State) : lasting (readMany path a w n s).2 = lasting s := by
  induction n generalizing a s with
  | zero => rfl
  | succ n ih => simp [readMany, ih]

@[simp] theorem lasting_opRegRd (h : Hdr) (addr : Word) (width : BitVec 8) (count : BitVec 16) (s : State) :
    lasting ((opRegRd h addr width count).run s).s = lasting s := by simp [opRegRd]

@[simp] theorem lasting_barReadNow (a w : Nat) (s : State) : lasting (barReadNow a w s) = lasting s := by simp [barReadNow]

@[simp] theorem lasting_highHalfLatch (path : Option Port) (rd : BarRead) (s : State) : lasting (highHalfLatch path rd s) = lasting s := by
  unfold highHalfLatch
  split <;> simp

/-! ### Access.lean -/

@[simp] theorem lasting_edgeNow (o : Nat) (s : State) : lasting (edgeNow o s) = lasting s := by simp [edgeNow]

@[simp] theorem lasting_timingStore (a : Nat) (w ws m : Word) (s : State) : lasting (timingStore a w ws m s) = lasting s := by simp [timingStore]

@[simp] theorem lasting_timeCtlStore (w ws m : Word) (s : State) : lasting (timeCtlStore w ws m s) = lasting s := by simp [timeCtlStore]

@[simp] theorem lasting_hwmClear (h : Nat) (s : State) : lasting (hwmClear h s) = lasting s := by
  unfold hwmClear
  split <;> simp

@[simp] theorem lasting_hcfgStore (h : Nat) (w ws m : Word) (s : State) : lasting (hcfgStore h w ws m s) = lasting s := by simp [hcfgStore]

@[simp] theorem lasting_pinFenceEnds (k : Option Nat) (s : State) : lasting (pinFenceEnds k s) = lasting s := by simp [pinFenceEnds]

@[simp] theorem lasting_ringStore (w ws m : Word) (s : State) : lasting (ringStore w ws m s) = lasting s := by simp [ringStore]

@[simp] theorem lasting_regStore (a : Nat) (w ws m : Word) (s : State) : lasting (regStore a w ws m s) = lasting s := by simp [regStore]

@[simp] theorem lasting_regWrite (a : Nat) (v m : Word) (s : State) : lasting (regWrite a v m s) = lasting s := by
  unfold regWrite
  split <;> simp

@[simp] theorem lasting_presetCnt (a : Nat) (v : BitVec 64) (s : State) : lasting (presetCnt a v s) = lasting s := by simp [presetCnt]

@[simp] theorem lasting_write32 (a : Nat) (v not_ : Word) (s : State) : lasting (write32 a v not_ s) = lasting s := by simp [write32]

@[simp] theorem lasting_writeAll (l : List (Nat × BitVec 64)) (w : Nat) (s : State) : lasting (writeAll l w s) = lasting s := by simp [writeAll]

/-- A write that a register check refuses changes nothing. -/
theorem lasting_writeBars {h : Hdr} {op w : Nat} {l : List Nat} {s : State} {r : Res} (e : writeBars h op w l s = some r) :
    lasting r.s = lasting s := by
  unfold writeBars at e
  repeat' split at e
  all_goals cases e
  all_goals rfl

theorem lasting_gpioJudge (reply : List Byte) {s t : State} (h : lasting t = lasting s) : lasting (gpioJudge reply s t).s = lasting s := by
  unfold gpioJudge
  split <;> simp [h]

@[simp] theorem lasting_opRegWr (h : Hdr) (addr : Word) (width : BitVec 8) (count : BitVec 16) (data : List Byte) (s : State) :
    lasting ((opRegWr h addr width count data).run s).s = lasting s := by
  unfold opRegWr
  dsimp only
  split
  · simp
  · split
    · simp
    · split
      · next e => exact lasting_writeBars e
      · exact lasting_gpioJudge _ (by simp)

@[simp] theorem lasting_opRegRmw (h : Hdr) (addr mask value : Word) (s : State) : lasting ((opRegRmw h addr mask value).run s).s = lasting s := by
  unfold opRegRmw
  dsimp only
  split
  · next e => exact lasting_writeBars e
  · exact lasting_gpioJudge _ (by simp)

@[simp] theorem lasting_barOne (a : Nat) (v : Word) (s : State) : lasting (barOne a v s) = lasting s := by simp [barOne]

@[simp] theorem lasting_landBar (a w : Nat) (v : BitVec 64) (no : Word) (s : State) : lasting (landBar a w v no s) = lasting s := by
  simp only [landBar]
  repeat' split
  all_goals simp

@[simp] theorem lasting_landLock (a : Nat) (v : Word) (s : State) : lasting (landLock a v s) = lasting s := by simp [landLock]

@[simp] theorem lasting_barWrite (a w : Nat) (v : BitVec 64) (s : State) : lasting (barWrite a w v s) = lasting s := by simp [barWrite]

/-! ### Pins.lean -/

@[simp] theorem lasting_setSample (k : Nat) (v : Bool) (s : State) : lasting (setSample k v s) = lasting s := by simp [setSample]

@[simp] theorem lasting_fencePinOn (s : State) : lasting (fencePinOn s) = lasting s := by
  unfold fencePinOn
  split <;> simp

@[simp] theorem lasting_fencePinOff (s : State) : lasting (fencePinOff s) = lasting s := by
  unfold fencePinOff
  split <;> simp

@[simp] theorem lasting_loadInstr (i : Jtag) (s : State) : lasting (loadInstr i s) = lasting s := by simp [loadInstr]

/-! ### Frames.lean -/

@[simp] theorem lasting_queueProfiles (n f : Nat) (s : State) : lasting (queueProfiles n f s) = lasting s := by simp [queueProfiles]

@[simp] theorem lasting_sentMsg (n : Nat) (m : PMsg) (s : State) : lasting (sentMsg n m s) = lasting s := by
  unfold sentMsg
  split <;> simp

@[simp] theorem lasting_composePloam (n f b : Nat) (s : State) : lasting (composePloam n f b s) = lasting s := by simp [composePloam]

@[simp] theorem lasting_dynGrant (n b a at_ cls k : Nat) (s : State) : lasting (dynGrant n b a at_ cls k s).2 = lasting s := by simp [dynGrant]

@[simp] theorem lasting_pollOne (n b w : Nat) (probe : Bool) (others : List (Nat × Nat)) (x : Filling) (e : Nat × ACfg) :
    lasting (pollOne n b w probe others x e).s = lasting x.s := by
  unfold pollOne
  split
  · rfl
  · dsimp only
    split <;> simp

@[simp] theorem lasting_dynLoop (n b w : Nat) (dom : Option Nat) (probe : Bool) (others : List (Nat × Nat)) (f : Nat) (x : Filling) :
    lasting (dynLoop n b w dom probe others f x).s = lasting x.s := by
  induction f generalizing x with
  | zero => rfl
  | succ f ih =>
    unfold dynLoop
    dsimp only
    split
    · rfl
    · split
      · next s' e => exact lasting_of_eq e (lasting_drrPick ..)
      · next leaf c s' e =>
        have h := lasting_of_eq e (lasting_drrPick ..)
        split
        · exact h
        · simp [ih, h]

@[simp] theorem lasting_fillWindow (n at_ : Nat) (probe : Bool) (others : List (Nat × Nat)) (x : List Grant × State) (q : SlackUp) :
    lasting (fillWindow n at_ probe others x q).2 = lasting x.2 := by
  have h (l : List (Nat × ACfg)) (f : Filling) (w : Nat) : lasting (l.foldl (pollOne n at_ w probe others) f).s = lasting f.s := by
    induction l generalizing f with
    | nil => rfl
    | cons e l ih => rw [List.foldl_cons, ih, lasting_pollOne]
  simp [fillWindow, h]

@[simp] theorem lasting_polledBy (n : Nat) (g : Grant) (s : State) : lasting (polledBy n g s) = lasting s := by simp [polledBy]

@[simp] theorem lasting_withholdIn (n b : Nat) (probe : Bool) (span : Nat × Nat) (s : State) : lasting (withholdIn n b probe span s) = lasting s := by
  simp [withholdIn]

@[simp] theorem lasting_composeGrants (n f at_ : Nat) (p : Plate) (s : State) : lasting (composeGrants n f at_ p s).2 = lasting s := by
  simp [composeGrants, lasting_foldl_snd]

@[simp] theorem lasting_frameCompose (n : Nat) (s : State) : lasting (frameCompose n s) = lasting s := by
  unfold frameCompose
  dsimp only
  split
  · rfl
  · rw [lasting_updTree, lasting_bump]
    split <;> simp [lasting_foldl_snd]

/-! ### Down.lean -/

@[simp] theorem lasting_downPlace (n q k len : Nat) (fr : Frame) (s : State) : lasting (downPlace n q k len fr s) = lasting s := by simp [downPlace]

@[simp] theorem lasting_downSend (n q : Nat) (fr : Frame) (s : State) : lasting (downSend n q fr s) = lasting s := by simp [downSend]

@[simp] theorem lasting_setComp (n q : Nat) (s : State) : lasting (setComp n q s) = lasting s := by simp [setComp]

@[simp] theorem lasting_occPassed (f : Nat) (s : State) : lasting (occPassed f s) = lasting s := by simp [occPassed]

@[simp] theorem lasting_slotSend (n : Nat) (r : Flow) (d : Down) (s : State) : lasting (slotSend n r d s) = lasting s := by simp [slotSend]

@[simp] theorem lasting_downSlot (p : Plate) (n lim : Nat) (d : Down) (s : State) : lasting (downSlot p n lim d s) = lasting s := by
  unfold downSlot
  repeat' split
  all_goals simp

@[simp] theorem lasting_flumePop (t : Nat) (rest : List Frame) (s : State) : lasting (flumePop t rest s) = lasting s := by simp [flumePop]

@[simp] theorem lasting_downGap (n lim area nextGap gapEnd : Nat) (s : State) : lasting (downGap n lim area nextGap gapEnd s) = lasting s := by
  unfold downGap
  split <;> simp

@[simp] theorem lasting_downLoop (p : Plate) (n lim area nextGap : Nat) (ds : List Down) (f : Nat) (s : State) :
    lasting (downLoop p n lim area nextGap ds f s) = lasting s := by
  induction f generalizing s with
  | zero => rfl
  | succ f ih =>
    unfold downLoop
    dsimp only
    split
    · rfl
    · rw [ih]
      split <;> simp

@[simp] theorem lasting_downRest (n ft : Nat) (s : State) : lasting (downRest n ft s) = lasting s := by
  unfold downRest
  dsimp only
  split <;> simp

@[simp] theorem lasting_downStroke (t n : Nat) (s : State) : lasting (downStroke t n s) = lasting s := by
  unfold downStroke
  dsimp only
  split <;> simp

@[simp] theorem lasting_tribLate (n : Nat) (r : Flow) (d : Down) (s : State) : lasting (tribLate n r d s) = lasting s := by simp [tribLate]

@[simp] theorem lasting_tribMap (f : Nat) (s : State) : lasting (tribMap f s) = lasting s := by
  unfold tribMap
  repeat' split
  all_goals simp

@[simp] theorem lasting_frameSent (t n : Nat) (s : State) : lasting (frameSent t n s) = lasting s := by simp [frameSent]

@[simp] theorem lasting_todReplies (s : State) : lasting (todReplies s) = lasting s := by
  refine lasting_foldl _ _ fun s w => ?_
  split
  · split <;> simp
  · rfl

/-! ### Egress.lean -/

@[simp] theorem lasting_txCount (q len : Nat) (s : State) : lasting (txCount q len s) = lasting s := by simp [txCount]

@[simp] theorem lasting_txBytes (q : Nat) (l : List Byte) (s : State) : lasting (txBytes q l s) = lasting s := by simp [txBytes]

@[simp] theorem lasting_twinSend (t : Nat) (l : List Byte) (s : State) : lasting (twinSend t l s) = lasting s := by simp [twinSend]

@[simp] theorem lasting_egressSend (p q : Nat) (thr : Bool) (fr : Frame) (s : State) : lasting (egressSend p q thr fr s) = lasting s := by
  unfold egressSend
  dsimp only
  split <;> simp

@[simp] theorem lasting_tsPush (p : Nat) (l : List Byte) (s : State) : lasting (tsPush p l s) = lasting s := by
  unfold tsPush
  dsimp only
  split <;> simp

@[simp] theorem lasting_devTake (q kind : Nat) (s : State) : lasting (devTake q kind s) = lasting s := by
  unfold devTake
  split <;> simp

@[simp] theorem lasting_devSend (q kind : Nat) (l : List Byte) (s : State) : lasting (devSend q kind l s) = lasting s := by simp [devSend]

@[simp] theorem lasting_devPurge (q : Nat) (ents : List (Nat × Nat)) (bps n : Nat) (s : State) : lasting (devPurge q ents bps n s) = lasting s := by
  induction n generalizing s with
  | zero => rfl
  | succ n ih =>
    unfold devPurge
    split <;> simp [ih]

@[simp] theorem lasting_srcPut (src : Nat ⊕ Nat) (l : List Frame) (s : State) : lasting (srcPut src l s) = lasting s := by
  unfold srcPut
  split <;> simp

@[simp] theorem lasting_portDown (p : Nat) (src : Nat ⊕ Nat) (s : State) : lasting (portDown p src s) = lasting s := by simp [portDown]

@[simp] theorem lasting_slackPurge (p : Nat) (ents : List (Nat × Nat)) (bps n : Nat) (s : State) : lasting (slackPurge p ents bps n s) = lasting s := by
  induction n generalizing s with
  | zero => rfl
  | succ n ih =>
    unfold slackPurge
    split <;> simp [ih]

@[simp] theorem lasting_macTake (q room need : Nat) (s : State) : lasting (macTake q room need s).2 = lasting s := by simp [macTake]

@[simp] theorem lasting_sendLoop (p q : Nat) (src : Nat ⊕ Nat) (ahead n room : Nat) (s : State) :
    lasting (sendLoop p q src ahead n room s).2 = lasting s := by
  induction n generalizing room s with
  | zero => rfl
  | succ n ih =>
    unfold sendLoop
    split
    · rfl
    · split <;> simp [ih]

@[simp] theorem lasting_devLoop (q ahead n room : Nat) (s : State) : lasting (devLoop q ahead n room s).2 = lasting s := by
  induction n generalizing room s with
  | zero => rfl
  | succ n ih =>
    unfold devLoop
    split <;> simp [ih]

@[simp] theorem lasting_macStroke (st q : Nat) (s : State) : lasting (macStroke st q s) = lasting s := by
  unfold macStroke
  split
  · rfl
  · extract_lets bps ents u used room s1 s2 s3 ent ahead paused twin
    have h : lasting s3 = lasting s := by
      unfold s3
      split <;> simp [s2, s1]
    split
    · split
      · exact h
      · simp [h]
    · split
      · exact h
      · next x t _ _ _ _ =>
        have hx : lasting x.2 = lasting s := by
          unfold x
          split
          · exact h
          · split
            · split <;> simp [h]
            · simp [h]
        split <;> simp [hx, t]

@[simp] theorem lasting_inbandReplies (s : State) : lasting (inbandReplies s) = lasting s := by
  refine lasting_foldl _ _ fun s r => ?_
  dsimp only
  split <;> simp

@[simp] theorem lasting_tsConsume (g : Nat) (s : State) : lasting (tsConsume g s) = lasting s := by
  unfold tsConsume
  dsimp only
  split
  · rfl
  · rw [lasting_foldl]
    · simp
    · intro s i
      split <;> simp

/-! ### Stream.lean -/

@[simp] theorem lasting_repairRec (f : BitVec 16) (q : BitVec 32) (data : List Byte) (s : State) : lasting (repairRec f q data s) = lasting s := by
  simp [repairRec]

@[simp] theorem lasting_recovTake (st f : Nat) (q : BitVec 32) (own : Option Frame) (s : State) : lasting (recovTake st f q own s) = lasting s := by
  unfold recovTake
  split <;> simp

@[simp] theorem lasting_ingressRec (st k : Nat) (f : BitVec 16) (len : Nat) (q : BitVec 32) (s : State) :
    lasting (ingressRec st k f len q s) = lasting s := by
  simp only [ingressRec]
  repeat' split
  all_goals simp

@[simp] theorem lasting_queuesTake (g : Nat) (new : TermSt) (s : State) : lasting (queuesTake g new s) = lasting s := by simp [queuesTake]

@[simp] theorem lasting_terminalRec (g st eqd rtd : Nat) (was : Bool) (tries : Nat) (s : State) :
    lasting (terminalRec g st eqd rtd was tries s) = lasting s := by simp [terminalRec]

@[simp] theorem lasting_driftRec (g eqd : Nat) (s : State) : lasting (driftRec g eqd s) = lasting s := by simp [driftRec]

@[simp] theorem lasting_rogueRec (n : Nat) (run : Bool) (quiet : Nat) (named : Option Nat) (cands held : List Nat) (suspect : Option Nat) (s : State) :
    lasting (rogueRec n run quiet named cands held suspect s) = lasting s := by simp [rogueRec]

@[simp] theorem lasting_timeRec (at_ : Nat) (b : Bool) (st cb : Nat) (tau r mpd asym kb : Int) (sel : Bool) (k : Int) (s : State) :
    lasting (timeRec at_ b st cb tau r mpd asym kb sel k s) = lasting s := by simp [timeRec]

@[simp] theorem lasting_burstUpd (st n t a : Nat) (f : Grant → Grant) (s : State) : lasting (burstUpd st n t a f s) = lasting s := by
  unfold burstUpd
  split <;> simp

@[simp] theorem lasting_codewordSend (n t a c : Nat) (s : State) : lasting (codewordSend n t a c s) = lasting s := by simp [codewordSend]

@[simp] theorem lasting_repairCwRec (st n t a c : Nat) (data : List Byte) (s : State) : lasting (repairCwRec st n t a c data s) = lasting s := by
  simp [repairCwRec]

@[simp] theorem lasting_burstRec (st n t a : Nat) (found : Bool) (off : Int) (mask : Nat) (s : State) :
    lasting (burstRec st n t a found off mask s) = lasting s := by
  simp only [burstRec]
  repeat' split
  all_goals simp

@[simp] theorem lasting_deliveredRec (f : BitVec 16) (q : BitVec 32) (s : State) : lasting (deliveredRec f q s) = lasting s := by simp [deliveredRec]

@[simp] theorem lasting_sameLos (st n : Nat) (s : State) : lasting (sameLos st n s) = lasting s := by simp [sameLos]

@[simp] theorem lasting_defectRec (st n code : Nat) (on : Bool) (s : State) : lasting (defectRec st n code on s) = lasting s := by simp [defectRec]

@[simp] theorem lasting_leaseRec (k : LeaseKind) (num : Nat) (epoch : BitVec 32) (e : Nat) (s : State) :
    lasting (leaseRec k num epoch e s) = lasting s := by
  unfold leaseRec
  split <;> simp

@[simp] theorem lasting_streamJoins (st : Nat) (s : State) : lasting (streamJoins st s) = lasting s := by simp [streamJoins]

@[simp] theorem lasting_ackTo (v : Nat) (s : State) : lasting (ackTo v s) = lasting s := by simp [ackTo]

@[simp] theorem lasting_ackAll (s : State) : lasting (ackAll s) = lasting s := by simp [ackAll]

@[simp] theorem lasting_atStroke (r : StreamRec) (s : State) : lasting (atStroke r s) = lasting s := by simp [atStroke]

/-! ### Transports.lean -/

@[simp] theorem lasting_refuseCrc (p : Port) (op : Nat) (tag : BitVec 16) (s : State) : lasting (refuseCrc p op tag s) = lasting s := by simp [refuseCrc]

@[simp] theorem lasting_spiAnswer (l : List Byte) (s : State) : lasting (spiAnswer l s) = lasting s := by simp [spiAnswer]

@[simp] theorem lasting_spiRead (n : Nat) (s : State) : lasting (spiRead n s) = lasting s := by
  unfold spiRead
  split <;> simp

@[simp] theorem lasting_spiStat (s : State) : lasting (spiStat s) = lasting s := by simp [spiStat]

@[simp] theorem lasting_replyWrite (cap : Nat) (s : State) : lasting (replyWrite cap s) = lasting s := by
  unfold replyWrite
  split <;> simp

@[simp] theorem lasting_dequeue (k : Pkt) (s : State) : lasting (dequeue k s) = lasting s := by simp [dequeue]

@[simp] theorem lasting_timedExecution (s : State) : lasting (timedExecution s) = lasting s := by
  unfold timedExecution
  split <;> simp

/-! ### UplinkRx.lean -/

@[simp] theorem lasting_fecCount (p : Nat) (cws : List (Option Nat)) (s : State) : lasting (fecCount p cws s) = lasting s := by simp [fecCount]

@[simp] theorem lasting_macControl (p e : Nat) (l : List Byte) (s : State) : lasting (macControl p e l s) = lasting s := by simp [macControl]

@[simp] theorem lasting_screenAdmit (p f : Nat) (l : List Byte) (s : State) : lasting (screenAdmit p f l s) = lasting s := by simp [screenAdmit]

@[simp] theorem lasting_portMoved (f p p' : Nat) (s : State) : lasting (portMoved f p p' s) = lasting s := by simp [portMoved]

@[simp] theorem lasting_moveCount (a b n : Nat) (s : State) : lasting (moveCount a b n s) = lasting s := by simp [moveCount]

@[simp] theorem lasting_screenRx (p : Nat) (x : Screen) (l : List Byte) (s : State) : lasting (screenRx p x l s) = lasting s := by
  simp only [screenRx]
  repeat' split
  all_goals simp

@[simp] theorem lasting_sortFrame (p : Nat) (l : List Byte) (s : State) : lasting (sortFrame p l s) = lasting s := by
  unfold sortFrame
  repeat' split
  all_goals simp

/-! ### Replay.lean -/

@[simp] theorem lasting_takeDev (q : BitVec 32) (s : State) : lasting (takeDev q s) = lasting s := by simp [takeDev]

@[simp] theorem lasting_atCanonical (n : Nat) (s : State) : lasting (atCanonical n s) = lasting s := by simp [atCanonical]

@[simp] theorem lasting_keepTimed (s : State) (r : StreamRec) : lasting (keepTimed s r) = lasting s := by
  unfold keepTimed
  repeat' split
  all_goals simp

/-! ### Boundary.lean -/

@[simp] theorem lasting_revertPorts (t : Nat) (s : State) : lasting (revertPorts t s) = lasting s := by simp [revertPorts]

@[simp] theorem lasting_streamTold (s : State) : lasting (streamTold s) = lasting s := by simp [streamTold]

@[simp] theorem lasting_driftEval (g : Nat) (s : State) : lasting (driftEval g s) = lasting s := by simp [driftEval]

@[simp] theorem lasting_termBoundary (g : Nat) (s : State) : lasting (termBoundary g s) = lasting s := by
  unfold termBoundary
  split <;> simp

@[simp] theorem lasting_losBoundary (n : Nat) (s : State) : lasting (losBoundary n s) = lasting s := by simp [losBoundary]

@[simp] theorem lasting_trimSkew (n : Nat) (s : State) : lasting (trimSkew n s) = lasting s := by simp [trimSkew]

@[simp] theorem lasting_setApply (n : Nat) (s : State) : lasting (setApply n s) = lasting s := by
  unfold setApply
  dsimp only
  split <;> simp

@[simp] theorem lasting_treeBoundary (n : Nat) (s : State) : lasting (treeBoundary n s) = lasting s := by simp [treeBoundary]

@[simp] theorem lasting_gridStep (s : State) : lasting (gridStep s) = lasting s := by simp [gridStep]

@[simp] theorem lasting_leaseFirst (b : Nat) (s : State) : lasting (leaseFirst b s) = lasting s := by simp [leaseFirst]

@[simp] theorem lasting_phaseCheck (b : Nat) (s : State) : lasting (phaseCheck b s) = lasting s := by simp [phaseCheck]

@[simp] theorem lasting_autoSel (s : State) : lasting (autoSel s) = lasting s := by simp [autoSel]

@[simp] theorem lasting_estSettings (s : State) : lasting (estSettings s) = lasting s := by simp [estSettings]

@[simp] theorem lasting_estBoundary (s : State) : lasting (estBoundary s) = lasting s := by simp [estBoundary]

@[simp] theorem lasting_millBoundary (s : State) : lasting (millBoundary s) = lasting s := by simp [millBoundary]

@[simp] theorem lasting_pauseBoundary (s : State) : lasting (pauseBoundary s) = lasting s := by simp [pauseBoundary]

@[simp] theorem lasting_pairBoundary (s : State) : lasting (pairBoundary s) = lasting s := by simp [pairBoundary]

@[simp] theorem lasting_bwSample (s : State) : lasting (bwSample s) = lasting s := by simp [bwSample]

@[simp] theorem lasting_bwWindowEnd (s : State) : lasting (bwWindowEnd s) = lasting s := by
  simp only [bwWindowEnd]
  repeat' split
  all_goals simp

@[simp] theorem lasting_windowBoundary (s : State) : lasting (windowBoundary s) = lasting s := by simp [windowBoundary]

@[simp] theorem lasting_effectsDue (s : State) : lasting (effectsDue s) = lasting s := by simp [effectsDue]

end Sys2Proof.Machine
end

section
/-! PROOFS. What each function and each instruction that fills a bank or the MRAM copy keeps of the lasting part (O59). -/

namespace Sys2Proof.Machine

open Config

/-! ### Images -/

/-- An image in canonical form within a bank's 5,242,880 bytes (R52). -/
def imageOk (m : Map Byte) : Bool := mwf 0 m && m.all (fun e => decide (e.1 < 5242880))

@[simp] theorem imageOk_nil : imageOk [] = true := rfl

theorem all_mins {α : Type} (p : Nat × α → Bool) {m : Map α} {k : Nat} {v : α} (hm : m.all p = true) (hv : p (k, v) = true) :
    (mins m k v).all p = true := by
  induction m with
  | nil => simp [mins, hv]
  | cons e m ih =>
    obtain ⟨k', w⟩ := e
    simp only [List.all_cons, Bool.and_eq_true] at hm
    obtain ⟨he, hm⟩ := hm
    unfold mins
    split
    · simp [hv, he, hm]
    · split
      · simp [hv, hm]
      · simp [he, ih hm]

theorem imageOk_mput {m : Map Byte} {k : Nat} (v : Byte) (hm : imageOk m = true) (hk : k < 5242880) : imageOk (mput 0 m k v) = true := by
  simp only [imageOk, Bool.and_eq_true] at hm ⊢
  obtain ⟨hw, hall⟩ := hm
  refine ⟨mwf_mput 0 k v hw, ?_⟩
  unfold mput
  split
  · rw [List.all_eq_true] at hall ⊢
    exact fun e he => hall e (List.mem_of_mem_filter he)
  · exact all_mins _ hall (by simpa using hk)

theorem imageOk_imgWrite {m : Map Byte} {o : Nat} {l : List Byte} (hm : imageOk m = true) (ho : o + l.length ≤ 5242880) :
    imageOk (imgWrite m o l) = true := by
  induction l generalizing m o with
  | nil => exact hm
  | cons x l ih =>
    rw [List.length_cons] at ho
    exact ih (imageOk_mput x hm (by omega)) (by omega)

/-- The image of a bank that a section of the copy fills ends within the bank (R52, R347). -/
@[simp] theorem imageOk_imageBank (st : BankSt) (l : List Byte) : imageOk (imageBank st l).image = true :=
  imageOk_imgWrite imageOk_nil (by simp)

/-! ### What every step keeps of the lasting part -/

/-- Every image of the lasting part is in order. -/
def Lasting.storeOk (a : Lasting) : Bool := ([a.image0, a.image1] ++ a.mram.toList).all imageOk

theorem plateStoreOk_eq (s : State) : plateStoreOk s = (lasting s).storeOk := rfl

theorem Lasting.image_ok {a : Lasting} (h : a.storeOk = true) (b : Bool) : imageOk (a.image b) = true := by
  simp only [storeOk, List.all_append, List.all_cons, Bool.and_eq_true] at h
  obtain ⟨⟨h0, h1, -⟩, -⟩ := h
  cases b
  · exact h0
  · exact h1

theorem Lasting.mram_ok {a : Lasting} (h : a.storeOk = true) {m : Map Byte} (hm : a.mram = some m) : imageOk m = true := by
  simp only [storeOk, List.all_append, Bool.and_eq_true] at h
  simpa [hm] using h.2

/-- From a to b: the queue and the fused part stay, and images in order stay in order. -/
structure Lasting.Keeps (a b : Lasting) : Prop where
  queue : b.queue = a.queue
  fuse : b.fuse = a.fuse
  store : a.storeOk = true → b.storeOk = true

@[simp] theorem Lasting.Keeps.refl (a : Lasting) : a.Keeps a := ⟨rfl, rfl, id⟩

theorem Lasting.Keeps.trans {a b c : Lasting} (h : a.Keeps b) (k : b.Keeps c) : a.Keeps c :=
  ⟨k.queue.trans h.queue, k.fuse.trans h.fuse, fun x => k.store (h.store x)⟩

@[simp] theorem keeps_ite (c : Prop) [Decidable c] (a x y : Lasting) : a.Keeps (if c then x else y) ↔ if c then a.Keeps x else a.Keeps y := by
  split <;> rfl

variable {a : Lasting} {s : State}

theorem keeps_foldl {α : Type} {g : State → α → State} {l : List α} (h : a.Keeps (lasting s))
    (hg : ∀ s x, a.Keeps (lasting s) → a.Keeps (lasting (g s x))) : a.Keeps (lasting (l.foldl g s)) := by
  induction l generalizing s with
  | nil => exact h
  | cons x l ih => exact ih (hg s x h)

/-- A bank whose new image is in order where the old ones are. -/
theorem keeps_setBank (b : Bool) {x : Bank} (h : a.Keeps (lasting s)) (hx : (lasting s).storeOk = true → imageOk x.image = true) :
    a.Keeps (lasting (setBank b x s)) := by
  refine h.trans ⟨by cases b <;> rfl, by cases b <;> rfl, fun hs => ?_⟩
  have h' := hx hs
  simp only [Lasting.storeOk, List.all_append, List.all_cons, Bool.and_eq_true] at hs ⊢
  obtain ⟨⟨h0, h1, hn⟩, hm⟩ := hs
  cases b
  · exact ⟨⟨h', h1, hn⟩, hm⟩
  · exact ⟨⟨h0, h', hn⟩, hm⟩

@[simp] theorem keeps_emptyBank (b : Bool) (h : a.Keeps (lasting s)) : a.Keeps (lasting (emptyBank b s)) := by
  unfold emptyBank
  exact keeps_setBank b (by simpa using h) (fun _ => rfl)

@[simp] theorem keeps_emptySec (k : Nat) (h : a.Keeps (lasting s)) : a.Keeps (lasting (emptySec s k)) := by
  unfold emptySec
  split <;> simp [h]

theorem keeps_emptySecs {l : List Nat} (h : a.Keeps (lasting s)) : a.Keeps (lasting (l.foldl emptySec s)) :=
  keeps_foldl h fun _ k => keeps_emptySec k

@[simp] theorem keeps_outOfStep (c : Nat) (h : a.Keeps (lasting s)) : a.Keeps (lasting (outOfStep c s)) := by
  unfold outOfStep
  simp [h, keeps_emptySecs]

/-! ### Plates -/

@[simp] theorem keeps_endLoading (p : Port) (i : BitVec 32) (h : a.Keeps (lasting s)) : a.Keeps (lasting (endLoading p i s)) := by
  refine keeps_foldl h fun s b h => ?_
  simp [h]

/-- An opcode keeps what lasts where its parameters are in range, in whatever state they were looked at. -/
def Op.Keeps (o : Op) : Prop := ∀ (u s : State), o.bad u = 0 → (lasting s).Keeps (lasting (o.run s).s)

theorem Op.keeps_of_lasting {o : Op} (h : ∀ s, lasting (o.run s).s = lasting s) : o.Keeps := fun _ s _ => by rw [h s]; exact .refl _

theorem opPlateOpen_keeps (h : Hdr) (bk : BitVec 8) : (opPlateOpen h bk).Keeps := by
  intro u s _
  have hk := fun b x => keeps_setBank (a := lasting s) (s := dropTurnOf b s) b (x := { st := .loading, owner := some (h.port, h.session), feats := x })
    (by simp) (fun _ => rfl)
  simp [opPlateOpen, hk]

theorem firstBad_cons {o : Nat} {ok : Bool} {r : List (Nat × Bool)} (ho : o ≠ 0) (h : firstBad ((o, ok) :: r) = 0) : ok = true ∧ firstBad r = 0 := by
  unfold firstBad at h
  split at h
  · exact ⟨by assumption, h⟩
  · exact absurd h ho

theorem opPlateData_keeps (h : Hdr) (bk : BitVec 8) (off : Word) (d : List Byte) : (opPlateData h bk off d).Keeps := by
  intro u s hb
  have hfit : off.toNat + d.length ≤ 5242880 := by
    have h1 := (firstBad_cons (by decide) hb).2
    have h2 := (firstBad_cons (by decide) h1).2
    exact of_decide_eq_true (firstBad_cons (by decide) h2).1
  unfold opPlateData
  dsimp only
  split
  · simp
  · refine keeps_setBank _ (by simp) fun hs => imageOk_imgWrite ?_ hfit
    rw [bank_image]
    exact Lasting.image_ok hs _

theorem opPlateAbort_keeps (h : Hdr) (bk : BitVec 8) : (opPlateAbort h bk).Keeps := by
  intro u s _
  unfold opPlateAbort
  dsimp only
  split <;> simp

@[simp] theorem keeps_plateProved (b : Bool) (h : a.Keeps (lasting s)) : a.Keeps (lasting (plateProved b s)) := by
  unfold plateProved
  dsimp only
  split
  · exact h
  · split
    · split
      · exact h
      · next p m e =>
        split
        · exact h
        · simp
          refine keeps_setBank _ h fun hs => Lasting.mram_ok hs ?_
          simp [lasting, e]
    · split
      · exact h
      · split
        · simp
          exact keeps_setBank _ h (fun _ => rfl)
        · simp [h]

@[simp] theorem keeps_mramCopy (h : a.Keeps (lasting s)) : a.Keeps (lasting (mramCopy s)) := by
  unfold mramCopy
  split
  · exact h
  · next b _ =>
    split
    · refine h.trans ⟨rfl, rfl, fun hs => ?_⟩
      have hb := Lasting.image_ok hs b
      rw [← bank_image] at hb
      simp only [Lasting.storeOk, List.all_append, Bool.and_eq_true] at hs ⊢
      exact ⟨hs.1, by simpa [lasting] using hb⟩
    · simp [h]

@[simp] theorem keeps_engageTurn (h : a.Keeps (lasting s)) : a.Keeps (lasting (engageTurn s)) := by
  unfold engageTurn
  split
  · exact h
  · extract_lets old gone x1 s1 x2 s2 moved pl
    have h1 : a.Keeps (lasting s1) := by simp [s1, x1, h]
    have h2 : a.Keeps (lasting s2) := by simpa [s2, x2] using h1
    simpa [pl] using h2

@[simp] theorem keeps_turnDue (h : a.Keeps (lasting s)) : a.Keeps (lasting (turnDue s)) := by
  unfold turnDue
  split <;> simp [h]

@[simp] theorem keeps_disengageAt (b : Nat) (h : a.Keeps (lasting s)) : a.Keeps (lasting (disengageAt b s)) := by
  unfold disengageAt
  simp [h]

@[simp] theorem keeps_endSession (p : Port) (h : a.Keeps (lasting s)) : a.Keeps (lasting (endSession p s)) := by
  unfold endSession
  split <;> simp [h]

theorem opBye_keeps (h : Hdr) : (opBye h).Keeps := fun u s _ => by simp [opBye]

@[simp] theorem keeps_takeBanks (l : List Byte) (h : a.Keeps (lasting s)) : a.Keeps (lasting (takeBanks l s)) := by
  have hb {u : State} (b st x) (hu : a.Keeps (lasting u)) : a.Keeps (lasting (setBank b (imageBank st x) u)) :=
    keeps_setBank b hu (by simp)
  unfold takeBanks
  dsimp only
  split <;> rw [lasting_sweepLeft]
  · exact hb _ _ _ (hb _ _ _ (by simp [h]))
  · exact hb _ _ _ (by simp [h])
  · exact hb _ _ _ (by simp [h])
  · simp [h]

@[simp] theorem keeps_takeSec (k : Nat) (h : a.Keeps (lasting s)) : a.Keeps (lasting (takeSec s k)) := by
  unfold takeSec
  dsimp only
  split <;> simp [h]

@[simp] theorem keeps_coldSections (h : a.Keeps (lasting s)) : a.Keeps (lasting (coldSections s)) := by
  unfold coldSections
  extract_lets kept s1 _
  have h1 : a.Keeps (lasting s1) := keeps_foldl h fun u k hu => by simp [hu]
  simp [h, h1]

@[simp] theorem keeps_coldTake (h : a.Keeps (lasting s)) : a.Keeps (lasting (coldTake s)) := by
  simp [coldTake, h]

@[simp] theorem keeps_takeSails (form cause tr : Nat) (h : a.Keeps (lasting s)) : a.Keeps (lasting (takeSails form cause tr s)) := by
  simp [takeSails, h]

/-! ### The pair -/

@[simp] theorem keeps_adoptTime (h : a.Keeps (lasting s)) : a.Keeps (lasting (adoptTime s)) := by
  simp [adoptTime, h]

@[simp] theorem keeps_loseContact (h : a.Keeps (lasting s)) : a.Keeps (lasting (loseContact s)) := by
  simp [loseContact, h]

@[simp] theorem keeps_plLos (h : a.Keeps (lasting s)) : a.Keeps (lasting (plLos s)) := by
  simp [plLos, h]

@[simp] theorem keeps_openSession (p : Port) (o : BitVec 64) (h : a.Keeps (lasting s)) : a.Keeps (lasting (openSession p o s)) := by
  simp [openSession, h]

theorem opHello_keeps (h : Hdr) (o : BitVec 64) (b : BitVec 32) (u f r : BitVec 8) (k : BitVec 24) : (opHello h o b u f r k).Keeps := by
  intro u s _
  unfold opHello
  dsimp only
  split
  · split
    · simp
    · split
      · simp
      · split <;> simp
  · simp
  · simp

@[simp] theorem keeps_landLift (h : a.Keeps (lasting s)) : a.Keeps (lasting (landLift s)) := by
  simp [landLift, h]

@[simp] theorem keeps_landRaise (h : a.Keeps (lasting s)) : a.Keeps (lasting (landRaise s)) := by
  simp [landRaise, h]

@[simp] theorem keeps_landFeather (e : BitVec 32) (h : a.Keeps (lasting s)) : a.Keeps (lasting (landFeather e s)) := by
  simp [landFeather, h]

@[simp] theorem keeps_landSections (h : a.Keeps (lasting s)) : a.Keeps (lasting (landSections s)) := by
  have hs : a.Keeps (lasting (quickSecs.foldl takeSec s)) := keeps_foldl h fun _ k => keeps_takeSec k
  simp [landSections, h, hs]

@[simp] theorem keeps_digestCompare (h : a.Keeps (lasting s)) : a.Keeps (lasting (digestCompare s)) := by
  unfold digestCompare
  split <;> simp [h]

@[simp] theorem keeps_digestSend (b : Nat) (i : BitVec 32) (h : a.Keeps (lasting s)) : a.Keeps (lasting (digestSend b i s)) := by
  simp [digestSend, h]

@[simp] theorem keeps_digestAt (b : Nat) (h : a.Keeps (lasting s)) : a.Keeps (lasting (digestAt b s)) := by
  simp [digestAt, h]

@[simp] theorem keeps_digestLag (t : Nat) (h : a.Keeps (lasting s)) : a.Keeps (lasting (digestLag t s)) := by
  unfold digestLag
  split <;> simp [h]

@[simp] theorem keeps_digestRec (i : BitVec 32) (v : BitVec 128) (h : a.Keeps (lasting s)) : a.Keeps (lasting (digestRec i v s)) := by
  unfold digestRec
  extract_lets p s1
  have h1 : a.Keeps (lasting s1) := by
    unfold s1
    split <;> simp [h]
  simp [h1]

@[simp] theorem keeps_digestBefore (t : Nat) (h : a.Keeps (lasting s)) : a.Keeps (lasting (digestBefore t s)) := by
  unfold digestBefore
  split <;> simp [h]

@[simp] theorem keeps_digestTimeout (h : a.Keeps (lasting s)) : a.Keeps (lasting (digestTimeout s)) := by
  unfold digestTimeout
  split <;> simp [h]

@[simp] theorem keeps_streamRewind (h : a.Keeps (lasting s)) : a.Keeps (lasting (streamRewind s)) := by
  simp [streamRewind, h]

@[simp] theorem keeps_gapRec (h : a.Keeps (lasting s)) : a.Keeps (lasting (gapRec s)) := keeps_outOfStep 3 h

@[simp] theorem keeps_lagRec (r : StreamRec) (h : a.Keeps (lasting s)) : a.Keeps (lasting (lagRec r s)) := by
  simp [lagRec, h]

@[simp] theorem keeps_streamRec (r : StreamRec) (h : a.Keeps (lasting s)) : a.Keeps (lasting (streamRec s r)) := by
  unfold streamRec
  split <;> simp [h]

theorem opStream_keeps (l : List StreamRec) : (opStream l).Keeps := by
  intro u s _
  have hs : (lasting s).Keeps (lasting (l.foldl streamRec (ackAll s))) := keeps_foldl (by simp) fun _ r => keeps_streamRec r
  unfold opStream
  dsimp only
  split <;> simp [hs]

theorem keeps_lagged (r : StreamRec) {f : State → State} (hf : ∀ {u}, a.Keeps (lasting u) → a.Keeps (lasting (f u))) (h : a.Keeps (lasting s)) :
    a.Keeps (lasting (lagged r f s)) := by
  have ha := hf (u := atStroke r s) (by simp [h])
  simp [lagged, h, ha]

/-! ### Resets and starts -/

/-- A state rebuilt on a reset: the banks are empty and the MRAM copy stays. -/
theorem keeps_cleared {t : State} (h : a.Keeps (lasting s)) (hq : t.pending = s.pending) (hf : t.fuse = s.fuse)
    (hp : t.plates = { mram := s.plates.mram }) : a.Keeps (lasting t) := by
  refine h.trans ⟨hq, hf, fun hs => ?_⟩
  simp only [Lasting.storeOk, List.all_append, Bool.and_eq_true] at hs
  simpa [Lasting.storeOk, lasting, hp] using hs.2

@[simp] theorem keeps_porstReset (h : a.Keeps (lasting s)) : a.Keeps (lasting (porstReset s)) :=
  keeps_cleared h rfl rfl rfl

@[simp] theorem keeps_domainsReset (h : a.Keeps (lasting s)) : a.Keeps (lasting (domainsReset s)) := by
  unfold domainsReset
  extract_lets p time s0 power s1 s2
  have h1 : a.Keeps (lasting s1) := keeps_cleared h rfl rfl rfl
  simpa [s2] using h1

@[simp] theorem keeps_coldReset (h : a.Keeps (lasting s)) : a.Keeps (lasting (coldReset s)) := by
  unfold coldReset
  extract_lets p u t
  have ht : a.Keeps (lasting t) := by simp [t, u, h]
  exact ht.trans ⟨rfl, rfl, fun _ => rfl⟩

@[simp] theorem keeps_restorePlate (v : Save) (h : a.Keeps (lasting s)) : a.Keeps (lasting (restorePlate v s)) := by
  unfold restorePlate
  dsimp only
  split
  · simp [h]
  · simp [h]
  · next p m _ e =>
    split
    · refine keeps_setBank _ (by simp [h]) fun hs => Lasting.mram_ok hs ?_
      simp [lasting, e]
    · simp [h]

@[simp] theorem keeps_restore (por : Bool) (v : Save) (h : a.Keeps (lasting s)) : a.Keeps (lasting (restore por v s)) := by
  simp [restore, h]

@[simp] theorem keeps_bootDone (h : a.Keeps (lasting s)) : a.Keeps (lasting (bootDone s)) := by
  unfold bootDone
  dsimp only
  split
  · simp [h]
  · split
    · split
      · simp [h]
      · split <;> simp [h]
    · simp [h]
  · split
    · split
      · simp [h]
      · split <;> simp [h]
    · simp [h]

@[simp] theorem keeps_bootRom (sig : Bool → Bool) (n : Nat) (h : a.Keeps (lasting s)) : a.Keeps (lasting (bootRom sig n s)) := by
  induction n generalizing s with
  | zero => simpa [bootRom] using h
  | succ n ih =>
    unfold bootRom
    split
    · simp [h]
    · simp [h, ih]

@[simp] theorem keeps_startUp (x : Bool) (o : StartObs) (h : a.Keeps (lasting s)) : a.Keeps (lasting (startUp x o s)) := by
  simp [startUp, h]

@[simp] theorem keeps_fwTrialDone (p : Bool) (h : a.Keeps (lasting s)) : a.Keeps (lasting (fwTrialDone p s)) := by
  simp [fwTrialDone, h]

@[simp] theorem keeps_warmRestart (bad : Option Nat) (x y : Bool) (h : a.Keeps (lasting s)) : a.Keeps (lasting (warmRestart bad x y s)) := by
  simp [warmRestart, h]

@[simp] theorem keeps_landReset (cold : Bool) (h : a.Keeps (lasting s)) : a.Keeps (lasting (landReset cold s)) := by
  simp [landReset, h]

/-! ### A command from acceptance to its answer -/

@[simp] theorem lasting_complete (n : Nat) (k : Pkt) (r : Res) : lasting (complete n k r) = lasting r.s := by
  simp [complete]

theorem Op.Keeps.run {o : Op} (ho : o.Keeps) {u : State} (hb : o.bad u = 0) (h : a.Keeps (lasting s)) : a.Keeps (lasting (o.run s).s) :=
  h.trans (ho u s hb)

theorem Op.Keeps.does {o : Op} (ho : o.Keeps) {u : State} (hb : o.bad u = 0) (k : Pkt) (h : a.Keeps (lasting s)) :
    a.Keeps (lasting (o.does k s).s) := by
  unfold Op.does
  split
  · exact ho.run hb (by simpa using h)
  · exact ho.run hb h

theorem lasting_enterWait (k : Pkt) (o : Op) (e : Nat) (s : State) : lasting (enterWait k o e s) = lasting s := by
  simp [enterWait]

theorem offMin_eq_zero {a b : Nat} (h : offMin a b = 0) : a = 0 := by
  unfold offMin at h
  split at h
  · assumption
  · split at h <;> omega

theorem keeps_start (k : Pkt) {o : Op} (ho : o.Keeps) (h : a.Keeps (lasting s)) : a.Keeps (lasting (start k o s)) := by
  unfold start
  dsimp only
  split
  · simp [h]
  · split
    · simp [h]
    · split
      · split
        · simp [h]
        · simp [h, lasting_enterWait]
      · split
        · simp [h]
        · next hb =>
          have hd := ho.does (offMin_eq_zero (Decidable.not_not.1 hb)) k h
          simp [h, hd]

theorem keeps_deliver (h : Hdr) (op : Nat) (c : Option Instr) (badAt : Nat) {o : Op} (ho : o.Keeps) (hs : a.Keeps (lasting s)) :
    a.Keeps (lasting (deliver h op c badAt o s)) := by
  unfold deliver
  split
  · exact hs
  · split
    · simp [hs]
    · have ha := keeps_start (accept h op c badAt s).1 ho (s := (accept h op c badAt s).2) (by simpa using hs)
      simp [hs, ha]

theorem lasting_deliverFence (h : Hdr) (op : Nat) (c : Option Instr) (badAt : Nat) (o : Op) (s : State) :
    lasting (deliverFence h op c badAt o s) = lasting s := by
  unfold deliverFence
  split
  · rfl
  · split <;> simp

theorem keeps_submit (c : Instr) {o : Op} (ho : o.Keeps) (h : a.Keeps (lasting s)) : a.Keeps (lasting (submit c o s)) := by
  unfold submit
  split
  · exact h
  · exact keeps_deliver _ _ _ _ ho h

/-- Whatever an opcode's command means, it keeps what lasts. -/
theorem opOf_keeps (i : Instr) : (opOf i).Keeps := by
  cases i with
  | hello h o b u f r k => exact opHello_keeps h o b u f r k
  | bye h => exact opBye_keeps h
  | plateOpen h b => exact opPlateOpen_keeps h b
  | plateData h b o d => exact opPlateData_keeps h b o d
  | plateAbort h b => exact opPlateAbort_keeps h b
  | stream _ l => exact opStream_keeps l
  | _ => exact Op.keeps_of_lasting (by simp [opOf])

theorem opOfPkt_keeps (c : Option Instr) : (opOfPkt c).Keeps := by
  cases c with
  | none => exact Op.keeps_of_lasting fun _ => rfl
  | some i => exact opOf_keeps i

theorem strokeOf_eq {i : Instr} {o : Op} (h : strokeOf i = some o) : o = opOf i := by
  cases i <;> simp_all [strokeOf, opOf]

@[simp] theorem keeps_landCmd (timed : Bool) (k : Pkt) (h : a.Keeps (lasting s)) : a.Keeps (lasting (landCmd timed k s)) := by
  unfold landCmd
  split
  · exact h
  · next o e =>
    extract_lets n r
    have hr : a.Keeps (lasting r.s) := by
      obtain ⟨i, -, hi⟩ := Option.bind_eq_some_iff.1 e
      have ho : o.Keeps := strokeOf_eq hi ▸ opOf_keeps i
      unfold r
      split
      · simp [h]
      · next hb =>
        have hb := Decidable.not_not.1 hb
        split
        · exact ho.run hb h
        · exact ho.does hb k h
    simp [hr]

/-! ### The stream's records and the takeover -/

@[simp] theorem keeps_commandRec (q : BitVec 32) (l : List Byte) (h : a.Keeps (lasting s)) : a.Keeps (lasting (commandRec q l s)) := by
  unfold commandRec
  split
  · simp [h]
  · next c at_ _ =>
    extract_lets s1 o n r k
    have h1 : a.Keeps (lasting s1) := by simp [s1, h]
    split
    · exact h1
    · next hb =>
      have hb : o.bad s1 = 0 := by simpa using (not_or.1 hb).2
      have hr : a.Keeps (lasting r.s) := by
        unfold r
        split
        · simp [h1]
        · exact (opOf_keeps c).run hb h1
      simp [hr]

@[simp] theorem keeps_execRec (r : StreamRec) (h : a.Keeps (lasting s)) : a.Keeps (lasting (execRec s r)) := by
  unfold execRec
  split <;> simp [h]

@[simp] theorem keeps_streamExecute (h : a.Keeps (lasting s)) : a.Keeps (lasting (streamExecute s)) := by
  unfold streamExecute
  split
  · exact h
  · split
    · exact h
    · exact keeps_execRec _ (keeps_digestBefore _ (by simp [h]))

@[simp] theorem keeps_runLag (x n : Nat) (h : a.Keeps (lasting s)) : a.Keeps (lasting (runLag x n s)) := by
  induction n generalizing s with
  | zero => exact h
  | succ n ih =>
    unfold runLag
    split
    · exact h
    · exact ih (by simp [h])

@[simp] theorem keeps_raiseAt (x form cause tr : Nat) (h : a.Keeps (lasting s)) : a.Keeps (lasting (raiseAt x form cause tr s)) := by
  unfold raiseAt
  extract_lets s1 s2 p
  have h1 : a.Keeps (lasting s1) := by simp [s1, h]
  have h2 : a.Keeps (lasting s2) := keeps_runLag _ _ h1
  exact keeps_takeSails _ _ _ (by simpa using h2)

@[simp] theorem keeps_atX (x form cause tr : Nat) (h : a.Keeps (lasting s)) : a.Keeps (lasting (atX x form cause tr s)) := by
  unfold atX
  extract_lets s1
  have h1 : a.Keeps (lasting s1) := by simpa [s1] using h
  split
  · simp [h1]
  · split <;> simp [h1]

@[simp] theorem keeps_switchover (h : a.Keeps (lasting s)) : a.Keeps (lasting (switchover s)) := by
  unfold switchover
  split <;> simp [h]

@[simp] theorem keeps_feederHandover (h : a.Keeps (lasting s)) : a.Keeps (lasting (feederHandover s)) := by
  unfold feederHandover
  split <;> simp [h]

@[simp] theorem keeps_raisePoint (h : a.Keeps (lasting s)) : a.Keeps (lasting (raisePoint s)) := by
  simp [raisePoint, h]

@[simp] theorem keeps_raiseFirst (h : a.Keeps (lasting s)) : a.Keeps (lasting (raiseFirst s)) := by
  unfold raiseFirst
  split
  · exact h
  · split <;> simp [h]

@[simp] theorem keeps_landContact (x : Bool × Bool × Bool × BitVec 32) (h : a.Keeps (lasting s)) : a.Keeps (lasting (landContact x s)) := by
  simp [landContact, h]

/-! ### Boundaries -/

@[simp] theorem keeps_landOne (x : Posted) (h : a.Keeps (lasting s)) : a.Keeps (lasting (landOne x s)) := by
  unfold landOne
  split
  case h_1 => cases x.pkt <;> simp [h]
  all_goals simp [h]

@[simp] theorem keeps_landEffect (x : Posted) (h : a.Keeps (lasting s)) : a.Keeps (lasting (landEffect s x)) := by
  unfold landEffect
  split
  · exact h
  · dsimp only
    split <;> simp [h]

@[simp] theorem keeps_landAll (t : Nat) (h : a.Keeps (lasting s)) : a.Keeps (lasting (landAll t s)) :=
  keeps_foldl (by simpa using h) fun _ x => keeps_landEffect x

theorem lasting_scKeeps (old s : State) : lasting (scKeeps old s) = lasting s := by
  refine lasting_foldl _ _ fun s e => ?_
  split <;> simp

@[simp] theorem keeps_strokeWork (t : Nat) (ecc : List Nat) (h : a.Keeps (lasting s)) : a.Keeps (lasting (strokeWork t ecc s)) := by
  simp [strokeWork, h]

@[simp] theorem keeps_strokeBoundary (ecc : List Nat) (h : a.Keeps (lasting s)) : a.Keeps (lasting (strokeBoundary ecc s)) := by
  unfold strokeBoundary
  extract_lets t n s0 old s1
  split
  · exact h
  · have h1 : a.Keeps (lasting s1) := keeps_landAll t (by simp [old, s0, h])
    split
    · simp [lasting_scKeeps, h1]
    · exact h1

@[simp] theorem keeps_plateBoundary (b : Nat) (h : a.Keeps (lasting s)) : a.Keeps (lasting (plateBoundary b s)) := by
  simp [plateBoundary, h]

@[simp] theorem keeps_slipCheck (h : a.Keeps (lasting s)) : a.Keeps (lasting (slipCheck s)) := by
  simp [slipCheck, h]

@[simp] theorem keeps_imprBoundary (h : a.Keeps (lasting s)) : a.Keeps (lasting (imprBoundary s)) := by
  unfold imprBoundary
  extract_lets s1 b s2 s3 s4 s5 s6 s7 s8 s9
  have h2 : a.Keeps (lasting s2) := keeps_plateBoundary b (by simp [s1, h])
  have h9 : a.Keeps (lasting s9) := by simpa [s9, s8, s7, s6, s5, s4, s3] using h2
  exact keeps_digestAt b (keeps_slipCheck (by simpa using h9))

/-! ### Packets on the ports -/

@[simp] theorem keeps_receive (p : Port) (l : List Byte) (h : a.Keeps (lasting s)) : a.Keeps (lasting (receive p l s)) := by
  unfold receive
  dsimp only
  simp [h, lasting_deliverFence, keeps_deliver, opOfPkt_keeps]

@[simp] theorem keeps_spiWrite (l : List Byte) (h : a.Keeps (lasting s)) : a.Keeps (lasting (spiWrite l s)) := by
  simp [spiWrite, h]

@[simp] theorem keeps_commandFetch (ok : Bool) (n : Nat) (l : List Byte) (h : a.Keeps (lasting s)) : a.Keeps (lasting (commandFetch ok n l s)) := by
  simp [commandFetch, h]

@[simp] theorem keeps_commandStart (h : a.Keeps (lasting s)) : a.Keeps (lasting (commandStart s)) := by
  unfold commandStart
  split
  · exact h
  · split
    · exact h
    · exact keeps_start _ (opOfPkt_keeps _) (by simpa using h)

@[simp] theorem keeps_inbandRx (p e : Nat) (l : List Byte) (h : a.Keeps (lasting s)) : a.Keeps (lasting (inbandRx p e l s)) := by
  simp [inbandRx, h]

@[simp] theorem keeps_frameRx (p : Nat) (l : List Byte) (h : a.Keeps (lasting s)) : a.Keeps (lasting (frameRx p l s)) := by
  simp [frameRx, h]

@[simp] theorem keeps_uplinkRx (k : Nat) (l : List Byte) (ok : Bool) (r : FecRun) (h : a.Keeps (lasting s)) :
    a.Keeps (lasting (uplinkRx k l ok r s)) := by
  unfold uplinkRx
  dsimp only
  split
  · exact h
  · split <;> simp [h]

/-! ### The outcome of an instruction -/

/-- Whatever state an outcome names keeps what lasts in s. -/
def KeepsOut (s : State) (o : Host.Outcome State Fault Refusal) : Prop := ∀ t, o = .next t → (lasting s).Keeps (lasting t)

theorem keepsOut_next {t : State} (h : (lasting s).Keeps (lasting t)) : KeepsOut s (.next t) := by
  rintro _ ⟨⟩
  exact h

theorem keepsOut_live {t : State} (h : (lasting s).Keeps (lasting t)) : KeepsOut s (live s t) :=
  keepsOut_next (by simp [h])

theorem keepsOut_pmuLive {t : State} (h : (lasting s).Keeps (lasting t)) : KeepsOut s (pmuLive s t) :=
  keepsOut_next (by simp [h])

theorem keepsOut_spiLive {t : State} (h : (lasting s).Keeps (lasting t)) : KeepsOut s (spiLive s t) :=
  keepsOut_next (by simp [h])

theorem keepsOut_liveTiming {t : State} (h : (lasting s).Keeps (lasting t)) : KeepsOut s (liveTiming s t) := by
  refine keepsOut_next ?_
  split
  · exact .refl _
  · exact h
  · exact h
  · exact h
  · exact h

theorem keepsOut_barStep (n w : Nat) (v : BitVec 64) : KeepsOut s (barStep n w v s) := by
  unfold barStep
  split
  · exact keepsOut_next (by simp)
  · exact keepsOut_next (by simp)

theorem keepsOut_bar32 (n : Nat) (v : Word) : KeepsOut s (bar32 n v s) := keepsOut_barStep n 4 _

theorem keepsOut_ite {c : Prop} [Decidable c] {o p : Host.Outcome State Fault Refusal} (ho : KeepsOut s o) (hp : KeepsOut s p) :
    KeepsOut s (if c then o else p) := by
  split
  · exact ho
  · exact hp

/-! ### Every instruction -/

/-- A command but FENCE goes through the command path with its operation. -/
theorem exec_eq_command {i : Instr} {h : Hdr} (hi : hdrOf i = some h) (hf : opcodeOf i ≠ 3) (s : State) : exec i s = command i (opOf i) s := by
  cases i with
  | fence => exact absurd rfl hf
  | nop | hello | features | bye | regRd | regWr | regRmw | snapshot | plateOpen | plateData | plateProof | plateTurn | plateAbort | plateInfo |
  termAdd | termRange | termActivate | termDisable | termKey | ploamSend | termRate | millSet | millGet | tribSet | tribGet | screenSet | screenGet |
  genSet | genGet | timeArm | timeSet | timeDisable | timeSel | acceptPathStep | timeConv | todGet | pairJoin | pairLeave | pairSwitch | pairVerdict |
  pairInfo | protCfg | protSwitch | stream | copy | pwrSet | pwrInfo | sagCfg | fwOpen | fwData | fwCommit | fwInfo | reset | logRead | i2cXfer |
  kwkSet | cntRead | defectGet | defectCfg | bwWindow | hopRead | hopMark | hopRewind | hopRelease | hopCfg => rfl
  | _ => cases hi

theorem exec_fence (h : Hdr) (b : BitVec 8) (s : State) : exec (.fence h b) s = .next (deliverFence h 3 (some (.fence h b)) 0 (opFence b) s) := rfl

theorem hdrOf_opcode_eq_three {i : Instr} {h : Hdr} (hi : hdrOf i = some h) (hf : opcodeOf i = 3) : ∃ b, i = .fence h b := by
  cases i with
  | fence h' b =>
    cases hi
    exact ⟨b, rfl⟩
  | nop | hello | features | bye | regRd | regWr | regRmw | snapshot | plateOpen | plateData | plateProof | plateTurn | plateAbort | plateInfo |
  termAdd | termRange | termActivate | termDisable | termKey | ploamSend | termRate | millSet | millGet | tribSet | tribGet | screenSet | screenGet |
  genSet | genGet | timeArm | timeSet | timeDisable | timeSel | acceptPathStep | timeConv | todGet | pairJoin | pairLeave | pairSwitch | pairVerdict |
  pairInfo | protCfg | protSwitch | stream | copy | pwrSet | pwrInfo | sagCfg | fwOpen | fwData | fwCommit | fwInfo | reset | logRead | i2cXfer |
  kwkSet | cntRead | defectGet | defectCfg | bwWindow | hopRead | hopMark | hopRewind | hopRelease | hopCfg => cases hf
  | _ => cases hi

theorem exec_keeps_command {i : Instr} {h : Hdr} (hi : hdrOf i = some h) (s : State) : KeepsOut s (exec i s) := by
  by_cases hf : opcodeOf i = 3
  · obtain ⟨b, rfl⟩ := hdrOf_opcode_eq_three hi hf
    exact keepsOut_next (by simp [lasting_deliverFence])
  · rw [exec_eq_command hi hf]
    exact keepsOut_next (keeps_submit i (opOf_keeps i) (.refl _))

theorem exec_keeps (i : Instr) (s : State) : KeepsOut s (exec i s) := by
  cases i with
  | writeTransaction | readTransaction | statusTransaction => exact keepsOut_spiLive (by simp)
  | avsAdjust | pmbusPoll | avsRetry => exact keepsOut_pmuLive (by simp)
  | commandFetch | replyWrite | porstNAssert | startUp | fwTrial | rootPllLoss | sagDetection | saveDone | warmRestart | pmbAlert | fenceInAssert |
  fenceInDeassert | instructionLoad | trst => exact keepsOut_next (by simp)
  | holdoverSample | holdoverRecord | tempRead | inputEdge | outputPulse | wtrExpiry | decisionTick | refLosTimeout | refDefectClear =>
    exact keepsOut_liveTiming (by simp)
  | dpllLock => exact keepsOut_liveTiming (by split <;> simp)
  | registerWrite => exact keepsOut_barStep _ _ _
  | sequenceClear | treeCtl | mwRead | mwWrite | capture | selDom | snapCtlGo | owner | ringReset | run | cmdTail | rplTail | realign | wtrClr |
  manualRef | ccfg | mode | quadCfg | portEnable | twinEn | gpioCfg =>
    dsimp only [exec]
    exact keepsOut_bar32 _ _
  | bitAlias | hwmClr =>
    refine keepsOut_ite ?_ (keepsOut_next (.refl _))
    exact keepsOut_bar32 _ _
  | commandStart | timedExecution | highHalfLatch | treeTransition | fwCommitted | pwrDone | impressionBoundary | turnCutoff | turnLead | plateProved
  | mramCopy | plateEcc | frameCompose | strokeBoundary | commit | burstAnnounce | burstRx | burstEnd | bankRelease | upstreamXgem | fragTimeout |
  discoveryWindow | rangingWindow | serialNumberOnu | registration | acknowledgement | ploamIn | tDisc | tAck | tPopup | tRedisable | tSnMute |
  rogueTrigger | rogueProbe | rogueClear | keyDrain | keyEcc | tribMap | occurrenceDecision | uplinkFrameRx | pauseExpiry | frerReset | esmcTimeout |
  ulLos | ulLof | ulRdi | ulClear | rehash | feederHandover | handoverHeld | internalUncorrectable | renewal | fencePoint | raisePoint | sbLost |
  switchover | streamExecute | digestTimeout | streamRewind | quickTier | slowTier | plLos | plLosClear | ptpSend | ptpExchange | masterLost |
  bwWindowEnd | noRenew | remoteFault | localFault | i2cDone => exact keepsOut_live (by simp)
  | oog | esmcInfo | lock | leave | renew | grant | release | fencedNotice => exact keepsOut_live (by simp)
  | commandRecord =>
    refine keepsOut_live ?_
    split
    · exact keeps_lagged _ (keeps_commandRec _ _) (.refl _)
    · exact .refl _
  | tbLof | ingress | repair | terminalRecord | timeRecord | burstRecord | delivered | defectRecord | digestRecord =>
    refine keepsOut_live ?_
    split
    all_goals simp [keeps_lagged]
  | nop | hello | features | fence | bye | regRd | regWr | regRmw | snapshot | plateOpen | plateData | plateProof | plateTurn | plateAbort | plateInfo
  | termAdd | termRange | termActivate | termDisable | termKey | ploamSend | termRate | millSet | millGet | tribSet | tribGet | screenSet | screenGet
  | genSet | genGet | timeArm | timeSet | timeDisable | timeSel | acceptPathStep | timeConv | todGet | pairJoin | pairLeave | pairSwitch | pairVerdict
  | pairInfo | protCfg | protSwitch | stream | copy | pwrSet | pwrInfo | sagCfg | fwOpen | fwData | fwCommit | fwInfo | reset | logRead | i2cXfer |
  kwkSet | cntRead | defectGet | defectCfg | bwWindow | hopRead | hopMark | hopRewind | hopRelease | hopCfg => exact exec_keeps_command rfl s

/-! ### Every step -/

theorem step_keeps {t : State} (h : step s = .next t) :
    t.pending = s.pending.tail ∧ t.fuse = s.fuse ∧ (plateStoreOk s = true → plateStoreOk t = true) := by
  rw [plateStoreOk_eq, plateStoreOk_eq]
  unfold step at h
  split at h
  next hp =>
    obtain ⟨hq, hf, hst⟩ := keepsOut_next (s := s) (t := tick s) (by simp) t h
    exact ⟨hq.trans (by simp [lasting, hp]), hf, hst⟩
  next c rest hp =>
    obtain ⟨hq, hf, hst⟩ := exec_keeps c _ t h
    exact ⟨hq.trans (by simp [lasting, hp]), hf, hst⟩

theorem legalFuse_congr {t : State} (h : t.fuse = s.fuse) : legalFuse t = legalFuse s := by
  unfold legalFuse
  rw [h]

/-- Settles O59: no instruction touches the queue or the fuses, and each keeps the store of the banks and of the MRAM copy in order. -/
theorem everyStepKeeps : Obligations.EveryStepKeeps := by
  unfold Obligations.EveryStepKeeps
  refine ⟨fun s t h => ?_, fun s t hk h => ?_⟩
  · obtain ⟨hq, hf, -⟩ := step_keeps h
    exact ⟨hq, hf⟩
  · obtain ⟨-, hf, hst⟩ := step_keeps h
    obtain ⟨hl, ho⟩ := hk
    exact ⟨(legalFuse_congr hf).trans hl, hst ho⟩

end Sys2Proof.Machine
end

section
/-! PROOFS. Intake: the first check of Table 12.5 that fails decides the reply (O55). -/

namespace Sys2Proof.Machine

/-! ### A packet refused at intake -/

section
variable {h : Hdr} {s : State} {i : Instr} {st op : Nat} {det : List Byte}

theorem deliver_refused {c : Option Instr} (badAt : Nat) (o : Op) (hr : notReady h.port s = false) (hk : intake h op c s = some (st, det)) :
    deliver h op c badAt o s = refuseIntake h.port op h.tag st det s := by
  simp [deliver, hr, hk]

theorem deliverFence_refused {c : Option Instr} (badAt : Nat) (o : Op) (hr : notReady h.port s = false) (hk : intake h op c s = some (st, det)) :
    deliverFence h op c badAt o s = refuseIntake h.port op h.tag st det s := by
  simp [deliverFence, hr, hk]

/-- The check that fails decides the reply, on the command path and on the fence path alike. -/
theorem exec_refused (hi : hdrOf i = some h) (hr : notReady h.port s = false) (hk : intake h (opcodeOf i) (some i) s = some (st, det)) :
    exec i s = .next (refuseIntake h.port (opcodeOf i) h.tag st det s) := by
  by_cases hf : opcodeOf i = 3
  · obtain ⟨b, rfl⟩ := hdrOf_opcode_eq_three hi hf
    cases hi
    exact congrArg _ (deliverFence_refused 0 _ hr hk)
  · rw [exec_eq_command hi hf, command, submit, hi]
    exact congrArg _ (deliver_refused 0 _ hr hk)

theorem opKnown_opcodeOf (hi : hdrOf i = some h) : opKnown (opcodeOf i) = true := by
  cases i with
  | nop | hello | features | fence | bye | regRd | regWr | regRmw | snapshot | plateOpen | plateData | plateProof | plateTurn | plateAbort | plateInfo
  | termAdd | termRange | termActivate | termDisable | termKey | ploamSend | termRate | millSet | millGet | tribSet | tribGet | screenSet | screenGet
  | genSet | genGet | timeArm | timeSet | timeDisable | timeSel | acceptPathStep | timeConv | todGet | pairJoin | pairLeave | pairSwitch | pairVerdict
  | pairInfo | protCfg | protSwitch | stream | copy | pwrSet | pwrInfo | sagCfg | fwOpen | fwData | fwCommit | fwInfo | reset | logRead | i2cXfer |
  kwkSet | cntRead | defectGet | defectCfg | bwWindow | hopRead | hopMark | hopRewind | hopRelease | hopCfg => rfl
  | _ => cases hi

end

/-! ### The checks of Table 12.5, in their order -/

section
variable {h : Hdr} {s : State} {c : Option Instr} {op : Nat}

theorem intake_flags (hf : h.flags &&& 0x2F ≠ 0) : intake h op c s = some (4, [0, 1, 0, 0]) := if_pos hf

theorem intake_notRunning (hf : h.flags &&& 0x2F#8 = 0#8) (hp : s.power.phase ≠ .running) : intake h op c s = some (0x11, []) := by
  simp [intake, hf, hp]

theorem intake_rescue (hf : h.flags &&& 0x2F = 0) (hp : s.power.phase = .running) (hr : s.power.rescue = true)
    (ho : op ∉ [0, 1, 0x800, 0x801, 0x802, 0x803, 0x804]) : intake h op c s = some (0x0A, []) := by
  rw [intake, if_neg (not_not.2 hf), if_neg (not_not.2 hp), if_pos ⟨hr, by simpa using ho⟩]

variable (hf : h.flags &&& 0x2F#8 = 0#8) (hp : s.power.phase = .running) (hr : s.power.rescue = false)
include hf hp hr

theorem intake_noCredit (hc : freeCredits s h.port = 0) : intake h op c s = some (0x0B, beBytes 2 (portSt s h.port).used ++ [0, 0]) := by
  simp [intake, hf, hp, hr, hc, rsv]

theorem intake_noSession (hc : freeCredits s h.port ≠ 0) (hn : (portSt s h.port).session = none) (h0 : op ≠ 0) (h1 : op ≠ 1) (h3 : op ≠ 3) :
    intake h op c s = some (0x0C, [0xFF, 0, 0, 0]) := by
  simp [intake, hf, hp, hr, hc, hn, h0, h1, h3, rsv]

variable {x : Session} (hc : freeCredits s h.port ≠ 0) (hx : (portSt s h.port).session = some x)
include hc hx

theorem intake_otherSession (h3 : op ≠ 3) (hs : h.session ≠ x.id) : intake h op c s = some (4, [0, 8, 0, 0]) := by
  simp [intake, hf, hp, hr, hc, hx, h3, hs, beBytes, rsv]

variable (hs : h.session = x.id) (hk : opKnown op = true)
include hs hk

theorem intake_privilege (ha : (classOk h.port op && setOk h.port c && mapOk s h.port op) = false) :
    intake h op c s = some (3, beBytes 1 (portNo h.port) ++ beBytes 1 (op / 256) ++ [0, 0]) := by
  simp [intake, hf, hp, hr, hc, hx, hs, hk, ha, rsv]

theorem intake_standby (hg : op / 256 ≠ 6) (ha : (classOk h.port op && setOk h.port c && mapOk s h.port op) = true) (hb : isStandby s = true)
    (hn : standbyOk s op c = false) : intake h op c s = some (0x0F, []) := by
  simp [intake, hf, hp, hr, hc, hx, hs, hk, ha, hg, hb, hn]

end

/-- The host port may not send STREAM, COPY or KWK_SET (Table 12.7). -/
theorem classOk_host_reserved {op : Nat} (ho : op = 0x6F0 ∨ op = 0x6F1 ∨ op = 0x807) : classOk .host op = false := by
  rcases ho with rfl | rfl | rfl <;> rfl

/-- Settles O55: each clause is one check of `intake`, which decides the reply on every path into the unit. -/
theorem intakeRefuses : Obligations.IntakeRefuses := by
  unfold Obligations.IntakeRefuses
  intro i h s hi hr refused
  have hk := opKnown_opcodeOf hi
  refine ⟨fun hf => ?flags, fun hf hp => ?notRunning, fun hf hp hq ho => ?rescue, fun hf hp hq => ⟨fun hc => ?noCredit,
    fun hc hn h0 h1 h3 => ?noSession, fun x hc hx h3 => ⟨fun hs => ?otherSession, fun hs hh ho => ?hostPort, fun hs hg ha hb hn => ?standby⟩⟩⟩
  case flags => exact exec_refused hi hr (intake_flags hf)
  case notRunning => exact exec_refused hi hr (intake_notRunning hf hp)
  case rescue => exact exec_refused hi hr (intake_rescue hf hp hq ho)
  case noCredit => exact exec_refused hi hr (intake_noCredit hf hp hq hc)
  case noSession => exact exec_refused hi hr (intake_noSession hf hp hq hc hn h0 h1 h3)
  case otherSession => exact exec_refused hi hr (intake_otherSession hf hp hq hc hx h3 hs)
  case hostPort =>
    have ha : (classOk h.port (opcodeOf i) && setOk h.port (some i) && mapOk s h.port (opcodeOf i)) = false := by
      rw [hh, classOk_host_reserved ho]
      rfl
    exact exec_refused hi hr ((intake_privilege hf hp hq hc hx hs hk ha).trans (by rw [hh]; rfl))
  case standby => exact exec_refused hi hr (intake_standby hf hp hq hc hx hs hk hg ha hb hn)

end Sys2Proof.Machine
end

section
/-! PROOFS. An accepted command whose parameter is out of range, one that lands at a stroke boundary, and FENCE on its own path: the rules that the
session commands' proofs use. -/

namespace Sys2Proof.Machine

/-! ### What acceptance leaves of the interpreter and of the registers -/

section
variable (i : Instr) (h : Hdr) (s : State)

@[simp] theorem taken_featD : (taken i h s).cmd.featD = s.cmd.featD := by
  unfold taken accept
  cases h.port <;> rfl

@[simp] theorem taken_featFixed : (taken i h s).cmd.featFixed = s.cmd.featFixed := by
  unfold taken accept
  cases h.port <;> rfl

@[simp] theorem taken_session (p : Port) : (portSt (taken i h s) p).session = (portSt s p).session := by
  unfold taken accept
  cases h.port <;> cases p <;> rfl

theorem regBit_taken (a b : Nat) : regBit (taken i h s) a b = regBit s a b := by simp [regBit, regRaw]

theorem featuresFree_taken : featuresFree (taken i h s) = featuresFree s := by
  rw [taken_only]
  rfl

end

/-! ### A parameter out of range -/

section
variable {i : Instr} {h : Hdr} {s : State}

/-- A command that starts with a parameter out of range is answered with the offset and has no effect (R363). -/
theorem exec_badParam {o : Op} {n : Nat} (hs : Starts i h s) (hb : o.bad (taken i h s) = n) (hn : n ≠ 0) :
    command i o s = answersNot i h s 4 (beBytes 2 n ++ [0, 0]) := by
  obtain ⟨ha, hu, he, hasap⟩ := hs
  have hk : (takenPkt i h s).hdr = h := rfl
  have hz : (takenPkt i h s).badAt.toNat = 0 := rfl
  have hop : (takenPkt i h s).opcode.toNat = opcodeOf i := opcode_small i
  have ht : start (takenPkt i h s) o (taken i h s) = finish (takenPkt i h s) true 4 (beBytes 2 n ++ rsv 2) (taken i h s) := by
    unfold start
    simp only [hk, hop, hz, he, hb]
    cases hx : asap h with
    | false => simp [offMin, hn]
    | true => simp [hasap hx, offMin, hn]
  rw [command, submit_starts o ha hu, ht]
  rfl

/-! ### A command at its stroke boundary -/

/-- A command that is not of column M comes at its boundary to what its own checks and effect come to on the state found there. -/
theorem landCmd_plain {o : Op} {b t : State} {st : Nat} {ps : List Byte} (hi : strokeOf i = some o) (hb : o.bad b = 0)
    (hm : opMirrored (opcodeOf i) (some i) = false) (hr : o.run b = ⟨st, ps, t⟩) (hst : st ≠ stWait) :
    landCmd false (takenPkt i h s) b = settled (takenPkt i h s) b st ps t := by
  have hk : (takenPkt i h s).cmd.bind strokeOf = some o := hi
  have hm' : opMirrored (takenPkt i h s).opcode.toNat (takenPkt i h s).cmd = false := by
    rw [show (takenPkt i h s).opcode.toNat = opcodeOf i from opcode_small i]
    exact hm
  simp [landCmd, hk, hb, does_plain hm', hr, complete, settled, hst]

/-- FENCE, accepted, waits for its stroke boundary past every queue (R380). -/
theorem exec_fence_waits {a : BitVec 8} (hs : Accepted (.fence h a) h s) (he : h.exec = 0) (ha : asap h = false) (ho : ordered h = false)
    (hb : (opFence a).bad (taken (.fence h a) h s) = 0) : exec (.fence h a) s = .next (waits (.fence h a) h s) := by
  obtain ⟨-, hr, hk⟩ := hs
  have hk : intake h 3 (some (.fence h a)) s = none := hk
  have hb : (opFence a).bad (accept h 3 (some (.fence h a)) 0 s).2 = 0 := hb
  rw [exec_fence, deliverFence, hr, hk]
  simp [ha, ho, he, hb, offMin]
  rfl

/-- What FENCE does to the state that its boundary finds. -/
theorem fence_comes {a : BitVec 8} {b t : State} (hs : Accepted (.fence h a) h s) (he : h.exec = 0) (ha : asap h = false) (ho : ordered h = false)
    (hv : a.toNat ≤ 1) (hr : (opFence a).run b = resOk [] t) : Comes (.fence h a) h s b 0 [] t := by
  have hb (u : State) : (opFence a).bad u = 0 := by simp [opFence, firstBad, hv]
  exact ⟨exec_fence_waits hs he ha ho (hb _), landCmd_plain rfl (hb _) rfl hr (by decide)⟩

end

/-! ### The lead of the pair: who has the sails, and under which epoch -/

/-- Whether a unit has the sails, and its epoch. -/
def lead (s : State) : Bool × BitVec 32 := (s.pair.sails, s.pair.epoch)

theorem lead_of_pair {s t : State} (h : t.pair = s.pair) : lead t = lead s := by rw [lead, lead, h]

theorem epoch_of_lead {s t : State} (h : lead t = lead s) : t.pair.epoch = s.pair.epoch := congrArg Prod.snd h

theorem lead_foldl {α : Type} {f : State → α → State} (hf : ∀ s x, lead (f s x) = lead s) (l : List α) (s : State) : lead (l.foldl f s) = lead s := by
  induction l generalizing s with
  | nil => rfl
  | cons x l ih => rw [List.foldl_cons, ih, hf]

theorem lead_postReply (r : Reply) (s : State) : lead (postReply r s) = lead s := by
  refine lead_of_pair ?_
  unfold postReply
  dsimp only
  split <;> simp

theorem lead_finish (k : Pkt) (held : Bool) (st : Nat) (ps : List Byte) (s : State) : lead (finish k held st ps s) = lead s := by
  unfold finish
  dsimp only
  split
  · refine lead_of_pair ?_
    split <;> simp [freeCredit]
  · split
    · rfl
    · exact lead_postReply ..

theorem lead_freeReplies (s : State) : lead (freeReplies s) = lead s := by
  unfold freeReplies
  exact lead_foldl (fun s r => lead_postReply r s) _ _

theorem lead_dropHandover (s : State) : lead (dropHandover s) = lead s := by
  unfold dropHandover
  exact lead_foldl (fun s k => lead_finish ..) _ _

theorem lead_sendRec (r : StreamRec) (s : State) : lead (sendRec s r) = lead s := by
  unfold sendRec
  dsimp only
  split
  · rfl
  · simp [lead]

theorem lead_sendRecs (l : List StreamRec) (s : State) : lead (sendRecs l s) = lead s := lead_foldl (fun s r => lead_sendRec r s) l s

theorem lead_leaseSend (k : LeaseKind) (num e : Nat) (s : State) : lead (leaseSend k num e s) = lead s := by
  unfold leaseSend
  dsimp only
  split
  · rw [lead_sendRecs]
    rfl
  · rfl

theorem lead_pushDelivered (s : State) : lead (pushDelivered s) = lead s := by
  unfold pushDelivered
  split
  · exact lead_sendRecs _ s
  · rfl

theorem unbump_pair (a n : Nat) (s : State) : (unbump a n s).pair = s.pair := by
  unfold unbump
  split <;> rfl

theorem lead_cutFrames (s : State) : lead (cutFrames s) = lead s := by
  unfold cutFrames
  refine lead_foldl (fun s p => lead_of_pair ?_) _ s
  dsimp only
  split
  · simp [unbump_pair]
  · rfl

/-- A unit that feathers has no sails; its epoch stays. -/
theorem lead_feather (s : State) : lead (feather s) = (false, s.pair.epoch) := by
  have he := epoch_of_lead (lead_cutFrames s)
  rw [feather, lead_freeReplies, ← he]
  generalize cutFrames s = u
  rfl

theorem lead_switchEvent (form cause tr : Nat) (s : State) : lead (switchEvent form cause tr s) = lead s := by
  simp [switchEvent, lead]

theorem lead_releaseLease (cause : Nat) (s : State) : lead (releaseLease cause s) = (false, s.pair.epoch) := by
  have hd := epoch_of_lead (lead_dropHandover s)
  unfold releaseLease
  dsimp only
  split
  · rw [lead_feather, hd]
  · have hu := epoch_of_lead ((lead_leaseSend .release 0 0 _).trans ((lead_pushDelivered _).trans (lead_cutFrames (dropHandover s))))
    have hf := lead_feather (leaseSend .release 0 0 (pushDelivered (cutFrames (dropHandover s))))
    rw [hu, hd] at hf
    rw [lead_switchEvent, ← hf]
    generalize feather _ = u
    rfl

theorem lead_leavePair (s : State) : lead (leavePair s) = lead s := lead_leaseSend ..

theorem fenceEvent_pair (cause : Nat) (s : State) : (fenceEvent cause s).pair = s.pair := by simp [fenceEvent]

/-- A unit under the fence has no sails; that it fenced is remembered under its epoch (R380). -/
theorem fenceOn_fences (cause : Nat) (s : State) : (fenceOn cause s).pair.sails = false ∧ (fenceOn cause s).pair.fenceEpoch = some s.pair.epoch := by
  unfold fenceOn
  dsimp only
  rw [fenceEvent_pair]
  have key (u : State) (hu : lead u = (false, s.pair.epoch)) : u.pair.sails = false ∧ some u.pair.epoch = some s.pair.epoch :=
    ⟨congrArg Prod.fst hu, congrArg some (congrArg Prod.snd hu)⟩
  refine key _ ?_
  split
  · exact lead_releaseLease 7 s
  next hn =>
    have hs : lead s = (false, s.pair.epoch) := congrArg (·, s.pair.epoch) (by simpa using hn)
    split
    · exact (lead_leavePair s).trans hs
    · exact hs

/-! ### FEATURES -/

section
variable {h : Hdr} {s : State} {x : BitVec 8} {m : BitVec 64}

theorem opFeatures_bad (hx : x.toNat ≤ 1) (hm : m &&& ~~~Config.OFFER = 0) : (opFeatures h x m).bad s = 0 := by
  simp [opFeatures, firstBad, hx, hm]

theorem opFeatures_bad_mask (hx : x.toNat ≤ 1) (hm : m &&& ~~~Config.OFFER ≠ 0) : (opFeatures h x m).bad s = 20 := by
  simpa [opFeatures, firstBad, hx] using hm

end

/-- Settles O3: each command's own checks and effect, run on the state it starts on or, for FENCE, on the one its stroke boundary finds. -/
theorem sessionCommandsComplete : Obligations.SessionCommandsComplete := by
  unfold Obligations.SessionCommandsComplete
  refine ⟨fun h s hs => ?nop, fun h s hs => ?bye, fun h m s hs hm => ?report, fun h m s hs hm hl hf => ?fix, fun h m s hs hm hl => ?locked,
    fun h m s hs hm hl hf => ?busy, fun h x m s hs hx hm => ?badMask, fun h s b hs he ha ho hc => ?fence, fun h a s b hs he ha ho hv hc => ?same,
    fun h s b hs he ha ho hc => ?lift⟩
  case nop => exact exec_answers opNop hs rfl rfl rfl rfl (by decide)
  case bye => exact exec_answers (opBye h) hs rfl rfl rfl rfl (by decide)
  case report =>
    refine exec_answers (opFeatures h 0 m) hs (opFeatures_bad (by decide) hm) rfl rfl ?_ (by decide)
    simp [opFeatures, resOk]
  case fix =>
    refine exec_answers (opFeatures h 1 m) hs (opFeatures_bad (by decide) hm) rfl rfl ?_ (by decide)
    simp [opFeatures, resOk, regBit_taken, featuresFree_taken, hl, hf]
    rfl
  case locked =>
    refine exec_answers (opFeatures h 1 m) hs (opFeatures_bad (by decide) hm) rfl rfl ?_ (by decide)
    simp [opFeatures, resLocked, regBit_taken, hl]
    rfl
  case busy =>
    refine exec_answers (opFeatures h 1 m) hs (opFeatures_bad (by decide) hm) rfl rfl ?_ (by decide)
    simp [opFeatures, resBusy, regBit_taken, featuresFree_taken, hl, hf]
  case badMask => exact exec_badParam hs (opFeatures_bad_mask hx hm) (by decide)
  case fence => exact ⟨fence_comes hs he ha ho (by decide) (by simp [opFence, hc]), fenceOn_fences 1 b⟩
  case same =>
    refine fence_comes hs he ha ho ?_ ?_
    · rcases hv with rfl | rfl <;> decide
    · rcases hv with rfl | rfl <;> simp [opFence, hc]
  case lift => exact fence_comes hs he ha ho (by decide) (by simp [opFence, hc])

end Sys2Proof.Machine
end

section
/-! PROOFS. HELLO: what opens a session and what an answer leaves of the sessions and of the feature set (O4). -/

namespace Sys2Proof.Machine

/-! ### The sessions and the feature set -/

/-- The session of each port, whether the feature set is fixed, and the set. -/
def sessionPart (s : State) : (Port → Option Session) × Bool × BitVec 64 := (fun p => (portSt s p).session, s.cmd.featFixed, s.cmd.featD)

@[simp] theorem portSt_setPortSt_same (p : Port) (x : PortState) (s : State) : portSt (setPortSt p x s) p = x := by cases p <;> rfl

theorem portSt_setPortSt_ne {p q : Port} (h : q ≠ p) (x : PortState) (s : State) : portSt (setPortSt p x s) q = portSt s q := by
  cases p <;> cases q <;> simp [portSt, setPortSt] at h ⊢

@[simp] theorem setPortSt_featFixed (p : Port) (x : PortState) (s : State) : (setPortSt p x s).cmd.featFixed = s.cmd.featFixed := by cases p <;> rfl

@[simp] theorem setPortSt_featD (p : Port) (x : PortState) (s : State) : (setPortSt p x s).cmd.featD = s.cmd.featD := by cases p <;> rfl

/-- A port whose session stays. -/
theorem sessionPart_setPortSt {p : Port} {x : PortState} {s : State} (hx : x.session = (portSt s p).session) :
    sessionPart (setPortSt p x s) = sessionPart s := by
  have hp (q : Port) : (portSt (setPortSt p x s) q).session = (portSt s q).session := by
    by_cases hq : q = p
    · rw [hq, portSt_setPortSt_same, hx]
    · rw [portSt_setPortSt_ne hq]
  simp [sessionPart, hp]

theorem sessionPart_freeCredit (p : Port) (s : State) : sessionPart (freeCredit p s) = sessionPart s := sessionPart_setPortSt rfl

theorem sessionPart_postReply (r : Reply) (s : State) : sessionPart (postReply r s) = sessionPart s := by
  unfold postReply
  dsimp only
  split
  next h => exact sessionPart_setPortSt (by rw [h])
  · exact sessionPart_setPortSt rfl

theorem sessionPart_finish (k : Pkt) (held : Bool) (st : Nat) (ps : List Byte) (s : State) : sessionPart (finish k held st ps s) = sessionPart s := by
  unfold finish
  dsimp only
  split
  · split
    · exact sessionPart_freeCredit ..
    · rfl
  · split
    · rfl
    · exact sessionPart_postReply ..

theorem sessionPart_markEff (q : BitVec 32) (s : State) : sessionPart (markEff q s) = sessionPart s := by
  unfold markEff
  repeat' split
  all_goals rfl

theorem sessionPart_tookEffect (n : Nat) (k : Pkt) (s : State) : sessionPart (tookEffect n k s) = sessionPart s := by
  unfold tookEffect
  split
  · split
    · rfl
    · exact sessionPart_markEff ..
  · rfl

/-- An answer leaves the sessions and the feature set as the effect left them. -/
theorem sessionPart_answered (i : Instr) (h : Hdr) (s : State) (st : Nat) (ps : List Byte) (t : State) :
    sessionPart (answered i h s st ps t) = sessionPart t := by
  rw [answered, sessionPart_finish]
  split
  · exact sessionPart_tookEffect ..
  · rfl

/-! ### The end of a session and the start of one -/

section
variable (p : Port) (b : Bool) (sid : BitVec 32) (s : State)

@[simp] theorem emptyBank_cmd : (emptyBank b s).cmd = s.cmd := by
  unfold emptyBank
  dsimp only
  split <;> simp

@[simp] theorem emptyBank_regs : (emptyBank b s).regs = s.regs := by
  unfold emptyBank
  dsimp only
  split <;> simp

@[simp] theorem emptyBank_defects : (emptyBank b s).defects = s.defects := by
  unfold emptyBank
  dsimp only
  split <;> simp

@[simp] theorem endLoading_cmd : (endLoading p sid s).cmd = s.cmd := by
  simp only [endLoading, List.foldl_cons, List.foldl_nil]
  split <;> split <;> simp

@[simp] theorem endLoading_regs : (endLoading p sid s).regs = s.regs := by
  simp only [endLoading, List.foldl_cons, List.foldl_nil]
  split <;> split <;> simp

@[simp] theorem endLoading_defects : (endLoading p sid s).defects = s.defects := by
  simp only [endLoading, List.foldl_cons, List.foldl_nil]
  split <;> split <;> simp

theorem portSt_endLoading (q : Port) : portSt (endLoading p sid s) q = portSt s q := by cases q <;> simp [portSt]

@[simp] theorem endSession_featFixed : (endSession p s).cmd.featFixed = s.cmd.featFixed := by
  unfold endSession
  split <;> simp

@[simp] theorem endSession_featD : (endSession p s).cmd.featD = s.cmd.featD := by
  unfold endSession
  split <;> simp

theorem portSt_endSession_ne {p q : Port} (h : q ≠ p) (s : State) : portSt (endSession p s) q = portSt s q := by
  unfold endSession
  split
  · rfl
  · rw [portSt_endLoading, portSt_setPortSt_ne h]

@[simp] theorem endSession_regs : (endSession p s).regs = s.regs := by
  unfold endSession
  split <;> simp

@[simp] theorem endSession_defects : (endSession p s).defects = s.defects := by
  unfold endSession
  split <;> simp


/-- HELLO's new session: its ID is not 0, its set is D AND the offer (R377). -/
theorem openSession_session (o : BitVec 64) : ∃ x, (portSt (openSession p o s) p).session = some x ∧ x.id ≠ 0 ∧ x.agreed = s.cmd.featD &&& o := by
  refine ⟨_, by rw [openSession, portSt_setPortSt_same], ?_, ?_⟩
  · intro h0
    have := congrArg BitVec.toNat h0
    simp at this
    omega
  · simp [fresh]

theorem portSt_openSession_ne {p q : Port} (h : q ≠ p) (o : BitVec 64) (s : State) : portSt (openSession p o s) q = portSt s q := by
  rw [openSession, portSt_setPortSt_ne h]
  exact portSt_endSession_ne h s

variable (o : BitVec 64)

@[simp] theorem openSession_featFixed : (openSession p o s).cmd.featFixed = s.cmd.featFixed := by simp [openSession, fresh]

@[simp] theorem openSession_featD : (openSession p o s).cmd.featD = s.cmd.featD := by simp [openSession, fresh]

@[simp] theorem openSession_regs : (openSession p o s).regs = s.regs := by simp [openSession, fresh]

@[simp] theorem openSession_defects : (openSession p o s).defects = s.defects := by simp [openSession, fresh]

end

/-! ### Contact gained -/

theorem sessionPart_gainContact (x : Bool × Bool × Bool × BitVec 32) (s : State) : sessionPart (gainContact x s) = sessionPart s := by
  unfold gainContact
  split <;> rfl

/-- In mode 2, with the link up, HELLO brings contact (R328). -/
theorem gainContact_contact (x : Bool × Bool × Bool × BitVec 32) {s : State} (hm : pairMode s = 2) (hl : declared s 5 0 PL_LOS = false) :
    (gainContact x s).pair.contact = true := by
  unfold gainContact
  split
  next h => simpa [hm, hl] using h
  · rfl

/-! ### HELLO's own checks and effect -/

section
variable {h : Hdr} {o : BitVec 64} {b : BitVec 32} {u f r : BitVec 8} {k : BitVec 24} {s : State}

/-- The set D that a HELLO from the board or host port leaves: its own offer where none was fixed before (R378). -/
def fixSet (o : BitVec 64) (s : State) : State :=
  if s.cmd.featFixed then s else { s with cmd := { s.cmd with featD := Config.OFFER &&& o, featFixed := true } }

@[simp] theorem fixSet_featFixed : (fixSet o s).cmd.featFixed = true := by
  unfold fixSet
  split
  next hf => exact hf
  · rfl

@[simp] theorem fixSet_featD : (fixSet o s).cmd.featD = if s.cmd.featFixed then s.cmd.featD else Config.OFFER &&& o := by
  unfold fixSet
  split <;> rfl

theorem fixSet_fixed (hf : s.cmd.featFixed = true) : fixSet o s = s := if_pos hf

theorem portSt_fixSet (p : Port) : portSt (fixSet o s) p = portSt s p := by
  unfold fixSet
  split
  · rfl
  · cases p <;> rfl

theorem opHello_bad_offer (ho : o &&& ~~~Config.OFFER ≠ 0) : (opHello h o b u f r k).bad s = 16 := by
  have ho : decide (o &&& ~~~Config.OFFER = 0) = false := by simpa using ho
  simp only [opHello, firstBad, ho]
  cases h.port <;> rfl

theorem opHello_bad (ho : o &&& ~~~Config.OFFER = 0) (hp : h.port ≠ .pair) : (opHello h o b 0 0 0 0).bad s = 0 := by
  simp only [opHello, firstBad, ho]
  cases hq : h.port with
  | pair => exact absurd hq hp
  | board | host | inband => rfl

theorem opHello_bad_pair (ho : o &&& ~~~Config.OFFER = 0) (hp : h.port = .pair) (hu : u.toNat ≤ 1) (hf : f.toNat ≤ 1) :
    (opHello h o b u f r k).bad s = 0 := by
  simp [opHello, firstBad, ho, hp, hu, hf]

/-- HELLO on a port of software opens the session behind the set it finds fixed or fixes (R377, R378). -/
theorem opHello_run (hp : h.port = .board ∨ h.port = .host ∨ (h.port = .inband ∧ s.cmd.featFixed = true)) :
    (opHello h o b u f r k).run s = resOk (helloReply h.port (openSession h.port o (fixSet o s))) (openSession h.port o (fixSet o s)) := by
  rcases hp with hp | hp | ⟨hp, hf⟩
  · simp only [opHello, hp]
    rfl
  · simp only [opHello, hp]
    rfl
  · simp [opHello, hp, hf, fixSet_fixed]

theorem opHello_run_notFixed (hp : h.port = .inband ∨ h.port = .pair) (hf : s.cmd.featFixed = false) :
    (opHello h o b u f r k).run s = ⟨0x0C, [0xFF, 0, 0, 0], s⟩ := by
  rcases hp with hp | hp
  · simp only [opHello, hp, hf]
    rfl
  · simp only [opHello, hp, hf]
    rfl

theorem opHello_run_noPair (hp : h.port = .pair) (hf : s.cmd.featFixed = true) (h5 : featOn s 5 = false) :
    (opHello h o b u f r k).run s = ⟨0x0C, [5, 0, 0, 0], s⟩ := by
  simp only [opHello, hp, hf, h5]
  rfl

variable (hp : h.port = .pair) (hf : s.cmd.featFixed = true) (h5 : featOn s 5 = true)
include hp hf h5

theorem opHello_run_suits (hc : pairCause (partnerInfo s).2 (wouldSail (partnerInfo s).2 (partnerInfo s).1) u f r k = none) :
    (opHello h o b u f r k).run s =
      let t := gainContact (partnerInfo s).1 (openSession .pair o (partnerInfo s).2)
      ⟨0, helloReply .pair t, t⟩ := by
  simp [opHello, hp, hf, h5, hc, resOk]

theorem opHello_run_cause {c at_ : Nat}
    (hc : pairCause (partnerInfo s).2 (wouldSail (partnerInfo s).2 (partnerInfo s).1) u f r k = some (c, at_)) :
    (opHello h o b u f r k).run s = ⟨4, beBytes 2 at_ ++ [0, 0] ++ beBytes 4 c, event 0x0801 5 0 (beBytes 1 c) (partnerInfo s).2⟩ := by
  simp [opHello, hp, hf, h5, hc, resBadCause, rsv]

end

theorem featOn_taken (i : Instr) (h : Hdr) (s : State) (n : Nat) : featOn (taken i h s) n = featOn s n := by simp [featOn]

/-- Settles O4: HELLO's operation, run on the state the command starts on, by its port and by what is fixed before it. -/
theorem helloOpensSession : Obligations.HelloOpensSession := by
  unfold Obligations.HelloOpensSession
  refine ⟨fun h o b s hs ho hp => ?opens, fun h o b s hs ho hp hf => ?inband, fun h o b u f r k s hs ho => ?badOffer,
    fun h o b u f r k s hs hp ho hu hg hf => ?notFixed, fun h o b u f r k s hs hp ho hu hg hf h5 => ?noPair,
    fun h o b u f r k s hs hp ho hu hg hf h5 => ⟨fun hc => ?suits, fun c at_ hc => ?cause⟩⟩
  case opens =>
    have hq : h.port ≠ .pair := by rcases hp with hp | hp | ⟨hp, -⟩ <;> simp [hp]
    have he := exec_answers (opHello h o b 0 0 0 0) hs (opHello_bad ho hq) rfl rfl (opHello_run (by simpa using hp)) (by decide)
    obtain ⟨x, hx, hid, hag⟩ := openSession_session h.port (fixSet o (taken (.hello h o b 0 0 0 0) h s)) o
    have ha := sessionPart_answered (.hello h o b 0 0 0 0) h s 0
      (helloReply h.port (openSession h.port o (fixSet o (taken (.hello h o b 0 0 0 0) h s))))
      (openSession h.port o (fixSet o (taken (.hello h o b 0 0 0 0) h s)))
    simp only [sessionPart, Prod.mk.injEq] at ha
    obtain ⟨hses, hfix, hset⟩ := ha
    refine ⟨_, x, he, (congrFun hses h.port).trans hx, hid, hfix.trans (by simp), hset.trans (by simp), ?_, fun p hne => ?_⟩
    · rw [hag, hset, openSession_featD]
    · rw [congrFun hses p, portSt_openSession_ne hne, portSt_fixSet, taken_session]
  case inband =>
    have hq : h.port ≠ .pair := by simp [hp]
    exact exec_answers (opHello h o b 0 0 0 0) hs (opHello_bad ho hq) rfl rfl (opHello_run_notFixed (.inl hp) (by simpa using hf)) (by decide)
  case badOffer => exact exec_badParam hs (opHello_bad_offer ho) (by decide)
  case notFixed =>
    exact exec_answers (opHello h o b u f r k) hs (opHello_bad_pair ho hp hu hg) rfl rfl (opHello_run_notFixed (.inr hp) (by simpa using hf)) (by decide)
  case noPair =>
    exact exec_answers (opHello h o b u f r k) hs (opHello_bad_pair ho hp hu hg) rfl rfl
      (opHello_run_noPair hp (by simpa using hf) ((featOn_taken ..).trans h5)) (by decide)
  case suits =>
    have hrun := opHello_run_suits (o := o) (b := b) hp ((taken_featFixed ..).trans hf) ((featOn_taken ..).trans h5) hc
    refine ⟨exec_answers (opHello h o b u f r k) hs (opHello_bad_pair ho hp hu hg) rfl rfl hrun (by decide), ?_⟩
    have hg := sessionPart_gainContact (partnerInfo (taken (.hello h o b u f r k) h s)).1
      (openSession .pair o (partnerInfo (taken (.hello h o b u f r k) h s)).2)
    simp only [sessionPart, Prod.mk.injEq] at hg
    obtain ⟨hses, -, hset⟩ := hg
    obtain ⟨x, hx, hid, hag⟩ := openSession_session .pair (partnerInfo (taken (.hello h o b u f r k) h s)).2 o
    refine ⟨⟨x, (congrFun hses .pair).trans hx, hid, hag.trans ?_⟩, hset.trans ?_, fun p hne => ?_, fun hm hl => gainContact_contact _ ?_ ?_⟩
    · simp [partnerInfo, fresh]
    · simp [partnerInfo, fresh]
    · rw [congrFun hses p, portSt_openSession_ne hne]
      exact taken_session (.hello h o b u f r k) h s p
    · simpa [pairMode, regFld, regRaw, partnerInfo, fresh] using hm
    · simpa [declared, partnerInfo, fresh] using hl
  case cause =>
    exact exec_answers (opHello h o b u f r k) hs (opHello_bad_pair ho hp hu hg) rfl rfl
      (opHello_run_cause hp ((taken_featFixed ..).trans hf) ((featOn_taken ..).trans h5) hc) (by decide)

end Sys2Proof.Machine
end

section
/-! PROOFS. What an accepted command comes to when it starts: refused after acceptance, kept for its execution time, or waiting for its stroke boundary
(O1, O54). -/

namespace Sys2Proof.Machine

/-- Settles O1: `step` takes the front of the queue apart and hands the rest to `exec`. -/
theorem stepRunsFront : Obligations.StepRunsFront := by
  unfold Obligations.StepRunsFront
  intro c rest s h
  rw [step, h]

/-! ### A timed command -/

section
variable {i : Instr} {h : Hdr} {s : State} {o : Op}

theorem not_fence_of_opTimed (ht : opTimed (opcodeOf i) = true) : opcodeOf i ≠ 3 := by
  intro h3
  rw [h3] at ht
  exact absurd ht (by decide)

theorem takenPkt_badAt : (takenPkt i h s).badAt.toNat = 0 := rfl

theorem takenPkt_opcode : (takenPkt i h s).opcode.toNat = opcodeOf i := opcode_small i

theorem execAt_congr {s t : State} (h : Hdr) (a : Nat) (hp : t.plates = s.plates) (hi : t.imprNext = s.imprNext) : execAt t h a = execAt s h a := by
  simp [execAt, boundaryAt, firstAt, oldBoundaryAt, hp, hi]

theorem execAt_taken (a : Nat) : execAt (taken i h s) h a = execAt s h a := execAt_congr h a (taken_plates ..) (taken_imprNext ..)

/-- A timed command that its execution time refuses. -/
theorem start_late (ht : opTimed (opcodeOf i) = true) (he : h.exec ≠ 0#32) (ha : asap h = false) (hl : execAt s h s.now = none) :
    start (takenPkt i h s) o (taken i h s) =
      finish (takenPkt i h s) true 8 (beBytes 4 (s.now % 2 ^ 32) ++ beBytes 4 ((s.now + 2488) % 2 ^ 32)) (taken i h s) := by
  have hl' : execAt (taken i h s) h (takenPkt i h s).at_ = none := (execAt_taken (i := i) s.now).trans hl
  have hk : (takenPkt i h s).hdr = h := rfl
  simp [start, hk, takenPkt_opcode, ha, he, ht, hl']
  rfl

/-- A timed command whose execution time and parameters are admitted enters the wait. -/
theorem start_enterWait {e : Nat} (ht : opTimed (opcodeOf i) = true) (he : h.exec ≠ 0#32) (ha : asap h = false) (hl : execAt s h s.now = some e)
    (hb : o.bad (taken i h s) = 0) : start (takenPkt i h s) o (taken i h s) = enterWait (takenPkt i h s) o e (taken i h s) := by
  have hl' : execAt (taken i h s) h (takenPkt i h s).at_ = some e := (execAt_taken (i := i) s.now).trans hl
  have hk : (takenPkt i h s).hdr = h := rfl
  simp [start, hk, takenPkt_opcode, takenPkt_badAt, ha, he, ht, hl', hb, offMin]

theorem enterWait_full {k : Pkt} {e : Nat} (hf : 64 ≤ s.cmd.timed.length) : enterWait k o e s = finish k true 0x0A [] s := if_pos hf

end

/-- How far EXEC lies ahead of counter value a, in the low 32 bits. -/
def execAhead (h : Hdr) (a : Nat) : Nat := (h.exec.toNat + 2 ^ 32 - a % 2 ^ 32) % 2 ^ 32

section
variable {h : Hdr} {s : State} {a : Nat}

/-- The execution time that EXEC names, where R368 does not refuse it. -/
theorem execAt_eq (he : h.exec ≠ 0#32) (ha : asap h = false) :
    execAt s h a = if execAhead h a < 2488 ∨ 2 ^ 31 ≤ execAhead h a then none else some (a + execAhead h a) := by
  simp only [execAt, execAhead, ha]
  rw [if_neg (by simp [he])]
  exact if_congr (by simp) rfl rfl

theorem execAt_late (he : h.exec ≠ 0#32) (ha : asap h = false) (hd : execAhead h a < 2488 ∨ 2 ^ 31 ≤ execAhead h a) : execAt s h a = none := by
  rw [execAt_eq he ha, if_pos hd]

theorem execAt_ahead (he : h.exec ≠ 0#32) (ha : asap h = false) (hlo : 2488 ≤ execAhead h a) (hhi : execAhead h a < 2 ^ 31) :
    execAt s h a = some (a + execAhead h a) := by
  rw [execAt_eq he ha, if_neg (by omega)]

/-- The execution time is the first counter value whose low 32 bits are EXEC. -/
theorem execAhead_spec : (a + execAhead h a) % 2 ^ 32 = h.exec.toNat ∧ ∀ c, a ≤ c → c < a + execAhead h a → c % 2 ^ 32 ≠ h.exec.toNat := by
  have hx := h.exec.isLt
  unfold execAhead
  constructor
  · omega
  · intro c hlo hhi hc
    omega

end

/-- FENCE with a parameter out of range is answered on its own path. -/
theorem exec_fence_badParam {h : Hdr} {s : State} {a : BitVec 8} {b : Nat} (hs : Accepted (.fence h a) h s) (hi : Immediate 3 h)
    (ho : ordered h = false) (hb : (opFence a).bad (taken (.fence h a) h s) = b) (hn : b ≠ 0) :
    exec (.fence h a) s = answersNot (.fence h a) h s 4 (beBytes 2 b ++ [0, 0]) := by
  obtain ⟨-, hr, hk⟩ := hs
  obtain ⟨he, ha⟩ := hi
  have ha : asap h = false := by
    by_contra hx
    exact absurd (ha (by simpa using hx)).1 (by decide)
  have hk : intake h 3 (some (.fence h a)) s = none := hk
  have hb : (opFence a).bad (accept h 3 (some (.fence h a)) 0 s).2 = b := hb
  rw [exec_fence, deliverFence, hr, hk]
  simp [ha, ho, he, hb, offMin, hn]
  rfl

/-- Settles O54: `start` by the place of EXEC, by the parameters, and by what waits for its stroke boundary. -/
theorem acceptedCommandsChecked : Obligations.AcceptedCommandsChecked := by
  unfold Obligations.AcceptedCommandsChecked
  refine ⟨fun i h s hs hu ht he ha => ⟨fun hd => ?late, fun hlo hhi => ?time, fun hlo hhi hb hf => ?busy⟩,
    fun i h b s hs hu hi ho hb hn => ?param, fun i h s hs hw hb => ?stroke⟩
  case late =>
    rw [exec_eq_command hs.1 (not_fence_of_opTimed ht), command, submit_starts _ hs hu, start_late ht he ha (execAt_late he ha hd)]
    rfl
  case time => exact ⟨execAt_ahead he ha hlo hhi, execAhead_spec⟩
  case busy =>
    have hf : 64 ≤ (taken i h s).cmd.timed.length := by rw [(taken_queues i h s).2.1]; exact hf
    rw [exec_eq_command hs.1 (not_fence_of_opTimed ht), command, submit_starts _ hs hu, start_enterWait ht he ha (execAt_ahead he ha hlo hhi) hb,
      enterWait_full hf]
    rfl
  case param =>
    by_cases h3 : opcodeOf i = 3
    · obtain ⟨a, rfl⟩ := hdrOf_opcode_eq_three hs.1 h3
      exact exec_fence_badParam hs hi (ho rfl) hb hn
    · rw [exec_eq_command hs.1 h3]
      exact exec_badParam ⟨hs, hu, hi⟩ hb hn
  case stroke =>
    have h3 : opcodeOf i ≠ 3 := by
      intro h3
      rw [h3] at hw
      simp [awaitsStroke, opStroke] at hw
    rw [exec_eq_command hs.1.1 h3]
    exact exec_posts _ hs hb hw

end Sys2Proof.Machine
end

section
/-! PROOFS. The interpreter's own steps: what starts, and what a timed command comes to at its stroke boundary (O28). -/

namespace Sys2Proof.Machine

/-! ### An event of a unit that runs -/

section
variable {s t : State}

theorem live_running (hr : Running s) : live s t = .next t := congrArg _ (if_pos hr)

theorem live_not_running (hr : ¬ Running s) : live s t = .next s := congrArg _ (if_neg hr)

/-- An event that leaves the state as it is. -/
theorem live_same : live s s = .next s := congrArg _ (ite_self s)

end

/-! ### Starting -/

section
variable {s : State}

theorem commandStart_starts {k : Pkt} (hn : executing s < 16) (hk : oldestStartable s = some k) :
    commandStart s = start k (opOfPkt k.cmd) (dequeue k s) := by
  rw [commandStart, if_neg (Nat.not_le.2 hn), hk]

theorem commandStart_none (h : 16 ≤ executing s ∨ oldestStartable s = none) : commandStart s = s := by
  unfold commandStart
  split
  · rfl
  next hn => rw [h.resolve_left hn]

/-! ### The timed command that is next -/

theorem nextTimed_nil (h : s.cmd.timed = []) : nextTimed s = none := by rw [nextTimed, h]; rfl

theorem timedExecution_none (h : nextTimed s = none) : timedExecution s = s := by rw [timedExecution, h]

theorem timedExecution_some {x : Timed} (h : nextTimed s = some x) :
    timedExecution s =
      if nextBoundary s ≤ max s.strokeNext (strokeAt s (max s.now x.at_)) then s
      else postCmd true x.pkt (advance (max s.strokeNext (strokeAt s (max s.now x.at_)))
        { s with cmd := { s.cmd with timed := s.cmd.timed.filter (fun y => y.pkt.ord ≠ x.pkt.ord) } }) := by
  rw [timedExecution, h]

end

/-! ### A timed command at its boundary -/

section
variable {k : Pkt} {i : Instr} {o : Op} {b t : State} {st : Nat} {ps : List Byte}

/-- CMD_DONE gives the status that a timed command comes to; one that its checks refuse changes nothing (R367). -/
theorem landCmd_timed (hk : k.cmd = some i) (ho : strokeOf i = some o) (hb : o.bad b = 0) (hr : o.run b = ⟨st, ps, t⟩) :
    landCmd true k b = event 0x0002 0x0B (portNo k.hdr.port) (e32 k.dseq ++ beBytes 1 st)
      (if st ≤ 1 then tookEffect b.mill.landing.length k t else t) := by
  have hk : k.cmd.bind strokeOf = some o := by rw [hk]; exact ho
  simp [landCmd, hk, hb, hr]

/-- A command that has posted nothing, and whose effect waits for no impression boundary, has taken it (R44). -/
theorem tookEffect_now {n : Nat} (hl : t.mill.landing.length ≤ n) (hk : k.cmd.bind (effectBoundary t) = none) : tookEffect n k t = markEff k.dseq t := by
  rw [tookEffect, if_pos hl, hk]

end

theorem snapshotAll_mill (s : State) : (snapshotAll s).mill = s.mill := by
  unfold snapshotAll
  split <;> rfl

theorem slotChecks_ok {s : State} {t l : BitVec 8} (ht : treeOk s t.toNat = true) (hl : l.toNat ≤ 127) : firstBad (slotChecks s t l) = 0 := by
  simp [slotChecks, firstBad, ht, hl]

theorem opTermActivate_busy {s : State} {t l : BitVec 8} (h : (term s (slotIx t l)).st ≠ .ranged) : (opTermActivate t l).run s = resBusy s := if_pos h

/-- Settles O28: what starts, what is handed over, and the status CMD_DONE gives. -/
theorem interpreterStepsComplete : Obligations.InterpreterStepsComplete := by
  unfold Obligations.InterpreterStepsComplete
  refine ⟨fun k s hr hn hk => ?starts, fun s hr h => ?none, fun x s hr hx => ⟨fun hb => ?handed, fun hb => ?boundary⟩, fun s hr ht => ?noTimed,
    fun k h b hk => ?snapshot, fun k h t l b hk ht hl hs => ?activate⟩
  case starts => exact (live_running hr).trans (congrArg _ (commandStart_starts hn hk))
  case none => exact (live_running hr).trans (congrArg _ (commandStart_none h))
  case handed => exact (live_running hr).trans (congrArg _ ((timedExecution_some hx).trans (if_neg (Nat.not_le.2 hb))))
  case boundary => exact (live_running hr).trans (congrArg _ ((timedExecution_some hx).trans (if_pos hb)))
  case noTimed => exact (live_running hr).trans (congrArg _ (timedExecution_none (nextTimed_nil ht)))
  case snapshot =>
    have ht : tookEffect b.mill.landing.length k (snapshotAll b) = markEff k.dseq (snapshotAll b) :=
      tookEffect_now (by rw [snapshotAll_mill]) (by rw [hk]; rfl)
    rw [landCmd_timed hk (o := opSnapshot) rfl rfl rfl, if_pos (by decide), ht]
    rfl
  case activate =>
    rw [landCmd_timed hk (o := opTermActivate t l) rfl (slotChecks_ok ht hl) (opTermActivate_busy hs), if_neg (by decide)]
    rfl

end Sys2Proof.Machine
end

section
/-! PROOFS. A BAR0 write of a whole register: how it waits for its stroke boundary and what it comes to there; which registers a report may change. -/

namespace Sys2Proof.Machine

/-! ### Reading registers back -/

section
variable (s : State)

@[simp] theorem regRaw_setRaw_same (a : Nat) (w : Word) : regRaw (setRaw a w s) a = w := by
  simp [regRaw, setRaw]

theorem regRaw_setRaw_ne {a b : Nat} (w : Word) (h : a ≠ b) : regRaw (setRaw b w s) a = regRaw s a := by
  simp [regRaw, setRaw, mget_mput_ne _ _ _ h]

theorem regRaw_of_regs {t : State} (h : t.regs = s.regs) (a : Nat) : regRaw t a = regRaw s a := by rw [regRaw, regRaw, h]

end

/-! ### The registers that a report may change -/

/-- t has the registers of s but for those that the event hopper's own reports set: GLB_EVT and the hopper's HEVT (R401). -/
structure KeepsRegs (s t : State) : Prop where
  raw : ∀ a, a ≠ aGLB_EVT → a ≠ aHEVT 0 → regRaw t a = regRaw s a

section
variable {s t u : State}

theorem KeepsRegs.refl : KeepsRegs s s := ⟨fun _ _ _ => rfl⟩

theorem KeepsRegs.trans (h : KeepsRegs s t) (k : KeepsRegs t u) : KeepsRegs s u := ⟨fun a hg hh => (k.raw a hg hh).trans (h.raw a hg hh)⟩

theorem keepsRegs_of_regs (h : t.regs = s.regs) : KeepsRegs s t := ⟨fun a _ _ => regRaw_of_regs s h a⟩

theorem KeepsRegs.foldl {α : Type} {f : State → α → State} (h : ∀ s x, KeepsRegs s (f s x)) (l : List α) (s : State) : KeepsRegs s (l.foldl f s) := by
  induction l generalizing s with
  | nil => exact .refl
  | cons x l ih => exact (h s x).trans (ih _)

theorem KeepsRegs.fld (h : KeepsRegs s t) {a : Nat} (hg : a ≠ aGLB_EVT) (hh : a ≠ aHEVT 0) (hi lo : Nat) : regFld t a hi lo = regFld s a hi lo := by
  rw [regFld, regFld, h.raw a hg hh]

theorem regs_sigMsix (v : Nat) (s : State) : (sigMsix v s).regs = s.regs := rfl

theorem regRaw_scEvent {a b : Nat} (v : Word) (s : State) (h : a ≠ b) : regRaw (scEvent b v s) a = regRaw s a := by
  unfold scEvent
  split
  · rfl
  · dsimp only
    split
    · rw [regRaw_of_regs _ (regs_sigMsix ..), regRaw_setRaw_ne _ _ h]
    · rw [regRaw_setRaw_ne _ _ h]

theorem keepsRegs_bump (a n : Nat) (s : State) : KeepsRegs s (bump a n s) := by
  refine keepsRegs_of_regs ?_
  unfold bump
  split <;> rfl

theorem keepsRegs_hopLevel (x : Hopper) (r0 r1 : Nat) (s : State) : KeepsRegs s (hopLevel 0 x r0 r1 s) := by
  refine ⟨fun a _ hh => ?_⟩
  unfold hopLevel
  split
  · dsimp only
    split
    · rw [regRaw_of_regs _ (regs_sigMsix ..), regRaw_scEvent _ _ hh]
    · rw [regRaw_scEvent _ _ hh]
  · rfl

theorem keepsRegs_evtPush (src : Nat) (mk : BitVec 32 → List Byte) (s : State) : KeepsRegs s (evtPush src mk s) := by
  unfold evtPush
  dsimp only
  split
  · refine .trans ?_ (keepsRegs_hopLevel ..)
    exact keepsRegs_of_regs rfl
  · refine ⟨fun a hg hh => ?_⟩
    rw [regRaw_scEvent _ _ hg, regRaw_scEvent _ _ hh, (keepsRegs_bump ..).raw a hg hh]
    rfl

/-- A record without status bits of its own. -/
theorem keepsRegs_evtRaw (code cls b0 b1 idx : Nat) (d : List Byte) (s : State) : KeepsRegs s (evtRaw code cls b0 b1 idx d [] s) := by
  unfold evtRaw
  split
  · refine .trans ?_ (keepsRegs_evtPush ..)
    exact keepsRegs_of_regs rfl
  · exact keepsRegs_evtPush ..

theorem keepsRegs_event {code cls idx : Nat} {d : List Byte} (h : scTargets code idx d = []) (s : State) : KeepsRegs s (event code cls idx d s) := by
  rw [event, h]
  exact keepsRegs_evtRaw ..

end

/-! ### A write arrives -/

section
variable {a : Nat} {v : Word} {s : State} {i : RegInfo}

theorem regBase_plain (ha : isAlias a = false) : regBase a = a := by simp [regBase, ha]

theorem accMask_plain (ha : isAlias a = false) : accMask a = 0xFFFFFFFF := by simp [accMask, ha]

theorem accVal_plain (ha : isAlias a = false) : accVal a v = v := by simp [accVal, ha]

theorem setWidth_64_32 (v : Word) : (v.setWidth 64).setWidth 32 = v := by simp

/-- A write to a register that no lock and no privilege covers waits for its stroke boundary (R374). -/
theorem barWrite_posts (ht : regThere s a = true) (h4 : a % 4 = 0) (hw : badWidth s a 4 = false) (hn : isAlias a = false) (hc : classBits a = 0#32)
    (hl : lockedBits s a = 0#32) : barWrite a 4 (v.setWidth 64) s = post (.bar a 4 (v.setWidth 64) 0) s := by
  simp [barWrite, ht, h4, hw, barOne, regBase_plain hn, accMask_plain hn, hc, hl]

theorem barStep_open {w : Nat} {v : BitVec 64} (ho : BarOpen s) : barStep a w v s = .next (barWrite a w v s) := by
  obtain ⟨hp, hr, hb⟩ := ho
  simp [barStep, liveBar, hp, hr, hb]

theorem barStep_exempt {w : Nat} {v : BitVec 64} (he : barExempt a = true) (hr : Running s) (hq : s.power.rescue = false) :
    barStep a w v s = .next (barWrite a w v s) := by
  have hp : s.power.phase = .running := hr
  simp [barStep, he, hp, hq]

/-! ### A write lands -/

/-- The GPIO registers of t are those of s. -/
def KeepsGpio (s t : State) : Prop := ∀ k ∈ List.range 16, regRaw t (aGPIO k) = regRaw s (aGPIO k)

section
variable {s t u : State}

theorem KeepsGpio.trans (h : KeepsGpio s t) (k : KeepsGpio t u) : KeepsGpio s u := fun n hn => (k n hn).trans (h n hn)

theorem keepsGpio_of_regs (h : t.regs = s.regs) : KeepsGpio s t := fun k _ => regRaw_of_regs s h (aGPIO k)

theorem KeepsRegs.gpio (h : KeepsRegs s t) : KeepsGpio s t :=
  fun k _ => h.raw (aGPIO k) (by simp only [aGPIO, aGLB_EVT]; omega) (by simp only [aGPIO, aHEVT]; omega)

theorem keepsGpio_setRaw {a : Nat} (w : Word) (h : a < 0x90000 ∨ 0x90040 ≤ a) : KeepsGpio s (setRaw a w s) := by
  intro k hk
  have hk := List.mem_range.1 hk
  exact regRaw_setRaw_ne s w (by simp only [aGPIO]; omega)

/-- A write that leaves the GPIO registers gives no function a second holder (R463). -/
theorem gpioClash_none (h : KeepsGpio s t) : gpioClash s t = none := by
  have hg (f : Nat) : (List.range 16).filter (fun k => decide (regFld t (aGPIO k) 31 28 = f))
      = (List.range 16).filter (fun k => decide (regFld s (aGPIO k) 31 28 = f)) :=
    List.filter_congr (fun k hk => by rw [regFld, regFld, h k hk])
  have hall (f : Nat) : ((List.range 16).filter (fun k => regFld s (aGPIO k) 31 28 = f)).all (fun k => regFld s (aGPIO k) 31 28 = f) = true := by
    simp [List.all_eq_true]
  unfold gpioClash
  simp only [hg]
  rw [List.findSome?_eq_none_iff]
  intro x hx
  obtain ⟨f, -, rfl⟩ := List.mem_map.1 hx
  have := hall f
  split
  next => exact if_pos this
  · rfl

end

/-- A whole write to a register of RW and WS fields stores what the fields take (R402 to R404). -/
theorem regWrite_store (hw : writable s a = true) (hi : regInfo a = some i) (hsc : i.sc = 0) (hlk : i.lk = 0) (hf : i.rw ≠ 0 ∨ i.ws ≠ 0) :
    regWrite a v 0xFFFFFFFF s = regStore a (v &&& i.rw) (v &&& i.ws) 0xFFFFFFFF s := by
  have hz (x : Word) : (x &&& i.rw &&& ~~~i.rw) ||| (v &&& i.rw) = v &&& i.rw := by
    rw [BitVec.and_assoc, BitVec.and_not_self]
    exact (congrArg (· ||| (v &&& i.rw)) BitVec.and_zero).trans BitVec.zero_or
  have hv (x : Word) : x &&& 0xFFFFFFFF = x := BitVec.and_allOnes
  have hno : ¬(i.rw = 0 ∧ i.lk = 0 ∧ i.ws = 0) := by rintro ⟨h, -, k⟩; exact hf.elim (· h) (· k)
  rw [regWrite, hi]
  dsimp only
  rw [if_neg (by rw [hw]; decide), if_neg (not_not.2 hsc), if_neg hno, if_neg (not_not.2 hlk), hv, hv, hz]

theorem landBar_store (hn : isAlias a = false) (hl : lockedBits s a = 0) (hw : writable s a = true) (hi : regInfo a = some i) (hsc : i.sc = 0)
    (hlk : i.lk = 0) (hf : i.rw ≠ 0 ∨ i.ws ≠ 0) (hg : KeepsGpio s (regStore a (v &&& i.rw) (v &&& i.ws) 0xFFFFFFFF s)) :
    landBar a 4 (v.setWidth 64) 0 s = mirrorBar a v (regStore a (v &&& i.rw) (v &&& i.ws) 0xFFFFFFFF s) := by
  have ht : write32 a v 0 s = regStore a (v &&& i.rw) (v &&& i.ws) 0xFFFFFFFF s := by
    rw [write32, regBase_plain hn, accMask_plain hn, accVal_plain hn]
    exact regWrite_store hw hi hsc hlk hf
  have hz (x : Word) : x &&& ~~~0 ||| regRaw s a &&& 0 = x := by
    rw [show x &&& ~~~0 = x from BitVec.and_allOnes]
    exact (congrArg (x ||| ·) BitVec.and_zero).trans BitVec.or_zero
  rw [landBar, if_neg (by decide), regBase_plain hn, hl, setWidth_64_32]
  dsimp only
  rw [if_neg (by simp), show (0 : Word) ||| 0 &&& ~~~0 = 0 from rfl, ht, gpioClash_none hg]
  dsimp only
  rw [hn, hz]
  rfl

end

/-- The register at a is a 32-bit one of RW and WS fields, outside the blocks of quads and trees, that no privilege covers. -/
structure PlainReg (a : Nat) (i : RegInfo) : Prop where
  plain : isAlias a = false
  aligned : a % 4 = 0
  info : regInfo a = some i
  noSc : i.sc = 0
  noLk : i.lk = 0
  stores : i.rw ≠ 0 ∨ i.ws ≠ 0
  classes : classBits a = 0
  present : ∀ s, regThere s a = true
  narrow : ∀ s, badWidth s a 4 = false
  admits : ∀ s, writable s a = true

section
variable {a : Nat} {v : Word} {s b t : State} {i : RegInfo} {j : Instr}

/-- A BAR0 write to such a register waits for its boundary and stores there what its fields take. -/
theorem PlainReg.bars (h : PlainReg a i) (hs : lockedBits s a = 0) (hb : lockedBits b a = 0) (he : exec j s = .next (barWrite a 4 (v.setWidth 64) s))
    (ht : regStore a (v &&& i.rw) (v &&& i.ws) 0xFFFFFFFF b = t) (hg : KeepsGpio b t) : Bars j a v s b (mirrorBar a v t) := by
  subst ht
  exact ⟨he.trans (congrArg _ (barWrite_posts (h.present s) h.aligned (h.narrow s) h.plain h.classes hs)),
    landBar_store h.plain hb (h.admits b) h.info h.noSc h.noLk h.stores hg⟩

end

end Sys2Proof.Machine
end

section
/-! PROOFS. The host's ring registers and PAIR_CFG's MODE (O23). -/

namespace Sys2Proof.Machine

/-! ### The ring registers -/

theorem plainReg_ringCtl : PlainReg aRING_CTL { rw := 1, ws := 2 } :=
  ⟨rfl, rfl, rfl, rfl, rfl, .inl (by decide), rfl, fun _ => rfl, fun _ => rfl, fun _ => rfl⟩

theorem plainReg_cmdTail : PlainReg aCMD_TAIL { rw := 0x3FF } :=
  ⟨rfl, rfl, rfl, rfl, rfl, .inl (by decide), rfl, fun _ => rfl, fun _ => rfl, fun _ => rfl⟩

theorem plainReg_rplTail : PlainReg aRPL_TAIL { rw := 0x3FF } :=
  ⟨rfl, rfl, rfl, rfl, rfl, .inl (by decide), rfl, fun _ => rfl, fun _ => rfl, fun _ => rfl⟩

theorem plainReg_pairCfg : PlainReg aPAIR_CFG { rw := 0xFC000000, rst := 0x04000000 } :=
  ⟨rfl, rfl, rfl, rfl, rfl, .inl (by decide), rfl, fun _ => rfl, fun _ => rfl, fun _ => rfl⟩

section
variable {s b : State}

/-- RUN is taken as written; RESET, only while RUN is 0, returns both heads to 0 (R384). -/
theorem ringStore_eq (w ws : Word) (s : State) : ringStore w ws 0xFFFFFFFF s =
    let t := if ws ≠ 0 ∧ !s.cmd.ringRun then { s with cmd := { s.cmd with cmdHead := 0, rplHead := 0 } } else s
    { t with cmd := { t.cmd with ringRun := w.getLsbD 0 } } := rfl

theorem exec_ring {j : Instr} {a : Nat} {v : Word} (hj : exec j s = bar32 a v s) (ha : barExempt a = true) (hr : Running s) (hq : s.power.rescue = false) :
    exec j s = .next (barWrite a 4 (v.setWidth 64) s) := hj.trans (barStep_exempt ha hr hq)

theorem run_bars (on : Bool) (hr : Running s) (hq : s.power.rescue = false) :
    Bars (.run on) aRING_CTL (if on then 1 else 0) s b (mirrorBar aRING_CTL (if on then 1 else 0) { b with cmd := { b.cmd with ringRun := on } }) := by
  refine plainReg_ringCtl.bars rfl rfl (exec_ring rfl rfl hr hq) ?_ (keepsGpio_of_regs rfl)
  cases on <;> rfl

/-- RING_CTL read: RUN stands in its lowest bit. -/
theorem readWord_ringCtl (s : State) : (readWord s aRING_CTL).getLsbD 0 = s.cmd.ringRun := by
  show ((regRaw s aRING_CTL &&& ~~~1) ||| BitVec.ofNat 32 s.cmd.ringRun.toNat).getLsbD 0 = _
  cases s.cmd.ringRun <;> simp

theorem ringReset_bars (hr : Running s) (hq : s.power.rescue = false) (h : b.cmd.ringRun = s.cmd.ringRun) :
    Bars .ringReset aRING_CTL (withBits s aRING_CTL 2 2) s b
      (mirrorBar aRING_CTL (withBits s aRING_CTL 2 2) (if s.cmd.ringRun then b else { b with cmd := { b.cmd with cmdHead := 0, rplHead := 0 } })) := by
  have hw : (withBits s aRING_CTL 2 2 &&& 1).getLsbD 0 = b.cmd.ringRun := by
    rw [h, ← readWord_ringCtl s]
    simp [withBits]
  have hs : withBits s aRING_CTL 2 2 &&& 2 ≠ 0 := by
    intro h0
    have := congrArg (·.getLsbD 1) h0
    simp [withBits] at this
  refine plainReg_ringCtl.bars rfl rfl (exec_ring rfl rfl hr hq) ?_ (keepsGpio_of_regs (by split <;> rfl))
  show ringStore (withBits s aRING_CTL 2 2 &&& 1) (withBits s aRING_CTL 2 2 &&& 2) 0xFFFFFFFF b = _
  rw [ringStore_eq, hw, ← h]
  by_cases hb : b.cmd.ringRun
  · rw [if_pos hb, if_neg (fun k => by simp [hb] at k)]
  · rw [if_neg hb, if_pos ⟨hs, by simp [hb]⟩]

/-- A tail fits its field. -/
theorem tail_fits (k : BitVec 10) : (k.setWidth 32 &&& 0x3FF : Word) = k.setWidth 32 := by
  have h : (0x3FF : Word) = (BitVec.allOnes 10).setWidth 32 := rfl
  rw [h, ← BitVec.setWidth_and, BitVec.and_allOnes]

theorem cmdTail_bars (k : BitVec 10) (hr : Running s) (hq : s.power.rescue = false) :
    Bars (.cmdTail k) aCMD_TAIL (k.setWidth 32) s b (mirrorBar aCMD_TAIL (k.setWidth 32) (setRaw aCMD_TAIL (k.setWidth 32) b)) :=
  plainReg_cmdTail.bars rfl rfl (exec_ring rfl rfl hr hq) (congrArg (setRaw aCMD_TAIL · b) (tail_fits k)) (keepsGpio_setRaw _ (.inl (by decide)))

theorem rplTail_bars (k : BitVec 10) (hr : Running s) (hq : s.power.rescue = false) :
    Bars (.rplTail k) aRPL_TAIL (k.setWidth 32) s b (mirrorBar aRPL_TAIL (k.setWidth 32) (setRaw aRPL_TAIL (k.setWidth 32) b)) :=
  plainReg_rplTail.bars rfl rfl (exec_ring rfl rfl hr hq) (congrArg (setRaw aRPL_TAIL · b) (tail_fits k)) (keepsGpio_setRaw _ (.inl (by decide)))

end

/-! ### PAIR_CFG's MODE (R327) -/

section
variable {s t u : State}

theorem Reports.pair_eq (h : Reports s t) : t.pair = s.pair := by
  unfold Reports at h
  rw [h]

theorem isFenced_of_pair (h : t.pair = s.pair) : isFenced t = isFenced s := by rw [isFenced, isFenced, h]

/-- t has the registers of s but for those a report sets, and its fences. -/
structure KeepsFences (s t : State) : Prop where
  regs : KeepsRegs s t
  fenced : isFenced t = isFenced s

theorem KeepsFences.refl : KeepsFences s s := ⟨.refl, rfl⟩

theorem KeepsFences.trans (h : KeepsFences s t) (k : KeepsFences t u) : KeepsFences s u := ⟨h.regs.trans k.regs, k.fenced.trans h.fenced⟩

theorem KeepsFences.pairMode_eq (h : KeepsFences s t) : pairMode t = pairMode s := h.regs.fld (by decide) (by decide) 31 30

theorem keepsFences_event {code cls idx : Nat} {d : List Byte} (h : scTargets code idx d = []) (s : State) : KeepsFences s (event code cls idx d s) :=
  ⟨keepsRegs_event h s, isFenced_of_pair (event_reports ..).pair_eq⟩

theorem keepsFences_startJoin (s : State) : KeepsFences s (startJoin s) := by
  unfold startJoin
  split
  · exact ⟨keepsRegs_of_regs rfl, rfl⟩
  · exact .refl

theorem estLift_pairLink (idx code : Nat) (s : State) : estLift 5 idx code s = s := by simp [estLift]

theorem tellDefect_pairLink (idx code : Nat) (on : Bool) (s : State) : tellDefect 5 idx code on s = s := by simp [tellDefect]

/-- A defect of the pair link has nothing below it, and no standby tells it: clearing it only reports. -/
theorem keepsFences_defClear_pair (c cause : Nat) (s : State) : KeepsFences s (defClear 5 0 c cause s) := by
  unfold defClear
  split
  · dsimp only
    rw [estLift_pairLink, tellDefect_pairLink]
    have h : KeepsFences s { s with defects := { s.defects with on := mput false s.defects.on (defKey 5 0 c) false } } := ⟨keepsRegs_of_regs rfl, rfl⟩
    exact h.trans ⟨keepsRegs_evtRaw .., isFenced_of_pair (defEvent_reports ..).pair_eq⟩
  · exact .refl

theorem keepsFences_defLeave_pair (s : State) : KeepsFences s (defLeave 5 0 s) :=
  (keepsFences_defClear_pair 0x40 2 s).trans (keepsFences_defClear_pair 0x41 2 _)

theorem postReply_keeps (r : Reply) (s : State) : (postReply r s).regs = s.regs ∧ (postReply r s).pair = s.pair := by
  unfold postReply
  dsimp only
  split <;> simp

theorem freeReplies_keeps (s : State) : (freeReplies s).regs = s.regs ∧ (freeReplies s).pair = s.pair := by
  unfold freeReplies
  suffices h : ∀ (l : List Reply) (s : State), (l.foldl (fun s r => postReply r s) s).regs = s.regs ∧ (l.foldl (fun s r => postReply r s) s).pair = s.pair from
    h _ _
  intro l
  induction l with
  | nil => exact fun _ => ⟨rfl, rfl⟩
  | cons r l ih =>
    intro s
    obtain ⟨hr, hp⟩ := postReply_keeps r s
    obtain ⟨ir, ip⟩ := ih (postReply r s)
    exact ⟨ir.trans hr, ip.trans hp⟩

/-- MODE 1 makes the unit SOLO, and SAILS_ON unless it is fenced (R327, R329); contact is not its business. -/
theorem landSolo_comes (s : State) : KeepsFences s (landSolo s) ∧ (landSolo s).pair.st = .solo ∧ (landSolo s).pair.tier = 0
    ∧ (isFenced s = false → (landSolo s).pair.sails = true) ∧ (landSolo s).pair.contact = s.pair.contact := by
  obtain ⟨hr, hp⟩ := freeReplies_keeps { s with pair := { s.pair with st := .solo, tier := 0, detached := false } }
  unfold landSolo
  dsimp only
  generalize freeReplies _ = x at hr hp ⊢
  have hf : isFenced x = isFenced s := by rw [isFenced, hp]; rfl
  by_cases h : isFenced s
  · rw [if_pos (by rw [hf, h])]
    exact ⟨⟨keepsRegs_of_regs hr, hf⟩, by rw [hp], by rw [hp], fun k => by simp [h] at k, by rw [hp]⟩
  · rw [if_neg (by rw [hf]; exact h)]
    exact ⟨⟨keepsRegs_of_regs hr, hf⟩, (congrArg Pair.st hp :), (congrArg Pair.tier hp :), fun _ => rfl, (congrArg Pair.contact hp :)⟩

theorem keepsFences_gainContact (x : Bool × Bool × Bool × BitVec 32) (s : State) : KeepsFences s (gainContact x s) := by
  unfold gainContact
  split
  · exact .refl
  · exact ⟨keepsRegs_of_regs rfl, rfl⟩

end

/-- The upper two bits of a word as a number: those its masks leave. -/
theorem toNat_shift_and_three (v : Word) : (v >>> 30 &&& 3).toNat = v.toNat / 2 ^ 30 := by
  rw [BitVec.toNat_and, BitVec.toNat_ushiftRight, Nat.shiftRight_eq_div_pow]
  have := v.isLt
  exact (Nat.and_two_pow_sub_one_eq_mod _ 2).trans (Nat.mod_eq_of_lt (by omega))

theorem fld_mode (v : Word) : fld v.toNat 31 30 = v.toNat / 2 ^ 30 := by
  have := v.isLt
  rw [fld]
  omega

/-- MODE in the fields of a written value. -/
theorem fld_mode_fields (v : Word) : fld (v &&& 0xFC000000).toNat 31 30 = v.toNat / 2 ^ 30 := by
  rw [fld_mode, ← toNat_shift_and_three, BitVec.ushiftRight_and_distrib, BitVec.and_assoc]
  exact toNat_shift_and_three v

/-- MODE of what PAIR_CFG stores, whether UNIT and PREFER are taken from the value or stay. -/
theorem fld_mode_stored (v x : Word) : fld ((v &&& 0xC0000000) ||| x &&& 0x30000000 ||| (v &&& 0x0C000000)).toNat 31 30 = v.toNat / 2 ^ 30 := by
  rw [fld_mode, ← toNat_shift_and_three]
  simp only [BitVec.ushiftRight_or_distrib, BitVec.ushiftRight_and_distrib]
  show ((v >>> 30 &&& 3 ||| x >>> 30 &&& 0#32 ||| v >>> 30 &&& 0#32) &&& 3).toNat = _
  rw [BitVec.and_zero, BitVec.and_zero, BitVec.or_zero, BitVec.or_zero, BitVec.and_assoc]
  exact toNat_shift_and_three v

section
variable {v : Word} {s t u x : State}

/-- What a change of MODE to m leaves: m in MODE, and with MODE 1 a SOLO unit without contact (R327). -/
structure ModeTaken (m : Nat) (s t : State) : Prop where
  mode : pairMode t = m
  gpio : KeepsGpio s t
  solo : m = 1 → pairMode s ≠ 1 → t.pair.st = .solo ∧ t.pair.tier = 0 ∧ (isFenced s = false → t.pair.sails = true) ∧ (pairMode s = 2 → t.pair.contact = false)

/-- The pair leaves MODE 2: its link has no defect and no contact any more. -/
def leaveLink (s : State) : State := { defLeave 5 0 s with pair := { (defLeave 5 0 s).pair with contact := false } }

theorem keepsFences_leaveLink (s : State) : KeepsFences s (leaveLink s) := (keepsFences_defLeave_pair s).trans ⟨keepsRegs_of_regs rfl, rfl⟩

/-- PAIR_CFG as a write leaves it, MODE taken from the value where it may be: what is not taken is reported, and JOIN_AUTO may start a join. -/
def pairStored (modeOk : Bool) (v : Word) (s : State) : State :=
  let old := regRaw s aPAIR_CFG
  let unitOk := (v &&& 0x30000000) = (old &&& 0x30000000) || !s.pair.contact
  let s := setRaw aPAIR_CFG ((if modeOk then v &&& 0xC0000000 else old &&& 0xC0000000) ||| (if unitOk then v &&& 0x30000000 else old &&& 0x30000000)
      ||| (v &&& 0x0C000000)) s
  let s := if !modeOk || !unitOk then event 0x0800 5 0 (beBytes 4 v.toNat) s else s
  if !old.getLsbD 26 && v.getLsbD 26 then startJoin s else s

/-- The pair enters MODE m (R327). -/
def enterMode (m : Nat) (s : State) : State :=
  if m = 1 then landSolo s
  else if m = 2 then
    let s := { s with pair := { s.pair with renewAt := s.now, lostTold := false } }
    if (s.cmd.pair.session).isSome then gainContact (partnerInfo s).1 (partnerInfo s).2 else s
  else s

/-- MODE may become m: from MODE 0 or while the pair is SOLO, MODE 2 with PAIR_MODE agreed (R327). -/
def modeAdmitted (m : Nat) (s : State) : Bool := m = pairMode s || ((pairMode s = 0 || s.pair.st = .solo) && (m ≠ 2 || featOn s 5))

theorem pairCfgWrite_eq (v : Word) (s : State) : pairCfgWrite v s =
    if fld v.toNat 31 30 = 3 then event 0x0800 5 0 (beBytes 4 v.toNat) s
    else if !modeAdmitted (fld v.toNat 31 30) s ∨ fld v.toNat 31 30 = pairMode s then pairStored (modeAdmitted (fld v.toNat 31 30) s) v s
    else enterMode (fld v.toNat 31 30)
      (if pairMode s = 2 then leaveLink (pairStored (modeAdmitted (fld v.toNat 31 30) s) v s) else pairStored (modeAdmitted (fld v.toNat 31 30) s) v s) := rfl

/-- The stored word has MODE of the value; nothing else of what this family reads has changed. -/
theorem pairStored_keeps (v : Word) (s : State) :
    ∃ w, fld w.toNat 31 30 = v.toNat / 2 ^ 30 ∧ KeepsFences (setRaw aPAIR_CFG w s) (pairStored true v s) := by
  unfold pairStored
  extract_lets old unitOk s1 s2
  have h1 : KeepsFences s1 s2 := by
    simp only [s2]
    split
    · exact keepsFences_event rfl _
    · exact .refl
  refine ⟨_, ?_, h1.trans ?_⟩
  · cases unitOk
    · exact fld_mode_stored v old
    · exact fld_mode_stored v v
  · split
    · exact keepsFences_startJoin _
    · exact .refl

theorem keepsFences_enterMode (m : Nat) (s : State) : KeepsFences s (enterMode m s) := by
  unfold enterMode
  split
  · exact (landSolo_comes s).1
  · split
    · dsimp only
      split
      · have h : KeepsFences s (partnerInfo { s with pair := { s.pair with renewAt := s.now, lostTold := false } }).2 := ⟨keepsRegs_of_regs rfl, rfl⟩
        exact h.trans (keepsFences_gainContact ..)
      · exact ⟨keepsRegs_of_regs rfl, rfl⟩
    · exact .refl

theorem keepsGpio_pairStored (v : Word) (s : State) : KeepsGpio s (pairStored true v s) := by
  obtain ⟨w, -, h⟩ := pairStored_keeps v s
  exact (keepsGpio_setRaw w (.inl (by decide))).trans h.regs.gpio

theorem pairMode_pairStored (v : Word) (s : State) : pairMode (pairStored true v s) = v.toNat / 2 ^ 30 := by
  obtain ⟨w, hw, h⟩ := pairStored_keeps v s
  rw [h.pairMode_eq, pairMode, regFld, regRaw_setRaw_same, hw]

theorem isFenced_pairStored (v : Word) (s : State) : isFenced (pairStored true v s) = isFenced s := by
  obtain ⟨w, -, h⟩ := pairStored_keeps v s
  exact h.fenced

theorem modeAdmitted_of {m : Nat} (hm : pairMode s = 0 ∨ s.pair.st = .solo) (h2 : m = 2 → featOn s 5 = true) : modeAdmitted m s = true := by
  by_cases k : m = 2
  · rcases hm with hm | hm <;> simp [modeAdmitted, hm, h2 k]
  · rcases hm with hm | hm <;> simp [modeAdmitted, hm, k]

theorem pairCfgWrite_taken (h3 : v.toNat / 2 ^ 30 ≠ 3) (hm : pairMode s = 0 ∨ s.pair.st = .solo) (h2 : v.toNat / 2 ^ 30 = 2 → featOn s 5 = true) :
    ModeTaken (v.toNat / 2 ^ 30) s (pairCfgWrite v s) := by
  rw [pairCfgWrite_eq, fld_mode, if_neg h3, modeAdmitted_of hm h2]
  have hf := isFenced_pairStored v s
  have hk := keepsGpio_pairStored v s
  have hp := pairMode_pairStored v s
  generalize pairStored true v s = x at hf hk hp ⊢
  by_cases hs : v.toNat / 2 ^ 30 = pairMode s
  · rw [if_pos (.inr hs)]
    exact ⟨hp, hk, fun h1 hn => absurd (hs.symm.trans h1) hn⟩
  · rw [if_neg (by simpa using hs)]
    have hl : KeepsFences x (if pairMode s = 2 then leaveLink x else x) := by
      split
      · exact keepsFences_leaveLink x
      · exact .refl
    have hc : pairMode s = 2 → (if pairMode s = 2 then leaveLink x else x).pair.contact = false := fun h => by rw [if_pos h]; rfl
    generalize (if pairMode s = 2 then leaveLink x else x) = y at hl hc ⊢
    have hy := hl.trans (keepsFences_enterMode (v.toNat / 2 ^ 30) y)
    refine ⟨hy.pairMode_eq.trans hp, hk.trans hy.regs.gpio, fun h1 _ => ?_⟩
    obtain ⟨-, hst, htier, hsails, hcon⟩ := landSolo_comes y
    rw [enterMode, if_pos h1]
    exact ⟨hst, htier, fun h => hsails (hl.fenced.trans (hf.trans h)), fun h => hcon.trans (hc h)⟩

theorem exec_mode (hs : BarOpen s) : exec (.mode v) s = .next (barWrite aPAIR_CFG 4 (v.setWidth 64) s) :=
  show barStep aPAIR_CFG 4 (v.setWidth 64) s = _ from barStep_open hs

theorem lockedBits_pairCfg (h : regBit s aLOCKS 4 = false) : lockedBits s aPAIR_CFG = 0 := by
  show (if regBit s aLOCKS 4 then _ else _) = _
  rw [h]
  rfl

theorem mode_bars {b : State} (hs : BarOpen s) (hl : regBit s aLOCKS 4 = false) (hk : regBit b aLOCKS 4 = false)
    (ht : pairCfgWrite (v &&& 0xFC000000) b = t) (hg : KeepsGpio b t) : Bars (.mode v) aPAIR_CFG v s b t :=
  plainReg_pairCfg.bars (lockedBits_pairCfg hl) (lockedBits_pairCfg hk) (exec_mode hs) ht hg

/-- The fields of PAIR_CFG as a number. -/
theorem toNat_pairFields (v : Word) : (v &&& 0xFC000000).toNat = v.toNat / 2 ^ 26 * 2 ^ 26 := by
  have h : v &&& (0xFC000000 : Word) = v >>> 26 <<< 26 := by
    rw [show (0xFC000000 : Word) = BitVec.allOnes 32 <<< 26 from rfl]
    ext i hi
    by_cases k : i < 26
    · simp only [BitVec.getElem_and, BitVec.getElem_shiftLeft, k, decide_true, Bool.not_true, Bool.false_and, Bool.and_false]
    · have hi' : 26 + (i - 26) = i := by omega
      simp [BitVec.getElem_and, BitVec.getElem_shiftLeft, k, hi', BitVec.getLsbD_eq_getElem hi, -BitVec.reduceAllOnes, -BitVec.reduceShiftLeft]
  have := v.isLt
  rw [h, BitVec.toNat_shiftLeft, BitVec.toNat_ushiftRight, Nat.shiftRight_eq_div_pow, Nat.shiftLeft_eq]
  omega

/-- Settles O23: each register is a plain one that its boundary stores; MODE goes through PAIR_CFG's own write. -/
theorem ringAndPairRegisters : Obligations.RingAndPairRegisters := by
  unfold Obligations.RingAndPairRegisters
  refine ⟨fun s b hr hq => ⟨fun on => run_bars on hr hq, fun h => ringReset_bars hr hq h, fun k => cmdTail_bars k hr hq, fun k => rplTail_bars k hr hq⟩,
    fun v s b hs hl hk h3 hm h2 => ?_, fun v s b hs hl hk h3 => ?_⟩
  · have hv : (v &&& 0xFC000000).toNat / 2 ^ 30 = v.toNat / 2 ^ 30 := by rw [← fld_mode, fld_mode_fields]
    have ht := pairCfgWrite_taken (v := v &&& 0xFC000000) (s := b) (by rwa [hv]) hm (by rwa [hv])
    rw [hv] at ht
    exact ⟨_, mode_bars hs hl hk rfl ht.gpio, ht.mode, ht.solo⟩
  · refine mode_bars hs hl hk ?_ (keepsRegs_event rfl b).gpio
    rw [pairCfgWrite_eq, if_pos ((fld_mode_fields v).trans h3), toNat_pairFields]

end

end Sys2Proof.Machine
end

section
/-! PROOFS. The mill window (O21): what its access reads and stores, and the registers that it leaves. -/

namespace Sys2Proof.Machine

/-! ### An entry that lands leaves the registers -/

section
variable (s : State)

theorem KeepsRegs.after {s t u : State} (k : KeepsRegs t u) (h : t.regs = s.regs) : KeepsRegs s u := (keepsRegs_of_regs h).trans k

theorem regs_bump (a n : Nat) : (bump a n s).regs = s.regs := by
  unfold bump
  split <;> rfl

theorem regs_foldl {α : Type} {f : State → α → State} (h : ∀ s x, (f s x).regs = s.regs) (l : List α) : (l.foldl f s).regs = s.regs := by
  induction l generalizing s with
  | nil => rfl
  | cons x l ih => exact (ih _).trans (h s x)

theorem regs_sluChange (k : Nat) (old new : NodeCfg) : (sluChange k old new s).regs = s.regs := by
  unfold sluChange
  split <;> rfl

theorem regs_clearEmpty (ks : List Nat) (f : Nat → Bool) : (clearEmpty ks f s).regs = s.regs :=
  regs_foldl s (fun s k => by dsimp only; split <;> rfl) ks

theorem regs_clearAlloc (a : Nat) : (clearAlloc a s).regs = s.regs := regs_clearEmpty ..

theorem regs_flushQueue (q : Nat) : (flushQueue q s).regs = s.regs := by
  unfold flushQueue
  refine (regs_clearEmpty ..).trans ?_
  refine regs_foldl s (fun s x => ?_) _
  rw [regs_bump, regs_bump]
  rfl

theorem keepsRegs_sflowLimit : KeepsRegs s (sflowLimit s) := by
  unfold sflowLimit
  refine KeepsRegs.foldl (fun s g => ?_) _ s
  dsimp only
  split
  · exact (keepsRegs_event rfl _).after rfl
  · exact keepsRegs_of_regs rfl

theorem keepsRegs_landEntry (t i : Nat) (d : List Word) : KeepsRegs s (landEntry t i d s) := by
  unfold landEntry
  dsimp only
  split
  · refine keepsRegs_of_regs ?_
    rw [regs_sluChange]
    split
    · exact regs_flushQueue s i
    · rfl
  · exact keepsRegs_of_regs (regs_foldl _ (fun s k => regs_sluChange s k _ _) _)
  · exact keepsRegs_of_regs (regs_sluChange ..)
  · exact keepsRegs_of_regs (regs_sluChange ..)
  · refine keepsRegs_of_regs ?_
    rw [regs_clearAlloc, clearAllocAt, regs_clearEmpty, regs_sluChange]
  · exact (keepsRegs_sflowLimit _).after rfl

end

/-! ### The data words -/

section
variable {s t b : State}

/-- Words stored into MW_DATA from number k on. -/
def storeData (k : Nat) (l : List Word) (s : State) : State := ((List.range' k l.length).zip l).foldl (fun s x => setRaw (aMW_DATA x.1) x.2 s) s

theorem storeData_cons (k : Nat) (w : Word) (l : List Word) (s : State) : storeData k (w :: l) s = storeData (k + 1) l (setRaw (aMW_DATA k) w s) := rfl

theorem storeData_eq (k : Nat) (l : List Word) (s : State) : storeData k l s = { s with regs := (storeData k l s).regs } := by
  induction l generalizing k s with
  | nil => rfl
  | cons w l ih =>
    rw [storeData_cons, ih]
    rfl

theorem regRaw_storeData_ne {a : Nat} (k : Nat) (l : List Word) (s : State) (h : ∀ j, k ≤ j → a ≠ aMW_DATA j) : regRaw (storeData k l s) a = regRaw s a := by
  induction l generalizing k s with
  | nil => rfl
  | cons w l ih => rw [storeData_cons, ih _ _ (fun j hj => h j (by omega)), regRaw_setRaw_ne _ _ (h k (le_refl k))]

theorem aMW_DATA_ne {i j : Nat} (h : i ≠ j) : aMW_DATA i ≠ aMW_DATA j := by simp only [aMW_DATA]; omega

/-- Each word stands at its number. -/
theorem regRaw_storeData (k j : Nat) (l : List Word) (s : State) (h : j < l.length) : some (regRaw (storeData k l s) (aMW_DATA (k + j))) = l[j]? := by
  induction l generalizing k j s with
  | nil => exact absurd h (Nat.not_lt_zero j)
  | cons w l ih =>
    rw [storeData_cons]
    cases j with
    | zero => rw [regRaw_storeData_ne _ _ _ (fun j hj => aMW_DATA_ne (by omega)), Nat.add_zero, regRaw_setRaw_same, List.getElem?_cons_zero]
    | succ j =>
      have h' : j < l.length := by simpa using h
      rw [show k + (j + 1) = k + 1 + j by omega, ih _ _ _ h', List.getElem?_cons_succ]

theorem readEntry_length (s : State) (t i : Nat) : (readEntry s t i).length = 8 := by
  unfold readEntry nodeWords
  dsimp only
  split <;> rfl

/-! ### MW_CMD itself is not what an access looks at -/

theorem regFld_mwCmd {a : Nat} (w : Word) (h : a ≠ aMW_CMD) (hi lo : Nat) : regFld (setRaw aMW_CMD w s) a hi lo = regFld s a hi lo := by
  rw [regFld, regFld, regRaw_setRaw_ne s w h]

theorem mwTable_mwCmd (w : Word) (s : State) : mwTable (setRaw aMW_CMD w s) = mwTable s := regFld_mwCmd w (by decide) 31 29

theorem mwIdx_mwCmd (w : Word) (s : State) : mwIdx (setRaw aMW_CMD w s) = mwIdx s := regFld_mwCmd w (by decide) 17 0

theorem mwData_mwCmd (w : Word) (s : State) : mwData (setRaw aMW_CMD w s) = mwData s :=
  List.map_congr_left (fun i _ => regRaw_setRaw_ne s w (by simp only [aMW_DATA, aMW_CMD]; omega))

theorem quadMode_mwCmd (w : Word) (s : State) (g : Nat) : quadMode (setRaw aMW_CMD w s) g = quadMode s g := by
  simp only [quadMode]
  rw [regFld_mwCmd w (by simp only [aQUAD, aMW_CMD]; omega)]

theorem portOn_mwCmd (w : Word) (s : State) (p : Nat) : portOn (setRaw aMW_CMD w s) p = portOn s p := by
  simp only [portOn, firstLane, quadMode_mwCmd, regBit]
  rw [regRaw_setRaw_ne s w (by simp only [aPORT, aMW_CMD]; omega)]

theorem entryRules_mwCmd (w : Word) (s : State) (t i : Nat) (d : List Word) : entryRules (setRaw aMW_CMD w s) t i d = entryRules s t i d := by
  unfold entryRules
  simp only [portOn_mwCmd]
  rfl

/-! ### The access at its boundary -/

theorem plainReg_mwCmd : PlainReg aMW_CMD { rw := 2, ws := 1 } :=
  ⟨rfl, rfl, rfl, rfl, rfl, .inl (by decide), rfl, fun _ => rfl, fun _ => rfl, fun _ => rfl⟩

theorem mwRead_bars (hs : BarOpen s) (ht : mwRead b = t) (hg : KeepsGpio b t) : Bars .mwRead aMW_CMD 1 s b (mirrorBar aMW_CMD 1 t) :=
  plainReg_mwCmd.bars rfl rfl (barStep_open (a := aMW_CMD) (w := 4) (v := 1) hs) ht hg

theorem mwWrite_bars (hs : BarOpen s) (ht : mwWrite b = t) (hg : KeepsGpio b t) : Bars .mwWrite aMW_CMD 3 s b (mirrorBar aMW_CMD 3 t) :=
  plainReg_mwCmd.bars rfl rfl (barStep_open (a := aMW_CMD) (w := 4) (v := 3) hs) ht hg

theorem mwRead_eq (b : State) : mwRead b = let u := setRaw aMW_CMD 0 b
    if 5 < mwTable b then setMwErr 2 u else if !entryOk b (mwTable b) (mwIdx b) then setMwErr 1 u
    else setMwErr 0 (storeData 0 (readEntry b (mwTable b) (mwIdx b)) u) := by
  rw [mwRead]
  dsimp only
  rw [mwTable_mwCmd, mwIdx_mwCmd, storeData, readEntry_length, ← List.range_eq_range']
  rfl

theorem mwWrite_eq (b : State) : mwWrite b = let u := setRaw aMW_CMD 2 b
    if 5 < mwTable b then setMwErr 2 u else if !entryOk b (mwTable b) (mwIdx b) then setMwErr 1 u
    else if wordBad (entryRules b (mwTable b) (mwIdx b) (mwData b)) ≠ 0 then setMwErr 2 u
    else if entryBusy b (mwTable b) (mwIdx b) (mwData b) then setMwErr 3 u
    else if entryOver b (mwTable b) (mwIdx b) (mwData b) then setMwErr 2 u
    else setMwErr 0 (landEntry (mwTable b) (mwIdx b) (mwData b) u) := by
  rw [mwWrite]
  dsimp only
  rw [mwTable_mwCmd, mwIdx_mwCmd, mwData_mwCmd, entryRules_mwCmd]
  rfl

theorem keepsGpio_mwErr (e : Nat) (w : Word) (b : State) : KeepsGpio b (setMwErr e (setRaw aMW_CMD w b)) :=
  (keepsGpio_setRaw w (.inr (by decide))).trans (keepsGpio_of_regs rfl)

theorem keepsGpio_storeData (k : Nat) (l : List Word) (s : State) : KeepsGpio s (storeData k l s) := by
  intro n hn
  have hn := List.mem_range.1 hn
  exact regRaw_storeData_ne k l s (fun j _ => by simp only [aGPIO, aMW_DATA]; omega)

/-- Settles O21: a read and a write each walk the checks of Table 7.4 in their order. -/
theorem millWindowCompletes : Obligations.MillWindowCompletes := by
  unfold Obligations.MillWindowCompletes
  refine ⟨fun s b hs => ?_, fun s b hs => ?_⟩
  · extract_lets u ends
    have hr := mwRead_eq b
    refine ⟨fun h5 => mwRead_bars hs ?_ (keepsGpio_mwErr _ _ b), fun h5 hk => mwRead_bars hs ?_ (keepsGpio_mwErr _ _ b), fun h5 hk => ?_⟩
    · rw [hr, if_pos h5]
    · rw [hr, if_neg (by omega), if_pos (by simp [hk])]
    · refine ⟨setMwErr 0 (storeData 0 (readEntry b (mwTable b) (mwIdx b)) u), mwRead_bars hs ?_ ?_, ?_, ?_, ?_, ?_, fun j hj => ?_⟩
      · rw [hr, if_neg (by omega), if_neg (by simp [hk])]
      · exact ((keepsGpio_setRaw (a := aMW_CMD) 0 (.inr (by decide))).trans (keepsGpio_storeData 0 _ _)).trans (keepsGpio_of_regs rfl)
      · rw [storeData_eq]; rfl
      · rw [storeData_eq]; rfl
      · rw [storeData_eq]; rfl
      · rw [storeData_eq]; rfl
      · have h := regRaw_storeData 0 j (readEntry b (mwTable b) (mwIdx b)) u (by rw [readEntry_length]; exact hj)
        rwa [Nat.zero_add] at h
  · dsimp only
    have hw := mwWrite_eq b
    refine ⟨fun h5 => mwWrite_bars hs ?_ (keepsGpio_mwErr _ _ b), fun h5 hk => mwWrite_bars hs ?_ (keepsGpio_mwErr _ _ b),
      fun h5 hk hb => mwWrite_bars hs ?_ (keepsGpio_mwErr _ _ b), fun h5 hk hb => ⟨fun hy => mwWrite_bars hs ?_ (keepsGpio_mwErr _ _ b),
        fun hy ho => mwWrite_bars hs ?_ (keepsGpio_mwErr _ _ b), fun hy ho => mwWrite_bars hs ?_ ?_⟩⟩
    · rw [hw, if_pos h5]
    · rw [hw, if_neg (by omega), if_pos (by simp [hk])]
    · rw [hw, if_neg (by omega), if_neg (by simp [hk]), if_pos hb]
    · rw [hw, if_neg (by omega), if_neg (by simp [hk]), if_neg (not_not.2 hb), if_pos hy]
    · rw [hw, if_neg (by omega), if_neg (by simp [hk]), if_neg (not_not.2 hb), if_neg (by simp [hy]), if_pos ho]
    · rw [hw, if_neg (by omega), if_neg (by simp [hk]), if_neg (not_not.2 hb), if_neg (by simp [hy]), if_neg (by simp [ho])]
    · exact ((keepsGpio_setRaw (a := aMW_CMD) 2 (.inr (by decide))).trans (keepsRegs_landEntry ..).gpio).trans (keepsGpio_of_regs rfl)

end

end Sys2Proof.Machine
end

section
/-! PROOFS. The plate engine: a proof, the cutoff's recheck, the lead, the copy to MRAM, an uncorrectable error (O36). -/

namespace Sys2Proof.Machine

section
variable {b : Bool} {s : State}

/-! ### The end of a proof -/

/-- What a proof writes into its bank and reports (R55). -/
def proofEnd (b : Bool) (s : State) : State :=
  match prove (bank s b).feats s.fuse (bank s b).image with
  | .inr p => event 0x0100 7 b.toNat ((beBytes 16 p.id.toNat).take 12)
      (setBank b { bank s b with st := .proven, plate := some p, refusal := 0, refSection := 0, refRecord := 0 } s)
  | .inl (code, sec, ix) => event 0x0101 7 b.toNat (beBytes 2 code ++ beBytes 1 sec ++ [0] ++ beBytes 4 ix)
      (setBank b { st := .empty, refusal := code, refSection := sec, refRecord := ix } s)

theorem plateProved_idle (h : (bank s b).st ≠ .proving) : plateProved b s = s := if_pos h

/-- A bank that the host had proved, no copy from MRAM. -/
theorem plateProved_loaded (h : (bank s b).st = .proving) (hr : s.plates.restore ≠ some b) :
    plateProved b s = if !(imageGroups (bank s b).image).all (fun g => pwrOn s (72 + g)) then s else proofEnd b s := by
  unfold plateProved proofEnd
  dsimp only
  rw [if_neg (not_not.2 h), if_neg hr]
  split
  · rfl
  · split <;> rename_i hp
    · rw [hp]; rfl
    · rw [hp]

/-- The bank of the MRAM copy. -/
theorem plateProved_copied (h : (bank s b).st = .proving) (hr : s.plates.restore = some b) : plateProved b s =
    match s.plates.mram with
    | none => s
    | some (p, m) =>
      let v := setBank b { bank s b with st := .proven, image := m, plate := some p } s
      let u := event 0x0100 7 b.toNat ((beBytes 16 p.id.toNat).take 12) { v with plates := { v.plates with restore := none } }
      let at_ := boundaryAt s (s.now + 12443)
      if !(calGroups p.millrace).all (fun g => pwrOn s (72 + g)) then s
      else { u with plates := { u.plates with turn := some { bank := b, target := boundaryNum u at_, at_ := at_, first := false, id := p.id } } } := by
  unfold plateProved
  dsimp only
  rw [if_neg (not_not.2 h), if_pos hr]
  rfl

/-! ### The turn's marks -/

theorem turnCutoff_none (h : s.plates.turn = none) : turnCutoff s = s := by rw [turnCutoff, h]

theorem turnLead_none (h : s.plates.turn = none) : turnLead s = s := by rw [turnLead, h]

/-- The recheck at the cutoff of a plate that stands PROVEN (R87). -/
theorem turnCutoff_proven {t : Turn} {p : Plate} (h : s.plates.turn = some t) (hb : (bank s t.bank).st = .proven) (hp : (bank s t.bank).plate = some p) :
    turnCutoff s = let u := advance (t.at_ - 12442) s
      if turnChecks u p ≠ 0 then event 0x0102 7 t.bank.toNat (beBytes 2 (turnChecks u p) ++ [0, 0] ++ beBytes 4 t.target.toNat)
        { u with plates := { u.plates with turn := none } } else u := by
  unfold turnCutoff
  rw [h]
  dsimp only
  rw [hp]
  dsimp only
  refine if_congr (and_iff_right hb) ?_ rfl
  rw [cancelTurn, show (advance (t.at_ - Config.TURN_CUTOFF) s).plates.turn = some t from h]
  rfl

theorem turnLead_proven {t : Turn} (h : s.plates.turn = some t) (hb : (bank s t.bank).st = .proven)
    (hp : (bank s t.bank).plate.any (fun p => p.id = t.id) = true) :
    turnLead s = setBank t.bank { bank s t.bank with st := .turning } (advance (t.at_ - 4000) s) := by
  unfold turnLead
  rw [h]
  exact if_pos ⟨hb, hp⟩

/-! ### The copy to MRAM, and an error in the engaged bank -/

theorem mramCopy_busy (h : s.plates.mramBusy = some b) : mramCopy s = { s with plates := { s.plates with
    mram := (match (bank s b).plate with | some p => some (p, (bank s b).image) | none => s.plates.mram), mramBusy := none } } := by
  unfold mramCopy
  rw [h]
  dsimp only
  cases (bank s b).plate <;> rfl

theorem mramCopy_idle (h : s.plates.mramBusy = none) : mramCopy s = s := by rw [mramCopy, h]

/-- The plate repeats, and the error of the bank is reported with the number of the impression (R32). -/
def eccHit (b : Nat) (w : Word) (s : State) : State :=
  event 0x0104 7 b ([0, 0, 0, 0] ++ beBytes 4 s.imprNum.toNat) (eccEvent 2 w.toNat { s with plates := { s.plates with eccRepeat := true } })

theorem Reports.imprNum_eq {s t : State} (h : Reports s t) : t.imprNum = s.imprNum := by
  unfold Reports at h
  rw [h]

theorem plateEcc_eq (w : Word) (s : State) : plateEcc w s =
    if s.plates.bank0.st = .engaged then eccHit 0 w s else if s.plates.bank1.st = .engaged then eccHit 1 w s else s := by
  have h : (eccEvent 2 w.toNat { s with plates := { s.plates with eccRepeat := true } }).imprNum = s.imprNum := (eccEvent_reports ..).imprNum_eq
  unfold plateEcc eccHit
  dsimp only
  rw [h]
  rfl

end

/-- Settles O36: each event of the engine, taken in its cases. -/
theorem plateEngineRuns : Obligations.PlateEngineRuns := by
  unfold Obligations.PlateEngineRuns
  refine ⟨fun b s hr hb hc => ?_, fun b p m s hr hb hc hm => ?_, fun b s h => ?_, fun t p s hr ht hb hp => ?_, fun t s hr ht hb hp => ?_,
    fun s hr ht => ?_, fun b s hr hb => ?_, fun s hr hb => ?_, fun w s hr => ?_⟩
  · have he : exec (.plateProved b) s = .next (plateProved b s) := live_running hr
    rw [he, plateProved_loaded hb hc]
    exact ⟨fun h => by rw [if_neg (by simp [h])]; rfl, fun h => by rw [if_pos (by simp [h])]⟩
  · have he : exec (.plateProved b) s = .next (plateProved b s) := live_running hr
    rw [he, plateProved_copied hb hc, hm]
    exact ⟨fun h => congrArg _ (if_neg (by simp [h])), fun h => congrArg _ (if_pos (by simp [h]))⟩
  · rcases h with h | h | ⟨h, hm⟩
    · exact live_not_running h
    · exact (congrArg (live s) (plateProved_idle h)).trans live_same
    · by_cases hp : (bank s b).st = .proving
      · have : plateProved b s = s := by rw [plateProved_copied hp h, hm]
        exact (congrArg (live s) this).trans live_same
      · exact (congrArg (live s) (plateProved_idle hp)).trans live_same
  · have he : exec .turnCutoff s = .next (turnCutoff s) := live_running hr
    rw [he, turnCutoff_proven ht hb hp]
    exact ⟨fun h => congrArg _ (if_neg (not_not.2 h)), fun h => congrArg _ (if_pos h)⟩
  · exact (live_running hr).trans (congrArg _ (turnLead_proven ht hb hp))
  · exact ⟨(live_running hr).trans (congrArg _ (turnCutoff_none ht)), (live_running hr).trans (congrArg _ (turnLead_none ht))⟩
  · exact (live_running hr).trans (congrArg _ (mramCopy_busy hb))
  · exact (live_running hr).trans (congrArg _ (mramCopy_idle hb))
  · have he : exec (.plateEcc w) s = .next (plateEcc w s) := live_running hr
    rw [he, plateEcc_eq]
    exact ⟨fun h => congrArg _ (if_pos h), fun h k => congrArg _ ((if_neg h).trans (if_pos k)), fun h k => congrArg _ ((if_neg h).trans (if_neg k))⟩

end Sys2Proof.Machine
end

section
/-! PROOFS. The commit point of a mill lane (O45), and the counter that an event may move. -/

namespace Sys2Proof.Machine

/-! ### Counters -/

section
variable (s : State)

theorem cntOf_of_cnt {t : State} (h : t.cnt = s.cnt) (a : Nat) : cntOf t a = cntOf s a := by rw [cntOf, cntOf, h]

theorem cntOf_bump_ne {a b : Nat} (n : Nat) (h : a ≠ b) : cntOf (bump b n s) a = cntOf s a := by
  unfold bump
  split
  · rfl
  · exact mget_mupd_ne _ _ _ h

/-- Counters count while the unit runs (R48). -/
theorem cntOf_bump_same {s : State} (a n : Nat) (hr : Running s) : cntOf (bump a n s) a = cntAdd n (cntOf s a) := by
  have hf : ¬frozen s = true := by simp only [frozen, decide_eq_true_eq, not_not]; exact hr
  rw [bump, if_neg hf]
  exact mget_mupd_same ..

theorem cnt_scEvent (a : Nat) (v : Word) : (scEvent a v s).cnt = s.cnt := by
  unfold scEvent
  split
  · rfl
  · dsimp only
    split <;> rfl

theorem cnt_scEvents (l : List (Nat × Word)) : (l.foldl (fun s t => scEvent t.1 t.2 s) s).cnt = s.cnt := by
  induction l generalizing s with
  | nil => rfl
  | cons x l ih => exact (ih _).trans (cnt_scEvent s x.1 x.2)

theorem cnt_hopLevel (h : Nat) (x : Hopper) (r0 r1 : Nat) : (hopLevel h x r0 r1 s).cnt = s.cnt := by
  unfold hopLevel
  split
  · dsimp only
    split
    · exact cnt_scEvent s _ _
    · exact cnt_scEvent s _ _
  · rfl

/-- The event hopper counts what it drops, and nothing else (R414). -/
theorem cntOf_evtPush {a : Nat} (src : Nat) (mk : BitVec 32 → List Byte) (h : a ≠ cHop 0 0x20) : cntOf (evtPush src mk s) a = cntOf s a := by
  unfold evtPush
  dsimp only
  split
  · rw [cntOf_of_cnt _ (cnt_hopLevel ..)]
    rfl
  · rw [cntOf_of_cnt _ (cnt_scEvent ..), cntOf_of_cnt _ (cnt_scEvent ..), cntOf_bump_ne _ _ h]
    rfl

theorem cntOf_event {a : Nat} (code cls idx : Nat) (d : List Byte) (h : a ≠ cHop 0 0x20) : cntOf (event code cls idx d s) a = cntOf s a := by
  unfold event evtRaw
  dsimp only
  split
  · rw [cntOf_evtPush _ _ _ h]
    exact cntOf_of_cnt s (cnt_scEvents s _) a
  · rw [cntOf_evtPush _ _ _ h]
    exact cntOf_of_cnt s (cnt_scEvents s _) a

end

/-! ### The commit point -/

section
variable {k : Nat} {q : BitVec 32} {g : Bool} {s : State} {e : BitVec 32} {fr : Frame} {thr : Bool}

/-- Lane l after entry q committed: the entry failed no more, and a replay that ran until it ends. -/
def Lane.commits (l : Lane) (q : BitVec 32) : Lane :=
  { l with committed := q, failed := if l.failed = some q then none else l.failed, replayTo := if l.replayTo = some q then none else l.replayTo }

/-- The next entry at the commit point (R38 to R40). -/
theorem commit_next (hq : q = (lane s k).committed + 1) (hf : (lane s k).hopper.find? (fun e => e.1 = q) = some (e, fr, thr)) : commit k q g s =
    if !crossed (lane s k) q fr thr then s
    else if g then commitFrame fr thr (setLane k ((lane s k).commits q) s)
    else if (lane s k).failed = some q then
      (if (lane s k).retired then s else event 0x0107 8 k [] (setLane k { lane s k with retired := true } s))
    else event 0x0106 8 k (beBytes 4 ((((lane s k).hopper.head?).map (·.1)).getD q).toNat)
      (bump (cbLane k 3) 1 (setLane k { lane s k with failed := some q, replayTo := some (lastCrossed (lane s k) q) } s)) := by
  unfold commit
  dsimp only
  rw [if_neg (not_not.2 hq), hf]
  rfl

/-- Another number, or no entry of this one. -/
theorem commit_other (h : q ≠ (lane s k).committed + 1 ∨ (lane s k).hopper.find? (fun e => e.1 = q) = none) : commit k q g s = s := by
  unfold commit
  dsimp only
  by_cases hq : q = (lane s k).committed + 1
  · rw [if_neg (not_not.2 hq), h.resolve_left (not_not.2 hq)]
  · rw [if_pos hq]

theorem Reports.mill_eq {s t : State} (h : Reports s t) : t.mill = s.mill := by
  unfold Reports at h
  rw [h]

theorem Reports.lane_eq {s t : State} (h : Reports s t) (k : Nat) : lane t k = lane s k := by rw [lane, lane, h.mill_eq]

/-- A first failure marks the entry, counts, and starts the replay (R39). -/
theorem commit_fails (hr : Running s) (c : Nat) (d : List Byte) (l : Lane) (hk : k < 24) :
    let u := setLane k l s
    let t := event c 8 k d (bump (cbLane k 3) 1 u)
    lane t k = l ∧ (cntOf t (cbLane k 3)).v = (cntOf s (cbLane k 3)).v + 1 ∧ t.mill = u.mill := by
  intro u t
  have h : Reports u t := (bump_reports u _ _).trans (event_reports ..)
  refine ⟨(h.lane_eq k).trans (lane_setLane ..), ?_, h.mill_eq⟩
  have hu : Running u := hr
  rw [cntOf_event _ _ _ _ _ (by simp only [cbLane, cHop]; omega), cntOf_bump_same _ _ hu]
  rfl

end

/-! ### Where a committed frame goes -/

section
variable {f d : Nat} {p : Option Nat} {y : List Byte} {fr : Frame} {s : State}

/-- A frame suppressed frees its cells, which a through-flow has none of (R41, R42). -/
theorem commitFrame_gone (h : fr.gone = true) (thr : Bool) : commitFrame fr thr s = if thr then s else freeCells fr.dom (cellsOf fr.len) s := if_pos h

theorem commitFrame_slack (h : fr.gone = false) : commitFrame fr false s = { s with mill := { s.mill with pond := mupd [] s.mill.pond fr.queue (· ++ [fr]) } } :=
  if_neg (by simp [h])

/-- A through-flow of no downstream tributary. -/
theorem commitFrame_through (h : fr.gone = false) (hx : ∀ x, (canonPlate s).bind (flowIn · fr.flow) = some x → x.trib = false ∨ x.up = true) :
    commitFrame fr true s = { s with mill := { s.mill with tail := mupd [] s.mill.tail fr.flow (· ++ [fr]) } } := by
  rw [commitFrame, if_neg (by simp [h]), if_pos rfl]
  split
  next x hx' =>
    refine if_neg ?_
    rcases hx x hx' with h | h <;> simp [h]
  next => rfl

/-- A downstream tributary's. -/
theorem commitFrame_trib {x : Flow} (h : fr.gone = false) (hx : (canonPlate s).bind (flowIn · fr.flow) = some x) (ht : x.trib = true) (hu : x.up = false) :
    commitFrame fr true s = if fr.chaff then chaffStore fr.flow fr.dom fr.len s else tribStore fr.flow fr.dom fr.port fr.data s := by
  rw [commitFrame, if_neg (by simp [h]), if_pos rfl, hx]
  exact if_pos (by simp [ht, hu])

theorem tribPacket_room (hl : y.length ≤ (trib s f).cfg.payLen - 2) (hd : storeDepth (trib s f) < 2 * (trib s f).cfg.k) :
    tribPacket f d y s = setTrib f { trib s f with store := (trib s f).store ++ [some y] } s := (if_neg (by omega)).trans (if_pos hd)

/-- A frame of a packet tributary with room for it, from a port that has fed it before or from the partner. -/
theorem tribStore_packet (hk : (trib s f).cfg.kindPacket = true) (hp : p = none ∨ ∃ q, p = some q ∧ q ∈ (trib s f).fedBy)
    (hl : y.length ≤ (trib s f).cfg.payLen - 2) (hd : storeDepth (trib s f) < 2 * (trib s f).cfg.k) :
    tribStore f d p y s = setTrib f { trib s f with store := (trib s f).store ++ [some y] } s := by
  unfold tribStore
  dsimp only
  rw [if_pos hk, ← tribPacket_room (d := d) hl hd]
  rcases hp with rfl | ⟨q, rfl, hq⟩
  · rfl
  · exact congrArg (tribPacket f d y) (if_pos (by simpa using hq))

end

/-- Settles O45: the cases of the commit point, and of the place a committed frame takes. -/
theorem lanesCommit : Obligations.LanesCommit := by
  unfold Obligations.LanesCommit
  refine ⟨fun k q e fr thr s hr hq hf => ?_, fun k q g s hr h => (live_running hr).trans (congrArg _ (commit_other h)),
    fun fr s h => ⟨commitFrame_gone h true, commitFrame_gone h false⟩, fun fr s h => commitFrame_slack h, fun fr s h hx => commitFrame_through h hx,
    fun fr x s h hx ht hu => commitFrame_trib h hx ht hu, fun f d p y s hk hp hl hd => tribStore_packet hk hp hl hd⟩
  have he (g : Bool) : exec (.commit k q g) s = .next (commit k.val q g s) := live_running hr
  simp only [he, commit_next hq hf]
  refine ⟨fun hc g => congrArg _ (if_pos (by simp [hc])), fun hc => ?_, fun hc hn => ?_, fun hc hn hl => ?_, fun hc hn hl => ?_⟩
  all_goals rw [if_neg (by simp [hc])]
  · exact congrArg _ (if_pos trivial)
  · rw [if_neg (by decide), if_neg hn]
    exact ⟨_, rfl, commit_fails hr _ _ _ k.isLt⟩
  · rw [if_neg (by decide), if_pos hn, if_neg (by simp [hl])]
  · rw [if_neg (by decide), if_pos hn, if_pos hl]

end Sys2Proof.Machine
end

section
/-! PROOFS. The stroke boundary: the effects that land at it and their order; the end of a bandwidth window (O38). -/

namespace Sys2Proof.Machine

/-! ### Which effects land, and in what order -/

section
variable {t : Nat} {x y : Posted} {s : State}

theorem crosses_of (h : x.at_ + 6 ≤ t) : crosses t x = true := decide_eq_true h

theorem crosses_not (h : t < x.at_ + 6) : crosses t x = false := decide_eq_false (by omega)

/-- An effect posted less than 6 mc before waits (R27). -/
theorem landAll_none (h : ∀ x ∈ s.mill.landing, t < x.at_ + 6) : landAll t s = s := by
  have hf : s.mill.landing.filter (crosses t) = [] := List.filter_eq_nil_iff.2 (fun x hx => by simp [crosses_not (h x hx)])
  have hn : s.mill.landing.filter (fun x => !crosses t x) = s.mill.landing := List.filter_eq_self.2 (fun x hx => by simp [crosses_not (h x hx)])
  unfold landAll
  dsimp only
  rw [hf, hn]
  rfl

theorem landAll_all (h : ∀ x ∈ s.mill.landing, x.at_ + 6 ≤ t) :
    landAll t s = (sortBy (landPlace s.mill.landing) s.mill.landing).foldl landEffect { s with mill := { s.mill with landing := [] } } := by
  have hf : s.mill.landing.filter (crosses t) = s.mill.landing := List.filter_eq_self.2 (fun x hx => crosses_of (h x hx))
  have hn : s.mill.landing.filter (fun x => !crosses t x) = [] := List.filter_eq_nil_iff.2 (fun x hx => by simp [crosses_of (h x hx)])
  unfold landAll
  dsimp only
  rw [hf, hn]

/-- Two effects sorted, whichever was posted first. -/
theorem sortBy_pair {α : Type} {k : α → Nat} {x y : α} (h : k x < k y) : sortBy k [x, y] = [x, y] ∧ sortBy k [y, x] = [x, y] := by
  simp [sortBy, insBy, h, le_of_lt]

theorem landAll_pair {l : List Posted} (hl : s.mill.landing = l) (hm : l = [x, y] ∨ l = [y, x]) (hx : x.at_ + 6 ≤ t) (hy : y.at_ + 6 ≤ t)
    (hk : landPlace l x < landPlace l y) : landAll t s = landEffect (landEffect { s with mill := { s.mill with landing := [] } } x) y := by
  have hall : ∀ z ∈ s.mill.landing, z.at_ + 6 ≤ t := by
    rw [hl]
    rcases hm with rfl | rfl <;> simp [hx, hy]
  have hs : sortBy (landPlace l) l = [x, y] := by
    rcases hm with rfl | rfl
    · exact (sortBy_pair hk).1
    · exact (sortBy_pair hk).2
  rw [landAll_all hall, hl, hs]
  rfl

end

/-! ### The place of an effect -/

theorem foldl_max_le_iff (l : List Nat) (a b : Nat) : l.foldl max a ≤ b ↔ a ≤ b ∧ ∀ n ∈ l, n ≤ b := by
  induction l generalizing a with
  | nil => simp
  | cons n l ih =>
    rw [List.foldl_cons, ih, max_le_iff, List.forall_mem_cons]
    tauto

section
variable {x y z : Posted} {l : List Posted}

/-- The quads whose MODE an effect writes, and those with a port whose ENABLE it writes. -/
def modesOf (x : Posted) : List Nat := (landsOn x).filterMap modeQuad
def enablesOf (x : Posted) : List Nat := (landsOn x).filterMap enableQuad

/-- y writes an ENABLE of a quad whose MODE x writes, in the same mill cycle (Table 8.6). -/
def EnablesFirst (y x : Posted) : Prop := cycleOf y = cycleOf x ∧ ∃ g ∈ enablesOf y, g ∈ modesOf x

theorem landPlace_plain (h : modesOf x = []) : landPlace l x = 2 * x.ord := by
  rw [landPlace, show (landsOn x).filterMap modeQuad = [] from h]

theorem enablesFirst_iff (z x : Posted) :
    (cycleOf z = cycleOf x && ((landsOn z).filterMap enableQuad).any (modesOf x).contains) = true ↔ EnablesFirst z x := by
  simp only [Bool.and_eq_true, decide_eq_true_eq, List.any_eq_true, List.contains_iff_mem, EnablesFirst, enablesOf]

/-- A write of MODE has its place behind every ENABLE write to its quad of its own cycle. -/
theorem landPlace_mode (h : modesOf x ≠ []) : ∃ n, landPlace l x = 2 * n + 1 ∧ ∀ b, n ≤ b ↔ x.ord ≤ b ∧ ∀ z ∈ l, EnablesFirst z x → z.ord ≤ b := by
  have hp : landPlace l x = 2 * ((l.filter (fun y => cycleOf y = cycleOf x && ((landsOn y).filterMap enableQuad).any (modesOf x).contains)).map
      Posted.ord).foldl max x.ord + 1 := by
    rw [landPlace]
    split
    next h0 => exact absurd h0 h
    next => rfl
  refine ⟨_, hp, fun b => ?_⟩
  rw [foldl_max_le_iff, List.forall_mem_map]
  simp only [List.mem_filter, enablesFirst_iff, and_imp]

/-- No effect comes before its own acceptance. -/
theorem le_landPlace (l : List Posted) (x : Posted) : 2 * x.ord ≤ landPlace l x := by
  by_cases h : modesOf x = []
  · exact (landPlace_plain h).ge
  · obtain ⟨n, hn, hb⟩ := landPlace_mode (l := l) h
    have := ((hb n).1 le_rfl).1
    omega

/-- With no ENABLE write of its cycle to wait for, a write of MODE keeps its place too. -/
theorem landPlace_le (h : ∀ z ∈ l, EnablesFirst z x → z.ord ≤ x.ord) : landPlace l x ≤ 2 * x.ord + 1 := by
  by_cases hm : modesOf x = []
  · rw [landPlace_plain hm]; omega
  · obtain ⟨n, hn, hb⟩ := landPlace_mode (l := l) hm
    have := (hb x.ord).2 ⟨le_rfl, h⟩
    omega

theorem lt_landPlace (hz : z ∈ l) (h : EnablesFirst z x) : 2 * z.ord < landPlace l x := by
  obtain ⟨g, -, hg⟩ := h.2
  obtain ⟨n, hn, hb⟩ := landPlace_mode (l := l) (List.ne_nil_of_mem hg)
  have := ((hb n).1 le_rfl).2 z hz h
  omega

end

/-! ### The bandwidth window -/

section
variable {s : State} {t : Nat}

theorem rates_only {α : Type} (f : State → α → Map Word) (l : List α) (s : State) :
    l.foldl (fun x r => { x with rates := f x r }) s = { s with rates := (l.foldl (fun x r => { x with rates := f x r }) s).rates } := by
  induction l generalizing s with
  | nil => rfl
  | cons r l ih =>
    rw [List.foldl_cons, ih]

theorem bwWindowEnd_none (h : bwDue s = none) : bwWindowEnd s = s := by rw [bwWindowEnd, h]

/-- The first end of a new grid only begins a window (R409). -/
theorem bwWindowEnd_first (h : bwDue s = some t) (hp : s.bwPart = true) : bwWindowEnd s = bwSample { advance t s with bwPart := false } := by
  unfold bwWindowEnd
  rw [h]
  exact if_pos hp

/-- Any other end counts on, and keeps the rates of the window (R408). -/
theorem bwWindowEnd_counts (h : bwDue s = some t) (hp : s.bwPart = false) :
    ∃ r, bwWindowEnd s = bwSample { advance t s with rates := r, bwStatus := s.bwStatus + 1, bwAt := t } := by
  unfold bwWindowEnd
  rw [h]
  dsimp only
  rw [if_neg (by simp [advance, hp]), rates_only]
  exact ⟨_, rfl⟩

end

/-- Settles O38: the boundary's own equation, the places of two effects, the two ends of a window. -/
theorem strokeBoundaryLands : Obligations.StrokeBoundaryLands := by
  unfold Obligations.StrokeBoundaryLands
  refine ⟨fun e s hr hb => ?_, fun e s hr hb => ?_, fun s => ⟨rfl, rfl, rfl, rfl, rfl, rfl⟩, fun t s h => landAll_none h, fun t x s hl hx => ?_,
    fun t x y s hl hx hy ho => ⟨fun h => ?_, fun g hc hm he hn => ?_⟩, fun x s h => if_pos h, fun timed x s hr he => ?_, fun x k s hr he hp => ?_,
    fun at_ s hr hb => ?_, fun s hr hb => (live_running hr).trans (congrArg _ (bwWindowEnd_none hb))⟩
  · have he : strokeBoundary e s = _ := if_neg (not_le.2 hb)
    exact (live_running hr).trans (congrArg _ he)
  · have he : strokeBoundary e s = s := if_pos hb
    exact (live_running hr).trans (congrArg _ he)
  · rw [landAll_all (by simpa [hl] using hx), hl]
    rfl
  · refine landAll_pair rfl hl hx hy (lt_of_le_of_lt (landPlace_le (fun z hz hf => ?_)) (lt_of_lt_of_le (by omega) (le_landPlace _ y)))
    have hzxy : z = x ∨ z = y := by
      rcases hl with hl | hl <;> simpa [hl, or_comm] using hz
    rcases hzxy with rfl | rfl
    · exact le_rfl
    · obtain ⟨hc, g, hge, hgm⟩ := hf
      exact (h.elim (absurd hc) (fun h => absurd hge (h g hgm)) :)
  · have hxy : y ∈ s.mill.landing := by rcases hl with hl | hl <;> simp [hl]
    refine landAll_pair rfl hl.symm hy hx ?_
    rw [landPlace_plain hn]
    exact lt_landPlace hxy ⟨hc, g, he, hm⟩
  · unfold landEffect
    rw [if_neg (not_not.2 hr), he]
  · unfold landEffect
    rw [if_neg (not_not.2 hr), hp]
    generalize x.eff = e at he
    cases e with
    | cmd timed => exact absurd rfl (he timed)
    | _ => rfl
  · refine ⟨_, live_running hr, ?_⟩
    cases hp : s.bwPart with
    | true =>
      rw [bwWindowEnd_first hb hp]
      exact ⟨rfl, rfl, rfl, rfl, rfl, fun h => by simp at h, fun _ => ⟨rfl, rfl, rfl⟩⟩
    | false =>
      obtain ⟨r, h⟩ := bwWindowEnd_counts hb hp
      rw [h]
      exact ⟨rfl, rfl, hp, rfl, rfl, fun _ => ⟨rfl, rfl⟩, fun h => by simp at h⟩

end Sys2Proof.Machine
end

section
/-! PROOFS. The mapping commands (O10): mill entries, tributary entries, screens and sequence generation. -/

namespace Sys2Proof.Machine

/-! ### A command that waits for its stroke boundary -/

section
variable {i : Instr} {h : Hdr} {s b t : State} {o : Op} {st : Nat} {ps : List Byte}

theorem landCmd_does (hi : strokeOf i = some o) (hb : o.bad b = 0) (hr : o.does (takenPkt i h s) b = ⟨st, ps, t⟩) (hst : st ≠ stWait) :
    landCmd false (takenPkt i h s) b = settled (takenPkt i h s) b st ps t := by
  have hk : (takenPkt i h s).cmd.bind strokeOf = some o := hi
  simp [landCmd, hk, hb, hr, complete, settled, hst]

/-- A mirrored command refused at its boundary changes nothing there. -/
theorem comes_refused (hs : Starts i h s) (he : exec i s = command i o s) (hi : strokeOf i = some o) (hop : opStroke (opcodeOf i) = true)
    (hb : o.bad (taken i h s) = 0) (hc : o.bad b = 0) (hr : o.run b = ⟨st, ps, b⟩) (h1 : 1 < st) (hst : st ≠ stWait) : Comes i h s b st ps b := by
  refine ⟨he.trans (exec_posts o hs hb (by simp [awaitsStroke, hop])), landCmd_does hi hc ?_ hst⟩
  rw [does_not (by rw [hr]; exact not_le.2 h1), hr]

/-- A mirrored command that its checks admit acts behind its record. -/
theorem comes_mirrored (hs : Starts i h s) (he : exec i s = command i o s) (hi : strokeOf i = some o) (hop : opStroke (opcodeOf i) = true)
    (hb : o.bad (taken i h s) = 0) (hc : o.bad b = 0) (h0 : (o.run b).status ≤ 1) (hr : o.run (mirrored i h s b) = ⟨st, ps, t⟩) (hst : st ≠ stWait) :
    Comes i h s b st ps t := by
  refine ⟨he.trans (exec_posts o hs hb (by simp [awaitsStroke, hop])), landCmd_does hi hc ?_ hst⟩
  rw [does_ok h0]
  exact hr

/-- The record of a mirrored command is in the pair's stream, and nothing else of the state is touched but a counter. -/
theorem mirrored_only (i : Instr) (h : Hdr) (s b : State) :
    mirrored i h s b = { b with pair := (mirrored i h s b).pair, cnt := (mirrored i h s b).cnt } := by
  unfold mirrored told
  exact mirror_only ..

/-- A command that is neither mirrored nor waits for a boundary is answered at once. -/
theorem exec_answersOk (hs : Starts i h s) (he : exec i s = command i o s) (hop : awaitsStroke (opcodeOf i) s = false)
    (hm : opMirrored (opcodeOf i) (some i) = false) (hb : o.bad (taken i h s) = 0) (hr : o.run (taken i h s) = resOk ps (taken i h s)) :
    exec i s = answersOk i h s ps (taken i h s) :=
  he.trans (exec_answers o hs hb hop hm hr (by decide))

end

/-! ### Mill entries -/

section
variable {h : Hdr} {t : BitVec 8} {x : Word} {d : List Word} {s b : State}

theorem regFld_of_regs {u : State} (hr : u.regs = s.regs) (a hi lo : Nat) : regFld u a hi lo = regFld s a hi lo := by
  rw [regFld, regFld, regRaw_of_regs s hr]

theorem portOn_of_regs {u : State} (hr : u.regs = s.regs) (p : Nat) : portOn u p = portOn s p := by
  have hq (g : Nat) : quadMode u g = quadMode s g := regFld_of_regs hr _ 1 0
  simp only [portOn, firstLane, hq, regBit, regRaw_of_regs s hr]

/-- The rules of an entry look at the features agreed, the ports and the part alone. -/
theorem entryRules_congr {u : State} (hf : u.cmd.featD = s.cmd.featD) (hr : u.regs = s.regs) (hn : u.fuse = s.fuse) (t i : Nat) (d : List Word) :
    entryRules u t i d = entryRules s t i d := by
  have hfeat (n : Nat) : featOn u n = featOn s n := by rw [featOn, featOn, hf]
  have htree (n : Nat) : treeOk u n = treeOk s n := by rw [treeOk, treeOk, hn]
  unfold entryRules
  simp only [domOk, hfeat, htree, portOn_of_regs hr]

theorem millSet_bad (ht : t.toNat ≤ 5) (hk : entryOk s t.toNat x.toNat = true) (hw : wordBad (entryRules s t.toNat x.toNat d) = 0) :
    (opMillSet t x d).bad s = 0 := by
  simp only [opMillSet]
  rw [if_neg (by omega), if_neg (by simp [hk]), hw]

theorem millSet_bad_taken (ht : t.toNat ≤ 5) (hk : entryOk s t.toNat x.toNat = true) (hw : wordBad (entryRules s t.toNat x.toNat d) = 0) :
    (opMillSet t x d).bad (taken (.millSet h t x d) h s) = 0 := by
  refine millSet_bad ht ?_ ?_
  · rw [taken_only]; exact hk
  · rw [entryRules_congr (taken_featD ..) (taken_regs ..) (taken_fuse ..), hw]

theorem millSet_run (hy : entryBusy b t.toNat x.toNat d = false) (ho : entryOver b t.toNat x.toNat d = false) :
    (opMillSet t x d).run b = resOk [] (landEntry t.toNat x.toNat d b) := by
  simp only [opMillSet]
  rw [if_neg (by simp [hy]), if_neg (by simp [ho])]

theorem millSet_comes (hs : Starts (.millSet h t x d) h s) (ht : t.toNat ≤ 5)
    (hk : ∀ u ∈ [s, b], entryOk u t.toNat x.toNat = true ∧ wordBad (entryRules u t.toNat x.toNat d) = 0) :
    (entryBusy b t.toNat x.toNat d = true → Comes (.millSet h t x d) h s b 0x0A [] b)
    ∧ (entryBusy b t.toNat x.toNat d = false → entryOver b t.toNat x.toNat d = true →
        Comes (.millSet h t x d) h s b 9 (beBytes 2 9 ++ beBytes 2 (128 * (readSFlow d).tree + (readSFlow d).term)) b)
    ∧ (entryBusy b t.toNat x.toNat d = false → entryOver b t.toNat x.toNat d = false →
        Comes (.millSet h t x d) h s b 0 [] (landEntry t.toNat x.toNat d (mirrored (.millSet h t x d) h s b))) := by
  have hb := millSet_bad_taken (h := h) ht (hk s (by simp)).1 (hk s (by simp)).2
  have hc := millSet_bad ht (hk b (by simp)).1 (hk b (by simp)).2
  refine ⟨fun hy => comes_refused hs rfl rfl rfl hb hc ?_ (by decide) (by decide), fun hy ho => comes_refused hs rfl rfl rfl hb hc ?_ (by decide) (by decide),
    fun hy ho => comes_mirrored hs rfl rfl rfl hb hc ?_ (millSet_run ?_ ?_) (by decide)⟩
  · exact if_pos hy
  · exact (if_neg (by simp [hy])).trans (if_pos ho)
  · rw [millSet_run hy ho]; exact Nat.zero_le 1
  · rw [mirrored_only]; exact hy
  · rw [mirrored_only]; exact ho

theorem millGet_answers (hs : Starts (.millGet h t x) h s) (ht : t.toNat ≤ 5) (hk : entryOk s t.toNat x.toNat = true) :
    exec (.millGet h t x) s = answersOk (.millGet h t x) h s ((readEntry (sampled (taken (.millGet h t x) h s)) t.toNat x.toNat).flatMap e32)
      (taken (.millGet h t x) h s) := by
  refine exec_answersOk (o := opMillGet t x) hs rfl rfl rfl ?_ rfl
  simp only [opMillGet]
  rw [if_neg (by omega), if_neg]
  rw [taken_only]
  simpa [entryOk, entryHere, treeOk] using hk

end

/-! ### Tributary entries -/

section
variable {h : Hdr} {e : List Byte} {f : Nat} {c : TCfg} {t : Trib} {x b : Nat} {s : State}

theorem tribSet_bad (s : State) (h2 : natAt e 2 1 % 4 = 0) (hv : (readTrib e).vtags ≠ 3) (hk : 1 ≤ (readTrib e).k) (hk' : (readTrib e).k ≤ 16)
    (hp : 66 ≤ (readTrib e).payLen) (hp' : (readTrib e).payLen ≤ 4096) (hs : (readTrib e).k * ((readTrib e).payLen + 10) ≤ 9600)
    (hu : (readTrib e).kindPacket = true ∨ (readTrib e).payLen + 26 + 4 * (readTrib e).vtags ≤ 9600) (h0 : natAt e 29 3 = 0) : (opTribSet h e).bad s = 0 := by
  have hu' : ((readTrib e).kindPacket || decide ((readTrib e).payLen + 26 + 4 * (readTrib e).vtags ≤ 9600)) = true := by simpa using hu
  simp only [opTribSet, firstBad]
  simp [h2, hv, hk, hk', hp, hp', hs, hu', h0]

/-- An entry's tributary starts afresh, its other entries still waiting (R171). -/
theorem trib_tribStart (f : Nat) (c : TCfg) (s : State) :
    trib (tribStart f c s) f = { cfg := c, present := true, held := (trib s f).held, next := (trib s f).next } := by
  have hc (l : List Nat) (s : State) : (l.foldl (fun s i => cntRestart (xFlow f i) s) s).tribs = s.tribs := by
    induction l generalizing s with
    | nil => rfl
    | cons i l ih => exact ih _
  unfold tribStart
  rw [trib, hc]
  exact trib_setTrib ..

theorem tribEffects_due (hs : s.tribs = [(f, t)]) (ht : t.next = [(c, x)]) (hx : x + Config.TURN_CUTOFF ≤ b) :
    tribEffects b s = tribStart f c (setTrib f { trib s f with next := [] } s) := by
  have hx' : ¬ b < x + Config.TURN_CUTOFF := by omega
  simp [tribEffects, hs, ht, hx, hx']

theorem tribEffects_early (hs : s.tribs = [(f, t)]) (ht : t.next = [(c, x)]) (hx : b < x + Config.TURN_CUTOFF) : tribEffects b s = s := by
  have hx' : ¬ x + Config.TURN_CUTOFF ≤ b := by omega
  simp [tribEffects, hs, ht, hx']

end

/-! ### Screens and sequence generation -/

section
variable {h : Hdr} {e : List Byte} {s b : State}

/-- A screen entry that the features and the table's size admit. -/
theorem screenSet_run (hf : natAt e 1 1 / 128 = 1 → featOn b 9 = true)
    (hl : natAt e 0 1 = 0 ∨ b.screens.length < 65536 ∨ b.screens.any (fun x => keyOfScreen x = scKey e) = true) :
    (opScreenSet e).run b = resOk [] (landScreen e b) := by
  simp only [opScreenSet]
  rw [if_neg (by rintro ⟨h1, h2⟩; simp [hf h1] at h2), if_neg]
  rintro ⟨h1, h2, h3⟩
  rcases hl with hl | hl | hl
  · exact h1 hl
  · omega
  · simp [hl] at h3

theorem screenSet_comes (hs : Starts (.screenSet h e) h s) (hb : firstBad (scRules e) = 0) :
    (natAt e 1 1 / 128 = 1 → featOn b 9 = false → Comes (.screenSet h e) h s b 0x0C [9, 0, 0, 0] b)
    ∧ ((natAt e 1 1 / 128 = 1 → featOn b 9 = true) → natAt e 0 1 ≠ 0 → 65536 ≤ b.screens.length →
        b.screens.any (fun x => keyOfScreen x = scKey e) = false → Comes (.screenSet h e) h s b 9 (beBytes 2 4 ++ beBytes 2 0) b)
    ∧ ((natAt e 1 1 / 128 = 1 → featOn b 9 = true) →
        (natAt e 0 1 = 0 ∨ b.screens.length < 65536 ∨ b.screens.any (fun x => keyOfScreen x = scKey e) = true) →
        Comes (.screenSet h e) h s b 0 [] (landScreen e (mirrored (.screenSet h e) h s b))) := by
  refine ⟨fun h1 hf => comes_refused (o := opScreenSet e) hs rfl rfl rfl hb hb ?_ (by decide) (by decide),
    fun hf h0 hl hk => comes_refused (o := opScreenSet e) hs rfl rfl rfl hb hb ?_ (by decide) (by decide),
    fun hf hl => comes_mirrored (o := opScreenSet e) hs rfl rfl rfl hb hb ?_ (screenSet_run ?_ ?_) (by decide)⟩
  · exact if_pos ⟨h1, by simp [hf]⟩
  · exact (if_neg (by rintro ⟨h1, h2⟩; simp [hf h1] at h2)).trans (if_pos ⟨h0, hl, by simp [hk]⟩)
  · rw [screenSet_run hf hl]; exact Nat.zero_le 1
  · rw [mirrored_only]; exact hf
  · rw [mirrored_only]; exact hl

theorem screenGet_answers {x : Screen} (hs : Starts (.screenGet h e) h s) (h1 : natAt e 1 3 = 0) (h2 : natAt e 14 10 = 0)
    (hx : s.screens.find? (fun x => keyOfScreen x = scKey e) = some x) :
    exec (.screenGet h e) s = answersOk (.screenGet h e) h s (screenBytes x) (taken (.screenGet h e) h s) := by
  have ha : s.screens.any (fun x => keyOfScreen x = scKey e) = true :=
    List.any_eq_true.2 ⟨x, List.mem_of_find?_eq_some hx, by simpa using List.find?_some hx⟩
  refine exec_answersOk (o := opScreenGet e) hs rfl rfl rfl ?_ ?_
  · simp only [opScreenGet, firstBad, taken_screens, ha]
    simp [h1, h2]
  · simp only [opScreenGet, taken_screens, hx]

theorem genSet_comes {f : BitVec 16} {g : BitVec 8} (hs : Starts (.genSet h f g) h s) (hg : g.toNat ≤ 1) :
    Comes (.genSet h f g) h s b 0 [] (landGen f.toNat (decide (g = 1)) (mirrored (.genSet h f g) h s b)) := by
  have hb : firstBad [(18, decide (g.toNat ≤ 1))] = 0 := by simp [firstBad, hg]
  exact comes_mirrored (o := opGenSet f g) hs rfl rfl rfl hb hb (Nat.zero_le 1) rfl (by decide)

theorem gens_landGen (f : Nat) (on : Bool) (b : State) : mget none (landGen f on b).mill.gens f =
    if on then (if (mget none b.mill.gens f).isSome then mget none b.mill.gens f else some 0) else none := mget_mput_same ..

end

/-- Settles O10: the entries that wait for their stroke boundary, the tributary's for its impression boundary, and the reads. -/
theorem mappingCommandsComplete : Obligations.MappingCommandsComplete := by
  unfold Obligations.MappingCommandsComplete
  refine ⟨fun h t x d s b hs ht hk => millSet_comes hs ht hk, fun h t x s hs ht hk => millGet_answers hs ht hk,
    fun h e s hs hm h2 hv hk hk' hp hp' hz hu h0 => ?_, fun f t c x b s hs ht => ⟨fun hx => ?_, fun hx => tribEffects_early hs ht hx⟩, fun h f s hs => ?_,
    fun h e s b hs hb => screenSet_comes hs hb, fun h e x s hs h1 h2 hx => screenGet_answers hs h1 h2 hx, fun h f g s b hs hg => genSet_comes hs hg,
    fun f b => ⟨gens_landGen f true b, gens_landGen f false b⟩, fun h f s hs => ?_⟩
  · have hb (u : State) : (opTribSet h e).bad u = 0 := tribSet_bad u h2 hv hk hk' hp hp' hz hu h0
    refine exec_begun (o := opTribSet h e) hs (hb _) rfl (Nat.zero_le 1) ?_ (by decide)
    simp [opTribSet, checkTime, hm, trib, resOk]
  · intro u
    have hu : trib u f = { cfg := c, present := true, held := (trib s f).held, next := [] } := by
      rw [show u = _ from tribEffects_due hs ht hx, trib_tribStart, trib_setTrib]
    rw [hu]
    exact ⟨rfl, rfl, rfl, rfl, rfl⟩
  · refine exec_answersOk (o := opTribGet f) hs rfl rfl rfl rfl ?_
    simp [opTribGet, trib]
  · refine exec_answersOk (o := opGenGet f) hs rfl rfl rfl rfl ?_
    simp [opGenGet, sampled, rsv]

end Sys2Proof.Machine
end

section
/-! PROOFS. STREAM and COPY on the pair port (O13). -/

namespace Sys2Proof.Machine

/-! ### STREAM -/

section
variable {i : Instr} {h : Hdr} {s t : State} {o : Op} {ps : List Byte}

/-- A command that is neither mirrored nor waits for a boundary comes to what its operation comes to. -/
theorem exec_runs (hs : Starts i h s) (he : exec i s = command i o s) (hop : awaitsStroke (opcodeOf i) s = false)
    (hm : opMirrored (opcodeOf i) (some i) = false) (hb : o.bad (taken i h s) = 0) (hr : o.run (taken i h s) = resOk ps t) :
    exec i s = answersOk i h s ps t :=
  he.trans (exec_answers o hs hb hop hm hr (by decide))

theorem taken_ackWait (i : Instr) (h : Hdr) (s : State) : (taken i h s).cmd.ackWait = s.cmd.ackWait := by
  unfold taken accept
  cases h.port <;> rfl

theorem postReply_ackWait (r : Reply) (s : State) : (postReply r s).cmd.ackWait = s.cmd.ackWait := by
  have hp (p : Port) (x : PortState) (s : State) : (setPortSt p x s).cmd.ackWait = s.cmd.ackWait := by cases p <;> rfl
  unfold postReply
  dsimp only
  split <;> exact hp ..

theorem postReply_mill (r : Reply) (s : State) : (postReply r s).mill = s.mill := by
  unfold postReply
  dsimp only
  split <;> simp

theorem postReplies_keep (l : List Reply) (s : State) : let t := l.foldl (fun s r => postReply r s) s
    t.pair = s.pair ∧ t.cmd.ackWait = s.cmd.ackWait ∧ t.mill = s.mill := by
  induction l generalizing s with
  | nil => exact ⟨rfl, rfl, rfl⟩
  | cons r l ih =>
    obtain ⟨hp, ha, hm⟩ := ih (postReply r s)
    exact ⟨hp.trans (postReply_keeps r s).2, ha.trans (postReply_ackWait r s), hm.trans (postReply_mill r s)⟩

/-- What the partner's acknowledgement leaves of the records sent and of the replies that wait for them (R24, R335). -/
theorem ackTo_comes (v : Nat) (s : State) :
    (ackTo v s).pair.sent = s.pair.sent.dropWhile (fun r => decide (r.stroke ≤ v)) ∧ (ackTo v s).pair.lastAck = s.pair.lastAck
      ∧ (ackTo v s).cmd.ackWait = s.cmd.ackWait.filter (fun r => (streamCmds (ackTo v s).pair.sent).contains r.dseq) ∧ (ackTo v s).mill = s.mill := by
  unfold ackTo
  simp only [List.partition_eq_filter_filter]
  generalize hu : ({ s with cmd := _, pair := _ } : State) = u
  obtain ⟨hp, ha, hm⟩ := postReplies_keep (List.filter (not ∘ fun r => (streamCmds (s.pair.sent.dropWhile (fun r => decide (r.stroke ≤ v)))).contains r.dseq)
    s.cmd.ackWait) u
  rw [hp, ha, hm]
  subst hu
  exact ⟨rfl, rfl, rfl, rfl⟩

theorem ackAll_eq (s : State) : ∃ v, ackAll s = ackTo v (fresh s).2 := ⟨_, rfl⟩

/-- STREAM's records, the last of stroke r.stroke. -/
theorem opStream_run (l : List StreamRec) (r : StreamRec) (s : State) : (opStream (l ++ [r])).run s =
    let t := (l ++ [r]).foldl streamRec (ackAll s)
    resOk (beBytes 4 (r.stroke % 2 ^ 32)) { t with pair := { t.pair with lastAck := r.stroke } } := by
  simp only [opStream, List.getLast?_append, List.getLast?_singleton, Option.some_or]

theorem exec_stream (h : Hdr) (l : List StreamRec) (r : StreamRec) (s : State) (hs : Starts (.stream h (l ++ [r])) h s) :
    let t := (l ++ [r]).foldl streamRec (ackAll (taken (.stream h (l ++ [r])) h s))
    exec (.stream h (l ++ [r])) s = answersOk (.stream h (l ++ [r])) h s (beBytes 4 (r.stroke % 2 ^ 32)) { t with pair := { t.pair with lastAck := r.stroke } } :=
  exec_runs (o := opStream (l ++ [r])) hs rfl rfl rfl rfl (opStream_run ..)

theorem opStream_none (s : State) : (opStream []).run s = resOk (beBytes 4 ((ackAll s).pair.lastAck % 2 ^ 32)) (ackAll s) := rfl

end

/-! ### COPY -/

section
variable {s : State} {n k o : Nat} {d : List Byte}

theorem copyRun_sails (h : s.pair.sails = true) : copyRun n k o d s = s := by
  have hj : copyJoins s = s := if_neg (fun c => by simp [h] at c)
  unfold copyRun
  rw [hj]
  exact if_pos (by simp [isStandby, h])

theorem copyJoins_standby (h : isStandby s = true) : copyJoins s = s := by
  refine if_neg (fun c => ?_)
  simp [isStandby, c.1] at h

/-- The chunk written into its section. -/
def copyWrite (n k o : Nat) (d : List Byte) (s : State) : State :=
  let old := mget [] s.pair.copied (16 * n + k)
  { s with pair := { s.pair with copied := mput [] s.pair.copied (16 * n + k) (bytesAt old 0 o ++ d ++ old.drop (o + d.length)),
                                 tierDone := s.pair.tierDone + d.length,
                                 tier := if s.pair.st = PairSt.joining ∨ s.pair.st = PairSt.eligible then n else s.pair.tier } }

/-- The sections that are whole. -/
def copyDone (s : State) : State := { s with pair := { s.pair with
  sections := (List.range 7).filter (fun i => i ≠ 0 && sectionDone (mget [] s.pair.copied (16 + i))) } }

theorem copyRun_standby (h : isStandby s = true) :
    copyRun n k o d s = askSections (copyDone (copyWrite n k o d (if n = 1 then copyCut 0 s else s))) := by
  unfold copyRun
  rw [copyJoins_standby h]
  exact if_neg (by simp [h])

/-- The cut taken with the first chunk says when it was, and starts the counters (R347; log 107). -/
theorem copyCut_keeps (c : Nat) (s : State) : let t := copyCut c s
    t.pair.copied = s.pair.copied ∧ t.pair.tierDone = s.pair.tierDone ∧ t.pair.st = s.pair.st ∧ t.pair.tier = s.pair.tier ∧ t.pair.taken = s.pair.taken
      ∧ t.mill = s.mill ∧ t.terms = s.terms ∧ t.keys = s.keys ∧ t.plates = s.plates ∧ t.tribs = s.tribs := by
  intro t
  simp only [t, copyCut]
  split <;> exact ⟨rfl, rfl, rfl, rfl, rfl, rfl, rfl, rfl, rfl, rfl⟩

theorem copyCut_cuts (c : Nat) (hs : isStandby s = true) (hj : s.pair.st = .joining) (hn : ∀ x ∈ s.mill.landing, x.eff ≠ .cut) :
    (copyCut c s).pair.cutAt ≠ none := by
  have hl : s.mill.landing.any (fun x => x.eff = .cut) = false := by simpa using hn
  unfold copyCut
  by_cases hc : s.pair.cutAt = none
  · rw [if_pos ⟨hj, hc, hs, by simp [hl]⟩]
    exact Option.some_ne_none _
  · rwa [if_neg (fun h => hc h.2.1)]

theorem askSections_pair (s : State) : (askSections s).pair = s.pair := by
  unfold askSections
  split <;> rfl

theorem askSections_keeps (s : State) : (askSections s).terms = s.terms ∧ (askSections s).keys = s.keys ∧ (askSections s).plates = s.plates
    ∧ (askSections s).tribs = s.tribs := by
  unfold askSections
  split <;> exact ⟨rfl, rfl, rfl, rfl⟩

theorem sectionsHeld_askSections (s : State) : sectionsHeld (askSections s) = sectionsHeld s := by rw [sectionsHeld, sectionsHeld, askSections_pair]

theorem askSections_posted (h : sectionsHeld s = true) : ∃ x ∈ (askSections s).mill.landing, x.eff = .sections := by
  unfold askSections
  by_cases hl : s.mill.landing.any (fun x => x.eff = .sections) = true
  · rw [if_neg (by simp [hl])]
    simpa using hl
  · rw [if_pos (by simp [h, hl])]
    exact ⟨posted .sections s, List.mem_append_right _ (List.mem_singleton_self _), rfl⟩

theorem askSections_idle (h : sectionsHeld s = false) : askSections s = s := if_neg (by simp [h])

end

section
variable {h : Hdr} {t c : BitVec 8} {o : Word} {d : List Byte} {s : State}

theorem copy_bad (s : State) (hk : (t = 1 ∧ 1 ≤ c.toNat ∧ c.toNat ≤ 6) ∨ (t = 2 ∧ c = 1)) (hl : o.toNat + d.length ≤ copyLimit t.toNat c.toNat) :
    (opCopy t c o d).bad s = 0 := by
  rcases hk with ⟨rfl, h1, h6⟩ | ⟨rfl, rfl⟩
  · simpa [opCopy, firstBad, h1, h6] using hl
  · simpa [opCopy, firstBad] using hl

theorem exec_copy (hs : Starts (.copy h t c o d) h s) (hk : (t = 1 ∧ 1 ≤ c.toNat ∧ c.toNat ≤ 6) ∨ (t = 2 ∧ c = 1))
    (hl : o.toNat + d.length ≤ copyLimit t.toNat c.toNat) :
    exec (.copy h t c o d) s = answersOk (.copy h t c o d) h s [] (copyRun t.toNat c.toNat o.toNat d (taken (.copy h t c o d) h s)) :=
  exec_runs (o := opCopy t c o d) hs rfl rfl rfl (copy_bad _ hk hl) rfl

/-- What a chunk leaves on a standby (R347). -/
theorem copyRun_comes (n k o : Nat) (d : List Byte) (hb : isStandby s = true) :
    let u := copyRun n k o d s
    let old := mget [] s.pair.copied (16 * n + k)
    u.pair.tierDone = s.pair.tierDone + d.length
      ∧ u.pair.copied = mput [] s.pair.copied (16 * n + k) (bytesAt old 0 o ++ d ++ old.drop (o + d.length))
      ∧ u.pair.tier = (if s.pair.st = .joining ∨ s.pair.st = .eligible then n else s.pair.tier)
      ∧ (∀ j, j ∈ u.pair.sections ↔ 1 ≤ j ∧ j ≤ 6 ∧ sectionDone (mget [] u.pair.copied (16 + j)) = true)
      ∧ (n = 1 → s.pair.st = .joining → (∀ x ∈ s.mill.landing, x.eff ≠ .cut) → u.pair.cutAt ≠ none)
      ∧ (sectionsHeld u = true → ∃ x ∈ u.mill.landing, x.eff = .sections)
      ∧ (sectionsHeld u = false → u.mill = s.mill)
      ∧ u.pair.taken = s.pair.taken ∧ u.terms = s.terms ∧ u.keys = s.keys ∧ u.plates = s.plates ∧ u.tribs = s.tribs := by
  intro u old
  have hx : ∃ x, x = (if n = 1 then copyCut 0 s else s) ∧ x.pair.copied = s.pair.copied ∧ x.pair.tierDone = s.pair.tierDone ∧ x.pair.st = s.pair.st
      ∧ x.pair.tier = s.pair.tier ∧ x.pair.taken = s.pair.taken ∧ x.mill = s.mill ∧ x.terms = s.terms ∧ x.keys = s.keys ∧ x.plates = s.plates
      ∧ x.tribs = s.tribs := by
    refine ⟨_, rfl, ?_⟩
    split
    · exact copyCut_keeps 0 s
    · exact ⟨rfl, rfl, rfl, rfl, rfl, rfl, rfl, rfl, rfl, rfl⟩
  obtain ⟨x, hxe, hcop, hdone, hst, htier, htak, hmill, hterms, hkeys, hplates, htribs⟩ := hx
  have hu : u = askSections (copyDone (copyWrite n k o d x)) := by rw [hxe]; exact copyRun_standby hb
  obtain ⟨gterms, gkeys, gplates, gtribs⟩ := askSections_keeps (copyDone (copyWrite n k o d x))
  rw [hu, sectionsHeld_askSections, askSections_pair, gterms, gkeys, gplates, gtribs]
  refine ⟨congrArg (· + d.length) hdone, ?_, ?_, fun j => ?_, fun hn hj hl => ?_, askSections_posted, fun hh => ?_, htak, hterms, hkeys, hplates, htribs⟩
  · simp only [copyDone, copyWrite, hcop]
    rfl
  · simp only [copyDone, copyWrite, hst, htier]
  · simp only [copyDone, List.mem_filter, List.mem_range, Bool.and_eq_true, decide_eq_true_eq]
    constructor
    · rintro ⟨h7, h0, hd⟩
      exact ⟨by omega, by omega, hd⟩
    · rintro ⟨h1, h6, hd⟩
      exact ⟨by omega, by omega, hd⟩
  · have := copyCut_cuts 0 hb hj hl
    rwa [← show x = copyCut 0 s by rw [hxe, if_pos hn]] at this
  · rw [askSections_idle hh]
    exact hmill

theorem isStandby_taken (i : Instr) (h : Hdr) (s : State) : isStandby (taken i h s) = isStandby s := by
  rw [taken_only]
  rfl

end

/-- Settles O13: a STREAM folds its records over what the partner acknowledged; a chunk of COPY is written, and asks for the sections once they are whole. -/
theorem streamAndCopyComplete : Obligations.StreamAndCopyComplete := by
  unfold Obligations.StreamAndCopyComplete
  refine ⟨fun h l r s hs => exec_stream h l r s hs, fun h s hs => ?_, fun h x f q s hs => ?_,
    fun h t c o d s hs hk hl => ⟨fun hb => ?_, fun hb => ?_⟩, fun b => ⟨fun hh => ?_, fun hh => if_neg (by simp [hh])⟩⟩
  · obtain ⟨v, hv⟩ := ackAll_eq (taken (.stream h []) h s)
    have hl : (ackAll (taken (.stream h []) h s)).pair.lastAck = s.pair.lastAck := by
      rw [hv, (ackTo_comes v _).2.1]
      exact congrArg Pair.lastAck (taken_pair (.stream h []) h s)
    exact exec_runs (o := opStream []) hs rfl rfl rfl rfl ((opStream_none _).trans (by rw [hl]))
  · have he := exec_stream h [] ⟨x, .delivered f q⟩ s hs
    simp only [List.nil_append, List.foldl_cons, List.foldl_nil] at he
    have hpair := taken_pair (.stream h [⟨x, .delivered f q⟩]) h s
    have hmill := taken_mill (.stream h [⟨x, .delivered f q⟩]) h s
    have hwait := taken_ackWait (.stream h [⟨x, .delivered f q⟩]) h s
    generalize taken (.stream h [⟨x, .delivered f q⟩]) h s = u at he hpair hmill hwait
    obtain ⟨v, hv⟩ := ackAll_eq u
    obtain ⟨asent, -, await, amill⟩ := ackTo_comes v (fresh u).2
    rw [← hv] at asent await amill
    refine ⟨_, v, he, ?_, ?_, ?_⟩
    · show mput none (ackAll u).mill.deliveredPts f.toNat (some q) = _
      rw [amill, ← hmill]
      rfl
    · show (ackAll u).pair.sent = _
      rw [asent, ← hpair]
      rfl
    · show (ackAll u).cmd.ackWait = _
      rw [await, ← hwait]
      rfl
  · refine (exec_copy hs hk hl).trans ?_
    rw [copyRun_sails (by rw [taken_pair]; exact hb)]
  · have hu := copyRun_comes t.toNat c.toNat o.toNat d (s := taken (.copy h t c o d) h s) (by rw [isStandby_taken]; exact hb)
    simp only [taken_pair, taken_mill, taken_terms, taken_keys, taken_plates, taken_tribs] at hu
    obtain ⟨hdone, hcop, htier, hsec, hcut, hpost, hidle, hrest⟩ := hu
    exact ⟨_, exec_copy hs hk hl, hdone, hcop, htier, hsec, fun h1 => hcut (by rw [h1]; rfl), hpost, hidle, hrest⟩
  · show (landSections b).pair.taken = true
    rw [landSections, if_pos hh]

end Sys2Proof.Machine
end

section
/-! PROOFS. What a defect that is declared or cleared leaves: the time, the timing unit, and the other defects. -/

namespace Sys2Proof.Machine

/-! ### The time and the timing unit -/

/-- t has the time and the timing unit of s. -/
structure KeepsTiming (s t : State) : Prop where
  now : t.now = s.now
  timing : t.timing = s.timing

section
variable {s t u : State}

theorem KeepsTiming.refl : KeepsTiming s s := ⟨rfl, rfl⟩

theorem KeepsTiming.trans (h : KeepsTiming s t) (k : KeepsTiming t u) : KeepsTiming s u := ⟨k.now.trans h.now, k.timing.trans h.timing⟩

theorem KeepsTiming.after (k : KeepsTiming t u) (hn : t.now = s.now) (ht : t.timing = s.timing) : KeepsTiming s u := KeepsTiming.trans ⟨hn, ht⟩ k

theorem KeepsTiming.foldl {α : Type} {f : State → α → State} (h : ∀ s x, KeepsTiming s (f s x)) (l : List α) (s : State) : KeepsTiming s (l.foldl f s) := by
  induction l generalizing s with
  | nil => exact .refl
  | cons x l ih => exact (h s x).trans (ih _)

theorem Reports.keepsTiming (h : Reports s t) : KeepsTiming s t := by
  unfold Reports at h
  rw [h]
  exact ⟨rfl, rfl⟩

theorem Reports.defects_eq (h : Reports s t) : t.defects = s.defects := by
  unfold Reports at h
  rw [h]

theorem sendRec_keeps (r : StreamRec) (s : State) : KeepsTiming s (sendRec s r) ∧ (sendRec s r).defects = s.defects := by
  unfold sendRec
  dsimp only
  split
  · exact ⟨⟨rfl, rfl⟩, rfl⟩
  · have h (x : State) := bump_reports x (cHop 0x20 0x20) 1
    exact ⟨(h _).keepsTiming.after rfl rfl, (h _).defects_eq⟩

theorem sendRecs_keeps (l : List StreamRec) (s : State) : KeepsTiming s (sendRecs l s) ∧ (sendRecs l s).defects = s.defects := by
  unfold sendRecs
  induction l generalizing s with
  | nil => exact ⟨.refl, rfl⟩
  | cons r l ih => exact ⟨(sendRec_keeps r s).1.trans (ih _).1, (ih _).2.trans (sendRec_keeps r s).2⟩

theorem tellDefect_keeps (cls n code : Nat) (on : Bool) (s : State) :
    KeepsTiming s (tellDefect cls n code on s) ∧ (tellDefect cls n code on s).defects = s.defects := by
  unfold tellDefect
  split
  · exact sendRecs_keeps ..
  · exact ⟨.refl, rfl⟩

/-- Where a mask lifts, integrations start afresh; what is declared stays. -/
theorem estLift_keeps (cls idx code : Nat) (s : State) :
    KeepsTiming s (estLift cls idx code s) ∧ (estLift cls idx code s).defects.on = s.defects.on := by
  unfold estLift
  split
  · exact ⟨⟨rfl, rfl⟩, rfl⟩
  · split
    · exact ⟨⟨rfl, rfl⟩, rfl⟩
    · split
      · exact ⟨⟨rfl, rfl⟩, rfl⟩
      · split
        · exact ⟨⟨rfl, rfl⟩, rfl⟩
        · split <;> exact ⟨⟨rfl, rfl⟩, rfl⟩

/-! ### A defect cleared -/

theorem defClear_keeps (cls idx code cause : Nat) (s : State) : KeepsTiming s (defClear cls idx code cause s) := by
  unfold defClear
  split
  · dsimp only
    refine .trans (.trans (.trans ?_ (estLift_keeps ..).1) (defEvent_reports ..).keepsTiming) (tellDefect_keeps ..).1
    exact ⟨rfl, rfl⟩
  · exact .refl

/-- The defects declared after a clear: those before but this one. -/
theorem defClear_on (cls idx code cause : Nat) (s : State) : (defClear cls idx code cause s).defects.on =
    if declared s cls idx code then mput false s.defects.on (defKey cls idx code) false else s.defects.on := by
  unfold defClear
  split
  · dsimp only
    rw [(tellDefect_keeps ..).2, (defEvent_reports ..).defects_eq, (estLift_keeps ..).2]
  · rfl

theorem declared_defClear_same (cls idx code cause : Nat) (s : State) : declared (defClear cls idx code cause s) cls idx code = false := by
  rw [declared, defClear_on]
  split
  · exact mget_mput_same ..
  · exact Bool.eq_false_iff.2 ‹_›

theorem declared_defClear_ne {cls idx code a b c : Nat} (cause : Nat) (s : State) (h : defKey a b c ≠ defKey cls idx code) :
    declared (defClear cls idx code cause s) a b c = declared s a b c := by
  rw [declared, defClear_on, declared]
  split
  · exact mget_mput_ne _ _ _ h
  · rfl

/-! ### A defect declared -/

theorem sweepMasked_keeps (s : State) : KeepsTiming s (sweepMasked s) := by
  unfold sweepMasked
  refine KeepsTiming.foldl (fun s e => ?_) _ s
  dsimp only
  split
  · exact defClear_keeps ..
  · exact .refl

/-- The key of a declared defect names it. -/
theorem defKey_decode (k : Nat) : defKey (k / 0x1000000) (k / 0x100 % 0x10000) (k % 0x100) = k := by
  rw [defKey]
  omega

/-- A defect that nothing masks stays declared. -/
theorem declared_sweepMasked {cls idx code : Nat} (hi : idx < 0x10000) (hc : code < 0x100) (hm : ∀ s, masked s cls idx code = false) (s : State) :
    declared (sweepMasked s) cls idx code = declared s cls idx code := by
  unfold sweepMasked
  generalize s.defects.on = l
  induction l generalizing s with
  | nil => rfl
  | cons e l ih =>
    rw [List.foldl_cons, ih]
    dsimp only
    by_cases hk : e.1 = defKey cls idx code
    · have h1 : e.1 / 0x1000000 = cls := by rw [hk, defKey]; omega
      have h2 : e.1 / 0x100 % 0x10000 = idx := by rw [hk, defKey]; omega
      have h3 : e.1 % 0x100 = code := by rw [hk, defKey]; omega
      rw [h1, h2, h3, hm]
      rfl
    · split
      · exact declared_defClear_ne _ _ (by rw [defKey_decode]; exact Ne.symm hk)
      · rfl

theorem defSet_keeps (cls idx code : Nat) (s : State) : KeepsTiming s (defSet cls idx code s) := by
  unfold defSet
  split
  · exact .refl
  · dsimp only
    refine .trans (.trans (.trans ?_ (defEvent_reports ..).keepsTiming) (tellDefect_keeps ..).1) (sweepMasked_keeps _)
    exact ⟨rfl, rfl⟩

/-- A defect that is in service and that nothing masks is declared. -/
theorem declared_defSet {cls idx code : Nat} (hi : idx < 0x10000) (hc : code < 0x100) (hm : ∀ s, masked s cls idx code = false)
    (hs : inService s cls idx = true) : declared (defSet cls idx code s) cls idx code = true := by
  unfold defSet
  by_cases hd : declared s cls idx code = true
  · rw [if_pos (by simp [declarable, hd])]
    exact hd
  · rw [if_neg (by simp [declarable, hd, hs, hm])]
    dsimp only
    rw [declared_sweepMasked hi hc hm, declared, (tellDefect_keeps ..).2, (defEvent_reports ..).defects_eq]
    exact mget_mput_same false s.defects.on (defKey cls idx code) true

end

end Sys2Proof.Machine
end

section
/-! PROOFS. The decision tick: the time, the next tick and the steering (O51). -/

namespace Sys2Proof.Machine

/-! ### What a decision tick's steps leave -/

/-- The present, the next decision tick and the steering. -/
def clock (s : State) : Nat × Nat × Int := (s.now, s.timing.tickNext, s.timing.steer)

theorem KeepsTiming.clock_eq {s t : State} (h : KeepsTiming s t) : clock t = clock s := by rw [clock, clock, h.now, h.timing]

section
variable (s : State)

/-- An update that leaves them alone. -/
@[simp] theorem clock_mk (pending free fuse strokeNext imprNext imprNum imprAt imprCount phaseOff regs cnt hold cyc cntWrap cntKeep holdWrap holdKeep
    snapNum snapAt snapCycle bwMs bwStatus bwAt rates bwSrc bwPart bwFrom bwAll cmd evt evtRun ploamIn tsHops plates trees terms taps keys mill tribs
    screens ports defects timing time pair power seen) (ht : timing.tickNext = s.timing.tickNext) (hs : timing.steer = s.timing.steer) :
    clock { s with
      pending, free, fuse, strokeNext, imprNext, imprNum, imprAt, imprCount, phaseOff, regs, cnt, hold, cyc, cntWrap, cntKeep, holdWrap, holdKeep,
      snapNum, snapAt, snapCycle, bwMs, bwStatus, bwAt, rates, bwSrc, bwPart, bwFrom, bwAll, cmd, evt, evtRun, ploamIn, tsHops, plates, trees, terms,
      taps, keys, mill, tribs, screens, ports, defects, timing, time, pair, power, seen } = clock s := by
  simp [clock, ht, hs]

@[simp] theorem clock_ite (c : Prop) [Decidable c] (s t : State) : clock (if c then s else t) = if c then clock s else clock t := apply_ite ..

@[simp] theorem clock_foldl {α : Type} {f : State → α → State} (l : List α) (s : State) (h : ∀ s x, clock (f s x) = clock s) :
    clock (l.foldl f s) = clock s := by
  induction l generalizing s with
  | nil => rfl
  | cons x l ih => rw [List.foldl_cons, ih, h]

@[simp] theorem clock_event (code cls idx : Nat) (d : List Byte) : clock (event code cls idx d s) = clock s := (event_reports ..).keepsTiming.clock_eq

@[simp] theorem clock_defClear (cls idx code cause : Nat) : clock (defClear cls idx code cause s) = clock s := (defClear_keeps ..).clock_eq

@[simp] theorem clock_defSet (cls idx code : Nat) : clock (defSet cls idx code s) = clock s := (defSet_keeps ..).clock_eq

@[simp] theorem clock_setRef (r : Nat) (x : Ref) : clock (setRef r x s) = clock s := by simp [setRef]

@[simp] theorem clock_refCleared (r : Nat) : clock (refCleared r s) = clock s := by simp [refCleared]

@[simp] theorem clock_refClear (r code : Nat) : clock (refClear r code s) = clock s := by simp [refClear]

@[simp] theorem clock_refMeasure (l : Int) (m : RefMeas) : clock (refMeasure l m s) = clock s := by simp [refMeasure]

@[simp] theorem clock_refLosTick (r : Nat) : clock (refLosTick r s) = clock s := by simp [refLosTick]

@[simp] theorem clock_refSpanTick (r : Nat) : clock (refSpanTick r s) = clock s := by simp [refSpanTick]

@[simp] theorem clock_wtrEnd (r : Nat) : clock (wtrEnd r s) = clock s := by simp [wtrEnd]

@[simp] theorem clock_wtrTick : clock (wtrTick s) = clock s := by simp [wtrTick]

@[simp] theorem clock_refSwitch (new old cause : Nat) : clock (refSwitch new old cause s) = clock s := by simp [refSwitch]

@[simp] theorem clock_tieClear (g : List Nat) : clock (tieClear g s) = clock s := by simp [tieClear]

@[simp] theorem clock_leftClear (old : Option Nat) : clock (leftClear old s) = clock s := by
  unfold leftClear
  split <;> simp

@[simp] theorem clock_refSelect : clock (refSelect s) = clock s := by
  unfold refSelect
  extract_lets l q s1 man cur best g pick
  have h1 : clock s1 = clock s := by simp [s1]
  split
  next x cand s2 tied e =>
  have h2 : clock s2 = clock s1 := by
    split at e
    · cases e; rfl
    · split at e <;> cases e
      · rfl
      · simp
      · simp
  rw [← h1, ← h2]
  simp

@[simp] theorem clock_dpllTo (x : Dpll) : clock (dpllTo x s) = clock s := by simp [dpllTo]

@[simp] theorem clock_dpllTick (changed : Bool) (phaseNs freqPpb : Int) : clock (dpllTick changed phaseNs freqPpb s) = clock s := by
  simp only [dpllTick]
  repeat' split
  all_goals simp

/-! ### The tick -/

theorem clampI_one (x : Int) : -1 ≤ clampI (-1) 1 x ∧ clampI (-1) 1 x ≤ 1 := by
  unfold clampI
  split
  · omega
  · split <;> omega

/-- Steering within its range stays there, moving by at most a step (R28, R289). -/
theorem clampI_step {g : Int} (x : Int) (h1 : -800000 ≤ g) (h2 : g ≤ 800000) :
    let y := clampI (-800000) 800000 (g + clampI (-1) 1 x)
    (-800000 : Int) ≤ y ∧ y ≤ 800000 ∧ (y - g).natAbs ≤ 1 := by
  obtain ⟨hl, hu⟩ := clampI_one x
  generalize clampI (-1) 1 x = z at hl hu
  simp only [clampI]
  split
  · omega
  · split <;> omega

theorem steerTick_comes (phaseNs freqPpb : Int) (s : State) (h1 : -800000 ≤ s.timing.steer) (h2 : s.timing.steer ≤ 800000) :
    let t := steerTick phaseNs freqPpb s
    t.now = s.now ∧ t.timing.tickNext = s.timing.tickNext ∧ -800000 ≤ t.timing.steer ∧ t.timing.steer ≤ 800000
      ∧ (t.timing.steer - s.timing.steer).natAbs ≤ 1 :=
  ⟨rfl, rfl, clampI_step _ h1 h2⟩

theorem of_clock {s t : State} (h : clock t = clock s) : t.now = s.now ∧ t.timing.tickNext = s.timing.tickNext ∧ t.timing.steer = s.timing.steer :=
  ⟨congrArg Prod.fst h, congrArg (fun x => x.2.1) h, congrArg (fun x => x.2.2) h⟩

/-- The state a tick begins on: the present its own, the next one a grid period on (R284). -/
def tickBegins (s : State) : State :=
  let u := advance s.timing.tickNext s
  { u with timing := { u.timing with tickNext := (u.now / 155520 + 1) * 155520 } }

/-- Once a second the steering is kept for its mean (R291). -/
def steerKept (s : State) : State :=
  if s.now % secMc = 0 then { s with timing := { s.timing with steers := (s.timing.steer :: s.timing.steers).take 700 } } else s

theorem clock_following (b : Bool) (s : State) : clock { s with timing := { s.timing with following := b } } = clock s := rfl

/-- The steps of a tick before its steering leave the present, the next tick and the steering. -/
theorem decisionTick_steers (ms : List RefMeas) (p f : Int) (s : State) :
    ∃ x, clock x = clock (tickBegins s) ∧ decisionTick ms p f s = steerKept (steerTick p f x) := by
  unfold decisionTick
  extract_lets s1 g s2 l s3 s4 src s5 fol g' s6 s7 s8
  have h5 : clock s5 = clock s2 := by simp [s5, s4, s3]
  clear_value s5
  refine ⟨dpllTick (decide (dpllSrc s7 ≠ src)) p f s7, ?_, rfl⟩
  have h6 : clock s6 = clock s2 := (clock_following fol s5).trans h5
  rw [clock_dpllTick]
  unfold s7
  split
  · exact h5
  · rw [clock_refSwitch]
    exact h6

theorem steerKept_comes (s : State) : (steerKept s).now = s.now ∧ (steerKept s).timing.tickNext = s.timing.tickNext
    ∧ (steerKept s).timing.steer = s.timing.steer := by
  unfold steerKept
  split <;> exact ⟨rfl, rfl, rfl⟩

theorem decisionTick_comes (ms : List RefMeas) (p f : Int) (s : State) (h1 : -800000 ≤ s.timing.steer) (h2 : s.timing.steer ≤ 800000) :
    let t := decisionTick ms p f s
    t.now = max s.now s.timing.tickNext ∧ t.timing.tickNext = (max s.now s.timing.tickNext / 155520 + 1) * 155520
      ∧ -800000 ≤ t.timing.steer ∧ t.timing.steer ≤ 800000 ∧ (t.timing.steer - s.timing.steer).natAbs ≤ 1 := by
  obtain ⟨x, hx, he⟩ := decisionTick_steers ms p f s
  obtain ⟨xnow, xnext, xsteer⟩ := of_clock hx
  obtain ⟨know, knext, ksteer⟩ := steerKept_comes (steerTick p f x)
  have hs : x.timing.steer = s.timing.steer := xsteer
  obtain ⟨tnow, tnext, tl, tu, td⟩ := steerTick_comes p f x (by rw [hs]; exact h1) (by rw [hs]; exact h2)
  intro t
  simp only [t, he, know, knext, ksteer, tnow, tnext]
  exact ⟨xnow, xnext, tl, tu, hs ▸ td⟩

end

end Sys2Proof.Machine
end

section
/-! PROOFS. The timing unit's other events: timers, defects, learning, edges and pulses, also through a save (O51). -/

namespace Sys2Proof.Machine

/-! ### When the timing unit runs (R19, R440) -/

section
variable {s t : State}

theorem liveTiming_running (h : Running s) : liveTiming s t = .next t := by
  have h : s.power.phase = .running := h
  rw [liveTiming, h]

theorem liveTiming_porst (h : s.power.phase = .porst) : liveTiming s t = .next s := by rw [liveTiming, h]

/-- While the control complex is in reset its event hopper and ports hold nothing. -/
theorem liveTiming_reset (h : s.power.phase = .saved ∨ s.power.phase = .booting) :
    liveTiming s t = .next { t with evt := s.evt, evtRun := s.evtRun, cmd := s.cmd } := by
  rcases h with h | h <;> rw [liveTiming, h]

/-- In every phase but under PORST_N the timing unit is what its event makes it. -/
theorem liveTiming_timing (h : s.power.phase ≠ .porst) : ∃ u, liveTiming s t = .next u ∧ u.timing = t.timing ∧ u.now = t.now := by
  unfold liveTiming
  split
  next hp => exact absurd hp h
  all_goals exact ⟨_, rfl, rfl, rfl⟩

end

/-! ### References -/

section
variable {r : Nat} {c : Nat} {s : State}

theorem refCleared_keeps (r : Nat) (s : State) : (refCleared r s).now = s.now ∧ (refCleared r s).defects = s.defects := by
  unfold refCleared
  dsimp only
  split <;> exact ⟨rfl, rfl⟩

theorem refClear_now (r c : Nat) (s : State) : (refClear r c s).now = s.now := by
  unfold refClear
  split
  · exact (refCleared_keeps ..).1.trans (defClear_keeps ..).now
  · rfl

theorem declared_refClear (r c : Nat) (s : State) : declared (refClear r c s) 6 r c = false := by
  unfold refClear
  split
  · rw [declared, (refCleared_keeps ..).2]
    exact declared_defClear_same ..
  · exact Bool.eq_false_iff.2 ‹_›

theorem refDefectClear_freq (r : Fin 16) (h : Running s) (hd : declared s 6 r.val RF_FREQ = true) :
    ∃ t, exec (.refDefectClear r 0x51) s = .next t ∧ declared t 6 r.val RF_FREQ = false ∧ (refOf t r.val).freqTie = false
      ∧ t.now = max s.now ((refOf s r.val).freqBadAt + 10 * 1244160000) := by
  refine ⟨_, (liveTiming_running h).trans (congrArg _ (if_pos ⟨rfl, hd⟩)), ?_, ?_, ?_⟩
  · exact declared_refClear ..
  · exact congrArg Ref.freqTie (refOf_setRef ..)
  · exact refClear_now ..

theorem refDefectClear_phase (r : Fin 16) (h : Running s) (hd : declared s 6 r.val RF_PHASE = true) :
    ∃ t, exec (.refDefectClear r 0x52) s = .next t ∧ declared t 6 r.val RF_PHASE = false
      ∧ t.now = max s.now ((refOf s r.val).phaseBadAt + 10 * 1244160000) :=
  ⟨_, (liveTiming_running h).trans (congrArg _ ((if_neg (by rintro ⟨h, -⟩; exact absurd h (by decide))).trans ((if_pos rfl).trans (if_pos hd)))),
    declared_refClear .., refClear_now ..⟩

theorem refDefectClear_los (r : Fin 16) (h : Running s) (hg : r.val ≤ 3 ∨ 2 ≤ (refOf s r.val).good) :
    ∃ t, exec (.refDefectClear r 0x50) s = .next t ∧ declared t 6 r.val RF_LOS = false ∧ t.now = max s.now s.timing.tickNext := by
  refine ⟨refClear r.val RF_LOS (advance s.timing.tickNext s), (liveTiming_running h).trans (congrArg _ ?_), declared_refClear .., refClear_now ..⟩
  refine (if_neg (by rintro ⟨h, -⟩; exact absurd h (by decide))).trans ((if_neg (by decide)).trans ((if_pos rfl).trans ?_))
  by_cases h3 : r.val ≤ 3
  · exact if_pos h3
  · exact (if_neg h3).trans (if_pos (hg.resolve_left h3))

/-- The defect is not one of the reference, or not declared, or its run of good edges is not complete. -/
theorem refDefectClear_idle (r : Fin 16) (code : BitVec 8) (h : Running s) (hf : code = 0x51 → declared s 6 r.val RF_FREQ = false)
    (hp : code = 0x52 → declared s 6 r.val RF_PHASE = false) (hl : code = 0x50 → 3 < r.val ∧ (refOf s r.val).good < 2) :
    exec (.refDefectClear r code) s = .next s := by
  have hc (n : Nat) (hn : n < 256) : code.toNat = n ↔ code = BitVec.ofNat 8 n := by
    rw [← BitVec.toNat_inj, BitVec.toNat_ofNat, Nat.mod_eq_of_lt hn]
  refine (liveTiming_running h).trans (congrArg _ ?_)
  rw [if_neg (by rintro ⟨h1, h2⟩; simp [hf ((hc RF_FREQ (by decide)).1 h1)] at h2)]
  by_cases h2 : code.toNat = RF_PHASE
  · rw [if_pos h2, if_neg (by simp [hp ((hc RF_PHASE (by decide)).1 h2)])]
  · rw [if_neg h2]
    by_cases h0 : code.toNat = RF_LOS
    · obtain ⟨h3, hg⟩ := hl ((hc RF_LOS (by decide)).1 h0)
      rw [if_pos h0, if_neg (by omega), if_neg (by omega)]
    · rw [if_neg h0]

theorem refLosTimeout_declares (r : Fin 16) (h : Running s) (ho : refOn s r.val = true) (h8 : r.val < 8) :
    ∃ t, exec (.refLosTimeout r) s = .next t ∧ declared t 6 r.val RF_LOS = true ∧ (refOf t r.val).good = 0 ∧ (refOf t r.val).edgeAt = none := by
  have hm (u : State) : masked u 6 r.val RF_LOS = false := rfl
  have ht (u : State) : refOf (defSet 6 r.val RF_LOS u) r.val = refOf u r.val := by rw [refOf, (defSet_keeps ..).timing, refOf]
  refine ⟨_, (liveTiming_running h).trans (congrArg _ (if_pos ⟨ho, h8⟩)), declared_defSet (by omega) (by decide) hm rfl, ?_, ?_⟩
  · rw [ht, refOf_setRef]
  · rw [ht, refOf_setRef]

end

/-! ### The DPLL, learning and the temperature -/

section
variable {s : State}

theorem dpllTo_comes (x : Dpll) (s : State) : (dpllTo x s).timing.dpll = x ∧ (dpllTo x s).timing.lockFrom = none ∧ (dpllTo x s).now = s.now := by
  unfold dpllTo
  dsimp only
  rw [(event_reports ..).keepsTiming.timing, (event_reports ..).keepsTiming.now]
  exact ⟨rfl, rfl, rfl⟩

theorem holdoverSample_idle (h : s.timing.dpll ≠ .locked) : holdoverSample s = s := if_pos h

theorem holdoverSample_following (h : s.timing.dpll = .locked) (hf : s.timing.following = true) :
    holdoverSample s = { s with timing := { s.timing with history := s.timing.history + 1 } } :=
  (if_neg (not_not.2 h)).trans (if_pos hf)

/-- The samples of the last LEARN_H hours, the present one among them (R292). -/
def learnWindow (s : State) : List (Int × Int × Nat) :=
  ((s.timing.steer, s.timing.tempNow, s.now / 1244160000) :: s.timing.samples).filter
    (fun x => decide (s.now / 1244160000 < x.2.2 + regFld s aHOLD_CFG2 7 0 * 3600))

theorem holdoverSample_learns (h : s.timing.dpll = .locked) (hf : s.timing.following = false) :
    let t := holdoverSample s
    t.timing.history = s.timing.history + 1 ∧ t.timing.fittedAt = s.now ∧ t.timing.samples = learnWindow s
      ∧ t.timing.modelValid = (s.timing.modelValid || decide (60 ≤ (learnWindow s).length))
      ∧ ((learnWindow s).length < 21600 → t.timing.g = s.timing.record.g ∧ t.timing.gValid = false) := by
  have hk (a b : State) : (if s.timing.following = true then a else b) = b := if_neg (by simp [hf])
  intro t
  have ht : t = _ := (if_neg (not_not.2 h)).trans (hk _ _)
  rw [ht]
  refine ⟨rfl, rfl, rfl, rfl, fun hl => ?_⟩
  have hg : decide (21600 ≤ (learnWindow s).length) = false := decide_eq_false (by omega)
  exact ⟨if_neg (show ¬ decide (21600 ≤ (learnWindow s).length) = true by rw [hg]; decide), hg⟩

/-- The board sensor's third failed read in a row (R293): TEMP_SRC clears, and the model with it. -/
theorem tempRead_third (hb : regBit s aHOLD_CFG 31 = true) (hf : 2 ≤ s.timing.tempFails) :
    let t := tempRead none s
    regBit t aHOLD_CFG 31 = false ∧ t.timing.aValid = false ∧ t.timing.bValid = false ∧ t.timing.gValid = false ∧ t.timing.modelValid = false
      ∧ t.timing.samples = [] ∧ t.timing.history = 0 := by
  have ht : tempRead none s = event 0x0602 0 0 [] (tempSrcMoved (setRaw aHOLD_CFG (regRaw s aHOLD_CFG &&& 0x7FFFFFFF) s)) :=
    (if_neg (by simp [hb])).trans (if_neg (by omega))
  intro t
  simp only [t, ht, (event_reports ..).keepsTiming.timing]
  refine ⟨?_, rfl, rfl, rfl, rfl, rfl, rfl⟩
  rw [regBit, (keepsRegs_event rfl _).raw _ (by decide) (by decide)]
  show (regRaw (setRaw aHOLD_CFG _ s) aHOLD_CFG).getLsbD 31 = false
  rw [regRaw_setRaw_same]
  simp

end

/-! ### Edges and pulses -/

/-- Nothing but the timing unit lies between s and t. -/
def OnlyTiming (s t : State) : Prop := t = { s with timing := t.timing }

section
variable {o : Nat} {s t u : State}

theorem OnlyTiming.refl : OnlyTiming s s := rfl

theorem OnlyTiming.trans (h : OnlyTiming s t) (k : OnlyTiming t u) : OnlyTiming s u := by
  unfold OnlyTiming at *
  rw [k, h]

theorem OnlyTiming.foldl {α : Type} {f : State → α → State} (h : ∀ s x, OnlyTiming s (f s x)) (l : List α) (s : State) : OnlyTiming s (l.foldl f s) := by
  induction l generalizing s with
  | nil => exact .refl
  | cons x l ih => exact (h s x).trans (ih _)

theorem OnlyTiming.now_eq (h : OnlyTiming s t) : t.now = s.now := by
  unfold OnlyTiming at h
  rw [h]

theorem OnlyTiming.regs_eq (h : OnlyTiming s t) : t.regs = s.regs := by
  unfold OnlyTiming at h
  rw [h]

/-- Nothing but the timing unit and the present lies between s and t. -/
def TimingLater (s t : State) : Prop := t = { s with now := t.now, cyc := t.cyc, timing := t.timing }

theorem TimingLater.trans (h : TimingLater s t) (k : TimingLater t u) : TimingLater s u := by
  unfold TimingLater at *
  rw [k, h]

theorem OnlyTiming.later (h : OnlyTiming s t) : TimingLater s t := by
  unfold OnlyTiming at h
  rw [h]
  rfl

/-- t is s but for the timing unit, of which the DPLL and what output o has given stay. -/
structure KeepsPulse (o : Nat) (s t : State) : Prop where
  only : OnlyTiming s t
  dpll : t.timing.dpll = s.timing.dpll
  lastEdge : (pulseOf t o).lastEdge = (pulseOf s o).lastEdge
  pulseAt : (pulseOf t o).pulseAt = (pulseOf s o).pulseAt

@[simp] theorem pulseOf_setPulse (o : Nat) (x : Pulse) (s : State) : pulseOf (setPulse o x s) o = x := mget_mput_same ..

/-- Clock outputs changed, pulses not. -/
theorem clks_foldl {f : State → Nat → State} (h : ∀ s k, OnlyTiming s (f s k) ∧ (f s k).timing.pulses = s.timing.pulses ∧ (f s k).timing.dpll = s.timing.dpll)
    (l : List Nat) (s : State) :
    OnlyTiming s (l.foldl f s) ∧ (l.foldl f s).timing.pulses = s.timing.pulses ∧ (l.foldl f s).timing.dpll = s.timing.dpll := by
  induction l generalizing s with
  | nil => exact ⟨.refl, rfl, rfl⟩
  | cons k l ih =>
    obtain ⟨ho, hp, hd⟩ := h s k
    obtain ⟨io, ip, id⟩ := ih (f s k)
    exact ⟨ho.trans io, ip.trans hp, id.trans hd⟩

theorem resync_keeps (o : Nat) (s : State) :
    OnlyTiming s (resync o s) ∧ (resync o s).timing.pulses = s.timing.pulses ∧ (resync o s).timing.dpll = s.timing.dpll := by
  refine clks_foldl (fun s k => ?_) _ s
  dsimp only
  split <;> exact ⟨rfl, rfl, rfl⟩

theorem KeepsPulse.trans (h : KeepsPulse o s t) (k : KeepsPulse o t u) : KeepsPulse o s u :=
  ⟨h.only.trans k.only, k.dpll.trans h.dpll, k.lastEdge.trans h.lastEdge, k.pulseAt.trans h.pulseAt⟩

theorem keepsPulse_setPulse {x : Pulse} (hl : x.lastEdge = (pulseOf s o).lastEdge) (hp : x.pulseAt = (pulseOf s o).pulseAt) : KeepsPulse o s (setPulse o x s) :=
  ⟨rfl, rfl, by rw [pulseOf_setPulse, hl], by rw [pulseOf_setPulse, hp]⟩

theorem keepsPulse_resync (o : Nat) (s : State) : KeepsPulse o s (resync o s) := by
  obtain ⟨ho, hp, hd⟩ := resync_keeps o s
  exact ⟨ho, hd, by rw [pulseOf, hp, pulseOf], by rw [pulseOf, hp, pulseOf]⟩

/-- An edge that acts moves the grid, or what turns toward it. -/
theorem keepsPulse_edgeActs (c o : Nat) (s : State) : KeepsPulse o s (edgeActs c o s) := by
  unfold edgeActs
  extract_lets p x e
  split
  · refine KeepsPulse.trans ?_ (keepsPulse_resync ..)
    apply keepsPulse_setPulse <;> rfl
  · extract_lets m d y
    split
    · apply keepsPulse_setPulse <;> rfl
    · split <;> apply keepsPulse_setPulse <;> rfl

theorem keepsPulse_pulseReady (o : Nat) (s : State) : KeepsPulse o s (pulseReady o s) := by
  unfold pulseReady
  split
  · split
    · exact ⟨rfl, rfl, rfl, rfl⟩
    · exact keepsPulse_edgeActs ..
  · exact ⟨rfl, rfl, rfl, rfl⟩

/-! ### An edge of an input -/

theorem onlyTiming_settlePulse (o : Nat) (s : State) : OnlyTiming s (settlePulse o s) := by
  unfold settlePulse
  split
  · split
    · exact (keepsPulse_edgeActs ..).only
    · exact .refl
  · exact .refl

theorem edgeFor_keeps (pps : Bool) (o : Nat) (s : State) : OnlyTiming s (edgeFor pps o s) ∧ (edgeFor pps o s).timing.refs = s.timing.refs := by
  unfold edgeFor
  dsimp only
  split
  · exact ⟨.refl, rfl⟩
  · split <;> exact ⟨rfl, rfl⟩

theorem edgesFor_keep (pps : Bool) (l : List Nat) (s : State) : let t := l.foldl (fun s o => edgeFor pps o s) s
    OnlyTiming s t ∧ t.timing.refs = s.timing.refs := by
  induction l generalizing s with
  | nil => exact ⟨.refl, rfl⟩
  | cons o l ih =>
    obtain ⟨ho, hr⟩ := edgeFor_keeps pps o s
    obtain ⟨io, ir⟩ := ih (edgeFor pps o s)
    exact ⟨ho.trans io, ir.trans hr⟩

theorem inputEdge_comes (pps : Bool) (s : State) : (refOf (inputEdge pps s) (4 + pps.toNat)).edgeAt = some s.now ∧ OnlyTiming s (inputEdge pps s) := by
  unfold inputEdge
  extract_lets u r x ok v
  have hu : OnlyTiming s u := OnlyTiming.foldl (fun s o => onlyTiming_settlePulse o s) _ s
  obtain ⟨ho, hr⟩ := edgesFor_keep pps (List.range 6) v
  refine ⟨?_, (hu.trans (t := u) (u := v) rfl).trans ho⟩
  rw [refOf, hr, ← refOf, ← hu.now_eq]
  exact congrArg Ref.edgeAt (refOf_setRef ..)

/-! ### A pulse -/

/-- Output o after its edge at e, d beside its grid (R297, R298). -/
def pulseMoved (o e : Nat) (d : Int) (x : Pulse) (sq : Bool) : Pulse :=
  { x with grid := x.grid.map (fun g => ((g : Int) + pulsePeriod o + d).toNat), slew := x.slew - d, lastEdge := e,
           pulseAt := if sq then x.pulseAt else some e }

/-- Clock outputs that wait for a PPS output's edge take it (R299). -/
def clkSyncs (o e : Nat) (sq : Bool) (s : State) : State :=
  if o < 4 ∧ !sq then
    (List.range 4).foldl (fun s k =>
      let c := clkOf s k
      if c.wantSync ∧ regFld s (aCCFG k) 27 26 = o then setClk k { c with wantSync := false, synced := clkWhole s k, resetAt := e } s else s) s
  else s

theorem clkSyncs_keeps (o e : Nat) (sq : Bool) (s : State) : OnlyTiming s (clkSyncs o e sq s) ∧ (clkSyncs o e sq s).timing.pulses = s.timing.pulses := by
  unfold clkSyncs
  split
  · obtain ⟨ho, hp, -⟩ := clks_foldl (f := fun s k =>
      if (clkOf s k).wantSync ∧ regFld s (aCCFG k) 27 26 = o then setClk k { clkOf s k with wantSync := false, synced := clkWhole s k, resetAt := e } s else s)
      (fun s k => by dsimp only; split <;> exact ⟨rfl, rfl, rfl⟩) (List.range 4) s
    exact ⟨ho, hp⟩
  · exact ⟨.refl, rfl⟩

theorem outputPulse_eq (o : Nat) (s : State) : outputPulse o s =
    if !regBit s (aPCFG o) 31 then s
    else
      let u := pulseReady o s
      match nextPulse u o (max u.now ((pulseOf u o).lastEdge + 1)) with
      | none => u
      | some e =>
        let d := pulseMove u o
        let v := advance ((e : Int) + d).toNat u
        let sq := squelched v (regFld v (aPCFG o) 26 25)
        clkSyncs o ((e : Int) + d).toNat sq (setPulse o (pulseMoved o ((e : Int) + d).toNat d (pulseOf u o) sq) v) := rfl

/-- What keeps the pulses' edges keeps where the search for the next one begins. -/
theorem nextPulse_ready (o : Nat) (s : State) : nextPulse (pulseReady o s) o (max (pulseReady o s).now ((pulseOf (pulseReady o s) o).lastEdge + 1))
    = nextPulse (pulseReady o s) o (max s.now ((pulseOf s o).lastEdge + 1)) := by
  have hk := keepsPulse_pulseReady o s
  rw [hk.only.now_eq, hk.lastEdge]

theorem outputPulse_none (hon : regBit s (aPCFG o) 31 = true) (hn : nextPulse (pulseReady o s) o (max s.now ((pulseOf s o).lastEdge + 1)) = none) :
    outputPulse o s = pulseReady o s := by
  rw [outputPulse_eq, if_neg (by simp [hon])]
  dsimp only
  rw [nextPulse_ready, hn]

/-- The pulse of output o that falls on e, moved by d. -/
theorem outputPulse_falls {e : Nat} (hon : regBit s (aPCFG o) 31 = true)
    (hn : nextPulse (pulseReady o s) o (max s.now ((pulseOf s o).lastEdge + 1)) = some e) :
    let u := pulseReady o s
    let at_ := ((e : Int) + pulseMove u o).toNat
    let t := outputPulse o s
    t.now = max s.now at_ ∧ t = { s with now := t.now, cyc := t.cyc, timing := t.timing }
      ∧ pulseOf t o = pulseMoved o at_ (pulseMove u o) (pulseOf u o) (squelched s (regFld s (aPCFG o) 26 25)) := by
  intro u at_ t
  have hk := keepsPulse_pulseReady o s
  have hsq : squelched (advance at_ u) (regFld (advance at_ u) (aPCFG o) 26 25) = squelched s (regFld s (aPCFG o) 26 25) := by
    rw [regFld_of_regs (s := s) (u := advance at_ u) hk.only.regs_eq, squelched, squelched, show (advance at_ u).timing.dpll = s.timing.dpll from hk.dpll]
  have ht : t = clkSyncs o at_ (squelched s (regFld s (aPCFG o) 26 25))
      (setPulse o (pulseMoved o at_ (pulseMove u o) (pulseOf u o) (squelched s (regFld s (aPCFG o) 26 25))) (advance at_ u)) := by
    rw [← hsq, show t = _ from outputPulse_eq o s, if_neg (by simp [hon])]
    dsimp only
    rw [nextPulse_ready, hn]
  obtain ⟨ho, hp⟩ := clkSyncs_keeps o at_ (squelched s (regFld s (aPCFG o) 26 25))
    (setPulse o (pulseMoved o at_ (pulseMove u o) (pulseOf u o) (squelched s (regFld s (aPCFG o) 26 25))) (advance at_ u))
  rw [← ht] at ho hp
  refine ⟨ho.now_eq.trans (congrArg (max · at_) hk.only.now_eq), ?_, ?_⟩
  · have hv : TimingLater u (advance at_ u) := rfl
    have hw (x : Pulse) : TimingLater (advance at_ u) (setPulse o x (advance at_ u)) := rfl
    exact ((hk.only.later.trans hv).trans (hw _)).trans ho.later
  · rw [pulseOf, hp]
    exact pulseOf_setPulse ..

end

/-! ### Through a save -/

section
variable {s : State}

theorem esmcChanges_keeps (s : State) : KeepsTiming s (esmcChanges s) := by
  unfold esmcChanges
  refine KeepsTiming.foldl (fun s p => ?_) _ s
  split
  · unfold sendEsmc
    split <;> exact ⟨rfl, rfl⟩
  · exact .refl

/-- A decision tick tells the uplinks what quality levels it has changed, while they run. -/
def tickTold (t : State) : State := if t.power.phase = .running then esmcChanges t else t

theorem tickTold_keeps (t : State) : KeepsTiming t (tickTold t) := by
  unfold tickTold
  split
  · exact esmcChanges_keeps t
  · exact .refl

theorem exec_decisionTick_eq (ms : List RefMeas) (p f : Int) (h : Running s) : exec (.decisionTick ms p f) s = .next (tickTold (decisionTick ms p f s)) :=
  liveTiming_running h

theorem exec_decisionTick (ms : List RefMeas) (p f : Int) (h : Running s) (h1 : -800000 ≤ s.timing.steer) (h2 : s.timing.steer ≤ 800000) :
    ∃ t, exec (.decisionTick ms p f) s = .next t ∧ t.now = max s.now s.timing.tickNext
      ∧ t.timing.tickNext = (max s.now s.timing.tickNext / 155520 + 1) * 155520
      ∧ -800000 ≤ t.timing.steer ∧ t.timing.steer ≤ 800000 ∧ (t.timing.steer - s.timing.steer).natAbs ≤ 1 := by
  have ht := decisionTick_comes ms p f s h1 h2
  have he := exec_decisionTick_eq ms p f h
  generalize decisionTick ms p f s = x at ht he
  have hk := tickTold_keeps x
  exact ⟨tickTold x, he, by rw [hk.now, hk.timing]; exact ht⟩

/-- The events of the timing unit. -/
def TimingEvent (i : Instr) : Prop :=
  i = .dpllLock ∨ i = .holdoverSample ∨ i = .holdoverRecord ∨ (∃ ms p f, i = .decisionTick ms p f) ∨ (∃ r, i = .wtrExpiry r)
    ∨ (∃ r c, i = .refDefectClear r c) ∨ (∃ r, i = .refLosTimeout r) ∨ (∃ v, i = .tempRead v) ∨ (∃ p, i = .inputEdge p) ∨ (∃ o, i = .outputPulse o)

theorem exec_timing {i : Instr} (hi : TimingEvent i) (s : State) : ∃ t, exec i s = liveTiming s t := by
  rcases hi with rfl | rfl | rfl | ⟨ms, p, f, rfl⟩ | ⟨r, rfl⟩ | ⟨r, c, rfl⟩ | ⟨r, rfl⟩ | ⟨v, rfl⟩ | ⟨p, rfl⟩ | ⟨o, rfl⟩ <;> exact ⟨_, rfl⟩

end

section
variable {s : State}

theorem exec_dpllLock (hr : Running s) (a : Nat) (hl : s.timing.lockFrom = some a) : exec .dpllLock s = .next (
    if s.timing.dpll = .acquiring ∧ !regBit s aDPLL_CFG 31 ∧ !(regBit s aDPLL_CFG 30 ∧ 60 ≤ s.timing.history) then
      dpllTo .locked (advance (a + regFld s aDPLL_CFG 22 16 * secMc) s)
    else s) := by
  refine (liveTiming_running hr).trans (congrArg _ ?_)
  rw [hl]

theorem dpllLock_locks {a : Nat} (hr : Running s) (hd : s.timing.dpll = .acquiring) (hl : s.timing.lockFrom = some a) (hf : regBit s aDPLL_CFG 31 = false)
    (hh : regBit s aDPLL_CFG 30 = false ∨ s.timing.history < 60) :
    ∃ t, exec .dpllLock s = .next t ∧ t.timing.dpll = .locked ∧ t.timing.lockFrom = none
      ∧ t.now = max s.now (a + regFld s aDPLL_CFG 22 16 * 1244160000) := by
  refine ⟨_, (exec_dpllLock hr a hl).trans (congrArg _ (if_pos ⟨hd, by simp [hf], ?_⟩)), dpllTo_comes ..⟩
  rcases hh with h | h
  · simp [h]
  · simp [show ¬ 60 ≤ s.timing.history by omega]

theorem dpllLock_idle (hr : Running s) (h : s.timing.lockFrom = none ∨ s.timing.dpll ≠ .acquiring ∨ regBit s aDPLL_CFG 31 = true
    ∨ (regBit s aDPLL_CFG 30 = true ∧ 60 ≤ s.timing.history)) : exec .dpllLock s = .next s := by
  cases hl : s.timing.lockFrom with
  | none =>
    refine (liveTiming_running hr).trans (congrArg _ ?_)
    rw [hl]
  | some a =>
    refine (exec_dpllLock hr a hl).trans (congrArg _ (if_neg ?_))
    rintro ⟨h1, h2, h3⟩
    rcases h with h | h | h | h
    · simp [hl] at h
    · exact h h1
    · simp [h] at h2
    · simp [h] at h3

theorem clampI_unit (x : Int) : clampI (-1) 1 x = max (-1) (min 1 x) := by
  unfold clampI
  split
  · omega
  · split <;> omega

/-- The cycles a pulse moves by: what its ready state turns it by. -/
theorem pulseMove_ready (o : Nat) (s : State) : pulseMove (pulseReady o s) o =
    if regBit s (aPCFG o) 27 = true ∧ pulseSrc s o ≤ 1 then max (-1) (min 1 (pulseOf (pulseReady o s) o).slew) else 0 := by
  have hr := (keepsPulse_pulseReady o s).only.regs_eq
  rw [pulseMove, pulseSrc, regFld_of_regs hr, regBit, regRaw_of_regs s hr, clampI_unit]
  rfl

theorem exec_outputPulse {o : Fin 6} {e : Nat} (hr : Running s) (hon : regBit s (aPCFG o.val) 31 = true)
    (hn : nextPulse (pulseReady o.val s) o.val (max s.now ((pulseOf s o.val).lastEdge + 1)) = some e) :
    let u := pulseReady o.val s
    let d : Int := if regBit s (aPCFG o.val) 27 = true ∧ pulseSrc s o.val ≤ 1 then max (-1) (min 1 (pulseOf u o.val).slew) else 0
    ∃ t, exec (.outputPulse o) s = .next t ∧ t.now = max s.now ((e : Int) + d).toNat ∧ t = { s with now := t.now, cyc := t.cyc, timing := t.timing }
      ∧ (pulseOf t o.val).lastEdge = ((e : Int) + d).toNat ∧ (pulseOf t o.val).slew = (pulseOf u o.val).slew - d
      ∧ (pulseOf t o.val).grid = (pulseOf u o.val).grid.map (fun g => ((g : Int) + pulsePeriod o.val + d).toNat)
      ∧ (pulseOf t o.val).pulseAt =
          if squelched s (regFld s (aPCFG o.val) 26 25) then (pulseOf s o.val).pulseAt else some ((e : Int) + d).toNat := by
  intro u d
  obtain ⟨tnow, tonly, tpulse⟩ := outputPulse_falls hon hn
  rw [pulseMove_ready] at tnow tpulse
  refine ⟨outputPulse o.val s, liveTiming_running hr, tnow, tonly, ?_, ?_, ?_, ?_⟩
  all_goals rw [tpulse]
  · rfl
  · rfl
  · rfl
  · rw [← (keepsPulse_pulseReady o.val s).pulseAt]
    rfl

theorem wtrExpiry_anyPhase (r : Fin 16) (h : s.power.phase ≠ .porst) (hw : (refOf s r.val).wtr ≠ 0) :
    ∃ t, exec (.wtrExpiry r) s = .next t ∧ (refOf t r.val).wtr = 0 := by
  obtain ⟨u, hu, ht, -⟩ := liveTiming_timing (t := if (refOf s r.val).wtr = 0 then s else wtrEnd r.val (advance (refOf s r.val).wtr s)) h
  refine ⟨u, hu, ?_⟩
  rw [refOf, ht, if_neg hw]
  exact congrArg Ref.wtr (refOf_setRef ..)

end

/-- Settles O51: the tick by what its steps leave, each other event in its cases, and the phases in which the unit runs. -/
theorem timingEventsRun : Obligations.TimingEventsRun := by
  unfold Obligations.TimingEventsRun
  refine ⟨fun ms p f s hr h1 h2 => exec_decisionTick ms p f hr h1 h2, fun r s hr => ⟨fun hw => ?_, fun hw => ?_⟩, fun at_ s hr hd hl hf hh => ?_,
    fun s hr h => ?_, fun r s hr => ⟨refDefectClear_freq r hr, refDefectClear_phase r hr, refDefectClear_los r hr, fun h3 hg => ?_, fun hd => ?_, fun hd => ?_⟩,
    fun r code s hr h0 h1 h2 => ?_, fun r s hr ho h8 => refLosTimeout_declares r hr ho h8, fun r s hr h => ?_, fun s hr hl hf => ?_, fun s hr hl hf => ?_,
    fun s hr hl => ?_, fun s hr => liveTiming_running hr, fun s hs => ?_, fun v s hr => liveTiming_running hr, fun s hr => ⟨fun hb => ?_, fun hb hf => ?_⟩,
    fun s hr hb hf => ?_, fun pps s hr => ?_, fun o e s hr hon => ?_, fun o s hr => ⟨fun hb => ?_, fun hb hn => ?_, fun hd => ?_, fun c hd hc => ?_⟩,
    fun i s hi => ⟨fun hp => ?_, fun hp => ?_⟩, fun r s hp hw => ?_⟩
  · exact (liveTiming_running hr).trans (congrArg _ (if_pos hw))
  · exact (liveTiming_running hr).trans (congrArg _ (if_neg hw))
  · exact dpllLock_locks hr hd hl hf hh
  · exact dpllLock_idle hr h
  · exact refDefectClear_idle r 0x50 hr (fun h => absurd h (by decide)) (fun h => absurd h (by decide)) (fun _ => ⟨h3, hg⟩)
  · exact refDefectClear_idle r 0x51 hr (fun _ => hd) (fun h => absurd h (by decide)) (fun h => absurd h (by decide))
  · exact refDefectClear_idle r 0x52 hr (fun h => absurd h (by decide)) (fun _ => hd) (fun h => absurd h (by decide))
  · exact refDefectClear_idle r code hr (fun h => absurd h h1) (fun h => absurd h h2) (fun h => absurd h h0)
  · refine (liveTiming_running hr).trans (congrArg _ (if_neg ?_))
    rintro ⟨ho, h8⟩
    rcases h with h | h
    · simp [h] at ho
    · omega
  · exact (liveTiming_running hr).trans (congrArg _ (holdoverSample_following hl hf))
  · exact ⟨_, liveTiming_running hr, holdoverSample_learns hl hf⟩
  · exact (liveTiming_running hr).trans (congrArg _ (holdoverSample_idle hl))
  · exact ⟨_, liveTiming_reset (.inl hs), rfl, rfl, rfl⟩
  · exact (liveTiming_running hr).trans (congrArg _ (if_pos (by simp [hb])))
  · exact (liveTiming_running hr).trans (congrArg _ ((if_neg (by simp [hb])).trans (if_pos (by omega))))
  · exact ⟨_, liveTiming_running hr, tempRead_third hb hf⟩
  · exact ⟨_, liveTiming_running hr, inputEdge_comes pps s⟩
  · exact exec_outputPulse hr hon
  · exact (liveTiming_running hr).trans (congrArg _ (if_pos (by simp [hb])))
  · exact (liveTiming_running hr).trans (congrArg _ (outputPulse_none hb hn))
  · rw [pulseReady, hd]
  · rw [pulseReady, hd]
    exact if_neg (by rintro ⟨h, -⟩; omega)
  · obtain ⟨t, ht⟩ := exec_timing hi s
    exact ht.trans (liveTiming_porst hp)
  · obtain ⟨t, ht⟩ := exec_timing hi s
    exact ⟨_, ht.trans (liveTiming_reset hp), rfl, rfl⟩
  · exact wtrExpiry_anyPhase r (by rcases hp with h | h | h <;> simp [h]) hw

end Sys2Proof.Machine
end

section
/-! PROOFS. The impression boundary: a unit that falls out of step for want of a plate empties both of its banks, also when it is no standby. -/

namespace Sys2Proof.Machine

/-- The turn of the counterexample: due at the first impression boundary, its plate not in bank 0. -/
def lostTurn : Turn := { bank := false, target := 1, at_ := 0, first := false, id := 9 }

/-- A FEATHERED unit of a pair IN_STEP that FENCE has fenced, so no standby (R329): bank 1 PROVEN, the turn into bank 0 due without its plate. -/
def fencedInStep : State :=
  Tests.mode2 { Tests.s1 with
    pair := { st := .inStep, fencedCmd := true }
    plates := { bank1 := { st := .proven, plate := some (Tests.plate [] []) }, turn := some lostTurn } }

theorem fencedInStep_running : Running fencedInStep := rfl

/-- The fence takes the unit out of the standby's part (R329), not out of step (R351). -/
theorem fencedInStep_not_standby : isStandby fencedInStep = false := by decide +kernel

theorem fencedInStep_turn_due : lostTurn.at_ ≤ fencedInStep.imprNext := Nat.zero_le _

theorem fencedInStep_turn_not_ready : turnReady fencedInStep lostTurn = false := by decide +kernel

/-- The turn that does not take place puts the unit out of step, and section 4 is among those it empties (R349, R351). -/
theorem fencedInStep_bank1_emptied : (bank (imprBoundary fencedInStep) true).st = .empty := by decide +kernel

/-- Refutes O37: a turn due without its plate on a fenced unit that is IN_STEP and FEATHERED. Such a unit is no standby, yet it falls out of step and loses
both banks, while the statement has the other bank stand as it was. -/
theorem not_impressionBoundaryTurns : ¬ Obligations.ImpressionBoundaryTurns := by
  unfold Obligations.ImpressionBoundaryTurns
  rintro ⟨h, -⟩
  obtain ⟨t, ht, -, -, -, -, -, -, -, -, notTaken, -⟩ := h fencedInStep fencedInStep_running rfl
  obtain ⟨-, banks⟩ := notTaken lostTurn rfl fencedInStep_turn_due (.inr fencedInStep_turn_not_ready)
  obtain ⟨-, other⟩ := banks fencedInStep_not_standby nofun
  obtain rfl : imprBoundary fencedInStep = t := Host.Outcome.next.inj ((live_running fencedInStep_running).symm.trans ht)
  have kept : (bank (imprBoundary fencedInStep) true).st = .proven := congrArg Bank.st other
  rw [fencedInStep_bank1_emptied] at kept
  exact absurd kept (by decide)

end Sys2Proof.Machine
end

section
/-! PROOFS. The state stream on the other unit: a TR_LOS record that takes a feeder handover back leaves a tree that has triggered before as it was. -/

namespace Sys2Proof.Machine

/-- A SAILS_ON unit IN_STEP whose feeder handover at 1,280 was ordered in stroke 80 for TR_LOS of tree 0, the tree that had triggered the one before (R210). -/
def triggeredAgain : State :=
  { Tests.sailing { st := .inStep, contact := true, orderedAt := 80, handover := some (1280, 6, TR_LOS, 0) } with
    trees := [(0, { triggered := true })] }

theorem triggeredAgain_running : Running triggeredAgain := rfl

theorem triggeredAgain_treeOk : treeOk triggeredAgain 0 = true := by decide +kernel

/-- The partner's record of TR_LOS of that stroke. -/
def losRecord : StreamRec := { stroke := 80, body := .defect 0 TR_LOS true }

theorem exec_losRecord : exec (.defectRecord losRecord) triggeredAgain = .next (defectRec 80 0 TR_LOS true triggeredAgain) :=
  live_running triggeredAgain_running

/-- The record declares TR_LOS on the partner's tree, a trigger defect always (Table 6.5): the last trigger stands (R210). -/
theorem defectRec_triggered : (tree (defectRec 80 0 TR_LOS true triggeredAgain) 0).triggered = true := by decide +kernel

/-- Refutes O49: the partner's TR_LOS of the stroke in which a feeder handover was ordered for the tree takes the handover back, but does not clear
`triggered` of a tree that carries it from the handover before, since the defect that arrives is itself a trigger of the partner. -/
theorem not_streamRecordsRun : ¬ Obligations.StreamRecordsRun := by
  unfold Obligations.StreamRecordsRun
  rintro ⟨-, -, -, -, -, -, -, -, -, -, -, -, -, -, -, -, -, -, defect, -⟩
  obtain ⟨-, atSails⟩ := defect 80 0 TR_LOS true triggeredAgain triggeredAgain_running rfl
  obtain ⟨t, ht, -, -, -, -, -, -, cancelled⟩ := atSails rfl triggeredAgain_treeOk
  obtain ⟨-, cleared⟩ := cancelled 1280 rfl rfl rfl rfl
  obtain rfl : defectRec 80 0 TR_LOS true triggeredAgain = t := Host.Outcome.next.inj (exec_losRecord.symm.trans ht)
  exact absurd (defectRec_triggered.symm.trans cleared) (by decide)

end Sys2Proof.Machine
end

section
/-! PROOFS. The bytes that PLATE_DATA writes into a bank, and its refusals (O56). -/

namespace Sys2Proof.Machine

/-! ### The plate engine is no part of an answer -/

theorem plates_setPortSt (p : Port) (x : PortState) (s : State) : (setPortSt p x s).plates = s.plates := by cases p <;> rfl

theorem plates_postReply (r : Reply) (s : State) : (postReply r s).plates = s.plates := by
  unfold postReply
  dsimp only
  split <;> exact plates_setPortSt ..

theorem plates_finish (k : Pkt) (held : Bool) (st : Nat) (ps : List Byte) (s : State) : (finish k held st ps s).plates = s.plates := by
  unfold finish
  dsimp only
  split
  · split
    · exact plates_setPortSt ..
    · rfl
  · split
    · rfl
    · exact plates_postReply ..

theorem plates_tookEffect (n : Nat) (k : Pkt) (s : State) : (tookEffect n k s).plates = s.plates := by
  unfold tookEffect
  split
  · split
    · rfl
    · unfold markEff
      repeat' split
      all_goals rfl
  · rfl

/-- The answer to a command leaves the banks and what is scheduled as the effect left them. -/
theorem plates_answered (i : Instr) (h : Hdr) (s : State) (st : Nat) (ps : List Byte) (t : State) : (answered i h s st ps t).plates = t.plates := by
  rw [answered, plates_finish]
  split
  · exact plates_tookEffect ..
  · rfl

theorem bank_of_plates {s t : State} (h : t.plates = s.plates) (b : Bool) : bank t b = bank s b := by rw [bank, bank, h]

@[simp] theorem bank_answered (i : Instr) (h : Hdr) (s : State) (st : Nat) (ps : List Byte) (t : State) (b : Bool) :
    bank (answered i h s st ps t) b = bank t b := bank_of_plates (plates_answered ..) b

@[simp] theorem bank_taken (i : Instr) (h : Hdr) (s : State) (b : Bool) : bank (taken i h s) b = bank s b := bank_of_plates (taken_plates ..) b

@[simp] theorem bank_begun (i : Instr) (h : Hdr) (s : State) (b : Bool) : bank (begun i h s) b = bank s b := bank_of_plates (begun_plates ..) b

/-! ### Bytes written into an image -/

/-- Outside the bytes written an image reads as before. -/
theorem mget_imgWrite_outside (m : Map Byte) (o : Nat) (d : List Byte) {a : Nat} (ha : a < o ∨ o + d.length ≤ a) :
    mget 0 (imgWrite m o d) a = mget 0 m a := by
  induction d generalizing m o with
  | nil => rfl
  | cons x d ih =>
    rw [List.length_cons] at ha
    rw [imgWrite, ih _ _ (by omega), mget_mput_ne 0 m x (by omega)]

/-- Each byte written reads at its place. -/
theorem mget_imgWrite_inside (m : Map Byte) (o : Nat) (d : List Byte) {j : Nat} (hj : j < d.length) :
    mget 0 (imgWrite m o d) (o + j) = d[j] := by
  induction d generalizing m o j with
  | nil => exact absurd hj (Nat.not_lt_zero j)
  | cons x d ih =>
    rw [imgWrite]
    cases j with
    | zero => rw [mget_imgWrite_outside _ _ _ (.inl (by omega)), Nat.add_zero, mget_mput_same, List.getElem_cons_zero]
    | succ j => rw [show o + (j + 1) = o + 1 + j by omega, ih _ _ (Nat.lt_of_succ_lt_succ hj), List.getElem_cons_succ]

/-- An image without a byte reads zero everywhere. -/
theorem imgBytes_nil (o n : Nat) : imgBytes [] o n = List.replicate n 0 := by simp [imgBytes, List.map_const']

/-! ### PLATE_DATA and PLATE_OPEN -/

section
variable {h : Hdr} {b : BitVec 8} {o : Word} {d : List Byte} {s : State}

/-- The bank takes chunks of this command's session (R54). -/
def loadsFor (h : Hdr) (x : Bank) : Prop := x.st = .loading ∧ x.owner = some (h.port, h.session)

theorem plateData_bad_offset (hb : b.toNat ≤ 1) (ho : o.toNat % 16 ≠ 0 ∨ ¬ o.toNat + d.length ≤ 5242880) (u : State) :
    (opPlateData h b o d).bad u = 20 := by
  by_cases h16 : o.toNat % 16 = 0
  · simp [opPlateData, firstBad, hb, h16, ho.resolve_left (not_not.2 h16)]
  · simp [opPlateData, firstBad, hb, h16]

theorem plateData_bad_length (hb : b.toNat ≤ 1) (h16 : o.toNat % 16 = 0) (hf : o.toNat + d.length ≤ 5242880)
    (hd : ¬ (d.length % 16 = 0 ∧ 16 ≤ d.length ∧ d.length ≤ 4080)) (u : State) : (opPlateData h b o d).bad u = 24 := by
  simp [opPlateData, firstBad, hb, h16, hf, hd]

theorem plateData_bad_none (hb : b.toNat ≤ 1) (h16 : o.toNat % 16 = 0) (hf : o.toNat + d.length ≤ 5242880)
    (hd : d.length % 16 = 0 ∧ 16 ≤ d.length ∧ d.length ≤ 4080) (u : State) : (opPlateData h b o d).bad u = 0 := by
  simp [opPlateData, firstBad, hb, h16, hf, hd]

theorem plateData_run {u : State} (hm : loadsFor h (bank u (b = 1))) : (opPlateData h b o d).run u
    = resOk [] (setBank (b = 1) { bank u (b = 1) with image := imgWrite (bank u (b = 1)).image o.toNat d } u) :=
  if_neg fun hn => hn.elim (· hm.1) (· hm.2)

theorem plateData_run_busy {u : State} (hm : ¬ loadsFor h (bank u (b = 1))) : (opPlateData h b o d).run u = resBusy u :=
  if_pos (not_and_or.1 hm)

/-- A chunk that the bank takes goes into its image, behind the record that mirrors it (R54, R354). -/
theorem plateData_writes (hs : Starts (.plateData h b o d) h s) (hb : (opPlateData h b o d).bad (taken (.plateData h b o d) h s) = 0)
    (hm : loadsFor h (bank s (b = 1))) : exec (.plateData h b o d) s = answersOk (.plateData h b o d) h s []
      (setBank (b = 1) { bank s (b = 1) with image := imgWrite (bank s (b = 1)).image o.toNat d } (begun (.plateData h b o d) h s)) := by
  refine exec_begun (opPlateData h b o d) hs hb rfl ?_ ?_ (by decide)
  · rw [plateData_run (by simpa using hm)]
    exact Nat.zero_le 1
  · rw [plateData_run (by simpa using hm), bank_begun]
    rfl

/-- A bank that is not LOADING, or LOADING under another session, is BUSY (R54). -/
theorem plateData_busy (hs : Starts (.plateData h b o d) h s) (hb : (opPlateData h b o d).bad (taken (.plateData h b o d) h s) = 0)
    (hm : ¬ loadsFor h (bank s (b = 1))) : exec (.plateData h b o d) s = answersNot (.plateData h b o d) h s 0x0A [] := by
  have hr : (opPlateData h b o d).run (taken (.plateData h b o d) h s) = resBusy (taken (.plateData h b o d) h s) :=
    plateData_run_busy (by simpa using hm)
  refine exec_does (opPlateData h b o d) hs hb rfl ((does_not ?_ _).trans hr) (by decide)
  rw [hr]
  exact (by decide : ¬ 10 ≤ 1)

/-- A bank that is EMPTY is opened with an empty image (R53). -/
theorem plateOpen_empty (hs : Starts (.plateOpen h b) h s) (hb : b.toNat ≤ 1) (h72 : pwrOn s 72 = true) (h76 : pwrOn s 76 = true)
    (h77 : pwrOn s 77 = true) (he : (bank s (b = 1)).st = .empty) : ∃ t, exec (.plateOpen h b) s = .next t ∧ (bank t (b = 1)).st = .loading
      ∧ (bank t (b = 1)).image = [] := by
  have hrun {u : State} (hp : u.power = s.power) (hu : (bank u (b = 1)).st = .empty) : (opPlateOpen h b).run u = resOk []
      (setBank (b = 1) { st := .loading, owner := some (h.port, h.session), feats := agreedOf (dropTurnOf (b = 1) u) h } (dropTurnOf (b = 1) u)) := by
    have hpwr (n : Nat) : pwrOn u n = pwrOn s n := by rw [pwrOn, pwrOn, pwrOf, pwrOf, hp]
    refine (if_neg (by simp [hpwr, h72, h76, h77])).trans ((if_neg ?_).trans (if_neg ?_))
    · rw [hu]
      decide
    · exact fun hl => absurd (hu.symm.trans hl.1) (by decide)
  have hbad : (opPlateOpen h b).bad (taken (.plateOpen h b) h s) = 0 := by simp [opPlateOpen, firstBad, hb]
  refine ⟨_, exec_begun (opPlateOpen h b) hs hbad rfl ?_ (hrun (begun_power ..) (by simpa using he)) (by decide), ?_, ?_⟩
  · rw [hrun (taken_power ..) (by simpa using he)]
    exact Nat.zero_le 1
  · rw [bank_answered, bank_setBank]
  · rw [bank_answered, bank_setBank]

end

/-- Settles O56: the cases of PLATE_DATA by its own checks, in their order, and the bytes of an image before and after a write. -/
theorem plateChunks : Obligations.PlateChunks := by
  unfold Obligations.PlateChunks
  constructor
  · intro h b o d s i hs hb fits sized mine
    refine ⟨fun h16 hd hf hm => ?_, fun h16 => ?_, fun h16 hf => ?_, fun h16 hf hd => ?_, fun h16 hd hf hm => ?_⟩
    · refine ⟨_, plateData_writes hs (plateData_bad_none hb h16 hf hd _) hm, ?_, ?_, fun j hj => ?_, fun a ha => ?_⟩
      · rw [bank_answered, bank_setBank_not, bank_begun]
      · rw [bank_answered, bank_setBank]
      · rw [bank_answered, bank_setBank, mget_imgWrite_inside _ _ _ hj, List.getElem?_eq_getElem hj]
      · rw [bank_answered, bank_setBank, mget_imgWrite_outside _ _ _ ha]
    · exact exec_badParam hs (plateData_bad_offset hb (.inl h16) _) (by decide)
    · exact exec_badParam hs (plateData_bad_offset hb (.inr hf) _) (by decide)
    · exact exec_badParam hs (plateData_bad_length hb h16 hf hd _) (by decide)
    · exact plateData_busy hs (plateData_bad_none hb h16 hf hd _) hm
  · intro h b s hs hb h72 h76 h77 he
    obtain ⟨t, ht, hst, himg⟩ := plateOpen_empty hs hb h72 h76 h77 he
    exact ⟨t, ht, hst, fun o n => by rw [himg, imgBytes_nil]⟩

end Sys2Proof.Machine
end

section
/-! PROOFS. The first turn: right after the time counter has wrapped within an impression, ASAP with no plate engaged schedules none (O7). -/

namespace Sys2Proof.Machine

/-- A unit whose time counter has just wrapped (R303), half way through an impression. A disengage at the start of that impression has left it without an
engaged plate, so that the plate of the impression before is the one that was engaged; bank 1 holds another plate, PROVEN. -/
def wrappedCounter : State :=
  { Tests.s1 with
    now := 0, imprAt := 2 ^ 96 - 6220800, imprNext := 2 ^ 96 + 6220800
    plates := { bank1 := { st := .proven, plate := some (Tests.plate [] []) }, prev := some (Tests.plate [] []) } }

/-- PLATE_TURN of bank 1 with ASAP on the board port. -/
def asapHdr : Hdr := Tests.hdr .board 0x40
def asapTurn : Instr := .plateTurn asapHdr 1 9 0

theorem asapTurn_starts : Starts asapTurn asapHdr wrappedCounter := Tests.test_starts_of (by decide +kernel)

theorem wrappedCounter_turnChecks : turnChecks wrappedCounter (Tests.plate [] []) = 0 := by decide +kernel

/-- Whether the turn that stands scheduled in an outcome is a first turn (R31). -/
def firstScheduled : Host.Outcome State Fault Refusal → Option Bool
  | .next t => t.plates.turn.map Turn.first
  | _ => none

/-- The counter stands before the start of the impression, so the model asks the plate of the impression before, and takes the turn for a later one. -/
theorem asapTurn_not_first : firstScheduled (exec asapTurn wrappedCounter) = some false := by decide +kernel

/-- The answer to a command leaves the turn that its effect scheduled. -/
theorem firstScheduled_answersOk (i : Instr) (h : Hdr) (s : State) (ps : List Byte) (t : State) :
    firstScheduled (answersOk i h s ps t) = t.plates.turn.map Turn.first := by
  rw [answersOk, firstScheduled, plates_answered]

/-- Refutes O7: ASAP with no plate engaged is a first turn by the statement's fourth clause, in every state; on a unit whose time counter has wrapped within
the impression, the model finds the plate of the impression before engaged and schedules a turn that is no first turn. -/
theorem not_plateCommandsComplete : ¬ Obligations.PlateCommandsComplete := by
  unfold Obligations.PlateCommandsComplete
  rintro ⟨-, -, -, turn, -⟩
  obtain ⟨first, -⟩ := turn asapHdr 1 9 0 (Tests.plate [] []) wrappedCounter asapTurn_starts (by decide) rfl rfl rfl rfl wrappedCounter_turnChecks
  have scheduled := congrArg firstScheduled (first rfl rfl rfl)
  rw [firstScheduled_answersOk] at scheduled
  exact absurd (asapTurn_not_first.symm.trans scheduled) (by decide)

end Sys2Proof.Machine
end

section
/-! PROOFS. The state after reset (O60). -/

namespace Sys2Proof.Machine

/-- No bank holds a byte and the part is the largest one: what every step keeps holds after reset. -/
theorem kept_reset : Kept State.reset := ⟨by decide, by decide⟩

/-- Every register reads its table's value after reset: none is listed as differing from it. -/
theorem regRaw_reset (a : Nat) : regRaw State.reset a = regRst a := BitVec.zero_xor

/-- MODE of PAIR_CFG is 0 in its table. -/
theorem pairMode_reset : pairMode State.reset = 0 := by rw [pairMode, regFld, regRaw_reset]; decide

/-- Settles O60: every store of the machine after reset is empty, so each of its entries reads its default. -/
theorem resetState : Obligations.ResetState := by
  unfold Obligations.ResetState
  refine ⟨kept_reset, rfl, rfl, rfl, rfl, rfl, rfl, rfl, rfl, rfl, rfl, rfl, fun n => rfl, fun g => rfl, fun b => ?_, rfl, rfl, rfl, rfl, pairMode_reset, rfl,
    regRaw_reset, fun i => ⟨rfl, rfl⟩⟩
  cases b <;> rfl

end Sys2Proof.Machine
end

section
/-! PROOFS. Upstream frames and fragments, and samples of SD outside the grants (O40). -/

namespace Sys2Proof.Machine

/-! ### An upstream XGEM frame -/

section
variable {n k : Nat} {g : Grant} {x : Xgem} {s u : State}

/-- No burst found, or the frame beyond the burst's bytes: nothing arrives. -/
theorem upstreamXgem_nothing (h : ∀ g, grantAt s n k = some g → g.found = none ∨ g.xgem < g.used + 8 + x.data.length) : upstreamXgem n k x s = s := by
  unfold upstreamXgem
  split
  · rfl
  next g hg => exact if_pos ((h g hg).imp_left (by simp [·]))

/-- A frame within the bytes of a burst whose delimiter was found (R104); u is the state that has counted it there. -/
structure Within (n k : Nat) (g : Grant) (x : Xgem) (s u : State) : Prop where
  grant : grantAt s n k = some g
  found : g.found.isSome = true
  room : g.used + 8 + x.data.length ≤ g.xgem
  counted : setGrant n k { g with used := g.used + 8 + x.data.length } s = u

theorem Within.not_beyond (w : Within n k g x s u) : ¬ (g.found.isNone = true ∨ g.xgem < g.used + 8 + x.data.length) := by
  rintro (h | h)
  · rw [Option.isNone_iff_eq_none] at h
    exact absurd w.found (by simp [h])
  · exact absurd w.room (Nat.not_le.2 h)

/-- The key slot that the frame's Key_Index names. -/
def slotNamed (x : Xgem) (ks : KeySet) : KeySt := if x.key = 1 then ks.st0 else ks.st1

/-- The frame's route is a tributary's. -/
def tribRoute (r : Route) : Bool :=
  match r with
  | .through f => f.trib
  | _ => false

/-- The keys of the frame's flow, upstream. -/
def flowKeys (n : Nat) (g : Grant) (x : Xgem) (u : State) : KeySet := keySet u (keyIx n (flowDom (grantPlate u g) u x.portId.toNat) true)

section
variable (w : Within n k g x s u)
include w

theorem upstreamXgem_lost (hl : xgemLost u g x = true) :
    upstreamXgem n k x s = fragDrop n g.term x.portId.toNat (bump (cTree n 0x138) 1 u) := by
  have hb := w.not_beyond
  obtain ⟨hg, -, -, rfl⟩ := w
  unfold upstreamXgem
  rw [hg]
  exact (if_neg hb).trans (if_pos hl)

variable (hl : xgemLost u g x = false)
include hl

theorem upstreamXgem_idle (hi : x.idle = true) : upstreamXgem n k x s = u := by
  have hb := w.not_beyond
  obtain ⟨hg, -, -, rfl⟩ := w
  unfold upstreamXgem
  rw [hg]
  exact (if_neg hb).trans ((if_neg (by simp [hl])).trans (if_pos hi))

variable (hi : x.idle = false)
include hi

theorem upstreamXgem_misrouted (hp : flowTerm (grantPlate u g) u x.portId.toNat ≠ some (128 * n + g.term)) :
    upstreamXgem n k x s = bump (cbTree n 3) 1 u := by
  have hb := w.not_beyond
  obtain ⟨hg, -, -, rfl⟩ := w
  unfold upstreamXgem
  rw [hg]
  exact (if_neg hb).trans ((if_neg (by simp [hl])).trans ((if_neg (by simp [hi])).trans (if_pos hp)))

variable (hp : flowTerm (grantPlate u g) u x.portId.toNat = some (128 * n + g.term))
include hp

/-- A frame of the burst's own terminal is judged by its key (R132). -/
theorem upstreamXgem_keyed : upstreamXgem n k x s =
    if x.key = 3 ∨ (x.key ≠ 0 ∧ slotNamed x (flowKeys n g x u) = .empty) then fragDrop n g.term x.portId.toNat (bump (cTree n 0x148) 1 u)
    else if x.key = 0 ∧ (flowKeys n g x u).encrypt = true then fragDrop n g.term x.portId.toNat (bump (cTree n 0x150) 1 u)
    else reassemble n g x
      (if x.key = 0 then x.data
        else xgemCrypt u.power.kwk (if x.key = 1 then (flowKeys n g x u).key0 else (flowKeys n g x u).key1) true g.superframe x.pos x.data)
      (tribRoute (routeIn (grantPlate u g) u false x.portId.toNat)) u := by
  have hb := w.not_beyond
  obtain ⟨hg, -, -, rfl⟩ := w
  unfold upstreamXgem
  rw [hg]
  exact (if_neg hb).trans ((if_neg (by simp [hl])).trans ((if_neg (by simp [hi])).trans (if_neg (not_not.2 hp))))

theorem upstreamXgem_keyless (h : x.key = 3 ∨ (x.key ≠ 0 ∧ slotNamed x (flowKeys n g x u) = .empty)) :
    upstreamXgem n k x s = fragDrop n g.term x.portId.toNat (bump (cTree n 0x148) 1 u) := by
  rw [upstreamXgem_keyed w hl hi hp, if_pos h]

theorem upstreamXgem_clear (hk : x.key = 0) : upstreamXgem n k x s =
    if (flowKeys n g x u).encrypt = true then fragDrop n g.term x.portId.toNat (bump (cTree n 0x150) 1 u)
    else reassemble n g x x.data (tribRoute (routeIn (grantPlate u g) u false x.portId.toNat)) u := by
  have h3 : ¬ (x.key = 3 ∨ (x.key ≠ 0 ∧ slotNamed x (flowKeys n g x u) = .empty)) := by
    rw [hk]
    exact fun h => h.elim (by decide) (fun h => h.1 rfl)
  rw [upstreamXgem_keyed w hl hi hp, if_neg h3, if_pos hk]
  exact if_congr (and_iff_right hk) rfl rfl

theorem upstreamXgem_decrypted (hk : x.key = 1 ∨ x.key = 2) (hs : slotNamed x (flowKeys n g x u) ≠ .empty) : upstreamXgem n k x s =
    reassemble n g x
      (xgemCrypt u.power.kwk (if x.key = 1 then (flowKeys n g x u).key0 else (flowKeys n g x u).key1) true g.superframe x.pos x.data)
      (tribRoute (routeIn (grantPlate u g) u false x.portId.toNat)) u := by
  have hk3 : x.key ≠ 3 := by rcases hk with hk | hk <;> rw [hk] <;> decide
  have hk0 : x.key ≠ 0 := by rcases hk with hk | hk <;> rw [hk] <;> decide
  rw [upstreamXgem_keyed w hl hi hp, if_neg (fun h => h.elim hk3 (fun h => hs h.2)), if_neg (fun h => hk0 h.1), if_neg hk0]

end

end

/-! ### Reassembly -/

section
variable {n : Nat} {g : Grant} {x : Xgem} {plain data : List Byte} {isTrib : Bool} {s r : State}

/-- The partial frame of the burst's terminal and the frame's Port-ID. -/
def partOf (s : State) (n : Nat) (g : Grant) (x : Xgem) : Option Frag :=
  (tree s n).frags.find? (fun f => f.term = g.term && f.portId = x.portId.toNat)

/-- What the fragment and the partial frame before it make: its bytes, and the state without the partial frame. -/
structure Joined (n : Nat) (g : Grant) (x : Xgem) (plain data : List Byte) (s r : State) : Prop where
  bytes : ((partOf s n g x).map Frag.data).getD [] ++ plain = data
  taken : updTree n (fun t => { t with frags := t.frags.filter (fun f => !(f.term = g.term && f.portId = x.portId.toNat)) }) s = r

section
variable (j : Joined n g x plain data s r)
include j

theorem reassemble_long (hd : 9600 < data.length) : reassemble n g x plain isTrib s = bump (cbTree n 5) 1 (bump (cbTree n 4) 1 r) := by
  obtain ⟨rfl, rfl⟩ := j
  exact if_pos hd

variable (hd : data.length ≤ 9600)
include hd

theorem reassemble_part (hx : x.last = false) : reassemble n g x plain isTrib s = updTree n (fun t => { t with
    frags := t.frags ++ [{ term := g.term, portId := x.portId.toNat, since := ((partOf s n g x).map Frag.since).getD s.now, data := data }] }) r := by
  obtain ⟨rfl, rfl⟩ := j
  exact (if_neg (Nat.not_lt.2 hd)).trans (if_pos (by simp [hx]))

variable (hx : x.last = true)
include hx

theorem reassemble_bad (hf : fcsGood data = false) (ht : isTrib = false) : reassemble n g x plain isTrib s = bump (cTree n 0x158) 1 r := by
  obtain ⟨rfl, rfl⟩ := j
  exact (if_neg (Nat.not_lt.2 hd)).trans ((if_neg (by simp [hx])).trans (if_pos ⟨congrArg (!·) hf, congrArg (!·) ht⟩))

theorem reassemble_whole (hf : fcsGood data = true ∨ isTrib = true) : reassemble n g x plain isTrib s
    = takeIn { down := false, src := some (128 * n + g.term, g.start, (xgemCws x).1, (xgemCws x).2), old := decide (g.plateStart < s.imprAt) }
        (grantPlate s g) (cbTree n 2) x.portId.toNat data (bump (cbTree n 1) (data.length + 8) r) := by
  have hb : ¬ ((!fcsGood data) = true ∧ (!isTrib) = true) := by
    rcases hf with hf | hf <;> simp [hf]
  have himpr : r.imprAt = s.imprAt := j.taken ▸ updTree_imprAt ..
  have hplate : grantPlate r g = grantPlate s g := j.taken ▸ rfl
  rw [← himpr, ← hplate]
  obtain ⟨rfl, rfl⟩ := j
  exact (if_neg (Nat.not_lt.2 hd)).trans ((if_neg (by simp [hx])).trans (if_neg hb))

end

theorem cntOf_bump_one {a : Nat} (hr : Running r) : (cntOf (bump a 1 r) a).v = (cntOf r a).v + 1 := congrArg Cnt.v (cntOf_bump_same a 1 hr)

/-- The counters of discarded fragments and of frames too long are two. -/
theorem cntOf_bump_discards (hr : Running r) : let t := bump (cbTree n 5) 1 (bump (cbTree n 4) 1 r)
    t = { r with cnt := t.cnt } ∧ (cntOf t (cbTree n 4)).v = (cntOf r (cbTree n 4)).v + 1 ∧ (cntOf t (cbTree n 5)).v = (cntOf r (cbTree n 5)).v + 1 := by
  have hne : cbTree n 4 ≠ cbTree n 5 := by simp [cbTree]
  have hr' : Running (bump (cbTree n 4) 1 r) := (congrArg Power.phase (bump_power ..)).trans hr
  refine ⟨?_, ?_, ?_⟩
  · rw [bump_only, bump_only]
  · rw [cntOf_bump_ne _ _ hne, cntOf_bump_one hr]
  · rw [cntOf_bump_one hr', cntOf_bump_ne _ _ hne.symm]

end

/-! ### The timeout of a partial frame -/

section
variable {n m p : Nat} {s : State}

theorem fragTimeout_none (h : (tree s n).frags.find? (fun f => f.term = m && f.portId = p) = none) : fragTimeout n m p s = s := by
  rw [fragTimeout, h]

/-- A partial frame is discarded 311,040 mc after its first fragment, and counted (R186). -/
theorem fragTimeout_some {f : Frag} (h : (tree s n).frags.find? (fun f => f.term = m && f.portId = p) = some f) :
    fragTimeout n m p s = bump (cbTree n 4) 1 (updTree n (fun x => { x with frags := x.frags.filter (fun f => !(f.term = m && f.portId = p)) })
      (advance (f.since + 311040) s)) := by
  have hany : (tree (advance (f.since + 311040) s) n).frags.any (fun f => f.term = m && f.portId = p) = true :=
    List.any_eq_true.2 ⟨f, List.mem_of_find?_eq_some h, by simpa using List.find?_some h⟩
  rw [fragTimeout, h]
  exact if_pos hany

end

/-! ### Samples of SD -/

section
variable {n a : Nat} {v : Bool} {s : State}

theorem updTree_congr {f g : Tree → Tree} (h : f (tree s n) = g (tree s n)) : updTree n f s = updTree n g s := congrArg (setTree n · s) h

/-- A tree after a sample: whether SD was asserted, samples in a row outside the grant mask and not asserted, and whether an event lasts (R125). -/
def sdTree (up : Bool) (run low : Nat) (held : Bool) (x : Tree) : Tree := { x with sdNow := up, sdRun := run, sdLow := low, sdHeld := held }

/-- A sample moves the three counts of its tree; the eighth in a row outside the mask, where no event lasts, is an event. -/
theorem sdSample_eq {up held : Bool} {run low : Nat} (hu : (v != regBit s (aTREE n + 0x0C) 24) = up)
    (hr : (if up && !inMask s n a then (tree s n).sdRun + 1 else 0) = run) (hl : (if up then 0 else (tree s n).sdLow + 1) = low)
    (hh : ((tree s n).sdHeld && decide (low < 8)) = held) : sdSample n a v s =
    if decide (8 ≤ run) && !held then oogEvent n (updTree n (sdTree up run low (held || (decide (8 ≤ run) && !held))) (advance a s))
    else updTree n (sdTree up run low (held || (decide (8 ≤ run) && !held))) (advance a s) := by
  subst hu hr hl hh
  rfl

/-- SD not asserted: eight such samples in a row end an event. -/
theorem sdSample_low (hu : (v != regBit s (aTREE n + 0x0C) 24) = false) : sdSample n a v s = updTree n (fun x => { x with
    sdNow := false, sdRun := 0, sdLow := x.sdLow + 1, sdHeld := x.sdHeld && decide (x.sdLow + 1 < 8) }) (advance a s) :=
  (sdSample_eq hu rfl rfl rfl).trans (updTree_congr (congrArg (sdTree _ _ _ · _) (Bool.or_false _)))

variable (hu : (v != regBit s (aTREE n + 0x0C) 24) = true)
include hu

/-- SD asserted where the grant mask has it. -/
theorem sdSample_inside (hm : inMask s n a = true) : sdSample n a v s = updTree n (fun x => { x with
    sdNow := true, sdRun := 0, sdLow := 0 }) (advance a s) :=
  (sdSample_eq (run := 0) hu (by simp [hm]) rfl (Bool.and_true _)).trans (updTree_congr (congrArg (sdTree _ _ _ · _) (Bool.or_false _)))

variable (hm : inMask s n a = false)
include hm

/-- SD asserted outside the mask, not yet eight samples in a row or of an event that lasts. -/
theorem sdSample_outside (h : (tree s n).sdRun < 7 ∨ (tree s n).sdHeld = true) : sdSample n a v s = updTree n (fun x => { x with
    sdNow := true, sdRun := x.sdRun + 1, sdLow := 0 }) (advance a s) := by
  have he : (decide (8 ≤ (tree s n).sdRun + 1) && !(tree s n).sdHeld) = false := by
    rcases h with h | h
    · rw [decide_eq_false (by omega), Bool.false_and]
    · rw [h, Bool.not_true, Bool.and_false]
  rw [sdSample_eq (run := (tree s n).sdRun + 1) (low := 0) hu (by simp [hm]) rfl (Bool.and_true _), he]
  exact updTree_congr (congrArg (sdTree _ _ _ · _) (Bool.or_false _))

/-- The eighth sample in a row outside the mask is one OOG event. -/
theorem sdSample_event (h : 7 ≤ (tree s n).sdRun) (hh : (tree s n).sdHeld = false) :
    sdSample n a v s = oogEvent n (updTree n (sdTree true ((tree s n).sdRun + 1) 0 true) (advance a s)) := by
  rw [sdSample_eq (run := (tree s n).sdRun + 1) (low := 0) hu (by simp [hm]) rfl (Bool.and_true _), hh, decide_eq_true (by omega)]
  rfl

end

/-- An OOG event is counted and noted at its tree, and heard in a frame whose grants are withheld (R125, R159). -/
theorem tree_oogEvent (n : Nat) (s : State) : tree (oogEvent n s) n = { tree s n with
    oogImpr := (tree s n).oogImpr + 1, oogAt := some s.now
    rogue := { (tree s n).rogue with heard := (tree s n).rogue.heard || (tree s n).rogue.heldAt.any (fun b =>
      decide (b ≤ s.now) && decide (s.now < b + 155520)) } } := by
  have ht (u : State) (c k i : Nat) (d : List Byte) : tree (event c k i d (bump (cTree n 0x130) 1 u)) n = tree u n := by rw [tree, tree, event_trees, bump_trees]
  rw [oogEvent, tree_updTree, ht, event_now, bump_now]
  rfl

theorem cntOf_oogEvent {n : Nat} {s : State} (hn : n < 64) (hr : Running s) :
    (cntOf (oogEvent n s) (cTree n 0x130)).v = (cntOf s (cTree n 0x130)).v + 1 := by
  have hne : cTree n 0x130 ≠ cHop 0 0x20 := by simp [cTree, cHop]; omega
  rw [oogEvent, cntOf_of_cnt _ (updTree_cnt ..), cntOf_event _ _ _ _ _ hne, cntOf_bump_one hr]

theorem power_oogEvent (n : Nat) (s : State) : (oogEvent n s).power = s.power := by simp [oogEvent]

/-- A sample leaves the unit running and the port in its state. -/
theorem sdSample_keeps (n a : Nat) (v : Bool) (s : State) : (sdSample n a v s).power = s.power ∧ (tree (sdSample n a v s) n).st = (tree s n).st := by
  have hset (up held : Bool) (run low : Nat) : (tree (updTree n (sdTree up run low held) (advance a s)) n).st = (tree s n).st := by rw [tree_updTree]; rfl
  rw [sdSample_eq rfl rfl rfl rfl]
  generalize (decide (8 ≤ _) && !_) = event
  cases event
  · exact ⟨rfl, hset ..⟩
  · exact ⟨power_oogEvent .., (congrArg Tree.st (tree_oogEvent ..)).trans (hset ..)⟩

/-- Samples of a port that is not OFF are taken one after another. -/
theorem exec_oog {n : Fin 64} {s : State} (hr : Running s) (ho : (tree s n.val).st ≠ .off) (a : Nat) (l : List Bool) :
    exec (.oog ⟨n, a, l⟩) s = .next (sdSamples n.val a l s) := (live_running hr).trans (congrArg _ (if_neg ho))

end Sys2Proof.Machine
end

section
/-! PROOFS. The composition of a frame (O40): what its steps leave of the time, of the frames' numbers and of the grants. -/

namespace Sys2Proof.Machine

/-- A quantity that no element moves is not moved by a list of them. -/
theorem foldl_keeps {α β σ : Type} (p : σ → β) {f : σ → α → σ} (h : ∀ s x, p (f s x) = p s) (l : List α) (s : σ) : p (l.foldl f s) = p s := by
  induction l generalizing s with
  | nil => rfl
  | cons x l ih => rw [List.foldl_cons, ih, h]

/-! ### The mill's part of a composition leaves the trees -/

/-- The counter and the trees. -/
def timeTrees (s : State) : Nat × Map Tree := (s.now, s.trees)

theorem timeTrees_of {s t : State} (hn : t.now = s.now) (ht : t.trees = s.trees) : timeTrees t = timeTrees s := by rw [timeTrees, hn, ht]; rfl

theorem timeTrees_bump (a n : Nat) (s : State) : timeTrees (bump a n s) = timeTrees s := timeTrees_of (bump_now ..) (bump_trees ..)

theorem timeTrees_chargeTokens (ks : List Nat) (c : Nat) (s : State) : timeTrees (chargeTokens ks c s) = timeTrees s :=
  foldl_keeps timeTrees (fun s k => by dsimp only; split <;> rfl) ks s

theorem timeTrees_serveCharge (below all : List Nat) (c : Nat) (s : State) : timeTrees (serveCharge below all c s) = timeTrees s := by
  refine (timeTrees_chargeTokens ..).trans (foldl_keeps timeTrees (fun s k => ?_) below s)
  rfl

theorem timeTrees_clearEmpty (ks : List Nat) (left : Nat → Bool) (s : State) : timeTrees (clearEmpty ks left s) = timeTrees s :=
  foldl_keeps timeTrees (fun s k => by dsimp only; split <;> rfl) ks s

theorem timeTrees_clearAlloc (a : Nat) (s : State) : timeTrees (clearAlloc a s) = timeTrees s := timeTrees_clearEmpty ..

theorem timeTrees_drrPick (root : Nat) (hs : List (List Nat × Nat × Bool)) (s : State) : timeTrees (drrPick root hs s).2 = timeTrees s := by
  unfold drrPick
  split <;> rfl

/-- The state of a pair that has been taken apart. -/
theorem timeTrees_of_eq {β : Type} {x : β × State} {b : β} {s t : State} (e : x = (b, t)) (h : timeTrees x.2 = timeTrees s) : timeTrees t = timeTrees s := by
  rwa [e] at h

theorem timeTrees_dynGrant (n b a at_ cls k : Nat) (s : State) : timeTrees (dynGrant n b a at_ cls k s).2 = timeTrees s := timeTrees_bump ..

theorem timeTrees_pollOne (n b w : Nat) (probe : Bool) (others : List (Nat × Nat)) (x : Filling) (e : Nat × ACfg) :
    timeTrees (pollOne n b w probe others x e).s = timeTrees x.s := by
  unfold pollOne
  split
  · rfl
  · dsimp only
    split
    · rfl
    · exact (timeTrees_clearAlloc ..).trans ((timeTrees_chargeTokens ..).trans (timeTrees_dynGrant ..))

theorem timeTrees_dynLoop (n b w : Nat) (dom : Option Nat) (probe : Bool) (others : List (Nat × Nat)) (fuel : Nat) (x : Filling) :
    timeTrees (dynLoop n b w dom probe others fuel x).s = timeTrees x.s := by
  induction fuel generalizing x with
  | zero => rfl
  | succ fuel ih =>
    unfold dynLoop
    dsimp only
    split
    · rfl
    · split
      · next s' he => exact timeTrees_of_eq he (timeTrees_drrPick ..)
      · next leaf ch s' he =>
        have hs : timeTrees s' = timeTrees x.s := timeTrees_of_eq he (timeTrees_drrPick ..)
        split
        · exact hs
        · rw [ih, timeTrees_clearAlloc, timeTrees_dynGrant, timeTrees_serveCharge, hs]

theorem timeTrees_fillWindow (n at_ : Nat) (probe : Bool) (others : List (Nat × Nat)) (x : List Grant × State) (q : SlackUp) :
    timeTrees (fillWindow n at_ probe others x q).2 = timeTrees x.2 :=
  (timeTrees_dynLoop ..).trans ((foldl_keeps (fun f : Filling => timeTrees f.s) (fun _ _ => timeTrees_pollOne ..) _ _).trans (timeTrees_bump ..))

theorem timeTrees_polledBy (n : Nat) (g : Grant) (s : State) : timeTrees (polledBy n g s) = timeTrees s :=
  foldl_keeps timeTrees (fun s a => by dsimp only; split <;> rfl) _ s

theorem timeTrees_composeGrants (n f at_ : Nat) (p : Plate) (s : State) : timeTrees (composeGrants n f at_ p s).2 = timeTrees s := by
  unfold composeGrants
  exact (timeTrees_bump ..).trans ((foldl_keeps (fun x : List Grant × State => timeTrees x.2) (fun _ _ => timeTrees_fillWindow ..) _ _).trans
    (foldl_keeps timeTrees (fun _ _ => timeTrees_polledBy ..) _ _))

theorem timeTrees_rdiCapture (p : Plate) (n b : Nat) (s : State) : timeTrees (rdiCapture p n b s) = timeTrees s := by
  refine foldl_keeps timeTrees (fun s r => ?_) _ s
  rfl

/-! ### Windows and PLOAM messages leave the mill and the tree's grants -/

/-- The counter, the mill, and the superframe counter and the grants of tree n. -/
def framing (n : Nat) (s : State) : Nat × Mill × Nat × List Grant := (s.now, s.mill, (tree s n).superframe, (tree s n).grants)

theorem framing_updTree_eq (n : Nat) (f : Tree → Tree) (s : State) :
    framing n (updTree n f s) = (s.now, s.mill, (f (tree s n)).superframe, (f (tree s n)).grants) := by
  rw [framing, tree_updTree]
  rfl

theorem framing_updTree {n : Nat} {f : Tree → Tree} {s : State} (hs : (f (tree s n)).superframe = (tree s n).superframe)
    (hg : (f (tree s n)).grants = (tree s n).grants) : framing n (updTree n f s) = framing n s := by
  rw [framing_updTree_eq, hs, hg]
  rfl

theorem framing_updTerm (n g : Nat) (f : Term → Term) (s : State) : framing n (updTerm g f s) = framing n s := rfl

theorem framing_queueMsg (n : Nat) (slot : Option Nat) (k : PKind) (v : Nat) (s : State) : framing n (queueMsg n slot k v s) = framing n s :=
  framing_updTree rfl rfl

theorem framing_planWindow (n : Nat) (held : List Nat) (x : List Window × State) (p : Nat × Nat × Nat) :
    framing n (planWindow n held x p).2 = framing n x.2 := by
  unfold planWindow
  dsimp only
  split
  · refine (framing_updTree rfl rfl).trans ((foldl_keeps (framing n) (fun _ _ => framing_queueMsg ..) _ _).trans (framing_updTree rfl rfl))
  · dsimp only
    split
    · rfl
    · exact framing_updTree rfl rfl

theorem framing_queueProfiles (n f : Nat) (s : State) : framing n (queueProfiles n f s) = framing n s := by
  have hq (c : Bool) (k : PKind) (s : State) : framing n (if c then s else queueMsg n none k 0 s) = framing n s := by
    split
    · rfl
    · exact framing_queueMsg ..
  unfold queueProfiles
  dsimp only
  split
  · rfl
  · exact (hq ..).trans (hq ..)

theorem framing_sentMsg (n : Nat) (m : PMsg) (s : State) : framing n (sentMsg n m s) = framing n s := by
  unfold sentMsg
  split
  · rfl
  · split
    · rfl
    · exact (framing_updTerm ..).trans (framing_updTree rfl rfl)

theorem framing_composePloam (n f b : Nat) (s : State) : framing n (composePloam n f b s) = framing n s :=
  (foldl_keeps (framing n) (fun _ _ => framing_sentMsg ..) _ _).trans ((framing_updTree rfl rfl).trans (framing_queueProfiles ..))

theorem framing_withholdIn (n b : Nat) (probe : Bool) (span : Nat × Nat) (s : State) : framing n (withholdIn n b probe span s) = framing n s :=
  framing_updTree (by split <;> rfl) (by split <;> rfl)

/-! ### The composition -/

section
variable {n : Nat} {s : State}

theorem frameCompose_idle (h : stAt s n (composeAt s n) = .off ∨ stAt s n (composeAt s n) = .dark) : frameCompose n s = s :=
  if_pos (by rcases h with h | h <;> rw [h] <;> rfl)

/-- The state once the windows of the frame composed next are planned and its PLOAM messages taken: the counter stands DS_BUILD before the frame, and
grants of past frames are gone (R99). -/
structure Planned (n : Nat) (s u : State) : Prop where
  now : u.now = max s.now (composeAt s n - Config.DS_BUILD)
  mill : u.mill = s.mill
  superframe : (tree u n).superframe = (tree s n).superframe
  grants : ∀ g ∈ (tree u n).grants, g ∈ (tree s n).grants

/-- Dropping what has passed, withholding grants, planning windows and taking PLOAM messages come to such a state. -/
theorem planned_steps {F : Tree → Tree} (hs : (F (tree s n)).superframe = (tree s n).superframe)
    (hg : ∀ g ∈ (F (tree s n)).grants, g ∈ (tree s n).grants) (f b : Nat) (held : List Nat) (ws : List (Nat × Nat × Nat)) (probe : Bool)
    (span : Nat × Nat) : Planned n s (composePloam n f b (ws.foldl (planWindow n held)
      ([], withholdIn n b probe span (updTree n F (advance (composeAt s n - Config.DS_BUILD) s)))).2) := by
  generalize hu : composePloam n f b _ = u
  have hf : framing n u = (max s.now (composeAt s n - Config.DS_BUILD), s.mill, (tree s n).superframe, (F (tree s n)).grants) := by
    rw [← hu, framing_composePloam, foldl_keeps (fun x : List Window × State => framing n x.2) (fun _ _ => framing_planWindow ..), framing_withholdIn,
      framing_updTree_eq]
    exact congrArg (fun x => (_, _, x, _)) hs
  simp only [framing, Prod.mk.injEq] at hf
  obtain ⟨hnow, hmill, hsuper, hgrants⟩ := hf
  exact ⟨hnow, hmill, hsuper, by rwa [hgrants]⟩

/-- What the frame composed next leaves in its tree. -/
structure Finishes (n : Nat) (s : State) (f : Tree → Tree) : Prop where
  frameAt : ∀ t, (f t).frameAt = composeAt s n
  frame : ∀ t, (f t).frame = frameIx s (composeAt s n)
  superframe : ∀ t, (f t).superframe = (t.superframe + 1) % 2 ^ 32
  line : ∀ t, (f t).lineNext.map (fun x => (x.at_, x.superframe)) = some (composeAt s n, (t.superframe + 1) % 2 ^ 32)

/-- On a LIT tree nothing is granted (R99). -/
theorem frameCompose_lit (h : stAt s n (composeAt s n) = .lit) : ∃ u c f, Planned n s u ∧ Finishes n s f ∧ (∀ t, (f t).grants = t.grants)
    ∧ frameCompose n s = updTree n f (bump (cbRx n) c u) := by
  unfold frameCompose
  dsimp only
  simp only [h, reduceCtorEq, if_false]
  refine ⟨_, _, _, ?_, ?_, ?_, (if_neg (by decide)).trans rfl⟩
  · exact planned_steps (by rfl) (fun _ => List.mem_of_mem_filter) ..
  · exact ⟨fun _ => rfl, fun _ => rfl, fun _ => rfl, fun _ => rfl⟩
  · exact fun _ => List.append_nil _

/-- A SERVING tree is named by a plate (R94). -/
theorem plateAt_serving (h : stAt s n (composeAt s n) = .serving) : ∃ p, plateAt s (composeAt s n) = some p := by
  cases hp : plateAt s (composeAt s n) with
  | some p => exact ⟨p, rfl⟩
  | none =>
    have hlit (x : TreeSt) : (if x = .serving then TreeSt.lit else x) ≠ .serving := by cases x <;> decide
    simp only [stAt, hp, Option.any_none, Bool.not_false, and_true] at h
    exact absurd h (hlit _)

/-- What composes grants leaves the counter and the trees. -/
theorem composed_of {u v : State} (ht : timeTrees v = timeTrees u) (hu : Planned n s u) :
    v.now = max s.now (composeAt s n - Config.DS_BUILD) ∧ (tree v n).superframe = (tree s n).superframe := by
  obtain ⟨hnow, htrees⟩ := Prod.mk.inj ht
  exact ⟨hnow.trans hu.now, (congrArg (fun m => (mget {} m n).superframe) htrees).trans hu.superframe⟩

/-- On a SERVING tree the grants of its plate are composed besides. -/
theorem frameCompose_serving (h : stAt s n (composeAt s n) = .serving) : ∃ v c f,
    (v.now = max s.now (composeAt s n - Config.DS_BUILD) ∧ (tree v n).superframe = (tree s n).superframe) ∧ Finishes n s f
      ∧ frameCompose n s = updTree n f (bump (cbRx n) c v) := by
  obtain ⟨p, hp⟩ := plateAt_serving h
  have hp : plateAt (advance (composeAt s n - Config.DS_BUILD) s) (composeAt s n) = some p := hp
  unfold frameCompose
  dsimp only
  simp only [h, hp, if_true]
  refine ⟨_, _, _, ?_, ?_, (if_neg (by decide)).trans rfl⟩
  · exact composed_of ((timeTrees_composeGrants ..).trans (timeTrees_rdiCapture ..)) (planned_steps (by rfl) (fun _ => List.mem_of_mem_filter) ..)
  · exact ⟨fun _ => rfl, fun _ => rfl, fun _ => rfl, fun _ => rfl⟩

end

end Sys2Proof.Machine
end

section
/-! PROOFS. The events of the tree side: upstream content, its timeout, energy outside the grants, and the frame composed next (O40). -/

namespace Sys2Proof.Machine

/-- The eighth sample in a row outside the mask: what is counted, and what the tree comes to. -/
theorem oogEvent_of_sample {n : Nat} {s : State} (hn : n < 64) (hr : Running s) (a : Nat) : ∃ t,
    oogEvent n (updTree n (sdTree true ((tree s n).sdRun + 1) 0 true) (advance a s)) = t
      ∧ (cntOf t (cTree n 0x130)).v = (cntOf s (cTree n 0x130)).v + 1
      ∧ tree t n = { tree s n with sdNow := true, sdRun := (tree s n).sdRun + 1, sdLow := 0, sdHeld := true, oogImpr := (tree s n).oogImpr + 1,
                                   oogAt := some (max s.now a),
                                   rogue := { (tree s n).rogue with heard := (tree s n).rogue.heard || (tree s n).rogue.heldAt.any (fun b =>
                                     decide (b ≤ max s.now a) && decide (max s.now a < b + 155520)) } } := by
  refine ⟨_, rfl, cntOf_oogEvent hn hr, ?_⟩
  rw [tree_oogEvent, tree_updTree]
  rfl

theorem tree_updTree_bump (n a c : Nat) (f : Tree → Tree) (s : State) : tree (updTree n f (bump a c s)) n = f (tree s n) := by
  rw [tree_updTree, tree, bump_trees]
  rfl

/-- Settles O40: each event in the cases that its own rule has. -/
theorem treeEventsRun : Obligations.TreeEventsRun := by
  unfold Obligations.TreeEventsRun
  refine ⟨?nothing, ?judged, ?reassembled, ?timedOut, ?noPart, ?noSample, ?oneByOne, ?sample, ?lit, ?serving, ?idle⟩
  case nothing => exact fun n k x s hr h => (live_running hr).trans (congrArg _ (upstreamXgem_nothing h))
  case judged =>
    intro n k g x s hr hg hf hx u p ks isTrib
    have w : Within n.val k g x s u := ⟨hg, hf, hx, rfl⟩
    have he : exec (.upstreamXgem n k x) s = .next (upstreamXgem n.val k x s) := live_running hr
    rw [he]
    refine ⟨fun hl => congrArg _ (upstreamXgem_lost w hl), fun hl hi => congrArg _ (upstreamXgem_idle w hl hi),
      fun hl hi hp => congrArg _ (upstreamXgem_misrouted w hl hi hp), fun hl hi hp => ?_⟩
    refine ⟨fun h => congrArg _ (upstreamXgem_keyless w hl hi hp h), fun hk he => ?_, fun hk he => ?_,
      fun hk hs => congrArg _ (upstreamXgem_decrypted w hl hi hp hk hs)⟩
    · exact congrArg _ ((upstreamXgem_clear w hl hi hp hk).trans (if_pos he))
    · exact congrArg _ ((upstreamXgem_clear w hl hi hp hk).trans (if_neg (ne_true_of_eq_false he)))
  case reassembled =>
    intro n g x plain isTrib s hr p old data left r
    have j : Joined n g x plain data s r := ⟨rfl, rfl⟩
    refine ⟨fun hd => ?_, fun hd hx => ?_, fun hd hx hf ht => ?_, fun hd hx hf => ?_⟩
    · exact ⟨_, reassemble_long j hd, cntOf_bump_discards (r := r) hr⟩
    · exact reassemble_part j hd hx
    · exact reassemble_bad j hd hx hf ht
    · exact reassemble_whole j hd hx hf
  case timedOut =>
    intro n m p f s hr h
    refine ⟨_, (live_running hr).trans (congrArg _ (fragTimeout_some h)), by rw [bump_now]; rfl, ?_, ?_⟩
    · rw [tree, bump_trees]
      exact congrArg Tree.frags (tree_updTree ..)
    · exact cntOf_bump_one (r := updTree n.val _ (advance _ s)) hr
  case noPart => exact fun n m p s hr h => (live_running hr).trans (congrArg _ (fragTimeout_none h))
  case noSample =>
    intro n a l s hr h
    refine (live_running hr).trans (congrArg _ ?_)
    rcases h with h | rfl
    · exact if_pos h
    · exact ite_self s
  case oneByOne =>
    intro n a v l s hr ho
    obtain ⟨hpower, hst⟩ := sdSample_keeps n.val a v s
    refine ⟨sdSample n.val a v s, exec_oog hr ho a [v], ?_⟩
    rw [exec_oog hr ho, exec_oog ((congrArg Power.phase hpower).trans hr) (hst ▸ ho)]
    rfl
  case sample =>
    intro n a v s hr ho up out r h g
    have he : exec (.oog ⟨n, a, [v]⟩) s = .next (sdSample n.val a v s) := exec_oog hr ho a [v]
    rw [he]
    have outside (ho : out = true) : up = true ∧ inMask s n.val a = false := by simpa [out] using ho
    refine ⟨fun hu => congrArg _ (sdSample_low hu), fun hu hm => congrArg _ (sdSample_inside hu hm), fun ho h => ?_, fun ho h7 hh => ?_⟩
    · exact congrArg _ (sdSample_outside (outside ho).1 (outside ho).2 h)
    · obtain ⟨t, ht, hc, htree⟩ := oogEvent_of_sample n.isLt hr a
      exact ⟨t, congrArg _ ((sdSample_event (outside ho).1 (outside ho).2 h7 hh).trans ht), hc, htree⟩
  case lit =>
    intro n s hr h
    obtain ⟨u, c, f, hp, hf, hg, he⟩ := frameCompose_lit h
    have ht := tree_updTree_bump n.val (cbRx n.val) c f u
    refine ⟨_, (live_running hr).trans (congrArg _ he), ?_, ?_, ?_, ?_, ?_, ?_, ?_⟩
    · rw [updTree_now, bump_now, hp.now]
    · rw [ht, hf.frameAt]
    · rw [ht, hf.frame]
    · rw [ht, hf.superframe, hp.superframe]
    · rw [updTree_mill, bump_mill, hp.mill]
    · rw [ht, hg]
      exact hp.grants
    · rw [ht, hf.line, hp.superframe]
  case serving =>
    intro n s hr h
    obtain ⟨v, c, f, ⟨hnow, hsuper⟩, hf, he⟩ := frameCompose_serving h
    have ht := tree_updTree_bump n.val (cbRx n.val) c f v
    refine ⟨_, (live_running hr).trans (congrArg _ he), ?_, ?_, ?_, ?_⟩
    · rw [updTree_now, bump_now, hnow]
    · rw [ht, hf.frameAt]
    · rw [ht, hf.superframe, hsuper]
    · rw [ht, hf.line, hsuper]
  case idle => exact fun n s hr h => (live_running hr).trans (congrArg _ (frameCompose_idle h))

end Sys2Proof.Machine
end

section
/-! PROOFS. What a defect that is declared or cleared leaves: the trees, the terminals but for the runs that feed their defects, and the rest of the
state. -/

namespace Sys2Proof.Machine

/-! ### Reading the tables of a state -/

section
variable {s t : State}

theorem tree_of_trees (h : t.trees = s.trees) (n : Nat) : tree t n = tree s n := by rw [tree, tree, h]

theorem term_of_terms (h : t.terms = s.terms) (g : Nat) : term t g = term s g := by rw [term, term, h]

theorem keySet_of_keys (h : t.keys = s.keys) (i : Nat) : keySet t i = keySet s i := by rw [keySet, keySet, h]

theorem streamPush_only (b : Rec) (s : State) : streamPush b s = { s with pair := (streamPush b s).pair, cnt := (streamPush b s).cnt } :=
  streamAt_only ..

end

section
variable (b : Rec) (s : State)

@[simp] theorem streamPush_trees : (streamPush b s).trees = s.trees := by rw [streamPush_only]
@[simp] theorem streamPush_terms : (streamPush b s).terms = s.terms := by rw [streamPush_only]
@[simp] theorem streamPush_taps : (streamPush b s).taps = s.taps := by rw [streamPush_only]
@[simp] theorem tellTerm_trees (g : Nat) : (tellTerm g s).trees = s.trees := streamPush_trees ..
@[simp] theorem tellTerm_terms (g : Nat) : (tellTerm g s).terms = s.terms := streamPush_terms ..
@[simp] theorem tellTerm_taps (g : Nat) : (tellTerm g s).taps = s.taps := streamPush_taps ..

end

/-! ### Counters -/

/-- t has the counters of s but for the drops of the event hopper and of the state stream's. -/
structure KeepsCounts (s t : State) : Prop where
  count : ∀ a, a ≠ cHop 0 0x20 → a ≠ cHop 0x20 0x20 → cntOf t a = cntOf s a

section
variable {s t u : State}

theorem KeepsCounts.refl : KeepsCounts s s := ⟨fun _ _ _ => rfl⟩

theorem KeepsCounts.trans (h : KeepsCounts s t) (k : KeepsCounts t u) : KeepsCounts s u := ⟨fun a h0 h1 => (k.count a h0 h1).trans (h.count a h0 h1)⟩

theorem keepsCounts_of_cnt (h : t.cnt = s.cnt) : KeepsCounts s t := ⟨fun a _ _ => cntOf_of_cnt s h a⟩

theorem keepsCounts_evtRaw (code cls b0 b1 idx : Nat) (d : List Byte) (l : List (Nat × Word)) (s : State) :
    KeepsCounts s (evtRaw code cls b0 b1 idx d l s) := by
  refine ⟨fun a h0 _ => ?_⟩
  unfold evtRaw
  dsimp only
  split
  · rw [cntOf_evtPush _ _ _ h0]
    exact cntOf_of_cnt s (cnt_scEvents s _) a
  · rw [cntOf_evtPush _ _ _ h0]
    exact cntOf_of_cnt s (cnt_scEvents s _) a

theorem keepsCounts_event (code cls idx : Nat) (d : List Byte) (s : State) : KeepsCounts s (event code cls idx d s) := keepsCounts_evtRaw ..

theorem keepsCounts_sendRec (r : StreamRec) (s : State) : KeepsCounts s (sendRec s r) := by
  unfold sendRec
  dsimp only
  split
  · exact keepsCounts_of_cnt rfl
  · exact ⟨fun a _ h1 => cntOf_bump_ne _ _ h1⟩

theorem keepsCounts_sendRecs (l : List StreamRec) (s : State) : KeepsCounts s (sendRecs l s) := by
  unfold sendRecs
  induction l generalizing s with
  | nil => exact .refl
  | cons r l ih => exact (keepsCounts_sendRec r s).trans (ih _)

end

/-! ### Declaring and clearing -/

/-- Nothing but defects, what tells of them, and what feeds them in trees, terminals and tributaries lies between s and t. -/
structure Declares (s t : State) : Prop where
  only : t = { s with regs := t.regs, cnt := t.cnt, evt := t.evt, evtRun := t.evtRun, free := t.free, cmd := { s.cmd with msix := t.cmd.msix },
                      trees := t.trees, terms := t.terms, tribs := t.tribs, defects := t.defects, pair := t.pair }
  counts : KeepsCounts s t

section
variable {s t u : State}

theorem Declares.refl : Declares s s := ⟨rfl, .refl⟩

theorem Declares.trans (h : Declares s t) (k : Declares t u) : Declares s u := by
  refine ⟨?_, h.counts.trans k.counts⟩
  rw [k.only, h.only]

theorem Declares.foldl {α : Type} {f : State → α → State} (h : ∀ s x, Declares s (f s x)) (l : List α) (s : State) : Declares s (l.foldl f s) := by
  induction l generalizing s with
  | nil => exact .refl
  | cons x l ih => exact (h s x).trans (ih _)

theorem Declares.now (h : Declares s t) : t.now = s.now := by rw [h.only]
theorem Declares.taps (h : Declares s t) : t.taps = s.taps := by rw [h.only]
theorem Declares.keys (h : Declares s t) : t.keys = s.keys := by rw [h.only]
theorem Declares.mill (h : Declares s t) : t.mill = s.mill := by rw [h.only]
theorem Declares.plates (h : Declares s t) : t.plates = s.plates := by rw [h.only]
theorem Declares.power (h : Declares s t) : t.power = s.power := by rw [h.only]

theorem Reports.declares (h : Reports s t) (k : KeepsCounts s t) : Declares s t := by
  refine ⟨?_, k⟩
  unfold Reports at h
  rw [h]

theorem declares_sendRecs (l : List StreamRec) (s : State) : Declares s (sendRecs l s) :=
  ⟨by rw [sendRecs_only], keepsCounts_sendRecs l s⟩

theorem declares_tellDefect (cls n code : Nat) (on : Bool) (s : State) : Declares s (tellDefect cls n code on s) := by
  unfold tellDefect
  split
  · exact declares_sendRecs ..
  · exact .refl

theorem declares_defEvent (set : Bool) (cls idx code cause : Nat) (s : State) : Declares s (defEvent set cls idx code cause s) :=
  (defEvent_reports ..).declares (keepsCounts_evtRaw ..)

theorem declares_updTree (n : Nat) (f : Tree → Tree) (s : State) : Declares s (updTree n f s) := ⟨rfl, keepsCounts_of_cnt rfl⟩
theorem declares_updTerm (g : Nat) (f : Term → Term) (s : State) : Declares s (updTerm g f s) := ⟨rfl, keepsCounts_of_cnt rfl⟩
theorem declares_setTerms (l : Map Term) (s : State) : Declares s { s with terms := l } := ⟨rfl, keepsCounts_of_cnt rfl⟩
theorem declares_setTrib (i : Nat) (x : Trib) (s : State) : Declares s (setTrib i x s) := ⟨rfl, keepsCounts_of_cnt rfl⟩
theorem declares_tribsAfresh (f : Nat → Bool) (s : State) : Declares s (tribsAfresh f s) := ⟨rfl, keepsCounts_of_cnt rfl⟩
theorem declares_estEmpty (f : Nat → Bool) (s : State) : Declares s (estEmpty f s) := ⟨rfl, keepsCounts_of_cnt rfl⟩

theorem declares_estLift (cls idx code : Nat) (s : State) : Declares s (estLift cls idx code s) := by
  unfold estLift
  split
  · exact .trans (.trans (.trans (declares_setTerms ..) (declares_estEmpty ..)) (declares_updTree ..)) (declares_tribsAfresh ..)
  split
  · exact .trans (.trans (declares_estEmpty ..) (declares_updTerm ..)) (declares_tribsAfresh ..)
  split
  · exact declares_setTrib ..
  split
  · exact declares_setTrib ..
  split
  · exact declares_estEmpty ..
  · exact .refl

theorem declares_defClear (cls idx code cause : Nat) (s : State) : Declares s (defClear cls idx code cause s) := by
  unfold defClear
  split
  · dsimp only
    refine .trans (.trans (.trans ?_ (declares_estLift ..)) (declares_defEvent ..)) (declares_tellDefect ..)
    exact ⟨rfl, keepsCounts_of_cnt rfl⟩
  · exact .refl

theorem declares_defLeave (cls idx : Nat) (s : State) : Declares s (defLeave cls idx s) := .foldl (fun s c => declares_defClear cls idx c 2 s) _ s

theorem declares_sweepMasked (s : State) : Declares s (sweepMasked s) := by
  unfold sweepMasked
  refine .foldl (fun s e => ?_) _ s
  dsimp only
  split
  · exact declares_defClear ..
  · exact .refl

theorem declares_defSet (cls idx code : Nat) (s : State) : Declares s (defSet cls idx code s) := by
  unfold defSet
  split
  · exact .refl
  · dsimp only
    refine .trans (.trans (.trans ?_ (declares_defEvent ..)) (declares_tellDefect ..)) (declares_sweepMasked _)
    exact ⟨rfl, keepsCounts_of_cnt rfl⟩

end

/-! ### The runs of a terminal's defects -/

/-- t has the trees of s, and its terminals but for the runs that a lifted mask starts afresh (R195). -/
structure KeepsTerms (s t : State) : Prop where
  trees : t.trees = s.trees
  terms : ∀ g, termAfresh (term t g) = termAfresh (term s g)

section
variable {s t u : State}

theorem KeepsTerms.refl : KeepsTerms s s := ⟨rfl, fun _ => rfl⟩

theorem KeepsTerms.trans (h : KeepsTerms s t) (k : KeepsTerms t u) : KeepsTerms s u := ⟨k.trees.trans h.trees, fun g => (k.terms g).trans (h.terms g)⟩

theorem KeepsTerms.foldl {α : Type} {f : State → α → State} {l : List α} (h : ∀ s, ∀ x ∈ l, KeepsTerms s (f s x)) (s : State) :
    KeepsTerms s (l.foldl f s) := by
  induction l generalizing s with
  | nil => exact .refl
  | cons x l ih => exact (h s x List.mem_cons_self).trans (ih (fun s y hy => h s y (List.mem_cons_of_mem _ hy)) _)

/-- What of a terminal no run feeds is as it was. -/
theorem KeepsTerms.proj {α : Type} (h : KeepsTerms s t) (p : Term → α) (hp : ∀ x, p (termAfresh x) = p x) (g : Nat) : p (term t g) = p (term s g) := by
  rw [← hp (term t g), h.terms, hp]

theorem KeepsTerms.tree (h : KeepsTerms s t) (n : Nat) : tree t n = tree s n := tree_of_trees h.trees n

theorem KeepsTerms.st (h : KeepsTerms s t) (g : Nat) : (term t g).st = (term s g).st := h.proj Term.st (fun _ => rfl) g

theorem Reports.keepsTerms (h : Reports s t) : KeepsTerms s t := by
  unfold Reports at h
  rw [h]
  exact ⟨rfl, fun _ => rfl⟩

theorem keepsTerms_tellDefect (cls n code : Nat) (on : Bool) (s : State) : KeepsTerms s (tellDefect cls n code on s) := by
  unfold tellDefect
  split
  · rw [sendRecs_only]
    exact ⟨rfl, fun _ => rfl⟩
  · exact .refl

/-- A mask lifted from one terminal. -/
theorem keepsTerms_updTerm {g : Nat} {f : Term → Term} (hf : ∀ x, termAfresh (f x) = termAfresh x) (s : State) : KeepsTerms s (updTerm g f s) := by
  refine ⟨rfl, fun j => ?_⟩
  by_cases hj : j = g
  · rw [hj, term_updTerm, hf]
  · rw [term_updTerm_ne _ _ hj]

theorem keepsTerms_setTrib (i : Nat) (x : Trib) (s : State) : KeepsTerms s (setTrib i x s) := ⟨rfl, fun _ => rfl⟩
theorem keepsTerms_tribsAfresh (f : Nat → Bool) (s : State) : KeepsTerms s (tribsAfresh f s) := ⟨rfl, fun _ => rfl⟩
theorem keepsTerms_estEmpty (f : Nat → Bool) (s : State) : KeepsTerms s (estEmpty f s) := ⟨rfl, fun _ => rfl⟩

/-- Only where TR_LOS clears do the terminals of a whole tree start afresh. -/
theorem keepsTerms_estLift {cls code : Nat} (h : ¬(cls = 1 ∧ code = TR_LOS)) (idx : Nat) (s : State) : KeepsTerms s (estLift cls idx code s) := by
  unfold estLift
  rw [if_neg h]
  split
  · exact .trans (.trans (keepsTerms_estEmpty ..) (keepsTerms_updTerm (by intros; rfl) _)) (keepsTerms_tribsAfresh ..)
  split
  · exact keepsTerms_setTrib ..
  split
  · exact keepsTerms_setTrib ..
  split
  · exact keepsTerms_estEmpty ..
  · exact .refl

theorem keepsTerms_defClear {cls code : Nat} (h : ¬(cls = 1 ∧ code = TR_LOS)) (idx cause : Nat) (s : State) :
    KeepsTerms s (defClear cls idx code cause s) := by
  unfold defClear
  split
  · dsimp only
    refine .trans (.trans (.trans ?_ (keepsTerms_estLift h ..)) (defEvent_reports ..).keepsTerms) (keepsTerms_tellDefect ..)
    exact ⟨rfl, fun _ => rfl⟩
  · exact .refl

/-- Nothing masks TR_LOS. -/
theorem masked_trLos (idx : Nat) (s : State) : masked s 1 idx TR_LOS = false := rfl

theorem keepsTerms_sweepMasked (s : State) : KeepsTerms s (sweepMasked s) := by
  unfold sweepMasked
  refine .foldl (fun s e _ => ?_) s
  dsimp only
  split
  next hm =>
    refine keepsTerms_defClear ?_ ..
    rintro ⟨h1, hc⟩
    rw [h1, hc, masked_trLos] at hm
    exact Bool.false_ne_true hm
  · exact .refl

theorem keepsTerms_defSet (cls idx code : Nat) (s : State) : KeepsTerms s (defSet cls idx code s) := by
  unfold defSet
  split
  · exact .refl
  · dsimp only
    refine .trans (.trans (.trans ?_ (defEvent_reports ..).keepsTerms) (keepsTerms_tellDefect ..)) (keepsTerms_sweepMasked _)
    exact ⟨rfl, fun _ => rfl⟩

/-- A terminal that leaves service keeps its tree's terminals. -/
theorem keepsTerms_defLeave (g : Nat) (s : State) : KeepsTerms s (defLeave 2 g s) :=
  .foldl (fun s _ _ => keepsTerms_defClear (fun h => absurd h.1 (by decide)) g 2 s) s

end

end Sys2Proof.Machine
end

section
/-! PROOFS. A terminal's change of state, its ranging and its discovery (Table 4.3): what they make of the terminal, and what they leave. -/

namespace Sys2Proof.Machine

/-! ### Part of a tree or of a terminal -/

section
variable {α : Type}

/-- What an update of one tree leaves alone. -/
theorem updTree_proj {f : Tree → Tree} (p : Tree → α) (n m : Nat) (s : State) (hf : ∀ x, p (f x) = p x := by intro; rfl) :
    p (tree (updTree n f s) m) = p (tree s m) := by
  by_cases hm : m = n
  · rw [hm, tree_updTree, hf]
  · rw [tree_updTree_ne _ _ hm]

/-- What an update of one terminal leaves alone. -/
theorem updTerm_proj {f : Term → Term} (p : Term → α) (g j : Nat) (s : State) (hf : ∀ x, p (f x) = p x := by intro; rfl) :
    p (term (updTerm g f s) j) = p (term s j) := by
  by_cases hj : j = g
  · rw [hj, term_updTerm, hf]
  · rw [term_updTerm_ne _ _ hj]

end

/-- A terminal but for the runs of its defects and the messages whose acknowledgement it awaits. -/
def Term.bare (x : Term) : Term :=
  { x with awaits := [], losRun := 0, lobRun := 0, lobSd := false, foundRun := 0, rdiRun := 0, rdiClr := 0, driftOk := 0 }

theorem KeepsTerms.bare {s t : State} (h : KeepsTerms s t) (g : Nat) : (term t g).bare = (term s g).bare := h.proj Term.bare (fun _ => rfl) g

/-! ### Messages -/

section
variable (n : Nat) (slot : Option Nat) (k : PKind) (v : Nat) (s : State)

@[simp] theorem queueMsg_taps : (queueMsg n slot k v s).taps = s.taps := rfl
@[simp] theorem term_queueMsg (g : Nat) : term (queueMsg n slot k v s) g = term s g := rfl

end

section
variable (g : Nat) (f : PKind → Bool) (s : State)

@[simp] theorem dropMsgs_taps : (dropMsgs g f s).taps = s.taps := (updTerm_taps ..).trans (updTree_taps ..)

theorem term_dropMsgs : term (dropMsgs g f s) g = { term s g with awaits := (term s g).awaits.filter (fun a => !f a.msg.kind) } :=
  term_updTerm ..

theorem dropTaps_invalid : (mget {} (dropTaps g s).taps g).valid = false := by rw [dropTaps, mget_mupd_same]

end

theorem sendProfiles_terms (g : Nat) (l : List Nat) (c : Bool) (r : Nat) (s : State) : (sendProfiles g l c r s).terms = s.terms :=
  foldl_keeps State.terms (by intros; rfl) l s

theorem sendProfiles_taps (g : Nat) (l : List Nat) (c : Bool) (r : Nat) (s : State) : (sendProfiles g l c r s).taps = s.taps :=
  foldl_keeps State.taps (by intros; rfl) l s

theorem sendAct_terms (g : Nat) (k : PKind) (s : State) : (sendAct g k s).terms = s.terms := by
  unfold sendAct
  split
  · exact sendProfiles_terms ..
  · rfl
  · rfl

/-! ### The change of state -/

section
variable (g : Nat) (st : TermSt) (s : State)

/-- The defects of a terminal as its new state leaves them. -/
theorem termService_keeps : Declares s (termService g st s) ∧ (∀ j, (term (termService g st s) j).bare = (term s j).bare)
    ∧ (termService g st s).trees = s.trees := by
  unfold termService
  split
  · have h := keepsTerms_defClear (fun h => absurd h.1 (by decide)) g 0 s (cls := 2) (code := TM_LOS)
    exact ⟨declares_defClear .., h.bare, h.trees⟩
  · split
    · exact ⟨.refl, fun _ => rfl, rfl⟩
    · have hd := declares_defLeave 2 g s
      have h := keepsTerms_defLeave g s
      generalize defLeave 2 g s = u at hd h
      exact ⟨hd.trans ⟨rfl, keepsCounts_of_cnt rfl⟩, fun j => (updTerm_proj Term.bare g j (estDrop 2 g u)).trans (h.bare j), h.trees⟩

end

/-- A terminal as it enters a state, with the delimiter count and sum from which its drift is evaluated (Table 4.3, R141, R142, R152). -/
def enters (st : TermSt) (n : Nat) (d : Int) (x : Term) : Term :=
  let out := st = .unseen ∨ st = .disabled ∨ st = .rogue
  let x := { x with st := st, timer := 0, activeDue := none, actAsked := false }
  let x := if out then { x with eqd := 0, eqdAck := 0, wasActive := false, tries := 0, rateNext := none } else x
  let x := if out ∨ st = .discovered then { x with rangeAcked := false, actLeft := [], actFailed := false, allocsSent := false } else x
  if st = .active then { x with wasActive := true, tries := 0, dlmN := n, dlmS := d } else x

theorem enters_st (st : TermSt) (n : Nat) (d : Int) (x : Term) : (enters st n d x).st = st := by cases st <;> rfl

/-- The messages a state change sends: Disable or Deactivate (Table 4.3). -/
def movedMsg (g : Nat) (st old : TermSt) (s : State) : State :=
  if st = .disabled then queueMsg (g / 128) (some (g % 128)) (.disableSn false) 0 s
  else if st = .unseen ∧ (old = .disabled ∨ old = .rogue) then queueMsg (g / 128) (some (g % 128)) (.disableSn true) 0 s
  else if st = .unseen then queueMsg (g / 128) (some (g % 128)) .deactivate 0 s
  else s

/-- The queues and messages that a terminal leaves with its state. -/
def movedFrom (g : Nat) (st : TermSt) (s : State) : State :=
  let s := updTree (g / 128) (fun x => { x with bandQ := x.bandQ.filter (· ≠ g % 128), popupQ := x.popupQ.filter (· ≠ g % 128) }) s
  if (st = .unseen ∨ st = .disabled ∨ st = .rogue) ∨ st = .discovered then dropMsgs g awaitsAck s else s

/-- The tap entry and the queue of probes as the state entered has them. -/
def movedInto (g : Nat) (st : TermSt) (s : State) : State :=
  let s := if st = .unseen ∨ st = .disabled ∨ st = .rogue then dropTaps g s else s
  if st = .popup then updTree (g / 128) (fun x => { x with popupQ := x.popupQ ++ [g % 128] }) s else s

section
variable {g : Nat} {st : TermSt} {s : State}

/-- A change of state: what is left, the terminal itself, what is entered, the messages, the event and the report to the partner. -/
theorem moveTerm_eq (h : (term s g).st ≠ st) (cause : Nat) : ∃ d, moveTerm g st cause s = tellTerm g (termService g st (event 0x0200 2 g d
    (movedMsg g st (term s g).st (movedInto g st (updTerm g
      (enters st (cntOf (movedFrom g st s) (cTerm g 0x30)).v.toNat (cntOf (movedFrom g st s) (cTerm g 0x28)).v.toInt) (movedFrom g st s)))))) :=
  ⟨_, if_neg h⟩

theorem moveTerm_same (h : (term s g).st = st) (cause : Nat) : moveTerm g st cause s = s := if_pos h

theorem movedFrom_bare : (term (movedFrom g st s) g).bare = (term s g).bare := by
  unfold movedFrom
  dsimp only
  split
  · rw [term_dropMsgs]
    rfl
  · rfl

theorem movedMsg_terms (old : TermSt) : (movedMsg g st old s).terms = s.terms := by
  unfold movedMsg
  repeat' split
  all_goals rfl

theorem movedInto_terms : (movedInto g st s).terms = s.terms := by
  unfold movedInto
  dsimp only
  split <;> split <;> rfl

/-- What a change of state makes of the terminal. -/
theorem moveTerm_bare (h : (term s g).st ≠ st) (cause : Nat) : ∃ n d, (term (moveTerm g st cause s) g).bare = (enters st n d (term s g)).bare := by
  obtain ⟨d, he⟩ := moveTerm_eq h cause
  refine ⟨(cntOf (movedFrom g st s) (cTerm g 0x30)).v.toNat, (cntOf (movedFrom g st s) (cTerm g 0x28)).v.toInt, ?_⟩
  have hb (n : Nat) (d : Int) (x : Term) : (enters st n d x).bare = (enters st n d x.bare).bare := by cases st <;> rfl
  rw [he, term_of_terms (tellTerm_terms ..), (termService_keeps ..).2.1, term_of_terms (event_terms ..), term_of_terms (movedMsg_terms _),
    term_of_terms movedInto_terms, term_updTerm, hb, movedFrom_bare, ← hb]

/-- It is in the state entered. -/
theorem moveTerm_st (g : Nat) (st : TermSt) (cause : Nat) (s : State) : (term (moveTerm g st cause s) g).st = st := by
  by_cases h : (term s g).st = st
  · rw [moveTerm_same h, h]
  · obtain ⟨n, d, hb⟩ := moveTerm_bare h cause
    exact (congrArg Term.st hb).trans (enters_st ..)

/-- What of a terminal neither DISCOVERED nor RANGED touches as it is entered. -/
theorem moveTerm_keeps {α : Type} {p : Term → α} (hp : ∀ x, p x.bare = p x) (h : ∀ n d x, p (enters st n d x) = p x) (cause : Nat) :
    p (term (moveTerm g st cause s) g) = p (term s g) := by
  by_cases hs : (term s g).st = st
  · rw [moveTerm_same hs]
  · obtain ⟨n, d, hb⟩ := moveTerm_bare hs cause
    rw [← hp, hb, hp, h]

theorem movedMsg_taps (old : TermSt) : (movedMsg g st old s).taps = s.taps := by
  unfold movedMsg
  repeat' split
  all_goals rfl

theorem movedFrom_taps : (movedFrom g st s).taps = s.taps := by
  unfold movedFrom
  dsimp only
  split
  · rw [dropMsgs_taps, updTree_taps]
  · exact updTree_taps ..

/-- The taps of a terminal that is no longer served are invalid (R115). -/
theorem moveTerm_out_taps (h : (term s g).st ≠ st) (ho : st = .unseen ∨ st = .disabled ∨ st = .rogue) (cause : Nat) :
    (mget {} (moveTerm g st cause s).taps g).valid = false := by
  obtain ⟨d, he⟩ := moveTerm_eq h cause
  have hi (u : State) : (mget {} (movedInto g st u).taps g).valid = false := by
    unfold movedInto
    rw [if_pos ho]
    dsimp only
    split <;> exact dropTaps_invalid ..
  rw [he, tellTerm_taps, (termService_keeps ..).1.taps, event_taps, movedMsg_taps]
  exact hi _

/-- Otherwise the tap memory stays. -/
theorem moveTerm_taps (ho : ¬(st = .unseen ∨ st = .disabled ∨ st = .rogue)) (cause : Nat) : (moveTerm g st cause s).taps = s.taps := by
  by_cases h : (term s g).st = st
  · rw [moveTerm_same h]
  · obtain ⟨d, he⟩ := moveTerm_eq h cause
    have hi (u : State) : (movedInto g st u).taps = u.taps := by
      unfold movedInto
      rw [if_neg ho]
      dsimp only
      split <;> rfl
    rw [he, tellTerm_taps, (termService_keeps ..).1.taps, event_taps, movedMsg_taps, hi, updTerm_taps, movedFrom_taps]

end

/-! ### Ranging -/

section
variable (g : Nat) (s : State)

theorem rangeFail_st (cause : Nat) : (term (rangeFail g cause s) g).st = .unseen := by
  rw [rangeFail, term_of_terms (event_terms ..), moveTerm_st]

/-- A failed attempt counts; the third sends the terminal back (R147, R148). -/
theorem rangeMiss_eq (again : Bool) : ∃ u, u = updTerm g (fun t => { t with tries := min 3 (t.tries + 1) }) s
    ∧ ((term s g).st = .discovered → 2 ≤ (term s g).tries → rangeMiss g again s = rangeFail g 7 u)
    ∧ ((term s g).st ≠ .discovered ∨ (term s g).tries < 2 → rangeMiss g again s = tellTerm g (if again then requeueBand g u else u)) := by
  refine ⟨_, rfl, fun h h2 => ?_, fun h => ?_⟩
  · have h3 : min 3 ((term s g).tries + 1) = 3 := by omega
    exact if_pos (by rw [term_updTerm]; exact ⟨h, h3⟩)
  · refine if_neg ?_
    rw [term_updTerm]
    rintro ⟨h1, h3⟩
    have : min 3 ((term s g).tries + 1) = 3 := h3
    rcases h with h | h
    · exact h h1
    · omega

theorem rangeMiss_third (again : Bool) (h : (term s g).st = .discovered) (h2 : 2 ≤ (term s g).tries) : (term (rangeMiss g again s) g).st = .unseen := by
  obtain ⟨u, -, hf, -⟩ := rangeMiss_eq g s again
  rw [hf h h2, rangeFail_st]

variable {g s}

/-- Before the third attempt the terminal stays in its state, one more attempt counted. -/
theorem rangeMiss_term (again : Bool) (h : (term s g).st ≠ .discovered ∨ (term s g).tries < 2) :
    term (rangeMiss g again s) g = { term s g with tries := min 3 ((term s g).tries + 1) } := by
  obtain ⟨u, hu, -, hf⟩ := rangeMiss_eq g s again
  have ht : (if again then requeueBand g u else u).terms = u.terms := by split <;> rfl
  rw [hf h, term_of_terms (tellTerm_terms ..), term_of_terms ht, hu, term_updTerm]

theorem rangeMiss_bandQ (h : (term s g).st ≠ .discovered ∨ (term s g).tries < 2) : g % 128 ∈ (tree (rangeMiss g true s) (g / 128)).bandQ := by
  obtain ⟨u, -, -, hf⟩ := rangeMiss_eq g s true
  rw [hf h, tree_of_trees (tellTerm_trees ..), if_pos rfl, requeueBand, tree_updTree]
  simp

/-- What activation decides leaves the rest of the terminal (R474). -/
theorem actStep_keeps {α : Type} {p : Term → α} (ha : ∀ x b, p { x with allocsSent := b } = p x) (hd : ∀ x a, p { x with activeDue := a } = p x) :
    p (term (actStep g s) g) = p (term s g) := by
  unfold actStep
  dsimp only
  split
  · rfl
  · split
    · rw [term_of_terms (foldl_keeps State.terms (fun u i => sendAct_terms g (.assignAlloc i) u) [0, 1, 2, 3] _), term_updTerm, ha]
    · split
      · rw [term_updTerm, hd]
      · rfl

end

end Sys2Proof.Machine
end

section
/-! PROOFS. Acknowledgements and the timers of terminals (O42). -/

namespace Sys2Proof.Machine

/-! ### PLOAM messages of a terminal -/

theorem term_tree_ix (n : Fin 64) (k : Fin 128) : (128 * n.val + k.val) / 128 = n.val ∧ (128 * n.val + k.val) % 128 = k.val := by omega

theorem decides_of {s : State} (h : isStandby s = false) : decides s = true := by rw [decides, h]; rfl

theorem not_decides_of {s : State} (h : isStandby s = true) : decides s = false := by rw [decides, h]; rfl

theorem decides_iff {s : State} : decides s = true ↔ isStandby s = false := by rw [decides, Bool.not_eq_true']

section
variable {g e : Nat} {v : PloamVia} {f : Nat → State → State} {s u : State}

/-- What no burst and no slot carried is no message. -/
theorem ploamTake_none (h : ploamCarrier g v.delim s = (none, u)) : ploamTake g v f s = u := by rw [ploamTake, h]

theorem ploamTake_some (h : ploamCarrier g v.delim s = (some e, u)) :
    ploamTake g v f s = if v.mic ≠ integrity u g u.now then (if decides u then bump (cbTree (g / 128) 13) 1 u else u) else f e u := by
  rw [ploamTake, h]

/-- A message under a wrong MIC is counted, by a unit that decides (R157). -/
theorem ploamTake_mic (h : ploamCarrier g v.delim s = (some e, u)) (hm : v.mic ≠ integrity u g u.now) :
    ploamTake g v f s = if isStandby u then u else bump (cbTree (g / 128) 13) 1 u := by
  rw [ploamTake_some h, if_pos hm, decides]
  cases isStandby u <;> rfl

theorem ploamTake_good (h : ploamCarrier g v.delim s = (some e, u)) (hm : v.mic = integrity u g u.now) : ploamTake g v f s = f e u := by
  rw [ploamTake_some h, if_neg (not_not.2 hm)]

end

section
variable {g e : Nat} {q : BitVec 8} {m : List Byte} {s : State}

theorem acknowledgement_standby (h : isStandby s = true) : acknowledgement g q m e s = s := if_pos (by rw [not_decides_of h]; rfl)

/-- No message of the device's awaits it: it goes to the host where its number was given to a host message (Table 4.5). -/
theorem acknowledgement_host (h : isStandby s = false) (ha : (term s g).awaits.find? (fun a => a.msg.seq = q) = none) :
    acknowledgement g q m e s = if (tree s (g / 128)).hostSeqs.contains q then ploamPush g e m s else s := by
  rw [acknowledgement, if_neg (by rw [decides_of h]; decide), ha]

/-- It ends the wait and has its message's effect. -/
theorem acknowledgement_acked {a : Await} (h : isStandby s = false) (ha : (term s g).awaits.find? (fun a => a.msg.seq = q) = some a) :
    acknowledgement g q m e s = acked g a.msg (updTree (g / 128) (fun t => { t with msgs := t.msgs.filter (fun m => !(m.seq = q && m.slot = some (g % 128))) })
      (updTerm g (fun t => { t with awaits := t.awaits.filter (fun x => x.msg.seq ≠ q) }) s)) := by
  rw [acknowledgement, if_neg (by rw [decides_of h]; decide), ha]

end

/-! ### The effect of an acknowledgement -/

section
variable {g : Nat} {m : PMsg} {s : State}

/-- The EQD of an acknowledged Ranging_Time is the one to fall back to. -/
theorem acked_ranging {drift : Bool} (hk : m.kind = .rangingTime drift) :
    acked g m s = tellTerm g (actStep g (updTerm g (fun t => { t with eqdAck := m.value, rangeAcked := t.rangeAcked || !drift }) s)) := by
  rw [acked, hk]

theorem acked_drift (hk : m.kind = .rangingTime true) {α : Type} {p : Term → α} (ha : ∀ x b, p { x with allocsSent := b } = p x)
    (hd : ∀ x a, p { x with activeDue := a } = p x) :
    p (term (acked g m s) g) = p { term s g with eqdAck := m.value } := by
  rw [acked_ranging hk, term_of_terms (tellTerm_terms ..), actStep_keeps ha hd, term_updTerm]
  simp

end

/-! ### T_ACK -/

section
variable {g : Nat} {q : BitVec 8} {a : Await} {s : State}

theorem tAck_none (h : (term s g).awaits.find? (fun a => a.msg.seq = q) = none) : tAck g q s = s := by rw [tAck, h]

theorem tAck_some (h : (term s g).awaits.find? (fun a => a.msg.seq = q) = some a) : tAck g q s =
    if !decides s ∨ s.imprCount < a.since + (tree s (g / 128)).set.tAck
        ∨ (tree s (g / 128)).msgs.any (fun m => m.seq = q && m.slot = a.msg.slot) = true then s
    else if a.resends < 3 then updTree (g / 128) (fun t => { t with msgs := t.msgs ++ [a.msg] })
      (updTerm g (fun t => { t with awaits := t.awaits.map (fun x => if x.msg.seq = q then { x with resends := x.resends + 1 } else x) }) s)
    else ackFailed g a.msg (updTerm g (fun t => { t with awaits := t.awaits.filter (fun x => x.msg.seq ≠ q) }) s) := by
  rw [tAck, h]

theorem tAck_standby (h : isStandby s = true) : tAck g q s = s := by
  cases ha : (term s g).awaits.find? (fun a => a.msg.seq = q) with
  | none => exact tAck_none ha
  | some a => rw [tAck_some ha, if_pos (.inl (by rw [not_decides_of h]; rfl))]

end

/-! ### The failure actions (Table 4.6) -/

section
variable {g : Nat} {m : PMsg} {s : State}

/-- A drift correction that is not acknowledged is taken back. -/
theorem ackFailed_drift (hk : m.kind = .rangingTime true) {α : Type} {p : Term → α} (hp : ∀ x, p (termAfresh x) = p x) :
    p (term (ackFailed g m s) g) = p { term s g with eqd := (term s g).eqdAck, driftOk := 0 } := by
  have hd (u : State) : p (term (if (term u g).st = .active ∨ (term u g).st = .popup then defSet 2 g TM_DRIFT u else u) g) = p (term u g) := by
    split
    · exact (keepsTerms_defSet ..).proj p hp g
    · rfl
  rw [ackFailed, hk]
  dsimp only
  rw [term_of_terms (tellTerm_terms ..), hd, term_of_terms (event_terms ..), term_updTerm, driftTo, term_of_terms (streamPush_terms ..), term_updTerm]
  rfl

/-- A ranging that is not acknowledged is a failed attempt. -/
theorem ackFailed_ranging (hk : m.kind = .rangingTime false) (hs : (term s g).st = .ranged) :
    ackFailed g m s = rangeMiss g (term (moveTerm g .discovered 7 s) g).auto (moveTerm g .discovered 7 s) := by
  rw [ackFailed, hk]
  exact if_pos hs

theorem ackFailed_ranging_again (hk : m.kind = .rangingTime false) (hs : (term s g).st = .ranged) (h2 : (term s g).tries < 2) :
    (term (ackFailed g m s) g).st = .discovered ∧ (term (ackFailed g m s) g).tries = (term s g).tries + 1 := by
  have ht : (term (moveTerm g .discovered 7 s) g).tries = (term s g).tries := moveTerm_keeps (fun _ => rfl) (fun _ _ _ => rfl) 7
  rw [ackFailed_ranging hk hs, rangeMiss_term _ (.inr (by omega)), moveTerm_st, ht]
  exact ⟨rfl, by dsimp only; omega⟩

/-- An activation message that is not acknowledged stops the activation. -/
theorem ackFailed_alloc {i : Nat} (hk : m.kind = .assignAlloc i) (hf : (term s g).actFailed = false) :
    ackFailed g m s = dropMsgs g isActKind (updTerm g (fun t => { t with actFailed := true }) (actFailEvent g m.kind s)) := by
  rw [ackFailed, hk]
  exact if_pos ⟨rfl, by rw [hf]; rfl⟩

theorem term_ackFailed_alloc {i : Nat} (hk : m.kind = .assignAlloc i) (hf : (term s g).actFailed = false) :
    (term (ackFailed g m s) g).actFailed = true ∧ (term (ackFailed g m s) g).st = (term s g).st := by
  rw [ackFailed_alloc hk hf, term_dropMsgs, term_updTerm, actFailEvent, term_of_terms (event_terms ..)]
  exact ⟨rfl, rfl⟩

end

/-! ### The timers of a state -/

section
variable {g : Nat} {s : State}

theorem rangeFail_taps (h : (term s g).st ≠ .unseen) (cause : Nat) : (mget {} (rangeFail g cause s).taps g).valid = false := by
  rw [rangeFail, event_taps, moveTerm_out_taps h (.inl rfl)]

/-- A timer of state x is due: on a unit that decides, in that state, after so many impressions. -/
def timerDue (s : State) (g : Nat) (x : TermSt) (after : Nat) : Prop := isStandby s = false ∧ (term s g).st = x ∧ after ≤ (term s g).timer

theorem timerDue_iff {x : TermSt} {after : Nat} : (decides s = true ∧ (term s g).st = x ∧ after ≤ (term s g).timer) ↔ timerDue s g x after := by
  rw [timerDue, decides_iff]

theorem tDisc_due (h : timerDue s g .discovered (tree s (g / 128)).set.tDisc) : tDisc g s = rangeFail g 3 s := if_pos (timerDue_iff.2 h)
theorem tDisc_early (h : ¬timerDue s g .discovered (tree s (g / 128)).set.tDisc) : tDisc g s = s := if_neg (mt timerDue_iff.1 h)

theorem tPopup_due (h : timerDue s g .popup (tree s (g / 128)).set.tPopup) : tPopup g s = event 0x0203 2 g [] (moveTerm g .unseen 3 s) :=
  if_pos (timerDue_iff.2 h)
theorem tPopup_early (h : ¬timerDue s g .popup (tree s (g / 128)).set.tPopup) : tPopup g s = s := if_neg (mt timerDue_iff.1 h)

theorem tRedisable_due (h : timerDue s g .rogue 100) :
    tRedisable g s = queueMsg (g / 128) (some (g % 128)) (.disableSn false) 0 (updTerm g (fun t => { t with timer := 0 }) s) :=
  if_pos (timerDue_iff.2 h)
theorem tRedisable_early (h : ¬timerDue s g .rogue 100) : tRedisable g s = s := if_neg (mt timerDue_iff.1 h)

end

/-- Settles O42: each event in the cases that its own rule has. -/
theorem terminalTimersRun : Obligations.TerminalTimersRun := by
  unfold Obligations.TerminalTimersRun
  refine ⟨?acknowledged, ?drift, ?ranging, ?tAck, ?driftFails, ?rangingFails, ?allocFails, ?timers, ?mute⟩
  case acknowledged =>
    intro n k q m v s hr g u
    obtain ⟨hn, hk⟩ := term_tree_ix n k
    have he : exec (.acknowledgement n k q ⟨m, v⟩) s = .next (ploamTake g v (acknowledgement g q m) s) := live_running hr
    rw [he]
    refine ⟨fun hc => congrArg _ (ploamTake_none (Prod.ext hc rfl)), fun e hc => ?_⟩
    have hc : ploamCarrier g v.delim s = (some e, u) := Prod.ext hc rfl
    refine ⟨fun hm => ?_, fun hm hb => ?_, fun hm hb ha => ?_, fun a hm hb ha => ?_⟩
    · rw [ploamTake_mic hc hm, hn]
    · rw [ploamTake_good hc hm, acknowledgement_standby hb]
    · rw [ploamTake_good hc hm, acknowledgement_host hb ha, hn]
    · rw [ploamTake_good hc hm, acknowledgement_acked hb ha, hn, hk]
  case drift =>
    intro g m s hk _
    exact ⟨_, rfl, acked_drift hk (p := Term.eqdAck) (fun _ _ => rfl) (fun _ _ => rfl), acked_drift hk (p := Term.eqd) (fun _ _ => rfl) (fun _ _ => rfl),
      acked_drift hk (p := Term.st) (fun _ _ => rfl) (fun _ _ => rfl)⟩
  case ranging =>
    intro g m s hk
    refine ⟨_, acked_ranging hk, ?_, ?_⟩
    · rw [term_of_terms (tellTerm_terms ..), actStep_keeps (p := Term.eqdAck) (fun _ _ => rfl) (fun _ _ => rfl), term_updTerm]
    · rw [term_of_terms (tellTerm_terms ..), actStep_keeps (p := Term.rangeAcked) (fun _ _ => rfl) (fun _ _ => rfl), term_updTerm]
      exact Bool.or_true _
  case tAck =>
    intro n k q s hr g
    obtain ⟨hn, hk⟩ := term_tree_ix n k
    have he : exec (.tAck n k q) s = .next (tAck g q s) := live_running hr
    rw [he]
    refine ⟨fun h => congrArg _ (h.elim tAck_none tAck_standby), fun a hb ha => ?_⟩
    have hd : ¬(!decides s) = true := by rw [decides_of hb]; decide
    rw [tAck_some ha, hn]
    refine ⟨fun h => congrArg _ (if_pos (.inr h)), fun h h3 => ?_, fun h h3 => ?_⟩
    · rw [if_neg (not_or.2 ⟨hd, h⟩), if_pos h3]
    · rw [if_neg (not_or.2 ⟨hd, h⟩), if_neg (not_lt.2 h3)]
  case driftFails =>
    intro g m s hk
    exact ⟨_, rfl, ackFailed_drift hk (p := Term.eqd) (fun _ => rfl), ackFailed_drift hk (p := Term.driftOk) (fun _ => rfl),
      ackFailed_drift hk (p := Term.st) (fun _ => rfl)⟩
  case rangingFails => exact fun g m s hk hs h2 => ⟨_, rfl, ackFailed_ranging_again hk hs h2⟩
  case allocFails => exact fun g i m s hk hf => ⟨_, rfl, term_ackFailed_alloc hk hf⟩
  case timers =>
    intro n k s hr g t due
    obtain ⟨hn, hk⟩ := term_tree_ix n k
    have h1 : exec (.tDisc n k) s = .next (tDisc g s) := live_running hr
    have h2 : exec (.tPopup n k) s = .next (tPopup g s) := live_running hr
    have h3 : exec (.tRedisable n k) s = .next (tRedisable g s) := live_running hr
    rw [h1, h2, h3, ← hn]
    refine ⟨fun h => ⟨_, congrArg _ (tDisc_due h), rangeFail_st .., rangeFail_taps (by rw [h.2.1]; decide) 3⟩, fun h => congrArg _ (tDisc_early h),
      fun h => ⟨_, congrArg _ (tPopup_due h), ?_⟩, fun h => congrArg _ (tPopup_early h),
      fun h => ?_, fun h => congrArg _ (tRedisable_early h)⟩
    · rw [term_of_terms (event_terms ..), moveTerm_st]
    · rw [tRedisable_due h, hk]
  case mute => exact fun sn s hr => live_running hr

end Sys2Proof.Machine
end

section
/-! PROOFS. The rogue procedure (R159, R160) and the events of key slots (R134, Table 3.6): O43. -/

namespace Sys2Proof.Machine

/-! ### A step of the procedure -/

section
variable (n : Nat) (f : Rogue → Rogue) (s : State)

@[simp] theorem rogueStep_terms : (rogueStep n f s).terms = s.terms := streamPush_terms ..

/-- A step of the procedure changes the procedure alone. -/
theorem tree_rogueStep : tree (rogueStep n f s) n = { tree s n with rogue := f (tree s n).rogue } := by
  rw [rogueStep, tree_of_trees (streamPush_trees ..), tree_updTree]

end

/-- The tree's receiver is on: LIT or SERVING. -/
def receives (s : State) (n : Nat) : Prop := (tree s n).st = .lit ∨ (tree s n).st = .serving

theorem receives.not_dark {s : State} {n : Nat} (h : receives s n) : ¬((tree s n).st = .off ∨ (tree s n).st = .dark) := by
  rcases h with h | h <;> rw [h] <;> decide

theorem receives.inService {s : State} {n : Nat} (h : receives s n) : inService s 1 n = true := by
  rcases h with h | h <;> simp [Machine.inService, h]

/-! ### The trigger and its end -/

section
variable {n : Nat} {s : State}

theorem rogueTrigger_none (h : rogueDue s n = false ∨ isStandby s = true ∨ (tree s n).st = .off ∨ (tree s n).st = .dark) : rogueTrigger n s = s := by
  refine if_pos (h.imp (fun h => by rw [h]; rfl) (Or.imp_left (fun h => by rw [not_decides_of h]; rfl)))

variable (hb : isStandby s = false) (hd : rogueDue s n = true) (hs : receives s n)
include hb hd hs

theorem rogueTrigger_not_none : ¬((!rogueDue s n) = true ∨ (!decides s) = true ∨ (tree s n).st = .off ∨ (tree s n).st = .dark) := by
  rw [hd, decides_of hb]
  exact not_or.2 ⟨by decide, not_or.2 ⟨by decide, hs.not_dark⟩⟩

theorem rogueTrigger_again (hr : (tree s n).rogue.running = true) : rogueTrigger n s = rogueAgain n s :=
  (if_neg (rogueTrigger_not_none hb hd hs)).trans (if_pos hr)

/-- Enough events start the procedure and declare TR_ROGUE. -/
theorem rogueTrigger_starts (hn : n < 64) (hr : (tree s n).rogue.running = false) :
    KeepsTerms (rogueStep n (fun _ => { running := true }) s) (rogueTrigger n s) ∧ declared (rogueTrigger n s) 1 n TR_ROGUE = true := by
  have he : rogueTrigger n s = _ := (if_neg (rogueTrigger_not_none hb hd hs)).trans (if_neg (by rw [hr]; decide))
  rw [he]
  dsimp only
  have hv : inService (event 0x0208 1 n [] (rogueStep n (fun _ => { running := true }) s)) 1 n = true := by
    refine receives.inService ?_
    rw [receives, tree_of_trees (event_trees ..), tree_rogueStep]
    exact hs
  have hk := (event_reports (rogueStep n (fun _ => { running := true }) s) 0x0208 1 n []).keepsTerms.trans (keepsTerms_defSet 1 n TR_ROGUE _)
  have hd := declared_defSet (by omega) (by decide) (fun _ => rfl) hv (code := TR_ROGUE)
  generalize defSet 1 n TR_ROGUE _ = u at hk hd
  split
  · exact ⟨hk, hd⟩
  · refine ⟨hk.trans (event_reports ..).keepsTerms, ?_⟩
    rw [unlocated, declared, event_defects]
    exact hd

end

section
variable {n : Nat} {s : State}

theorem rogueClear_none (h : isStandby s = true ∨ (tree s n).rogue.running = false ∨ (tree s n).rogue.quiet < 2) : rogueClear n s = s := by
  refine if_neg ?_
  rintro ⟨hr, hq, hd⟩
  rcases h with h | h | h
  · rw [not_decides_of h] at hd
    exact Bool.false_ne_true hd
  · rw [h] at hr
    exact Bool.false_ne_true hr
  · omega

theorem rogueClear_ends (hb : isStandby s = false) (hr : (tree s n).rogue.running = true) (hq : 2 ≤ (tree s n).rogue.quiet) :
    rogueClear n s = defClear 1 n TR_ROGUE 0 (event 0x0209 1 n [] (rogueStep n (fun _ => {}) s)) := if_pos ⟨hr, hq, decides_of hb⟩

/-- A cleared TR_ROGUE leaves the terminals' runs too. -/
theorem defClear_rogue_terms (idx cause : Nat) (s : State) : (defClear 1 idx TR_ROGUE cause s).terms = s.terms := by
  have hl (u : State) : estLift 1 idx TR_ROGUE u = u := rfl
  have ht (on : Bool) (u : State) : (tellDefect 1 idx TR_ROGUE on u).terms = u.terms := by
    unfold tellDefect
    split
    · rw [sendRecs_only]
    · rfl
  unfold defClear
  split
  · dsimp only
    rw [ht, defEvent, (evtRaw_reports ..).fields.2.2.2.2.2.1, hl]
  · rfl

end

/-! ### Identification -/

/-- SD in a rogue probe window of a frame whose grants are withheld is noted (R159). -/
def probeHeard (n : Nat) (sd : Bool) (s : State) : State :=
  if (tree s n).rogue.heldAt.isSome ∧ (tree s n).rogue.heldSpan.1 ≤ s.now then
    updTree n (fun x => { x with rogue := { x.rogue with heard := x.rogue.heard || sd } }) s
  else s

theorem probeHeard_terms (n : Nat) (sd : Bool) (s : State) : (probeHeard n sd s).terms = s.terms := by
  unfold probeHeard
  split <;> rfl

theorem tree_probeHeard (n : Nat) (sd : Bool) (s : State) :
    ∃ b, tree (probeHeard n sd s) n = { tree s n with rogue := { (tree s n).rogue with heard := b } } := by
  unfold probeHeard
  split
  · exact ⟨_, tree_updTree ..⟩
  · exact ⟨_, rfl⟩

section
variable {n : Nat} {o : Option Nat} {e sd : Bool} {s : State}

/-- On a standby and on a tree without a receiver nothing is decided. -/
theorem rogueProbe_none (h : (tree s n).st = .off ∨ (tree s n).st = .dark ∨ isStandby s = true) : rogueProbe n o e sd s = s := by
  unfold rogueProbe
  dsimp only
  split
  · rfl
  next hs =>
    have hd : decides s = false := not_decides_of (by tauto)
    rw [hd]
    split
    · exact if_neg (by simp)
    · rfl

variable (hb : isStandby s = false) (hs : receives s n)
include hb hs

theorem rogueProbe_stopped (hr : (tree s n).rogue.running = false) : rogueProbe n o e sd s = if e then oogEvent n s else s := by
  unfold rogueProbe
  dsimp only
  rw [if_neg hs.not_dark, if_pos (by rw [hr]; rfl), decides_of hb]
  cases e <;> rfl

variable (hr : (tree s n).rogue.running = true)
include hr

theorem rogueProbe_running : rogueProbe n o e sd s =
    if rogueIdle (tree s n).rogue then probeHeard n sd s
    else match o with
    | some k =>
      if (term (probeHeard n sd s) (128 * n + k)).serial ≠ 0 ∧ k < 128 ∧ (tree s n).rogue.named = some k then rogueNamed n k 1 (probeHeard n sd s)
      else rogueStep n (fun r => { r with named := some k }) (probeHeard n sd s)
    | none =>
      let v := rogueStep n (fun r => { r with named := none }) (probeHeard n sd s)
      if (tree s n).rogue.cands = [] ∧ e = true ∧ (tree s n).set.rogueBisect = true then bisectNext n (rogueCands v n) v else v := by
  unfold rogueProbe
  dsimp only
  rw [if_neg hs.not_dark, if_neg (by rw [hr]; decide), if_neg (by rw [decides_of hb]; decide)]
  rfl

theorem rogueProbe_idle (hi : rogueIdle (tree s n).rogue = true) : rogueProbe n o e sd s = probeHeard n sd s :=
  (rogueProbe_running hb hs hr).trans (if_pos hi)

theorem rogueProbe_silent (hi : rogueIdle (tree s n).rogue = false) : rogueProbe n none e sd s =
    let v := rogueStep n (fun r => { r with named := none }) (probeHeard n sd s)
    if (tree s n).rogue.cands = [] ∧ e = true ∧ (tree s n).set.rogueBisect = true then bisectNext n (rogueCands v n) v else v :=
  (rogueProbe_running hb hs hr).trans (if_neg (ne_true_of_eq_false hi))

theorem rogueProbe_identity {k : Nat} (hi : rogueIdle (tree s n).rogue = false) : rogueProbe n (some k) e sd s =
    if (term s (128 * n + k)).serial ≠ 0 ∧ k < 128 ∧ (tree s n).rogue.named = some k then rogueNamed n k 1 (probeHeard n sd s)
    else rogueStep n (fun r => { r with named := some k }) (probeHeard n sd s) := by
  rw [rogueProbe_running hb hs hr, if_neg (ne_true_of_eq_false hi)]
  dsimp only
  rw [term_of_terms (probeHeard_terms ..)]

end

/-- Without a suspect, or with a trigger after its disabling, identification goes on (R160). -/
theorem rogueIdle_false {r : Rogue} (h : r.suspect = none ∨ r.again = true) : rogueIdle r = false := by
  rcases h with h | h <;> simp [rogueIdle, h]

/-! ### A terminal named -/

section
variable {n k stage : Nat} {s : State}

/-- The procedure once a terminal is named: nothing is being looked for. -/
def nameTaken (r : Rogue) : Rogue := { r with named := none, cands := [], withheld := [], heldAt := none }

/-- Named first, a terminal is disabled and is the suspect (R159 stage 3). -/
theorem rogueNamed_first (hs : (tree s n).rogue.suspect ≠ some k) (h0 : (term s (128 * n + k)).serial ≠ 0) (hr : (term s (128 * n + k)).st ≠ .rogue)
    (hd : (term s (128 * n + k)).st ≠ .disabled) : (term (rogueNamed n k stage s) (128 * n + k)).st = .disabled
      ∧ (tree (rogueNamed n k stage s) n).rogue.suspect = some k ∧ (tree (rogueNamed n k stage s) n).rogue.again = false := by
  have he : rogueNamed n k stage s = event 0x0205 2 (128 * n + k) (beBytes 1 stage)
      (rogueStep n (fun r => { r with suspect := some k, disabledAt := (moveTerm (128 * n + k) .disabled 6 (rogueStep n nameTaken s)).imprCount,
                                      again := false }) (moveTerm (128 * n + k) .disabled 6 (rogueStep n nameTaken s))) :=
    (if_neg hs).trans (if_neg (by tauto))
  rw [he, term_of_terms (event_terms ..), term_of_terms (rogueStep_terms ..), tree_of_trees (event_trees ..), tree_rogueStep]
  exact ⟨moveTerm_st .., rfl, rfl⟩

/-- Named again after a further trigger, it is ROGUE (R160). -/
theorem rogueNamed_again (hs : (tree s n).rogue.suspect = some k) (hd : (term s (128 * n + k)).st = .disabled) :
    (term (rogueNamed n k stage s) (128 * n + k)).st = .rogue := by
  have he : rogueNamed n k stage s = event 0x0204 2 (128 * n + k) [] (moveTerm (128 * n + k) .rogue 6 (rogueStep n nameTaken s)) :=
    (if_pos hs).trans (if_pos hd)
  rw [he, term_of_terms (event_terms ..), moveTerm_st]

/-- The last candidate, silent while it was withheld, is named. -/
theorem rogueVerdict_last {e b : Nat} (hb : isStandby s = false) (ha : (tree s n).rogue.heldAt = some b) (he : b + 155520 ≤ e)
    (hp : (tree s n).rogue.heldSpan.2 ≤ e) (hc : (tree s n).rogue.cands = [k]) (hh : (tree s n).rogue.heard = false) :
    rogueVerdict n e s = rogueNamed n k 2 (updTree n (fun x => { x with rogue := { x.rogue with heldAt := none, heard := false } }) s) := by
  have hlt : ¬(e < max (b + Config.FRAME) (tree s n).rogue.heldSpan.2 ∨ (!decides s) = true) := by
    rw [decides_of hb]
    refine not_or.2 ⟨?_, by decide⟩
    rw [not_lt]
    exact max_le he hp
  unfold rogueVerdict
  dsimp only
  rw [ha, hc, hh]
  exact if_neg hlt

end

/-! ### Key slots -/

section
variable {k : KeySet} {l : Bool}

theorem slotSt_setSlot_same (st : KeySt) (v : BitVec 192) : slotSt (setSlot k l st v) l = st := by cases l <;> rfl
theorem slotSt_setSlot_not (st : KeySt) (v : BitVec 192) : slotSt (setSlot k l st v) (!l) = slotSt k (!l) := by cases l <;> rfl

/-- The slots of a key set without those that drain. -/
def drained (k : KeySet) : KeySet :=
  let k := if k.st0 = .draining then setSlot k false .empty 0 else k
  if k.st1 = .draining then setSlot k true .empty 0 else k

theorem drained_spec (k : KeySet) : (drained k).st0 ≠ .draining ∧ (drained k).st1 ≠ .draining ∧ (k.st0 = .draining → (drained k).key0 = 0) := by
  unfold drained
  by_cases h0 : k.st0 = .draining
  · by_cases h1 : k.st1 = .draining <;> simp [h0, h1, setSlot]
  · by_cases h1 : k.st1 = .draining <;> simp [h0, h1, setSlot]

end

section
variable {i : Nat} {s : State}

theorem keyDrain_due (h : (keySet s i).switchedAt + 2 ≤ s.imprCount) : keyDrain i s = setKey i (drained (keySet s i)) s := if_neg (not_lt.2 h)

theorem keyDrain_early (h : s.imprCount < (keySet s i).switchedAt + 2) : keyDrain i s = s := if_pos h

variable (n d : Nat) (up slot : Bool)

/-- The key set with a slot emptied; requests that wait know when it was STAGED (R128, R134). -/
def slotLost (k : KeySet) (slot : Bool) : KeySet :=
  if slotSt k slot = .staged then stagedLost (setSlot k slot .empty 0) else setSlot k slot .empty 0

theorem slotLost_same (k : KeySet) : slotSt (slotLost k slot) slot = .empty := by
  unfold slotLost
  split <;> exact slotSt_setSlot_same ..

theorem slotLost_other (k : KeySet) : slotSt (slotLost k slot) (!slot) = slotSt k (!slot) := by
  unfold slotLost
  split <;> exact slotSt_setSlot_not ..

/-- A key slot with an uncorrectable error empties at once; what follows reports it, and may ask for a trigger (R134, R216). -/
theorem keyEcc_eq (s : State) : ∃ t, Reports (setKey (keyIx n d up) (slotLost (keySet s (keyIx n d up)) slot) s) t
    ∧ keyEcc n d up slot s = if (tree s n).xtrig.getLsbD 3 then askTrigger n 0xFF t else t := by
  have hr := (eccEvent_reports (setKey (keyIx n d up) (slotLost (keySet s (keyIx n d up)) slot) s) 3 (2 * keyIx n d up + slot.toNat)).trans
    (event_reports _ 0x0210 1 n (beBytes 1 d ++ beBytes 1 up.toNat ++ beBytes 1 slot.toNat))
  refine ⟨_, hr, ?_⟩
  rw [← tree_of_trees (s := s) (hr.fields.2.2.2.2.1.trans rfl) n]
  rfl

end

/-- Settles O43: each event in the cases that its own rule has. -/
theorem rogueAndKeyEventsRun : Obligations.RogueAndKeyEventsRun := by
  unfold Obligations.RogueAndKeyEventsRun
  refine ⟨?starts, ?again, ?noTrigger, ?noClear, ?noProbe, ?clears, ?stopped, ?silent, ?bisects, ?identity, ?verdict, ?drains, ?notYet, ?ecc⟩
  case starts =>
    intro n s hr hb hg hd hs
    obtain ⟨hk, hdecl⟩ := rogueTrigger_starts hb hd hs n.isLt hg
    refine ⟨_, live_running hr, ?_, fun _ => hdecl, fun g => ?_⟩
    · rw [hk.tree, tree_rogueStep]
    · rw [hk.st, term_of_terms (rogueStep_terms ..)]
  case again => exact fun n s hr hb hg hd hs => (live_running hr).trans (congrArg _ (rogueTrigger_again hb hd hs hg))
  case noTrigger => exact fun n s hr h => (live_running hr).trans (congrArg _ (rogueTrigger_none h))
  case noClear => exact fun n s hr h => (live_running hr).trans (congrArg _ (rogueClear_none h))
  case noProbe => exact fun n o d s hr h => (live_running hr).trans (congrArg _ (rogueProbe_none h))
  case clears =>
    intro n s hr hb hg hq
    refine ⟨_, (live_running hr).trans (congrArg _ (rogueClear_ends hb hg hq)), ?_, declared_defClear_same .., ?_⟩
    · rw [(keepsTerms_defClear (fun h => absurd h.2 (by decide)) ..).tree, tree_of_trees (event_trees ..), tree_rogueStep]
    · rw [defClear_rogue_terms, event_terms, rogueStep_terms]
  case stopped =>
    exact fun n o d s hr hb hs hg => ⟨(live_running hr).trans (congrArg _ (rogueProbe_stopped hb hs hg)),
      (live_running hr).trans (congrArg _ (rogueProbe_stopped hb hs hg))⟩
  case silent =>
    intro n e d s hr hb hs r u v hg
    exact ⟨fun o hi => (live_running hr).trans (congrArg _ (rogueProbe_idle hb hs hg hi)),
      fun hi => (live_running hr).trans (congrArg _ (rogueProbe_silent hb hs hg hi))⟩
  case bisects => exact fun n l s hl => if_neg hl
  case identity =>
    intro n k e d s hr hb hs r hg hi
    have hi := rogueIdle_false hi
    have he : exec (.rogueProbe n (some k.val) ⟨e, d⟩) s = .next _ := (live_running hr).trans (congrArg _ (rogueProbe_identity hb hs hg hi))
    have hterm := term_of_terms (probeHeard_terms n.val d s) (128 * n.val + k.val)
    obtain ⟨b, htree⟩ := tree_probeHeard n.val d s
    rw [he]
    refine ⟨fun hn => ⟨_, congrArg _ (if_neg (fun h => hn h.2.2)), ?_, ?_⟩, fun hn hsus h0 hro hdi => ?_, fun hn hsus h0 hdi => ?_⟩
    · rw [tree_rogueStep]
    · rw [rogueStep_terms, probeHeard_terms]
    · refine ⟨_, congrArg _ (if_pos ⟨h0, k.isLt, hn⟩), rogueNamed_first ?_ ?_ ?_ ?_⟩
      · rwa [htree]
      · rwa [hterm]
      · rwa [hterm]
      · rwa [hterm]
    · refine ⟨_, congrArg _ (if_pos ⟨h0, k.isLt, hn⟩), rogueNamed_again ?_ ?_⟩
      · rwa [htree]
      · rwa [hterm]
  case verdict =>
    intro n k e b s hb ha he hp hc hh hsus h0 hro hdi
    rw [rogueVerdict_last hb ha he hp hc hh]
    obtain ⟨hst, hs, -⟩ := rogueNamed_first (stage := 2)
      (s := updTree n.val (fun x => { x with rogue := { x.rogue with heldAt := none, heard := false } }) s) (by rwa [tree_updTree]) h0 hro hdi
    exact ⟨hst, hs⟩
  case drains =>
    intro n d r s hr h
    obtain ⟨h0, h1, hz⟩ := drained_spec (keySet s (keyIx n.val d.val r))
    refine ⟨_, (live_running hr).trans (congrArg _ (keyDrain_due h)), ?_⟩
    rw [keySet_setKey]
    exact ⟨h0, h1, hz, rfl⟩
  case notYet => exact fun n d r s hr h => (live_running hr).trans (congrArg _ (keyDrain_early h))
  case ecc =>
    intro n d r l s hr
    obtain ⟨t, ht, he⟩ := keyEcc_eq n.val d.val r l s
    have hkeys : (keyEcc n.val d.val r l s).keys = (setKey (keyIx n.val d.val r) (slotLost (keySet s (keyIx n.val d.val r)) l) s).keys := by
      rw [he, ← ht.fields.2.2.2.2.2.2.2.1]
      split <;> rfl
    refine ⟨_, live_running hr, ?_, ?_, fun hx => ?_⟩
    · rw [keySet_of_keys hkeys, keySet_setKey, slotLost_same]
    · rw [keySet_of_keys hkeys, keySet_setKey, slotLost_other]
    · rw [he, hx] at hkeys ⊢
      rw [if_neg (by decide)] at hkeys ⊢
      rw [hkeys]
      exact ht

end Sys2Proof.Machine
end

section
/-! PROOFS. Windows: what they serve and when they open; responses of discovery, of band ranging and of probes; PLOAM messages (O41). -/

namespace Sys2Proof.Machine

theorem ite_decides {α : Type} (s : State) (a b : α) : (if decides s = true then a else b) = if isStandby s then b else a := by
  rw [decides]
  cases isStandby s <;> rfl

/-! ### Windows -/

section
variable {n : Nat} {f : Window → Bool} {s : State}

theorem openWindow_some {w : Window} (h : (tree s n).plans.find? f = some w) : openWindow n f s = updTree n (fun t => { t with
    window := some w, plans := t.plans.erase w, discSeen := if w.purpose = 1 then t.discSeen else [], respEnds := [], live := none })
    (advance w.start s) := by rw [openWindow, h]

theorem openWindow_none (h : (tree s n).plans.find? f = none) : openWindow n f s = s := by rw [openWindow, h]

end

section
variable {s : State} {n a len : Nat} {held : List Nat}

/-- What a ranging window serves is not withheld (R159). -/
theorem planRanging_packed {x : Nat × Bool} (hx : x ∈ (planRanging s n a len held).packed) : x.1 ∉ held := by
  have hm {β : Type} {p : β → Nat} {l : List β} {k : Nat} {y : β} (hy : y ∈ (l.filter (fun z => !held.contains (p z))).take k) : p y ∉ held := by
    have := (List.mem_filter.1 (List.mem_of_mem_take hy)).2
    simpa using this
  rcases List.mem_append.1 hx with h | h
  · obtain ⟨y, hy, rfl⟩ := List.mem_map.1 h
    exact hm (p := id) hy
  · obtain ⟨y, hy, rfl⟩ := List.mem_map.1 h
    exact hm (p := fun z : Nat × BitVec 8 => z.1) hy

/-- Packed slots go before a band ranging (R147). -/
theorem planRanging_packed_first (h : (planRanging s n a len held).packed ≠ []) : (planRanging s n a len held).band = none := if_pos h

theorem planRanging_band {b : Nat × Nat × Nat × Nat} (h : (planRanging s n a len held).band = some b) : b.1 ∉ held := by
  have h : (if (planRanging s n a len held).packed ≠ [] then none else _) = some b := h
  split at h
  · cases h
  · obtain ⟨k, hk, rfl⟩ := Option.map_eq_some_iff.1 h
    have := List.find?_some hk
    simpa using this

/-- Without a probe or a PLOAM response pending, the first terminal of the queue is ranged (R147). -/
theorem planRanging_single {k : Nat} (hp : probeList s n = []) (ho : ploamOnly s n = []) (hk : (bandList s n).find? (fun k => !held.contains k) = some k) :
    planRanging s n a len held = {
      purpose := 1, start := a, len := len, packed := []
      band := some (k, bandStart s (128 * n + k) a, (priorBand s (128 * n + k)).1, (priorBand s (128 * n + k)).2) } := by
  simp only [planRanging, hp, ho, hk, List.filter_nil, List.take_nil, List.map_nil, List.append_nil]
  rfl

end

/-! ### Discovery responses -/

section
variable {n d : Nat} {sn : BitVec 64} {y : BitVec 160} {c : Bool} {m : MicKey} {s : State}

theorem serialNumberOnu_none (h : (tree s n).window.any (fun w => w.purpose = 0) = false ∨ respSeen s n y = false) : serialNumberOnu n sn d y c m s = s := by
  unfold serialNumberOnu
  dsimp only
  split
  · rfl
  next w hw =>
    refine if_pos ?_
    rcases h with h | h
    · rw [hw] at h
      exact .inl (by simpa using h)
    · exact .inr (by rw [h]; rfl)

/-- A response found in an open discovery window: the checks of R150 and R151 in their order. -/
theorem serialNumberOnu_found {w : Window} (hw : (tree s n).window = some w) (hp : w.purpose = 0) (hy : respSeen s n y = true) :
    let u := respFound n d s
    let t := tree s n
    let a : Int := (d : Int) - 40 * skewOf s n
    let lo : Int := 40 * (w.start + Config.PRE_X - 20 : Nat)
    let hi : Int := 40 * (w.start + t.set.reach * Config.RTT_PER_100M + Config.RAND_SPAN + Config.PRE_X + 20 : Nat)
    serialNumberOnu n sn d y c m s =
      if (!decides s) = true then u
      else if a < lo ∨ hi ≤ a then bump (cbTree n 7) 1 u
      else if (!c) = true then bump (cbTree n 8) 1 u
      else if m ≠ .dflt then bump (cbTree n 13) 1 u
      else if t.set.discLimit ≤ t.discCount then bump (cbTree n 11) 1 u
      else if t.discSeen.contains sn = true then bump (cbTree n 9) 1 (updTree n (fun t => { t with discCount := t.discCount + 1 }) u)
      else handleSerial n sn (a - 40 * (w.start + t.set.reach * Config.RTT_PER_100M + Config.PRE_X : Nat) + tEq s n).toNat
        (updTree n (fun t => { t with discCount := t.discCount + 1, discSeen := sn :: t.discSeen }) u) := by
  have hin : ¬(w.purpose ≠ 0 ∨ (!respSeen s n y) = true) := by simp [hp, hy]
  have hq : tEq (updTree n (fun t => { t with discCount := t.discCount + 1, discSeen := sn :: t.discSeen }) (respFound n d s)) n = tEq s n := by
    rw [tEq, tEq, tree_updTree, respFound, tree_updTree]
  dsimp only
  rw [← hq, serialNumberOnu, hw]
  exact if_neg hin

end

section
variable {n g rc : Nat} {sn : BitVec 64} {s : State}

theorem handleSerial_unknown (h : slotOf s sn = none) : handleSerial n sn rc s = if muted s sn then s
    else event 0x0207 1 n (beBytes 8 sn.toNat ++ beBytes 4 (rc / 40)) { s with power := { s.power with muted := s.power.muted ++ [(sn, s.imprCount)] } } := by
  rw [handleSerial, h]

theorem handleSerial_otherTree (h : slotOf s sn = some g) (hn : g / 128 ≠ n) :
    handleSerial n sn rc s = event 0x0206 1 n (beBytes 8 sn.toNat ++ beBytes 2 g) s := by
  rw [handleSerial, h]
  exact if_pos hn

variable (h : slotOf s sn = some g) (hn : g / 128 = n)
include h hn

theorem handleSerial_own : handleSerial n sn rc s = match (term s g).st with
    | .unseen | .popup => discover g rc s
    | .disabled | .rogue => queueMsg n (some (g % 128)) (.disableSn false) 0 (bump (cbTree n 10) 1 s)
    | _ => event 0x0206 1 n (beBytes 8 sn.toNat ++ beBytes 2 g) s := by
  rw [handleSerial, h]
  exact if_neg (not_not.2 hn)

theorem handleSerial_clash (hs : (term s g).st = .discovered ∨ (term s g).st = .ranged ∨ (term s g).st = .active) :
    handleSerial n sn rc s = event 0x0206 1 n (beBytes 8 sn.toNat ++ beBytes 2 g) s := by
  rw [handleSerial_own h hn]
  rcases hs with hs | hs | hs <;> rw [hs]

theorem handleSerial_disabled (hs : (term s g).st = .disabled ∨ (term s g).st = .rogue) :
    handleSerial n sn rc s = queueMsg n (some (g % 128)) (.disableSn false) 0 (bump (cbTree n 10) 1 s) := by
  rw [handleSerial_own h hn]
  rcases hs with hs | hs <;> rw [hs]

theorem handleSerial_discovers (hs : (term s g).st = .unseen ∨ (term s g).st = .popup) : handleSerial n sn rc s = discover g rc s := by
  rw [handleSerial_own h hn]
  rcases hs with hs | hs <;> rw [hs]

end

/-- The terminal as its discovery begins. -/
def heardFrom (rc : Nat) (x : Term) : Term :=
  { x with eqd := 0, eqdAck := 0, rtd := rc, rcHeld := true, wasActive := if x.st = .popup then false else x.wasActive }

theorem discover_eq (g rc : Nat) (s : State) : ∃ v,
    let u := queueMsg (g / 128) (some (g % 128)) .assignOnu v (moveTerm g .discovered 1 (updTerm g (heardFrom rc) s))
    discover g rc s = if (term u g).auto then queueBand g u else u := ⟨_, rfl⟩

/-- A terminal discovered holds the Rc of its response, and no EQD (Table 4.3, R147). -/
theorem discover_spec (g rc : Nat) (s : State) : (term (discover g rc s) g).st = .discovered ∧ (term (discover g rc s) g).rtd = rc
    ∧ (term (discover g rc s) g).rcHeld = true ∧ (term (discover g rc s) g).eqd = 0 := by
  obtain ⟨v, he⟩ := discover_eq g rc s
  have hq (c : Prop) [Decidable c] (u : State) : (if c then queueBand g u else u).terms = u.terms := by split <;> rfl
  rw [he, term_of_terms (hq ..), term_queueMsg, moveTerm_st, moveTerm_keeps (p := Term.rtd) (fun _ => rfl) (fun _ _ _ => rfl),
    moveTerm_keeps (p := Term.rcHeld) (fun _ => rfl) (fun _ _ _ => rfl),
    moveTerm_keeps (p := Term.eqd) (fun _ => rfl) (fun _ _ _ => rfl), term_updTerm]
  exact ⟨rfl, rfl, rfl, rfl⟩

/-! ### Ranging responses -/

section
variable {g i sg lo hi : Nat} {w : Window} {r : Option RegResp} {x : RegResp} {a : Int} {hit : Option (RegResp × Int)} {s : State}

theorem registration_none (h : ∀ w, (tree s (g / 128)).window = some w → (∀ b, w.band = some b → b.1 ≠ g % 128)
    ∧ (w.band = none → w.packed.findIdx? (fun y => y.1 = g % 128 && y.2) = none)) : registration g r s = s := by
  unfold registration
  dsimp only
  cases hw : (tree s (g / 128)).window with
  | none => rfl
  | some w =>
    dsimp only
    cases hb : w.band with
    | none => rw [(h w hw).2 hb]
    | some b => exact if_neg ((h w hw).1 b hb)

theorem respHit_found (hm : measures s i = false) {lo hi : Int} (x : RegResp) :
    respHit s i lo hi (some x) = if lo ≤ (x.delim : Int) - 40 * skewOf s i ∧ (x.delim : Int) - 40 * skewOf s i ≤ hi ∧ respSeen s i x.seen = true
      then some (x, (x.delim : Int) - 40 * skewOf s i) else none := by
  simp [respHit, hm]

/-- Without a measurement of FEEDER_SKEW a response found is only noted. -/
theorem respTaken_found (hm : measures s i = false) : respTaken i (some (x, a)) s = respFound i x.delim s := by
  have hm : measures (respFound i x.delim s) i = false := by
    rw [← hm]
    rw [measures, measures, respFound, tree_updTree]
    rfl
  exact if_neg (ne_true_of_eq_false hm)

theorem bandResp_other (h : (term s g).st ≠ .discovered) (hp : (term s g).st ≠ .popup) :
    bandResp g sg lo hi hit s = if hit.isSome then bump (cbTree (g / 128) 6) 1 s else s := if_pos ⟨h, hp⟩

theorem bandResp_missing (h : (term s g).st = .discovered ∨ (term s g).st = .popup) : bandResp g sg lo hi none s = rangeMiss g true s :=
  if_neg (by tauto)

theorem bandResp_judged (h : (term s g).st = .discovered ∨ (term s g).st = .popup) : bandResp g sg lo hi (some (x, a)) s =
    if respOk s g x = true ∧ bandBase s g sg ≤ a ∧ lo ≤ (a - bandBase s g sg).toNat ∧ (a - bandBase s g sg).toNat ≤ hi
    then ranged g (a - bandBase s g sg).toNat s else rangeMiss g true (respReject g x s) := if_neg (by tauto)

/-- The activation of a terminal ranged: every message still to be acknowledged (R474). -/
def activates (x : Term) : Term := { x with
  rangeAcked := false, actFailed := false, allocsSent := false
  actLeft := [.burstProfile 0 false, .burstProfile 1 false, .burstProfile 2 false, .burstProfile 3 false]
    ++ (if x.wasActive then [] else [.assignAlloc 0, .assignAlloc 1, .assignAlloc 2, .assignAlloc 3]) }

/-- Ranged: the terminal takes its RTD and EQD and enters RANGED; then the messages of the activation. -/
theorem ranged_eq (g rtd : Nat) (s : State) : ∃ r, ranged g rtd s = sendProfiles g [0, 1, 2, 3] false r (sendRanging g false (updTerm g activates
    (moveTerm g .ranged 2 (updTerm g (fun t => { t with rtd := rtd, eqd := tEq s (g / 128) - rtd, rcHeld := false })
      (if tEq s (g / 128) - rtd ≠ (term s g).eqd then dropTaps g s else s))))) := ⟨_, rfl⟩

/-- A terminal ranged has its RTD and the EQD that follows from it; its taps are invalid where the EQD changes (R115, R145). -/
theorem ranged_spec (g rtd : Nat) (s : State) : (term (ranged g rtd s) g).st = .ranged ∧ (term (ranged g rtd s) g).rtd = rtd
    ∧ (term (ranged g rtd s) g).eqd = tEq s (g / 128) - rtd
    ∧ ((term s g).eqd ≠ tEq s (g / 128) - rtd → (mget {} (ranged g rtd s).taps g).valid = false) := by
  obtain ⟨r, he⟩ := ranged_eq g rtd s
  have hs (u : State) : (term (sendRanging g false u) g).st = (term u g).st ∧ (term (sendRanging g false u) g).rtd = (term u g).rtd
      ∧ (term (sendRanging g false u) g).eqd = (term u g).eqd := by
    rw [sendRanging, term_queueMsg, term_dropMsgs]
    exact ⟨rfl, rfl, rfl⟩
  rw [he, term_of_terms (sendProfiles_terms ..), (hs _).1, (hs _).2.1, (hs _).2.2, term_updTerm]
  dsimp only [activates]
  rw [moveTerm_st, moveTerm_keeps (p := Term.rtd) (fun _ => rfl) (fun _ _ _ => rfl), moveTerm_keeps (p := Term.eqd) (fun _ => rfl) (fun _ _ _ => rfl), term_updTerm]
  refine ⟨rfl, rfl, rfl, fun h => ?_⟩
  rw [sendProfiles_taps, sendRanging, queueMsg_taps, dropMsgs_taps, updTerm_taps, moveTerm_taps (by decide), updTerm_taps, if_pos (Ne.symm h)]
  exact dropTaps_invalid ..

theorem probeResp_other (h : (term s g).st ≠ .popup) : probeResp g i w hit s = if hit.isSome then bump (cbTree (g / 128) 6) 1 s else s := if_pos h

theorem probeResp_missing (h : (term s g).st = .popup) : probeResp g i w none s = queueBand g s := if_neg (not_not.2 h)

theorem probeResp_judged (h : (term s g).st = .popup) : probeResp g i w (some (x, a)) s =
    if respOk s g x = true ∧ ((priorBand s g).1 : Int) ≤ a - slotExpect w i + tEq s (g / 128) - (term s g).eqd
        ∧ a - slotExpect w i + tEq s (g / 128) - (term s g).eqd ≤ (priorBand s g).2
    then updTerm g (fun t => { t with activeDue := some 2 }) s else respReject g x s := if_neg (not_not.2 h)

variable (hw : (tree s (g / 128)).window = some w)
include hw

/-- A response of the terminal that a window ranges. -/
theorem registration_band (hb : w.band = some (g % 128, sg, lo, hi)) : registration g r s =
    let hit := respHit s (g / 128) (bandBase s g sg + lo - 800) (bandBase s g sg + hi + 800) r
    let u := respTaken (g / 128) hit s
    if decides u then bandResp g sg lo hi hit (updTree (g / 128) (fun t => { t with window := some { w with band := none } }) u) else u := by
  rw [registration, hw]
  dsimp only
  rw [hb]
  exact if_pos rfl

/-- A response of a terminal that a packed slot probes. -/
theorem registration_probe (hb : w.band = none) (hi : w.packed.findIdx? (fun y => y.1 = g % 128 && y.2) = some i) : registration g r s =
    let hit := respHit s (g / 128) (slotExpect w i - 800) (slotExpect w i + 800) r
    let u := respTaken (g / 128) hit s
    if decides u then probeResp g i w hit (updTree (g / 128) (fun t => { t with
      window := some { w with packed := w.packed.map (fun x => if x = (g % 128, true) then (128, false) else x) } }) u) else u := by
  rw [registration, hw]
  dsimp only
  rw [hb, hi]

end

/-! ### PLOAM messages -/

section
variable {g e : Nat} {d : Delim} {y : BitVec 8} {m : List Byte} {s : State}

theorem ploamCarrier_noBurst (h : ploamBurst s g = none) : ploamCarrier g none s = (none, s) := by rw [ploamCarrier, h]

theorem ploamCarrier_burst {x : Grant} (h : ploamBurst s g = some x) : ploamCarrier g none s = (some (grantEnd x), updTree (g / 128) (fun t => { t with
    grants := t.grants.map (fun y => if y.term = x.term && y.start = x.start then { y with ploamTaken := true } else y) }) s) := by
  rw [ploamCarrier, h]

theorem ploamCarrier_noSlot (h : ploamSlot s g d = none) : ploamCarrier g (some d) s = (none, s) := by rw [ploamCarrier, h]

theorem ploamCarrier_slot {w : Window} (h : ploamSlot s g d = some w) : ploamCarrier g (some d) s
    = (some (respEnd d.at_), respFound (g / 128) d.at_ (updTree (g / 128) (fun t => { t with window := some w }) s)) := by rw [ploamCarrier, h]

theorem ploamIn_discarded (h : y = 0x10 ∨ y = 0x1A) : ploamIn g y m e s = bump (cbTree (g / 128) 12) 1 s := if_pos h

theorem ploamIn_own (h : y = 0x01 ∨ y = 0x02 ∨ y = 0x09) : ploamIn g y m e s = s := by
  rcases h with rfl | rfl | rfl <;> rfl

/-- A message that is not the device's own reaches the host (R158). -/
theorem ploamIn_host (h : y ∉ ([0x10, 0x1A, 0x01, 0x02, 0x09] : List (BitVec 8))) : ploamIn g y m e s = ploamPush g e m s := by
  simp only [List.mem_cons, List.not_mem_nil, or_false, not_or] at h
  obtain ⟨h1, h2, h3, h4, h5⟩ := h
  have hu : upTypes.contains y = false := by
    simp only [upTypes, List.contains_eq_mem, List.mem_cons, List.not_mem_nil, or_false, decide_eq_false_iff_not, not_or]
    exact ⟨h3, h4, h5⟩
  rw [ploamIn, if_neg (not_or.2 ⟨h1, h2⟩), hu]
  rfl

end

/-- Settles O41: windows, responses and messages, each in the cases that its own rule has. -/
theorem discoveryAndRangingRun : Obligations.DiscoveryAndRangingRun := by
  unfold Obligations.DiscoveryAndRangingRun
  refine ⟨?opensDisc, ?opensRanging, ?opensNone, ?plansRanging, ?plansDisc, ?noResponse, ?response, ?serial, ?noRegistration, ?band, ?probe, ?hits,
    ?bandOther,
    ?bandJudged, ?misses, ?probeOther, ?probeJudged, ?message, ?burst, ?slot⟩
  case opensDisc => exact fun n w s hr h => (live_running hr).trans (congrArg _ (openWindow_some h))
  case opensRanging => exact fun n w s hr h => (live_running hr).trans (congrArg _ (openWindow_some h))
  case opensNone =>
    exact fun n s hr => ⟨fun h => (live_running hr).trans (congrArg _ (openWindow_none h)),
      fun h => (live_running hr).trans (congrArg _ (openWindow_none h))⟩
  case plansRanging =>
    refine fun n held l at_ len s => ⟨rfl, rfl, rfl, rfl, planRanging_packed_first, fun x => planRanging_packed, fun b => planRanging_band, ?_⟩
    intro k hp ho hk
    rw [planRanging_single hp ho hk]
    exact ⟨rfl, rfl, rfl⟩
  case plansDisc => exact fun n held l at_ len s => rfl
  case noResponse => exact fun n sn d y c m s hr h => (live_running hr).trans (congrArg _ (serialNumberOnu_none h))
  case response =>
    intro n sn d y c m w s hr hw hp hy u t a lo hi
    have he : exec (.serialNumberOnu n sn ⟨d, y⟩ c m) s = .next _ := (live_running hr).trans (congrArg _ (serialNumberOnu_found hw hp hy))
    rw [he]
    refine ⟨fun hb => congrArg _ (if_pos (by rw [not_decides_of hb]; rfl)), fun hb hout => ?_, fun hb h1 h2 => ?_⟩
    · exact congrArg _ ((if_neg (by rw [decides_of hb]; decide)).trans (if_pos hout))
    · have hd : ¬(!decides s) = true := by rw [decides_of hb]; decide
      have hin : ¬(a < lo ∨ hi ≤ a) := by omega
      refine ⟨fun hc => ?_, fun hc hm => ?_, fun hc hm hl => ?_, fun hc hm hl hs => ?_, fun hc hm hl hs => ?_⟩
      · exact congrArg _ ((if_neg hd).trans ((if_neg hin).trans (if_pos (by rw [hc]; rfl))))
      all_goals have hok : ¬(!c) = true := by rw [hc]; decide
      · exact congrArg _ ((if_neg hd).trans ((if_neg hin).trans ((if_neg hok).trans (if_pos hm))))
      · exact congrArg _ ((if_neg hd).trans ((if_neg hin).trans ((if_neg hok).trans ((if_neg (not_not.2 hm)).trans (if_pos hl)))))
      · exact congrArg _ ((if_neg hd).trans ((if_neg hin).trans ((if_neg hok).trans ((if_neg (not_not.2 hm)).trans ((if_neg (not_le.2 hl)).trans
          (if_pos (List.contains_iff_mem.2 hs)))))))
      · exact congrArg _ ((if_neg hd).trans ((if_neg hin).trans ((if_neg hok).trans ((if_neg (not_not.2 hm)).trans ((if_neg (not_le.2 hl)).trans
          (if_neg (mt List.contains_iff_mem.1 hs)))))))
  case serial =>
    refine fun n sn rc s => ⟨fun h hm => (handleSerial_unknown h).trans (if_pos hm),
      fun h hm => (handleSerial_unknown h).trans (if_neg (ne_true_of_eq_false hm)), fun g h => ⟨fun hc => ?_, fun hn hs => handleSerial_disabled h hn hs,
      fun hn hs => ⟨_, handleSerial_discovers h hn hs, discover_spec g rc s⟩⟩⟩
    by_cases hn : g / 128 = n
    · exact handleSerial_clash h hn (hc.resolve_left (not_not.2 hn))
    · exact handleSerial_otherTree h hn
  case noRegistration =>
    intro n k r s hr h
    obtain ⟨hn, hk⟩ := term_tree_ix n k
    exact (live_running hr).trans (congrArg _ (registration_none (by rwa [hn, hk])))
  case band =>
    intro n k r w sg lo hi s hr hw hb g hit u
    obtain ⟨hn, hk⟩ := term_tree_ix n k
    have he : registration g r s = _ := registration_band (by rwa [hn]) (by rwa [hk])
    rw [hn, ite_decides] at he
    exact (live_running hr).trans (congrArg _ he)
  case probe =>
    intro n k r w i s hr hw hb hi g hit u
    obtain ⟨hn, hk⟩ := term_tree_ix n k
    have he : registration g r s = _ := registration_probe (by rwa [hn]) hb (by rwa [hk])
    rw [hn, hk, ite_decides] at he
    exact (live_running hr).trans (congrArg _ he)
  case hits =>
    intro n lo hi x s hm a
    refine ⟨rfl, fun h => ?_, fun h1 h2 hy => ⟨?_, respTaken_found hm⟩⟩
    · rw [respHit_found hm, if_neg]
      rintro ⟨h1, h2, h3⟩
      rcases h with h | h | h
      · exact absurd h (not_lt.2 h1)
      · exact absurd h (not_lt.2 h2)
      · rw [h] at h3
        exact Bool.false_ne_true h3
    · rw [respHit_found hm, if_pos ⟨h1, h2, hy⟩]
  case bandOther => exact fun g sg lo hi hit s => bandResp_other
  case bandJudged =>
    refine fun g sg lo hi s h => ⟨bandResp_missing h, fun x a => ⟨fun hv => (bandResp_judged h).trans (if_neg hv), fun hv => ?_⟩⟩
    exact ⟨_, (bandResp_judged h).trans (if_pos hv), ranged_spec ..⟩
  case misses =>
    refine fun g again s => ⟨rangeMiss_third g s again, fun h => ?_⟩
    rw [rangeMiss_term again h]
    exact ⟨rfl, rfl, fun ha => by rw [ha]; exact rangeMiss_bandQ h⟩
  case probeOther => exact fun g i w hit s => probeResp_other
  case probeJudged =>
    exact fun g i w s h => ⟨probeResp_missing h, fun x a => ⟨fun hv => (probeResp_judged h).trans (if_pos hv),
      fun hv => (probeResp_judged h).trans (if_neg hv)⟩⟩
  case message =>
    intro n k y m v s hr g u
    obtain ⟨hn, hk⟩ := term_tree_ix n k
    have he : exec (.ploamIn n k y m v) s = .next (ploamTake g v (ploamIn g y m) s) := live_running hr
    rw [he]
    refine ⟨fun hc => congrArg _ (ploamTake_none (Prod.ext hc rfl)), fun e hc => ?_⟩
    have hc : ploamCarrier g v.delim s = (some e, u) := Prod.ext hc rfl
    refine ⟨fun hm => ?_, fun hm hy => ?_, fun hm hy => ?_, fun hm hy => ?_⟩
    · rw [ploamTake_mic hc hm, hn]
    · rw [ploamTake_good hc hm, ploamIn_discarded hy, hn]
    · rw [ploamTake_good hc hm, ploamIn_own hy]
    · rw [ploamTake_good hc hm, ploamIn_host hy, ploamPush, hn, hk]
      rfl
  case burst => exact fun g s => ⟨ploamCarrier_noBurst, fun x => ploamCarrier_burst⟩
  case slot => exact fun g d s => ⟨ploamCarrier_noSlot, fun w => ploamCarrier_slot⟩

end Sys2Proof.Machine
end

section
/-! PROOFS. The terminal slot commands (O8): their checks, and what they come to at their stroke boundary by Table 4.3. -/

namespace Sys2Proof.Machine

/-! ### A command judged at its stroke boundary -/

/-- u is b but for the pair's stream and the counters: b with the record of a mirrored command, or b itself. -/
def Alike (b u : State) : Prop := u = { b with pair := u.pair, cnt := u.cnt }

section
variable {b u : State}

theorem Alike.refl : Alike b b := rfl
theorem alike_mirrored (i : Instr) (h : Hdr) (s b : State) : Alike b (mirrored i h s b) := mirrored_only ..

theorem Alike.term (h : Alike b u) (g : Nat) : term u g = term b g := by rw [h]; rfl
theorem Alike.tree (h : Alike b u) (n : Nat) : tree u n = tree b n := by rw [h]; rfl
theorem Alike.slotOf (h : Alike b u) (n : BitVec 64) : slotOf u n = slotOf b n := by rw [h]; rfl
theorem Alike.treeBusy (h : Alike b u) (n : Nat) : treeBusy u n = treeBusy b n := by rw [h]; rfl
theorem Alike.plateBursts (h : Alike b u) (g : Nat) : plateBursts u g = plateBursts b g := by rw [h]; rfl
theorem Alike.boundaryLate (h : Alike b u) (x : BitVec 32) : boundaryLate u u.now x = boundaryLate b b.now x := by rw [h]; rfl

end

/-- A command that starts and waits for its stroke boundary, its parameters in range when it starts and on the state that the boundary finds. -/
structure Judged (o : Op) (i : Instr) (h : Hdr) (s b : State) : Prop where
  starts : Starts i h s
  runs_op : exec i s = command i o s
  stroke : strokeOf i = some o
  waits : opStroke (opcodeOf i) = true
  admitted : o.bad (taken i h s) = 0
  found : o.bad b = 0

section
variable {o : Op} {i : Instr} {h : Hdr} {s b : State} {st : Nat} {ps : List Byte} {F : State → State}

theorem Judged.refused (j : Judged o i h s b) (hr : o.run b = ⟨st, ps, b⟩) (h1 : 1 < st) (hst : st ≠ stWait) : Comes i h s b st ps b :=
  comes_refused j.starts j.runs_op j.stroke j.waits j.admitted j.found hr h1 hst

theorem Judged.busy (j : Judged o i h s b) (hr : o.run b = resBusy b) : Comes i h s b 0x0A [] b := j.refused hr (by decide) (by decide)

/-- What passes its checks acts behind its record. -/
theorem Judged.ok (j : Judged o i h s b) (hr : ∀ u, Alike b u → o.run u = resOk ps (F u)) : Comes i h s b 0 ps (F (mirrored i h s b)) :=
  comes_mirrored j.starts j.runs_op j.stroke j.waits j.admitted j.found (by rw [hr b .refl]; exact Nat.zero_le 1) (hr _ (alike_mirrored i h s b)) (by decide)

end

/-! ### TERM_ADD -/

section
variable {h : Hdr} {t l : BitVec 8} {s b u : State}

theorem termAdd_bad_taken (a : TermArg) : (opTermAdd h t l a).bad (taken (.termAdd h t l a) h s) = (opTermAdd h t l a).bad s := by
  rw [taken_only]
  rfl

section
variable {f r : BitVec 8} {n : BitVec 64} {a0 a1 a2 a3 : BitVec 16} {x : BitVec 32} {w : BitVec 192}

theorem termAdd_slot_bad (ht : treeOk s t.toNat = true) (hl : l.toNat ≤ 127) : (opTermAdd h t l (.slot f r n a0 a1 a2 a3 x w)).bad s
    = slotBad s (slotIx t l) f r n [a0.toNat, a1.toNat, a2.toNat, a3.toNat] x w := by
  simp only [opTermAdd]
  rw [if_neg (by rw [ht]; decide), if_neg (not_lt.2 hl)]

theorem termAdd_slot_run (s : State) : (opTermAdd h t l (.slot f r n a0 a1 a2 a3 x w)).run s
    = slotRun h (slotIx t l) f r n [a0.toNat, a1.toNat, a2.toNat, a3.toNat] x w s := rfl

theorem termAdd_slot_judged (hs : Starts (.termAdd h t l (.slot f r n a0 a1 a2 a3 x w)) h s) (hl : l.toNat ≤ 127)
    (ht : ∀ u ∈ [s, b], treeOk u t.toNat = true ∧ slotBad u (slotIx t l) f r n [a0.toNat, a1.toNat, a2.toNat, a3.toNat] x w = 0) :
    Judged (opTermAdd h t l (.slot f r n a0 a1 a2 a3 x w)) (.termAdd h t l (.slot f r n a0 a1 a2 a3 x w)) h s b := by
  have hbad {u : State} (hu : u ∈ [s, b]) : (opTermAdd h t l (.slot f r n a0 a1 a2 a3 x w)).bad u = 0 :=
    (termAdd_slot_bad (ht u hu).1 hl).trans (ht u hu).2
  exact ⟨hs, rfl, rfl, rfl, (termAdd_bad_taken _).trans (hbad (by simp)), hbad (by simp)⟩

theorem slotBad_query (s : State) (g : Nat) : slotBad s g 0x80 0 0 [0, 0, 0, 0] 0 0 = 0 := by simp [slotBad, firstBad]

theorem slotBad_free (s : State) (g : Nat) : slotBad s g 0 0 0 [0, 0, 0, 0] 0 0 = 0 := by simp [slotBad, firstBad]

/-- An entry with a serial: no reserved flag, no query, and rate and allocations admitted. -/
theorem slotBad_entry {g : Nat} {l : List Nat} (h0 : f &&& 0x1F = 0) (hq : f.getLsbD 7 = false) (hn : n ≠ 0) (hr : rateOk s r.toNat = true)
    (ha : allocBad s g l = none) : slotBad s g f r n l x w =
      if (!f.getLsbD 5) = true ∧ x ≠ 0 then 36 else if (!f.getLsbD 5) = true ∧ w ≠ 0 then 40
      else if f.getLsbD 5 = true ∧ s.power.kwk.any (fun k => !unwrapOk k w) = true then 40 else 0 := by
  unfold slotBad
  dsimp only
  rw [if_neg (not_not.2 h0), hq, if_neg (by decide), if_neg hn, hr, if_neg (by decide), ha]

/-- Without a PLOAM key. -/
theorem slotBad_plain {g : Nat} {l : List Nat} (hf : f = 0 ∨ f = 0x40) (hn : n ≠ 0) (hr : rateOk s r.toNat = true) (ha : allocBad s g l = none) :
    slotBad s g f r n l 0 0 = 0 := by
  rcases hf with rfl | rfl <;> exact slotBad_entry rfl rfl hn hr ha

theorem any_of_some {α : Type} {o : Option α} {p : α → Bool} {k : α} (hk : o = some k) (hp : p k = false) : o.any p = false := by
  rw [hk]
  exact hp

/-- With a PLOAM key that unwraps. -/
theorem slotBad_key {g : Nat} {l : List Nat} {k : BitVec 128} (hf : f = 0x20 ∨ f = 0x60) (hn : n ≠ 0) (hr : rateOk s r.toNat = true)
    (ha : allocBad s g l = none) (hk : s.power.kwk = some k) (hw : unwrapOk k w = true) : slotBad s g f r n l x w = 0 := by
  have hu : s.power.kwk.any (fun k => !unwrapOk k w) = false := any_of_some hk (congrArg not hw)
  have hp : f.getLsbD 5 = true := by rcases hf with rfl | rfl <;> rfl
  have h0 : f &&& 0x1F = 0 ∧ f.getLsbD 7 = false := by rcases hf with rfl | rfl <;> exact ⟨rfl, rfl⟩
  rw [slotBad_entry h0.1 h0.2 hn hr ha, hp, hu]
  simp only [Bool.not_true, Bool.false_eq_true, false_and, and_false, if_false]

theorem slotRun_query (g : Nat) (l : List Nat) : slotRun h g 0x80 r n l x w s = resOk (termEntry (term s g)) s := rfl

section
variable {g : Nat} {l : List Nat}

theorem slotRun_busy (hq : f.getLsbD 7 = false) (hs : (term s g).st ≠ .unseen) : slotRun h g f r n l x w s = resBusy s := by
  unfold slotRun
  dsimp only
  rw [hq, if_neg (by decide), if_pos hs]

variable (hs : (term s g).st = .unseen)
include hs

theorem slotRun_free : slotRun h g 0 r 0 l x w s = resOk [] (updTerm g (fun t => { t with
    serial := 0, rate := 0, allocs := [0, 0, 0, 0], auto := false, pkey := none, pkeyImpr := 0, pkeyOn := false }) s) :=
  if_neg (not_not.2 hs)

/-- An entry without a PLOAM key is made, unless the serial number has a slot. -/
theorem slotRun_plain (hf : f = 0 ∨ f = 0x40) (hn : n ≠ 0) : slotRun h g f r n l 0 0 s = match slotOf s n with
    | some j => resConflict 8 j s
    | none => resOk [] (setTerm g { term s g with
        serial := n, rate := r.toNat, allocs := l, auto := decide (f = 0x40), pkey := none, pkeyImpr := 0, pkeyOn := false } s) := by
  rcases hf with rfl | rfl
  all_goals exact (if_neg (not_not.2 hs)).trans (if_neg hn)

/-- One with a PLOAM key names the boundary from which the key is used: BUSY without a key-wrapping key, LATE where that boundary has passed. -/
theorem slotRun_key {k : BitVec 128} (hf : f = 0x20 ∨ f = 0x60) (hn : n ≠ 0) (hk : s.power.kwk = some k) (hm : mirrorFlag h = false) :
    slotRun h g f r n l x w s = if boundaryLate s s.now x = true
      then resLate s.imprNum.toNat (boundaryNum s (boundaryAt s (s.now + Config.TURN_CUTOFF + 1))).toNat s
      else match slotOf s n with
      | some j => resConflict 8 j s
      | none => resOk [] (setTerm g { term s g with
          serial := n, rate := r.toNat, allocs := l, auto := decide (f = 0x60), pkey := some w, pkeyImpr := x, pkeyOn := false } s) := by
  have ht : checkTime s h = s.now := by rw [checkTime, hm]; rfl
  unfold slotRun
  dsimp only
  rw [ht, hk]
  rcases hf with rfl | rfl
  all_goals
    refine (if_neg (not_not.2 hs)).trans ((if_neg hn).trans ((if_neg (fun h => Bool.false_ne_true h.2)).trans ?_))
    by_cases hx : boundaryLate s s.now x = true
    · rw [if_pos hx]
      exact if_pos ⟨rfl, hx⟩
    · rw [if_neg hx]
      exact if_neg (fun h => hx h.2)

end
end

/-- The tree's settings: those of R140 that move every terminal wait until none is up. -/
theorem settingsRun_eq (n : Nat) (x : TreeSet) (s : State) : settingsRun n x s =
    if treeBusy s n = true ∧ (x.rtdMin ≠ (tree s n).set.rtdMin ∨ x.reach ≠ (tree s n).set.reach) then resBusy s
    else resOk [] (setTree n { tree s n with set := { (tree s n).set with rtdMin := x.rtdMin, reach := x.reach }, setNext := some x } s) := rfl

section
variable {m : BitVec 32} {r d lim g x k : BitVec 8} {b : BitVec 8} {td tp : BitVec 16} {c : State}

theorem termAdd_settings_judged (hs : Starts (.termAdd h t 0xFF (.settings m r d lim g b x k td tp)) h s) (ht : ∀ u ∈ [s, c], treeOk u t.toNat = true)
    (hp : settingsBad m r d lim g b x k td tp = 0) :
    Judged (opTermAdd h t 0xFF (.settings m r d lim g b x k td tp)) (.termAdd h t 0xFF (.settings m r d lim g b x k td tp)) h s c := by
  have hbad {u : State} (hu : u ∈ [s, c]) : (opTermAdd h t 0xFF (.settings m r d lim g b x k td tp)).bad u = 0 := by
    simp only [opTermAdd]
    rw [if_neg (by rw [ht u hu]; decide), if_neg (by decide), hp]
  exact ⟨hs, rfl, rfl, rfl, (termAdd_bad_taken _).trans (hbad (by simp)), hbad (by simp)⟩

end

/-- A tree with no terminal up, or settings that move none, take the settings. -/
theorem settingsRun_ok {n : Nat} {x : TreeSet} (hx : treeBusy s n = false ∨ x.rtdMin = (tree s n).set.rtdMin ∧ x.reach = (tree s n).set.reach) :
    settingsRun n x s = resOk []
      (setTree n { tree s n with set := { (tree s n).set with rtdMin := x.rtdMin, reach := x.reach }, setNext := some x } s) := by
  rw [settingsRun_eq, if_neg]
  rintro ⟨hb, hm⟩
  rcases hx with hx | ⟨h1, h2⟩
  · simp [hx] at hb
  · exact hm.elim (· h1) (· h2)

theorem settingsRun_busy {n : Nat} {x : TreeSet} (hb : treeBusy s n = true)
    (hx : ¬(x.rtdMin = (tree s n).set.rtdMin ∧ x.reach = (tree s n).set.reach)) : settingsRun n x s = resBusy s := by
  rw [settingsRun_eq, if_pos ⟨hb, not_and_or.1 hx⟩]

end

/-! ### TERM_RANGE, TERM_ACTIVATE, TERM_DISABLE, TERM_RATE -/

section
variable {h : Hdr} {t l a r : BitVec 8} {s b u : State}

theorem slotChecks_taken (i : Instr) : slotChecks (taken i h s) t l = slotChecks s t l := by rw [slotChecks, slotChecks, treeOk, treeOk, taken_fuse]

theorem termRange_judged (hs : Starts (.termRange h t l) h s) (ht : ∀ u ∈ [s, b], treeOk u t.toNat = true) (hl : l.toNat ≤ 127) :
    Judged (opTermRange t l) (.termRange h t l) h s b :=
  ⟨hs, rfl, rfl, rfl, (congrArg firstBad (slotChecks_taken _)).trans (slotChecks_ok (ht s (by simp)) hl), slotChecks_ok (ht b (by simp)) hl⟩

theorem termActivate_judged (hs : Starts (.termActivate h t l) h s) (ht : ∀ u ∈ [s, b], treeOk u t.toNat = true) (hl : l.toNat ≤ 127) :
    Judged (opTermActivate t l) (.termActivate h t l) h s b :=
  ⟨hs, rfl, rfl, rfl, (congrArg firstBad (slotChecks_taken _)).trans (slotChecks_ok (ht s (by simp)) hl), slotChecks_ok (ht b (by simp)) hl⟩

theorem termDisable_judged (hs : Starts (.termDisable h t l a) h s) (ht : ∀ u ∈ [s, b], treeOk u t.toNat = true) (hl : l.toNat ≤ 127)
    (ha : a.toNat ≤ 2) :
    Judged (opTermDisable t l a) (.termDisable h t l a) h s b := by
  have hbad (u : State) (hu : treeOk u t.toNat = true) : (opTermDisable t l a).bad u = 0 := by simp [opTermDisable, slotChecks, firstBad, hu, hl, ha]
  exact ⟨hs, rfl, rfl, rfl, hbad _ (by rw [treeOk, taken_fuse]; exact ht s (by simp)), hbad b (ht b (by simp))⟩

theorem termRate_judged (hs : Starts (.termRate h t l r) h s) (ht : ∀ u ∈ [s, b], treeOk u t.toNat = true ∧ rateOk u r.toNat = true)
    (hl : l.toNat ≤ 127) : Judged (opTermRate t l r) (.termRate h t l r) h s b := by
  have hbad (u : State) (hu : treeOk u t.toNat = true ∧ rateOk u r.toNat = true) : (opTermRate t l r).bad u = 0 := by
    simp [opTermRate, slotChecks, firstBad, hu.1, hu.2, hl]
  exact ⟨hs, rfl, rfl, rfl, hbad _ (by rw [treeOk, rateOk, taken_fuse]; exact ht s (by simp)), hbad b (ht b (by simp))⟩

/-! #### What they come to -/

theorem termRange_discovered (hx : (term s (slotIx t l)).st = .discovered) : (opTermRange t l).run s = resOk [] (queueBand (slotIx t l) s) := by
  simp [opTermRange, hx]

/-- From RANGED, ACTIVE and POPUP back to DISCOVERED, a drift correction under way dropped. -/
theorem termRange_up {x : Term} (hx : term s (slotIx t l) = x) (hu : x.st = .ranged ∨ x.st = .active ∨ x.st = .popup) :
    (opTermRange t l).run s = resOk [] (queueBand (slotIx t l) (moveTerm (slotIx t l) .discovered 0 (updTerm (slotIx t l)
      (fun y => { y with rcHeld := false })
      (if pendingKind s (slotIx t l) (fun k => k = .rangingTime true) then driftTo (slotIx t l) x.eqdAck s else s)))) := by
  subst hx
  rcases hu with hu | hu | hu <;> simp [opTermRange, hu]

theorem termRange_busy (hx : (term s (slotIx t l)).st = .unseen ∨ (term s (slotIx t l)).st = .disabled ∨ (term s (slotIx t l)).st = .rogue) :
    (opTermRange t l).run s = resBusy s := by
  rcases hx with hx | hx | hx <;> simp [opTermRange, hx]

/-- What TERM_ACTIVATE does after a failed activation: the messages that the failure left are sent again. -/
def actAgain (g : Nat) (x : Term) (s : State) : State :=
  let left := actFrom x.wasActive x.actLeft
  actStep g ((left.filter (fun k => x.allocsSent || (match k with | .assignAlloc _ => false | _ => true))).foldl (fun y k => sendAct g k y)
    (updTerm g (fun y => { y with actFailed := false, actLeft := left }) (updTerm g (fun y => { y with actAsked := true }) s)))

section
variable {x : Term} (hx : term s (slotIx t l) = x) (hr : x.st = .ranged)
include hx hr

theorem termActivate_first (hf : x.actFailed = false) :
    (opTermActivate t l).run s = resOk [] (actStep (slotIx t l) (setTerm (slotIx t l) { x with actAsked := true } s)) := by
  subst hx
  exact (if_neg (not_not.2 hr)).trans (if_pos (by rw [hf]; rfl))

theorem termActivate_again (hf : x.actFailed = true) : (opTermActivate t l).run s = resOk [] (actAgain (slotIx t l) x s) := by
  subst hx
  exact (if_neg (not_not.2 hr)).trans (if_neg (by rw [hf]; decide))

end

theorem termDisable_disables (hd : (term s (slotIx t l)).st ≠ .disabled) (hr : (term s (slotIx t l)).st ≠ .rogue)
    (hn : (term s (slotIx t l)).st = .unseen → (term s (slotIx t l)).serial ≠ 0) :
    (opTermDisable t l 1).run s = resOk [] (moveTerm (slotIx t l) .disabled 0 s) := by
  cases hx : (term s (slotIx t l)).st <;> simp_all [opTermDisable]

theorem termDisable_frees (ha : (a = 0 ∧ (term s (slotIx t l)).st = .disabled) ∨ (a = 2 ∧ (term s (slotIx t l)).st = .rogue)) :
    (opTermDisable t l a).run s = resOk [] (moveTerm (slotIx t l) .unseen 0 s) := by
  rcases ha with ⟨rfl, hx⟩ | ⟨rfl, hx⟩ <;> simp [opTermDisable, hx]

theorem termDisable_busy (ha : (a = 0 ∧ (term s (slotIx t l)).st ≠ .disabled) ∨ (a = 2 ∧ (term s (slotIx t l)).st ≠ .rogue)
      ∨ (a = 1 ∧ ((term s (slotIx t l)).st = .disabled ∨ (term s (slotIx t l)).st = .rogue
        ∨ ((term s (slotIx t l)).st = .unseen ∧ (term s (slotIx t l)).serial = 0)))) :
    (opTermDisable t l a).run s = resBusy s := by
  rcases ha with ⟨rfl, hx⟩ | ⟨rfl, hx⟩ | ⟨rfl, hx | hx | ⟨hx, hn⟩⟩ <;> simp [opTermDisable, *]

/-- What TERM_RATE does of a terminal that is up: the profiles of the new rate are sent, and take the place of a change under way (log 81). -/
def rateSends (g r : Nat) (s : State) : State :=
  sendProfiles g [0, 1, 2] true r (updTerm g (fun x => { x with rateNext := some r }) (dropMsgs g isChange s))

section
variable {x : Term} (hx : term s (slotIx t l) = x)
include hx

theorem termRate_free (hn : x.serial = 0) : (opTermRate t l r).run s = resBusy s := by
  subst hx
  simp [opTermRate, hn]

variable (hn : x.serial ≠ 0)
include hn

section
variable (hu : ¬(x.st = .ranged ∨ x.st = .active ∨ x.st = .popup))
include hu

theorem termRate_down : (opTermRate t l r).run s = resOk [] (newRate (slotIx t l) r.toNat s) := by
  subst hx
  exact (if_neg hn).trans (if_neg hu)

/-- A terminal that is not up keeps its rate where it is named again, and what it learned. -/
theorem termRate_same (hr : x.rate = r.toNat) : (opTermRate t l r).run s = resOk [] (setTerm (slotIx t l) { x with rateNext := none } s) := by
  rw [termRate_down hx hn hu]
  subst hx
  rw [newRate, if_neg (not_not.2 hr), ← hr]
  rfl

theorem termRate_changes (hr : x.rate ≠ r.toNat) :
    (opTermRate t l r).run s = resOk [] (setTerm (slotIx t l) { x with rate := r.toNat, rateNext := none } (dropTaps (slotIx t l) s)) := by
  rw [termRate_down hx hn hu]
  subst hx
  rw [newRate, if_pos hr]
  rfl

end

variable (hu : x.st = .ranged ∨ x.st = .active ∨ x.st = .popup)
include hu

theorem termRate_busy (hp : plateBursts s (slotIx t l) ≠ []) : (opTermRate t l r).run s = resBusy s := by
  subst hx
  exact (if_neg hn).trans ((if_pos hu).trans (if_pos hp))

theorem termRate_sends (hp : plateBursts s (slotIx t l) = []) : (opTermRate t l r).run s = resOk [] (rateSends (slotIx t l) r.toNat s) := by
  subst hx
  exact (if_neg hn).trans ((if_pos hu).trans (if_neg (not_not.2 hp)))

end
end

/-! ### PLOAM_SEND -/

section
variable {h : Hdr} {t l y : BitVec 8} {c : List Byte} {s : State}

theorem opPloamSend_ok (ht : treeOk s t.toNat = true) (hl : l.toNat ≤ 127 ∨ l = 0xFF) (hy : deviceTypes.contains y.toNat = false) :
    (opPloamSend t l y c).bad (taken (.ploamSend h t l y c) h s) = 0 := by
  have ht' : treeOk (taken (.ploamSend h t l y c) h s) t.toNat = true := by rw [treeOk, taken_fuse]; exact ht
  simp only [opPloamSend, firstBad, ht', hl, hy]
  rfl

theorem opPloamSend_full (hf : 64 ≤ (tree s t.toNat).hostMsgs.length) : (opPloamSend t l y c).run s = resBusy s := if_pos hf

theorem opPloamSend_queues {x : Tree} (hx : tree s t.toNat = x) (hf : x.hostMsgs.length < 64) : (opPloamSend t l y c).run s = resOk []
    (setTree t.toNat { x with
      hostMsgs := x.hostMsgs ++ [{ slot := if l = 0xFF then none else some l.toNat, kind := .host y.toNat, seq := x.ploamSeq, value := 0, content := c }],
      ploamSeq := x.ploamSeq + 1, hostSeqs := x.hostSeqs.filter (· ≠ x.ploamSeq) ++ [x.ploamSeq] } s) := by
  subst hx
  exact if_neg (not_le.2 hf)

end

/-- Settles O8: a judged command is refused as its run on the boundary's state says, or acts behind its record; each run follows Table 4.3. -/
theorem terminalCommandsComplete : Obligations.TerminalCommandsComplete := by
  unfold Obligations.TerminalCommandsComplete
  refine ⟨fun h t l s b hs ht hl => ?query, fun h t l s b hs ht hl => ?free, fun h t l f r n a0 a1 a2 a3 s b hs hl hf hn ht => ?plain,
    fun h t l f r n a0 a1 a2 a3 x w s b k hs hl hf hn hw hm ht hx => ?key, fun h t m r d g b x k td tp s c lim hs ht hp => ?settings,
    fun h t l s b hs ht hl => ?range, fun h t l s b hs ht hl => ?activate, fun h t l a s b hs ht hl ha => ?disable,
    fun h t l y c s hs ht hl hy => ?send, fun h t l r s b hs ht hl => ?rate⟩
  case query =>
    have j := termAdd_slot_judged hs hl (b := b) fun u hu => ⟨ht u hu, slotBad_query u _⟩
    exact j.ok (F := id) fun u hu => by rw [termAdd_slot_run, slotRun_query, hu.term]; rfl
  case free =>
    have j := termAdd_slot_judged hs hl (b := b) fun u hu => ⟨ht u hu, slotBad_free u _⟩
    refine ⟨fun hx => j.ok fun u hu => ?_, fun hx => j.busy ((termAdd_slot_run b).trans (slotRun_busy rfl hx))⟩
    rw [← hu.term]
    exact (termAdd_slot_run u).trans (slotRun_free (by rw [hu.term]; exact hx))
  case plain =>
    have j := termAdd_slot_judged hs hl (b := b) fun u hu => ⟨(ht u hu).1, slotBad_plain hf hn (ht u hu).2.1 (ht u hu).2.2⟩
    refine ⟨fun hx => j.busy ((termAdd_slot_run b).trans <| slotRun_busy (by rcases hf with rfl | rfl <;> rfl) hx),
      fun hx => ⟨fun hg => ?_, fun g hg => ?_⟩⟩
    · exact j.ok fun u hu => by
        rw [← hu.term]
        exact (slotRun_plain (by rw [hu.term]; exact hx) hf hn).trans (by rw [hu.slotOf, hg])
    · exact j.refused ((slotRun_plain hx hf hn).trans (by rw [hg]; rfl)) (by decide) (by decide)
  case key =>
    have j := termAdd_slot_judged hs hl (b := b) fun u hu => by
      obtain ⟨htr, hr, hk, ha⟩ := ht u hu
      exact ⟨htr, slotBad_key hf hn hr ha hk hw⟩
    have hk (u : State) (hu : Alike b u) : u.power.kwk = some k := by rw [hu]; exact (ht b (by simp)).2.2.1
    refine ⟨fun hl hg => ?_, fun hl => ?_⟩
    · exact j.ok fun u hu => by
        rw [← hu.term]
        refine (slotRun_key (by rw [hu.term]; exact hx) hf hn (hk u hu) hm).trans ?_
        rw [hu.boundaryLate, hl, if_neg (by decide), hu.slotOf, hg]
    · exact j.refused ((slotRun_key hx hf hn (hk b .refl) hm).trans (if_pos hl)) (by decide) (by decide)
  case settings =>
    have j := termAdd_settings_judged hs ht hp
    refine ⟨fun hx => j.ok fun u hu => ?_, fun hb hx => j.busy (settingsRun_busy hb hx)⟩
    rw [← hu.tree]
    exact settingsRun_ok (by rw [hu.treeBusy, hu.tree]; exact hx)
  case range =>
    have j := termRange_judged hs ht hl
    refine ⟨fun hx => j.ok fun u hu => termRange_discovered (by rw [hu.term]; exact hx), fun hx => ?_, fun hx => j.busy (termRange_busy hx)⟩
    exact j.ok (F := fun u => queueBand (slotIx t l) (moveTerm (slotIx t l) .discovered 0 (updTerm (slotIx t l) (fun y => { y with rcHeld := false })
      (if pendingKind u (slotIx t l) (fun k => k = .rangingTime true) then driftTo (slotIx t l) (term b (slotIx t l)).eqdAck u else u))))
      fun u hu => termRange_up (hu.term _) hx
  case activate =>
    have j := termActivate_judged hs ht hl
    refine ⟨fun hx hf => ?_, fun hx hf => ?_, fun hx => j.busy (opTermActivate_busy hx)⟩
    · exact j.ok (F := fun u => actStep (slotIx t l) (setTerm (slotIx t l) { term b (slotIx t l) with actAsked := true } u))
        fun u hu => termActivate_first (hu.term _) hx hf
    · exact j.ok (F := actAgain (slotIx t l) (term b (slotIx t l))) fun u hu => termActivate_again (hu.term _) hx hf
  case disable =>
    have j := termDisable_judged hs ht hl ha
    refine ⟨?_, fun hx => j.ok (F := moveTerm (slotIx t l) .unseen 0) fun u hu => termDisable_frees (by rw [hu.term]; exact hx),
      fun hx => j.busy (termDisable_busy hx)⟩
    rintro rfl hd hr hn
    exact j.ok (F := moveTerm (slotIx t l) .disabled 0) fun u hu => termDisable_disables (by rwa [hu.term]) (by rwa [hu.term]) (by rwa [hu.term])
  case send =>
    have hb := opPloamSend_ok (c := c) (h := h) ht hl hy
    have hf : (tree (taken (.ploamSend h t l y c) h s) t.toNat).hostMsgs = (tree s t.toNat).hostMsgs := by rw [taken_only]; rfl
    refine ⟨fun hq => ?_, fun hq => ?_⟩
    · have hq' := opPloamSend_queues (l := l) (y := y) (c := c) (s := taken (.ploamSend h t l y c) h s) rfl (by rw [hf]; exact hq)
      exact exec_begun (opPloamSend t l y c) hs hb rfl (by rw [hq']; exact Nat.zero_le 1)
        (opPloamSend_queues (by rw [begun_only, taken_only]; rfl) hq) (by decide)
    · have hq' := opPloamSend_full (l := l) (y := y) (c := c) (s := taken (.ploamSend h t l y c) h s) (by rw [hf]; exact hq)
      exact exec_does (opPloamSend t l y c) hs hb rfl ((does_not (by rw [hq']; exact (by decide : ¬0x0A ≤ 1)) _).trans hq') (by decide)
  case rate =>
    have j := termRate_judged hs ht hl
    refine ⟨fun hn => j.busy (termRate_free rfl hn), fun hn hu hr => ?_, fun hn hu hr => ?_, fun hn hu hp => j.busy (termRate_busy rfl hn hu hp),
      fun hn hu hp => ?_⟩
    · exact j.ok (F := fun u => setTerm (slotIx t l) { term b (slotIx t l) with rateNext := none } u) fun u ha => termRate_same (ha.term _) hn hu hr
    · exact j.ok (F := fun u => setTerm (slotIx t l) { term b (slotIx t l) with rate := r.toNat, rateNext := none } (dropTaps (slotIx t l) u))
        fun u ha => termRate_changes (ha.term _) hn hu hr
    · exact j.ok (F := rateSends (slotIx t l) r.toNat) fun u ha => termRate_sends (ha.term _) hn hu (by rw [ha.plateBursts]; exact hp)

end Sys2Proof.Machine
end

section
/-! PROOFS. The key commands (O9): TERM_KEY loads, switches and clears, KWK_SET stores the key-wrapping key. -/

namespace Sys2Proof.Machine

/-! ### What a command that starts finds unchanged -/

/-- What is mirrored acts on the state of its acceptance, but for the interpreter, the pair's stream and a counter. -/
theorem begun_of (i : Instr) (h : Hdr) (s : State) :
    begun i h s = { s with cmd := (begun i h s).cmd, pair := (begun i h s).pair, cnt := (begun i h s).cnt } := by
  rw [begun_only, taken_only]

theorem keySet_begun (i : Instr) (h : Hdr) (s : State) (x : Nat) : keySet (begun i h s) x = keySet s x := by rw [begun_of]; rfl

theorem keySet_taken (i : Instr) (h : Hdr) (s : State) (x : Nat) : keySet (taken i h s) x = keySet s x := by simp only [keySet, taken_keys]

theorem keyBoundary_begun (i : Instr) (h : Hdr) (s : State) (g : Word) : keyBoundary (begun i h s) h g = keyBoundary s h g := by rw [begun_of]; rfl
theorem keyBoundary_taken (i : Instr) (h : Hdr) (s : State) (g : Word) : keyBoundary (taken i h s) h g = keyBoundary s h g := by rw [taken_only]; rfl

/-! ### TERM_KEY -/

section
variable {i : Instr} {h : Hdr} {t d r a : BitVec 8} {g : Word} {w : BitVec 192} {s : State}

theorem opTermKey_bad_taken : (opTermKey h t d r a g w).bad (taken i h s) = (opTermKey h t d r a g w).bad s := by
  simp only [opTermKey, treeOk, featOn, taken_fuse, taken_power, taken_featD]
  congr!

theorem all_of_any {α : Type} {o : Option α} {p : α → Bool} (h : o.any (fun k => !p k) = true) : o.all p = false := by
  cases o with
  | none => cases h
  | some k => simpa using h

section
variable (ht : treeOk s t.toNat = true) (hd : d.toNat < (if featOn s 3 then 64 else 16)) (hr : r.toNat ≤ 1)
include ht hd hr

theorem opTermKey_ok (ha : a.toNat ≤ 2) (hw : a ≠ 0 ∨ s.power.kwk.all (fun k => unwrapOk k w) = true) : (opTermKey h t d r a g w).bad s = 0 := by
  simp only [opTermKey, firstBad, ht, hd, hr, ha, hw, decide_true]
  rfl

/-- A wrapped key that does not unwrap is refused at OFFSET 24 (R127). -/
theorem opTermKey_unwraps (hw : s.power.kwk.any (fun k => !unwrapOk k w) = true) : (opTermKey h t d r 0 g w).bad s = 24 := by
  have hw' : s.power.kwk.all (fun k => unwrapOk k w) = false := all_of_any hw
  simp only [opTermKey, firstBad, ht, hd, hr, hw', decide_true]
  rfl

end

theorem keyLoad_busy {k : KeySet} (hk : keySet s (keyIx t.toNat d.toNat (r = 1)) = k)
    (hb : s.power.kwk = none ∨ pwrOn s t.toNat = false ∨ slotSt k (loadSlot k) = .draining) : (opTermKey h t d r 0 g w).run s = resBusy s := by
  subst hk
  refine if_pos ?_
  simpa using hb

theorem keyLoad_posts {k : KeySet} (hk : keySet s (keyIx t.toNat d.toNat (r = 1)) = k)
    (hb : ¬(s.power.kwk = none ∨ pwrOn s t.toNat = false ∨ slotSt k (loadSlot k) = .draining)) :
    (opTermKey h t d r 0 g w).run s = resOk (beBytes 1 (loadSlot k).toNat ++ [0, 0, 0]) (post (.keyLoad (keyIx t.toNat d.toNat (r = 1)) (loadSlot k) w) s) := by
  subst hk
  refine if_neg (fun hx => hb ?_)
  simpa using hx

/-- A load lands in a slot that is neither CURRENT nor DRAINING. -/
theorem keyLoadLand_stages {x : Nat} {l : Bool} (hc : slotSt (keySet s x) l ≠ .current) (hd : slotSt (keySet s x) l ≠ .draining) :
    keyLoadLand x l w s = setKey x { setSlot (keySet s x) l .staged w with encrypt := true } s := if_neg (not_or.2 ⟨hc, hd⟩)

section
variable {k : KeySet} {b : BitVec 32} (hk : keySet s (keyIx t.toNat d.toNat (r = 1)) = k)
include hk

/-- A switch needs a STAGED slot. -/
theorem keySwitch_refused (h0 : k.st0 ≠ .staged) (h1 : k.st1 ≠ .staged) : (opTermKey h t d r 1 g w).run s = resBad 19 s := by
  subst hk
  simp only [opTermKey]
  rw [if_neg (by decide), if_pos ⟨trivial, h0, h1⟩]

theorem keySwitch_schedules (hs : k.st0 = .staged ∨ k.st1 = .staged) (hb : keyBoundary s h g = some b) :
    (opTermKey h t d r 1 g w).run s = resOk (beBytes 1 (decide (k.st1 = .staged)).toNat ++ [0, 0, 0])
      (setKey (keyIx t.toNat d.toNat (r = 1)) { k with pends := k.pends ++ [(true, b, false)] } s) := by
  subst hk
  simp only [opTermKey]
  rw [if_neg (by decide), if_neg (fun hx => hs.elim hx.2.1 hx.2.2), hb]
  rfl

theorem keyClear_schedules (hb : keyBoundary s h g = some b) : ∃ v : Nat,
    (opTermKey h t d r 2 g w).run s = resOk (beBytes 1 (v % 2) ++ [0, 0, 0])
      { setKey (keyIx t.toNat d.toNat (r = 1)) { k with pends := k.pends ++ [(false, b, false)] } s with free := s.free + 1 } := by
  subst hk
  refine ⟨Config.freshNat s.free, ?_⟩
  simp only [opTermKey]
  rw [if_neg (by decide), if_neg (fun hx => absurd hx.1 (by decide)), hb]
  rfl

end
end

section
variable {i : Instr} {h : Hdr} {t d r a : BitVec 8} {g : Word} {w : BitVec 192} {s b : State} {ps : List Byte} {u : State} {st : Nat}
  (hs : Starts (.termKey h t d r a g w) h s) (hb : (opTermKey h t d r a g w).bad s = 0)
include hs hb

/-- A TERM_KEY that passes its checks acts behind its record, and at once. -/
theorem termKey_answers (h0 : ((opTermKey h t d r a g w).run (taken (.termKey h t d r a g w) h s)).status ≤ 1)
    (hr : (opTermKey h t d r a g w).run (begun (.termKey h t d r a g w) h s) = resOk ps u) :
    exec (.termKey h t d r a g w) s = answersOk (.termKey h t d r a g w) h s ps u :=
  exec_begun (opTermKey h t d r a g w) hs (opTermKey_bad_taken.trans hb) rfl h0 hr (by decide)

theorem termKey_refused (hr : (opTermKey h t d r a g w).run (taken (.termKey h t d r a g w) h s) = ⟨st, ps, taken (.termKey h t d r a g w) h s⟩)
    (h1 : 1 < st) (hst : st ≠ stWait) : exec (.termKey h t d r a g w) s = answersNot (.termKey h t d r a g w) h s st ps :=
  exec_does (opTermKey h t d r a g w) hs (opTermKey_bad_taken.trans hb) rfl ((does_not (by rw [hr]; exact not_le.2 h1) _).trans hr) hst

end

/-! ### KWK_SET -/

section
variable {h : Hdr} {k : BitVec 128} {s b : State}

/-- KWK_SET is not mirrored: each unit's key-wrapping key is set on its own. -/
theorem kwkSet_comes {st : Nat} {ps : List Byte} {t : State} (hs : Starts (.kwkSet h k) h s) (hr : (opKwkSet k).run b = ⟨st, ps, t⟩) (hst : st ≠ stWait) :
    Comes (.kwkSet h k) h s b st ps t :=
  ⟨exec_posts (opKwkSet k) hs rfl (by rfl), landCmd_plain rfl rfl rfl hr hst⟩

theorem opKwkSet_locked (hl : regBit b aLOCKS 7 = true) : (opKwkSet k).run b = resLocked aLOCKS b := if_pos hl

/-- The key is taken where no key slot, no PLOAM key and no partner holds what the one before it wrapped. -/
theorem opKwkSet_stores (hl : regBit b aLOCKS 7 = false) (hk : b.keys.any (fun e => e.2.st0 ≠ .empty || e.2.st1 ≠ .empty) = false)
    (hp : b.terms.any (fun e => e.2.pkey.isSome) = false) (hc : b.pair.contact = false) :
    (opKwkSet k).run b = resOk (beBytes 3 (kcv k).toNat ++ [0]) { b with power := { b.power with kwk := some k } } := by
  simp only [opKwkSet]
  rw [hl, hk, hp, hc]
  rfl

end

/-- Settles O9: the key commands act behind their record on what their acceptance found, KWK_SET at its stroke boundary. -/
theorem keyCommandsComplete : Obligations.KeyCommandsComplete := by
  unfold Obligations.KeyCommandsComplete
  refine ⟨fun h t d r w s hs ht hd hr => ⟨fun hw => ?unwraps, fun hw hb => ?busy, fun hw hb => ?load⟩, fun i l w b hc hd => keyLoadLand_stages hc hd,
    fun h t d r g s hs ht hd hr => ⟨fun hst b hb => ?switch, fun h0 h1 => ?none⟩, fun h t d r g s hs ht hd hr b hb => ?clear,
    fun h k s b hs => ⟨fun hl => ?locked, fun hl hk hp hc => ?stores⟩⟩
  case unwraps => exact exec_badParam hs (opTermKey_bad_taken.trans (opTermKey_unwraps ht hd hr hw)) (by decide)
  case busy =>
    exact termKey_refused hs (opTermKey_ok ht hd hr (by decide) (.inr hw)) (keyLoad_busy (keySet_taken ..) (by rw [taken_only]; exact hb))
      (by decide) (by decide)
  case load =>
    refine termKey_answers hs (opTermKey_ok ht hd hr (by decide) (.inr hw)) ?_ (keyLoad_posts (keySet_begun ..) (by rw [begun_of]; exact hb))
    rw [keyLoad_posts (keySet_taken ..) (by rw [taken_only]; exact hb)]
    exact Nat.zero_le 1
  case switch =>
    refine termKey_answers hs (opTermKey_ok ht hd hr (by decide) (.inl (by decide))) ?_
      (keySwitch_schedules (keySet_begun ..) hst ((keyBoundary_begun ..).trans hb))
    rw [keySwitch_schedules (keySet_taken ..) hst ((keyBoundary_taken ..).trans hb)]
    exact Nat.zero_le 1
  case none =>
    exact termKey_refused hs (opTermKey_ok ht hd hr (by decide) (.inl (by decide))) (keySwitch_refused (keySet_taken ..) h0 h1)
      (by decide) (by decide)
  case clear =>
    obtain ⟨v, hv⟩ := keyClear_schedules (r := r) (w := 0) (keySet_begun (.termKey h t d r 2 g 0) h s _) ((keyBoundary_begun ..).trans hb)
    rw [begun_free] at hv
    refine ⟨v, termKey_answers hs (opTermKey_ok ht hd hr (by decide) (.inl (by decide))) ?_ hv⟩
    obtain ⟨v', hv'⟩ := keyClear_schedules (h := h) (t := t) (d := d) (r := r) (w := 0) (s := taken (.termKey h t d r 2 g 0) h s) rfl
      ((keyBoundary_taken ..).trans hb)
    rw [hv']
    exact Nat.zero_le 1
  case locked => exact kwkSet_comes hs (opKwkSet_locked hl) (by decide)
  case stores => exact kwkSet_comes hs (opKwkSet_stores hl hk hp hc) (by decide)

end Sys2Proof.Machine
end

section
/-! PROOFS. The control of a tree (O20): TREE_CTL decides its transition, and a transition decided is entered at its boundary. -/

namespace Sys2Proof.Machine

/-! ### TREE_CTL by BAR0 -/

section
variable {s b : State}

theorem aTREE_facts (n : Fin 64) : isAlias (aTREE n.val) = false ∧ aTREE n.val % 4 = 0 ∧ regInfo (aTREE n.val) = some { rw := 3 }
    ∧ classBits (aTREE n.val) = 0 := by
  revert n
  decide

theorem aTREE_range (n : Fin 64) :
    0x800000 ≤ aTREE n.val ∧ aTREE n.val < 0xC00000 ∧ aTREE n.val % 0x10000 = 0 ∧ (aTREE n.val - 0x800000) / 0x10000 = n.val := by
  have hn := n.isLt
  simp only [aTREE]
  omega

theorem lockedBits_tree (n : Fin 64) : lockedBits s (aTREE n.val) = 0 := by
  obtain ⟨hl, -⟩ := aTREE_range n
  have h (x : Nat) (hx : x < 0x800000) : aTREE n.val ≠ x := by omega
  rw [lockedBits, if_neg (not_or.2 ⟨h _ (by decide), h _ (by decide)⟩), if_neg (h _ (by decide)), if_neg (h _ (by decide))]

theorem regThere_tree (n : Fin 64) : regThere s (aTREE n.val) = true := by
  obtain ⟨-, h4, hi, -⟩ := aTREE_facts n
  obtain ⟨-, hr, -⟩ := aTREE_range n
  have hr : inRegs (aTREE n.val) = true := decide_eq_true (by omega)
  have ha : aTREE n.val / 4 * 4 = aTREE n.val := by omega
  simp [regThere, hr, ha, hi]

theorem holdSlot_below {a : Nat} (h : a < 0xC00000) : holdSlot a = none := by
  have h (x y : Nat) (hx : 0xC00000 ≤ x) : ¬(x ≤ a ∧ a < y) := by omega
  simp only [holdSlot]
  rw [if_neg (h _ _ (by decide)), if_neg (h _ _ (by decide)), if_neg (h _ _ (by decide)), if_neg (h _ _ (by decide)), if_neg (h _ _ (by decide)),
    if_neg (h _ _ (by decide)), if_neg (h _ _ (by decide))]

theorem isCounter_tree (n : Fin 64) : isCounter s (aTREE n.val) = false := by
  obtain ⟨hl, hh, hz, -⟩ := aTREE_range n
  have h8 : ¬aTREE n.val % 8 ≠ 0 := by omega
  have h (x y : Nat) (hy : y ≤ 0x800000) : ¬(x ≤ aTREE n.val ∧ aTREE n.val < y) := by omega
  simp only [isCounter]
  rw [if_neg h8, if_neg (h _ _ (by decide)), if_neg (h _ _ (by decide)), if_neg (h _ _ (by decide)), if_neg (h _ _ (by decide)), if_neg (h _ _ (by decide)),
    if_neg (h _ _ (by decide)), if_pos ⟨hl, hh⟩, hz]
  rfl

theorem badWidth_tree (n : Fin 64) : badWidth s (aTREE n.val) 4 = false := by
  obtain ⟨hl, hh, -, -⟩ := aTREE_range n
  have ha : aTREE n.val / 8 * 8 = aTREE n.val := by simp only [aTREE]; omega
  have h (x : Nat) (hx : x < 0x800000) : aTREE n.val ≠ x := by omega
  rw [badWidth, (aTREE_facts n).1, inWide, ha, wide, is64, isCounter_tree, holdSlot_below hh]
  simp [h]

theorem writable_tree (n : Fin 64) (h : treeOk s n.val = true) : writable s (aTREE n.val) = true := by
  obtain ⟨hl, hh, hz, hn⟩ := aTREE_range n
  have hr : inRegs (aTREE n.val) = true := decide_eq_true (by omega)
  have hg : regHere s (aTREE n.val) = true := by rw [regHere, if_pos ⟨hl, hh⟩, hn, h]
  have hq : quadHere s (aTREE n.val) = true := by
    have hq : decide (aTREE n.val < 0x480000) = false := decide_eq_false (by omega)
    simp [quadHere, hq]
  have ht : treeHere s (aTREE n.val) = true := by simp [treeHere, hz]
  rw [writable, hr, hg, hq, ht]
  rfl

theorem ringFixed_tree (n : Fin 64) : ringFixed (aTREE n.val) = false := by
  revert n
  decide

theorem regStore_tree (n : Fin 64) (w ws m : Word) : regStore (aTREE n.val) w ws m s = treeCtl n.val (BitVec.ofNat 2 (fld w.toNat 1 0)) s := by
  obtain ⟨hl, hh, hz, hn⟩ := aTREE_range n
  have hx (x y : Nat) (hy : y ≤ 0x800000) : ¬(x ≤ aTREE n.val ∧ aTREE n.val < y) := by omega
  have hne (x : Nat) (hx : x < 0x800000) : aTREE n.val ≠ x := by omega
  have hr : ringFixed (aTREE n.val) = false := ringFixed_tree n
  rw [regStore, if_neg (hx _ _ (by decide)), if_neg (hne _ (by decide)), if_neg (hne _ (by decide)), if_neg (hne _ (by decide)), if_neg (hne _ (by decide)),
    if_neg (hne _ (by decide)), hr, if_neg (by decide), if_neg (hne _ (by decide)), if_neg (hx _ _ (by decide)), if_neg (hne _ (by decide)),
    if_neg (hne _ (by decide)), if_neg (hne _ (by decide)), if_neg (hx _ _ (by decide)), if_neg (hx _ _ (by decide)), if_pos ⟨hl, hh, hz⟩, hn]

theorem target_word (g : BitVec 2) : BitVec.ofNat 2 (fld (g.setWidth 32 &&& 3 : Word).toNat 1 0) = g := by
  revert g
  decide

theorem treeCtl_decides {n : Nat} (g : BitVec 2) (h : treeOk s n = true) : treeCtl n g s = treeDecide n (setRaw (aTREE n) (g.setWidth 32) s) := if_pos h

end

/-! ### The GPIO registers stay -/

section
variable {s : State}

theorem keepsGpio_updTree (n : Nat) (f : Tree → Tree) : KeepsGpio s (updTree n f s) := keepsGpio_of_regs rfl

theorem keepsGpio_pwrUp (d : Nat) : KeepsGpio s (pwrUp d s) := keepsGpio_of_regs (by
  unfold pwrUp setPwr
  repeat' split
  all_goals rfl)

theorem regs_domOff (d : Nat) : (domOff d s).regs = s.regs := by
  unfold domOff
  refine (regs_foldl _ (by intros; rfl) _).trans ?_
  unfold setPwr
  split <;> rfl

theorem mget_filter {α : Type} [DecidableEq α] (d : α) (m : Map α) (p : Nat → Bool) {k : Nat} (h : p k = true) :
    mget d (m.filter (fun e => p e.1)) k = mget d m k := by
  induction m with
  | nil => rfl
  | cons e m ih =>
    obtain ⟨k', w⟩ := e
    by_cases hk : k' = k
    · subst hk
      simp [List.filter, h, mget]
    · cases hp : p k' <;> simp [List.filter, hp, mget, hk, ih]

theorem keepsGpio_treePowerOff (n : Nat) : KeepsGpio s (treePowerOff n s) := by
  have hs (o : Nat) (w : Word) (v : State) : KeepsGpio v (setRaw (aTREE n + o) w v) := keepsGpio_setRaw w (.inr (by simp only [aTREE]; omega))
  unfold treePowerOff
  dsimp only
  refine .trans (.trans (.trans ?_ (hs 0x0C 0 _)) (hs 0x10 0 _)) (keepsGpio_updTree _ _)
  intro k hk
  have hk := List.mem_range.1 hk
  have hp : (!(decide (aTREE n < aGPIO k) && decide (aGPIO k < aTREE n + 0x10000))) = true := by
    rw [Bool.not_eq_true', Bool.and_eq_false_iff]
    exact .inl (decide_eq_false (by simp only [aTREE, aGPIO]; omega))
  simp only [regRaw, regs_domOff]
  rw [mget_filter 0 s.regs (fun a => !(decide (aTREE n < a) && decide (a < aTREE n + 0x10000))) hp]

theorem keepsGpio_treeDecide (n : Nat) : KeepsGpio s (treeDecide n s) := by
  have h0 : KeepsGpio s s := keepsGpio_of_regs rfl
  unfold treeDecide
  dsimp only
  split
  · exact h0
  split
  · split
    · exact .trans (.trans (.trans (keepsGpio_updTree _ _) (keepsGpio_pwrUp _)) (keepsGpio_pwrUp _)) (keepsGpio_pwrUp _)
    · exact h0
  · split
    · exact keepsGpio_updTree _ _
    · split
      · exact .trans (keepsGpio_updTree _ _) (keepsGpio_treePowerOff n)
      · exact h0
  · split
    · exact keepsGpio_updTree _ _
    · split
      · exact keepsGpio_updTree _ _
      · exact h0
  · split
    · exact keepsGpio_updTree _ _
    · exact h0

end

section
variable {s b : State}

/-- TREE_CTL waits for its stroke boundary, sets TARGET there and decides. -/
theorem treeCtl_bars (n : Fin 64) (g : BitVec 2) (ho : BarOpen s) (h : treeOk b n.val = true) : Bars (.treeCtl n g) (aTREE n.val) (g.setWidth 32) s b
    (mirrorBar (aTREE n.val) (g.setWidth 32) (treeDecide n.val (setRaw (aTREE n.val) (g.setWidth 32) b))) := by
  obtain ⟨ha, h4, hi, hc⟩ := aTREE_facts n
  have he : exec (.treeCtl n g) s = .next (barWrite (aTREE n.val) 4 ((g.setWidth 32 : Word).setWidth 64) s) := barStep_open ho
  have hst : regStore (aTREE n.val) (g.setWidth 32 &&& 3) (g.setWidth 32 &&& 0) 0xFFFFFFFF b
      = treeDecide n.val (setRaw (aTREE n.val) (g.setWidth 32) b) := by
    rw [regStore_tree, target_word, treeCtl_decides g h]
  have hg : KeepsGpio b (regStore (aTREE n.val) (g.setWidth 32 &&& 3) (g.setWidth 32 &&& 0) 0xFFFFFFFF b) := by
    rw [hst]
    exact (keepsGpio_setRaw _ (.inr (by simp only [aTREE]; omega))).trans (keepsGpio_treeDecide n.val)
  exact ⟨he.trans (congrArg _ (barWrite_posts (regThere_tree n) h4 (badWidth_tree n) ha hc (lockedBits_tree n))),
    (landBar_store (i := { rw := 3 }) ha (lockedBits_tree n) (writable_tree n h) hi rfl rfl (.inl (by decide)) hg).trans
      (congrArg (mirrorBar (aTREE n.val) (g.setWidth 32)) hst)⟩

end

/-! ### A transition decided is entered -/

section
variable {n : Nat} {s t u : State}

/-- A tree in LIT decides nothing where its TARGET is LIT. -/
theorem treeDecide_lit (hs : (tree s n).st = .lit) (hg : treeTarget s n = 2) : treeDecide n s = s := by
  simp [treeDecide, hs, hg]

theorem treeDecide_dark (hs : (tree s n).st = .dark) (hg : treeTarget s n = 1) : treeDecide n s = s := by
  simp [treeDecide, hs, hg]

section
variable {x : TreeSt} {b : Nat} (hm : (tree s n).moving = some (x, b))
include hm

theorem treeTransition_enters (hs : (tree s n).st ≠ .off) (hx : x ≠ .serving) : treeTransition n s = treeEnter n x (advance b s) := by
  unfold treeTransition
  rw [hm]
  dsimp only
  rw [if_neg hs, if_neg (fun h => hx h.1)]

/-- A tree leaves OFF when its domain is on, whatever the boundary. -/
theorem treeTransition_powered (hs : (tree s n).st = .off) (hx : x ≠ .serving) : treeTransition n s = treeEnter n x s := by
  unfold treeTransition
  rw [hm]
  dsimp only
  rw [if_pos hs, if_neg (fun h => hx h.1)]

/-- SERVING is not entered where no record of the engaged plate names the tree (R94). -/
theorem treeTransition_dropped (hs : (tree s n).st ≠ .off) (hx : x = .serving) (hp : (engaged s).any (fun p => plateNames p n) = false) :
    treeTransition n s = treeDecide n (setTree n { tree s n with moving := none } (advance b s)) := by
  have he : (!(engaged (advance b s)).any (fun p => plateNames p n)) = true := congrArg not hp
  unfold treeTransition
  rw [hm]
  dsimp only
  rw [if_neg hs, if_pos ⟨hx, he⟩]
  rfl

end

/-- DARK to LIT. -/
theorem treeEnter_lit (hs : (tree s n).st = .dark) (hg : treeTarget s n = 2) :
    treeEnter n .lit s = { s with trees := mput {} s.trees n { tree s n with st := .lit, moving := none } } := by
  have hd : treeEnter n .lit s = treeDecide n (setTree n { tree s n with st := .lit, moving := none } s) := by
    unfold treeEnter
    rw [hs]
    rfl
  rw [hd, treeDecide_lit]
  · rfl
  · rw [tree, setTree, mget_mput_same]
  · exact hg

theorem treeTransition_none (hm : (tree s n).moving = none) : treeTransition n s = s := by rw [treeTransition, hm]

end

/-- Between s and t neither time nor the TARGET, the state and the transition of tree n moved, and no domain went off. -/
structure Stands (n : Nat) (s t : State) : Prop where
  now : t.now = s.now
  target : treeTarget t n = treeTarget s n
  st : (tree t n).st = (tree s n).st
  moving : (tree t n).moving = (tree s n).moving
  on : ∀ d, pwrOn s d = true → pwrOn t d = true

section
variable {n : Nat} {s t u : State}

theorem Stands.refl : Stands n s s := ⟨rfl, rfl, rfl, rfl, fun _ h => h⟩

theorem Stands.trans (h : Stands n s t) (k : Stands n t u) : Stands n s u :=
  ⟨k.now.trans h.now, k.target.trans h.target, k.st.trans h.st, k.moving.trans h.moving, fun d hd => k.on d (h.on d hd)⟩

theorem Stands.foldl {α : Type} {f : State → α → State} (h : ∀ s x, Stands n s (f s x)) (l : List α) (s : State) : Stands n s (l.foldl f s) := by
  induction l generalizing s with
  | nil => exact .refl
  | cons x l ih => exact (h s x).trans (ih _)

theorem pwrOn_of_power (h : t.power = s.power) (d : Nat) : pwrOn t d = pwrOn s d := by rw [pwrOn, pwrOn, pwrOf, pwrOf, h]

theorem stands_setPwr (d : Nat) (s : State) : Stands n s (setPwr d .on s) := by
  unfold setPwr
  split
  · exact .refl
  · refine ⟨rfl, rfl, rfl, rfl, fun e he => ?_⟩
    unfold pwrOn pwrOf at *
    dsimp only
    by_cases h : e = d
    · subst h
      simp
    · rw [mget_mput_ne _ _ _ h]
      exact he

theorem pwrOn_setPwr (d : Nat) (s : State) : pwrOn (setPwr d .on s) d = true := by
  unfold setPwr pwrOn pwrOf
  split <;> simp_all

theorem stands_cntRestart (a : Nat) (s : State) : Stands n s (cntRestart a s) := ⟨rfl, rfl, rfl, rfl, fun _ h => h⟩

theorem stands_domRestart (d : Nat) (s : State) : Stands n s (domRestart d s) := .foldl (fun s a => stands_cntRestart a s) (domCounters d) s

/-- What is only reported leaves the tree. -/
theorem Reports.stands (h : Reports s t) (hr : regRaw t (aTREE n) = regRaw s (aTREE n)) : Stands n s t := by
  unfold Reports at h
  have ht : tree t n = tree s n := by rw [h]; rfl
  refine ⟨by rw [h], by rw [treeTarget, treeTarget, regFld, regFld, hr], by rw [ht], by rw [ht], fun d hd => ?_⟩
  rw [pwrOn_of_power (s := s) (by rw [h])]
  exact hd

theorem aTREE_other {a : Nat} (h : a < 0x800000) : aTREE n ≠ a := by
  unfold aTREE
  omega

/-- A record with one status bit leaves every other register. -/
theorem regRaw_evtRaw_one {a b : Nat} (code cls b0 b1 idx : Nat) (d : List Byte) (v : Word) (s : State) (h : a ≠ b) (hg : a ≠ aGLB_EVT)
    (hh : a ≠ aHEVT 0) : regRaw (evtRaw code cls b0 b1 idx d [(b, v)] s) a = regRaw s a := by
  have hl : [(b, v)].foldl (fun s t => scEvent t.1 t.2 s) s = scEvent b v s := rfl
  unfold evtRaw
  rw [hl, ← regRaw_scEvent v s h]
  generalize scEvent b v s = u
  dsimp only
  split
  · rw [(keepsRegs_evtPush ..).raw a hg hh]
    rfl
  · rw [(keepsRegs_evtPush ..).raw a hg hh]

/-- A domain that comes on reports it in PMU_EVT. -/
theorem stands_powerEvent (d : Nat) (s : State) : Stands n s (event 0x0904 0x0D d [] s) :=
  (event_reports ..).stands (regRaw_evtRaw_one 0x0904 0x0D 0 0 d [] 0x40 s (aTREE_other (a := aPMU_EVT) (by decide)) (aTREE_other (by decide))
    (aTREE_other (by decide)))

theorem stands_domOn (d : Nat) (s : State) : Stands n s (domOn d s) := by
  unfold domOn
  split
  · exact .refl
  · exact .trans (.trans (stands_setPwr d s) (stands_domRestart d _)) (stands_powerEvent d _)

theorem pwrOn_domOn (d : Nat) (s : State) : pwrOn (domOn d s) d = true := by
  unfold domOn
  split
  case isTrue h => exact decide_eq_true h
  case isFalse => exact ((stands_domRestart (n := 0) d _).trans (stands_powerEvent d _)).on d (pwrOn_setPwr d s)

/-- What leaves a tree's state and transition as they are. -/
theorem stands_updTree {f : Tree → Tree} (hs : ∀ x, (f x).st = x.st) (hm : ∀ x, (f x).moving = x.moving) (s : State) : Stands n s (updTree n f s) := by
  have ht : tree (updTree n f s) n = f (tree s n) := tree_updTree ..
  exact ⟨rfl, rfl, (congrArg Tree.st ht).trans (hs _), (congrArg Tree.moving ht).trans (hm _), fun _ h => h⟩

theorem stands_tribsAfresh (f : Nat → Bool) (s : State) : Stands n s (tribsAfresh f s) := ⟨rfl, rfl, rfl, rfl, fun _ h => h⟩

/-- A defect of the tree that clears touches of the tree only what feeds TR_LOF. -/
theorem stands_estLift (code : Nat) (s : State) : Stands n s (estLift 1 n code s) := by
  unfold estLift
  split
  · have h : Stands n s (estEmpty (fun k => k = 0x10000 + n || (k / 0x10000 = 2 && k % 0x10000 / 128 = n))
        { s with terms := mmap {} (fun g t => if g / 128 = n then termAfresh t else t) s.terms }) := ⟨rfl, rfl, rfl, rfl, fun _ h => h⟩
    exact .trans (.trans h (stands_updTree (by intros; rfl) (by intros; rfl) _)) (stands_tribsAfresh _ _)
  · rw [if_neg (fun h => absurd h.1 (by decide)), if_neg (fun h => absurd h.1 (by decide)), if_neg (fun h => absurd h.1 (by decide)),
      if_neg (fun h => absurd h.1 (by decide))]
    exact .refl

theorem stands_tellDefect (cls idx code : Nat) (on : Bool) (s : State) : Stands n s (tellDefect cls idx code on s) := by
  unfold tellDefect
  split
  · rw [sendRecs_only]
    exact ⟨rfl, rfl, rfl, rfl, fun _ h => h⟩
  · exact .refl

theorem stands_defClear (code : Nat) (s : State) : Stands n s (defClear 1 n code 2 s) := by
  unfold defClear
  split
  · dsimp only
    refine .trans (.trans (.trans ?_ (stands_estLift ..)) ((defEvent_reports ..).stands ?_)) (stands_tellDefect ..)
    · exact ⟨rfl, rfl, rfl, rfl, fun _ h => h⟩
    · exact (keepsRegs_evtRaw ..).raw _ (aTREE_other (by decide)) (aTREE_other (by decide))
  · exact .refl

theorem stands_estDrop (s : State) : Stands n s (estDrop 1 n s) := ⟨rfl, rfl, rfl, rfl, fun _ h => h⟩

theorem stands_treeLeaves (s : State) : Stands n s (treeLeaves n s) :=
  .trans (.foldl (fun s c => stands_defClear c s) (classCodes 1) s) (stands_estDrop _)

/-- The tree's domains, in the order they come on: the device's, the group's, its own (R427). -/
def domsOn (n : Nat) (s : State) : State := domOn n (domOn (72 + treeGroup n) (domOn 72 s))

theorem stands_domsOn (s : State) : Stands n s (domsOn n s) := .trans (.trans (stands_domOn ..) (stands_domOn ..)) (stands_domOn ..)

theorem pwrOn_domsOn (s : State) : pwrOn (domsOn n s) n = true ∧ pwrOn (domsOn n s) 72 = true ∧ pwrOn (domsOn n s) (72 + treeGroup n) = true :=
  ⟨pwrOn_domOn .., (Stands.trans (n := n) (stands_domOn ..) (stands_domOn ..)).on _ (pwrOn_domOn ..), (stands_domOn (n := n) ..).on _ (pwrOn_domOn ..)⟩

/-- The tree in DARK, as OFF is left. -/
def darkFirst (n : Nat) (s : State) : State := updTree n (fun t => { t with st := .dark, moving := none }) s

theorem tree_darkFirst (s : State) : tree (darkFirst n s) n = { tree s n with st := .dark, moving := none } := tree_updTree ..

/-- The runs and windows that a tree in DARK drops. -/
def quietTree (n : Nat) (s : State) : State := updTree n (fun t => { t with
  window := none, plans := [], quietSpans := [], slackSpans := [], respEnds := [], losCount := 0, lofRun := 0, lineNext := none, lineNow := none,
  placed := [] }) s

theorem stands_quietTree (s : State) : Stands n s (quietTree n s) := stands_updTree (by intros; rfl) (by intros; rfl) s

/-- OFF to DARK: its domains on, its counters afresh, its defects left; TARGET then decides. -/
theorem treeEnter_dark (hs : (tree s n).st = .off) :
    treeEnter n .dark s = treeDecide n (treeLeaves n (quietTree n (domRestart n (domsOn n (darkFirst n s))))) := by
  unfold treeEnter
  rw [hs]
  dsimp only
  rw [if_pos rfl, if_neg (by decide), if_neg (by decide), if_pos rfl]
  rfl

/-- A tree that leaves OFF with TARGET DARK stands in DARK, its domains on. -/
theorem treeTransition_leavesOff {b : Nat} (hm : (tree s n).moving = some (.dark, b)) (hs : (tree s n).st = .off) (hg : treeTarget s n = 1) :
    (tree (treeTransition n s) n).st = .dark ∧ (tree (treeTransition n s) n).moving = none ∧ (treeTransition n s).now = s.now
      ∧ pwrOn (treeTransition n s) n = true ∧ pwrOn (treeTransition n s) 72 = true ∧ pwrOn (treeTransition n s) (72 + treeGroup n) = true := by
  rw [treeTransition_powered hm hs (by decide), treeEnter_dark hs]
  have hp := pwrOn_domsOn (n := n) (darkFirst n s)
  have hd := stands_domsOn (n := n) (darkFirst n s)
  generalize domsOn n (darkFirst n s) = u at hp hd
  have hu : Stands n u (treeLeaves n (quietTree n (domRestart n u))) := .trans (.trans (stands_domRestart ..) (stands_quietTree _)) (stands_treeLeaves _)
  generalize treeLeaves n (quietTree n (domRestart n u)) = v at hu
  have hv := hd.trans hu
  have hst : (tree v n).st = .dark := hv.st.trans (congrArg Tree.st (tree_darkFirst s))
  rw [treeDecide_dark hst (hv.target.trans hg)]
  obtain ⟨h1, h2, h3⟩ := hp
  exact ⟨hst, hv.moving.trans (congrArg Tree.moving (tree_darkFirst s)), hv.now, hu.on _ h1, hu.on _ h2, hu.on _ h3⟩

end

/-! ### Settled -/

/-- Settles O20: the write waits and decides as it lands; a transition that is due is entered and decides anew. -/
theorem treeControlCompletes : Obligations.TreeControlCompletes := by
  unfold Obligations.TreeControlCompletes
  refine ⟨fun n g s b ho h => treeCtl_bars n g ho h, fun n b s hr hm hs hg => (live_running hr).trans (congrArg _ ?lit),
    fun n b s hr ho hm hs hg => ?_, fun n b s hr hm hs hp => (live_running hr).trans (congrArg _ (treeTransition_dropped hm (by rw [hs]; decide) rfl hp)),
    fun n s hr hm => (live_running hr).trans (congrArg _ (treeTransition_none hm))⟩
  case lit => exact (treeTransition_enters hm (by rw [hs]; decide) (by decide)).trans (treeEnter_lit (s := advance b s) hs hg)
  exact ⟨_, live_running hr, treeTransition_leavesOff hm hs hg⟩

end Sys2Proof.Machine
end

section
/-! PROOFS. Bursts (O39): how far each counter moves, what an announcement takes the taps from, and what a received burst leaves. -/

namespace Sys2Proof.Machine

/-! ### How far counters move -/

/-- The counter at b moves by v, and no other. -/
def countAt (b : Nat) (v : BitVec 64) (a : Nat) : BitVec 64 := if a = b then v else 0

/-- From s to t each counter of a running unit moves as f says, but for the drops of the event hopper and of the state stream's. -/
structure Counts (f : Nat → BitVec 64) (s t : State) : Prop where
  power : t.power = s.power
  count : Running s → ∀ a, a ≠ cHop 0 0x20 → a ≠ cHop 0x20 0x20 → (cntOf t a).v = (cntOf s a).v + f a

section
variable {f g : Nat → BitVec 64} {s t u : State}

theorem Running.of_power (h : t.power = s.power) (hr : Running s) : Running t := (congrArg Power.phase h).trans hr

theorem Counts.trans (h : Counts f s t) (k : Counts g t u) : Counts (fun a => f a + g a) s u := by
  refine ⟨k.power.trans h.power, fun hr a h0 h1 => ?_⟩
  rw [k.count (hr.of_power h.power) a h0 h1, h.count hr a h0 h1, BitVec.add_assoc]

/-- What moves no counter. -/
theorem KeepsCounts.after (k : KeepsCounts t u) (hp : u.power = t.power) (h : Counts f s t) : Counts f s u :=
  ⟨hp.trans h.power, fun hr a h0 h1 => (congrArg Cnt.v (k.count a h0 h1)).trans (h.count hr a h0 h1)⟩

theorem Counts.keeps (h : Counts f s t) (hc : u.cnt = t.cnt) (hp : u.power = t.power) : Counts f s u := (keepsCounts_of_cnt hc).after hp h

theorem Counts.event (h : Counts f s t) (code cls idx : Nat) (d : List Byte) : Counts f s (event code cls idx d t) :=
  (keepsCounts_event ..).after (event_power ..) h

theorem Counts.updTerm (h : Counts f s t) (g : Nat) (x : Term → Term) : Counts f s (updTerm g x t) := h.keeps rfl rfl
theorem Counts.updTree (h : Counts f s t) (n : Nat) (x : Tree → Tree) : Counts f s (updTree n x t) := h.keeps rfl rfl
theorem Counts.dropTaps (h : Counts f s t) (g : Nat) : Counts f s (dropTaps g t) := h.keeps rfl rfl

theorem counts_bump (a n : Nat) (s : State) : Counts (countAt a (BitVec.ofNat 64 n)) s (bump a n s) := by
  refine ⟨bump_power .., fun hr b _ _ => ?_⟩
  by_cases h : b = a
  · rw [h, cntOf_bump_same a n hr, countAt, if_pos rfl]
    rfl
  · rw [cntOf_bump_ne _ n h, countAt, if_neg h]
    exact (BitVec.add_zero _).symm

theorem counts_bumpS (a : Nat) (i : Int) (s : State) : Counts (countAt a (BitVec.ofInt 64 i)) s (bumpS a i s) := by
  refine ⟨bumpS_power .., fun hr b _ _ => ?_⟩
  have hf : ¬frozen s = true := by simp only [frozen, decide_eq_true_eq, not_not]; exact hr
  rw [bumpS, if_neg hf, cntOf, cntOf]
  by_cases h : b = a
  · rw [h, mget_mupd_same, countAt, if_pos rfl, cntAddS, BitVec.ofInt_add, BitVec.ofInt_toInt]
  · rw [mget_mupd_ne _ _ _ h, countAt, if_neg h]
    exact (BitVec.add_zero _).symm

theorem Counts.congr {f' : Nat → BitVec 64} (h : Counts f s t) (he : ∀ a, f a = f' a) : Counts f' s t := (funext he : f = f') ▸ h

theorem counts_refl (s : State) : Counts (fun _ => 0) s s := ⟨rfl, fun _ _ _ _ => (BitVec.add_zero _).symm⟩

end

/-! ### Where the counters of bursts stand -/

section
variable {n g o p : Nat} {a b : Nat} {v : BitVec 64}

theorem countAt_same : countAt a v a = v := if_pos rfl

theorem countAt_ne (h : a ≠ b) : countAt b v a = 0 := if_neg h

theorem cTree_low (h : a < 0x800000) : cTree n o ≠ a := by
  unfold cTree
  omega

theorem cTerm_low (h : a < 0x800000) : cTerm g o ≠ a := cTree_low h

theorem cTree_ne (h : o ≠ p) : cTree n o ≠ cTree n p := by
  unfold cTree
  omega

theorem cTerm_ne (h : o ≠ p) : cTerm g o ≠ cTerm g p := by
  unfold cTerm
  exact cTree_ne (by omega)

/-- The counters of a tree stand below those of terminals. -/
theorem cTerm_ne_cTree (ho : o < 0x40) (hp : p < 0x1000) : cTerm g o ≠ cTree n p := by
  unfold cTerm cTree
  omega

end

/-! ### The taps in use -/

section
variable {n : Nat} {s : State}

/-- Taps go live and adapt in the tree's sets alone. -/
theorem tree_tapsLive (n : Nat) (s : State) : ∃ l h, tree (tapsLive n s) n = { tree s n with live := l, shadow := h } := by
  rw [tapsLive, tree_updTree]
  split
  · split
    · exact ⟨_, _, rfl⟩
    · exact ⟨_, _, rfl⟩
  · exact ⟨_, _, rfl⟩

theorem tree_adaptTaps (n : Nat) (s : State) : ∃ l, tree (adaptTaps n s) n = { tree s n with live := l } := ⟨_, tree_updTree ..⟩

end

/-! ### A grant of a tree -/

section
variable {n k : Nat} {g x : Grant} {s t : State}

theorem grantAt_setGrant (h : grantAt s n k = some g) : grantAt (setGrant n k x s) n k = some x := by
  have hk : k < (tree s n).grants.length := (List.getElem?_eq_some_iff.1 h).1
  rw [grantAt, setGrant, tree_updTree]
  exact List.getElem?_set_self hk

theorem grantAt_of_grants (h : (tree t n).grants = (tree s n).grants) : grantAt t n k = grantAt s n k := by rw [grantAt, grantAt, h]

theorem prevGrant_of_grants (h : (tree t n).grants = (tree s n).grants) : prevGrant t n k g = prevGrant s n k g := by rw [prevGrant, prevGrant, h]

end

/-! ### Announcement (R110 to R116) -/

section
variable (n k x : Nat) (g : Grant) (e : Bool) (s : State)

/-- The check of a tap entry that ECC corrected: its taps are no longer valid, which is counted and reported. -/
def tapCorrected (n ix : Nat) (u : State) : State := event 0x020E 2 ix [] (eccEvent 5 ix (bump (cTree n 0x168) 1 (dropTaps ix u)))

/-- What the announcement of a burst finds: the unit's time, the tap memory as its check leaves it, and the taps in use; x is the time of the announcement. -/
def announced : State :=
  let u := tapsLive n (advance x s)
  if e then tapCorrected n (128 * n + g.term) u else u

def announceNow : Nat := max s.now x
def announceDirect : Bool := tapsDirect { s with now := announceNow x s } (prevGrant s n k g)
def announceStore : Map Tap := (if e then dropTaps (128 * n + g.term) s else s).taps
def announceTap : Tap := mget {} (announceStore n g e s) (128 * n + g.term)
def announceValid : Bool :=
  if announceDirect n k x g s then (prevGrant s n k g).any (fun p => p.rate = g.rate)
  else (announceTap n g e s).valid && decide ((announceTap n g e s).rate = BitVec.ofNat 2 g.rate)
def announceAge : Nat :=
  if announceDirect n k x g s then announceNow x s - ((prevGrant s n k g).map grantEnd).getD 0 else stampAge (announceNow x s) (announceTap n g e s).stamp
def announceUse : Bool :=
  if g.pclass = 0 then announceValid n k x g e s && decide (announceAge n k x g e s ≤ Config.TAP_STALE) else g.pclass = 1 && announceValid n k x g e s
def announceHeld : Option Taps :=
  if !announceDirect n k x g s then some (announceTap n g e s).taps
  else if (prevGrant s n k g).any (fun p => decide (announceNow x s < grantEnd p)) then (tree (tapsLive n { s with now := announceNow x s }) n).live
  else (tree s n).writeBack

/-- The grant announced, with the taps of its burst. -/
def announcedGrant (use : Bool) (held : Option Taps) (u : State) : State :=
  setGrant n k { g with announced := true, fresh := use } (updTree n (fun t => { t with shadow := some (g.start, if use then held else none) }) u)

/-- What the announcement leaves: the taps of the burst wait for its start, and taps too old for a burst that needs them are counted and reported. -/
def announceEnds (use : Bool) (held : Option Taps) (u : State) : State :=
  let v := announcedGrant n k g use held u
  let ix := 128 * n + g.term
  if g.pclass = 0 ∧ use = false then
    let w := bump (cTree n 0x128) 1 v
    if (term u ix).staleTold then w else event 0x020D 2 ix [] (updTerm ix (fun t => { t with staleTold := true }) w)
  else v

end

section
variable {n k x : Nat} {g : Grant} {e : Bool} {s : State}

theorem tree_tapsLive_advance : tree (tapsLive n (advance x s)) n = tree (tapsLive n { s with now := max s.now x }) n := by
  rw [tapsLive, tapsLive, tree_updTree, tree_updTree]
  rfl

theorem Reports.featOn {t : State} (h : Reports s t) (i : Nat) : featOn t i = featOn s i := by
  unfold Reports at h
  rw [h]
  rfl

theorem tapCorrected_reports (n ix : Nat) (u : State) : Reports (dropTaps ix u) (tapCorrected n ix u) :=
  (bump_reports ..).trans ((eccEvent_reports ..).trans (event_reports ..))

theorem tapCorrected_counts {f : Nat → BitVec 64} {u : State} (h : Counts f s u) (n ix : Nat) :
    Counts (fun a => f a + countAt (cTree n 0x168) 1 a + countAt (cbDev 2) 1 a) s (tapCorrected n ix u) := by
  rw [tapCorrected, eccEvent]
  exact ((((h.dropTaps ix).trans (counts_bump (cTree n 0x168) 1 _)).trans (counts_bump (cbDev 2) 1 _)).event ..).event ..

theorem announced_false : announced n x g false s = tapsLive n (advance x s) := by
  rw [announced, if_neg Bool.false_ne_true]

theorem announced_true : announced n x g true s = tapCorrected n (128 * n + g.term) (tapsLive n (advance x s)) := by
  rw [announced, if_pos rfl]

/-- The check of the tap entry touches its taps alone of what a burst needs. -/
theorem announced_fields : (announced n x g e s).now = announceNow x s ∧ (announced n x g e s).trees = (tapsLive n (advance x s)).trees
    ∧ (announced n x g e s).taps = announceStore n g e s ∧ (announced n x g e s).mill = s.mill ∧ (announced n x g e s).keys = s.keys
    ∧ (announced n x g e s).plates = s.plates ∧ (announced n x g e s).defects = s.defects := by
  cases e
  · rw [announced_false]
    exact ⟨rfl, rfl, rfl, rfl, rfl, rfl, rfl⟩
  · rw [announced_true]
    obtain ⟨-, -, hnow, hplates, htrees, -, htaps, hkeys, hmill, -, -, -, hdefects, -⟩ :=
      (tapCorrected_reports n (128 * n + g.term) (tapsLive n (advance x s))).fields
    exact ⟨hnow, htrees, htaps, hmill, hkeys, hplates, hdefects⟩

theorem announced_featOn (i : Nat) : featOn (announced n x g e s) i = featOn s i := by
  cases e
  · rw [announced_false]
    rfl
  · rw [announced_true, (tapCorrected_reports ..).featOn]
    rfl

/-- The announcement counts what its check corrects, and nothing else. -/
theorem announced_counts : ∃ m, Counts (fun a => countAt (cTree n 0x168) (if e then 1 else 0) a + countAt (cbDev 2) m a) s (announced n x g e s) := by
  have h0 : Counts (fun _ => 0) s (tapsLive n (advance x s)) := (counts_refl s).keeps rfl rfl
  cases e
  · rw [announced_false]
    exact ⟨0, h0.congr (fun a => by simp [countAt])⟩
  · rw [announced_true]
    exact ⟨1, (tapCorrected_counts h0 ..).congr (fun a => by simp)⟩

theorem announced_tree : tree (announced n x g e s) n = tree (tapsLive n { s with now := announceNow x s }) n :=
  (tree_of_trees announced_fields.2.1 n).trans (tree_tapsLive_advance)

theorem announced_grants : (tree (announced n x g e s) n).grants = (tree s n).grants := by
  obtain ⟨l, h, ht⟩ := tree_tapsLive n { s with now := announceNow x s }
  rw [announced_tree, ht]
  rfl

theorem announced_direct : tapsDirect (announced n x g e s) (prevGrant (announced n x g e s) n k g) = announceDirect n k x g s := by
  rw [prevGrant_of_grants announced_grants, announceDirect, tapsDirect, tapsDirect, announced_featOn, announced_fields.1]
  rfl

theorem announced_writeBack : (tree (announced n x g e s) n).writeBack = (tree s n).writeBack := by
  obtain ⟨l, h, ht⟩ := tree_tapsLive n { s with now := announceNow x s }
  rw [announced_tree, ht]
  rfl

/-- What an announcement reads of the state it finds is what its grant and the state before it say. -/
theorem burstAnnounce_eq (hg : grantAt s n k = some g) (ha : g.announced = false) (hx : x = g.start - Config.ANNOUNCE) :
    burstAnnounce n k e s = announceEnds n k g (announceUse n k x g e s) (announceHeld n k x g e s) (announced n x g e s) := by
  have hd := announced_direct (n := n) (k := k) (x := x) (g := g) (e := e) (s := s)
  have hp := prevGrant_of_grants (k := k) (g := g) (announced_grants (n := n) (x := x) (g := g) (e := e) (s := s))
  have ht : mget {} (announced n x g e s).taps (128 * n + g.term) = announceTap n g e s := by rw [announced_fields.2.2.1]; rfl
  have hn := (announced_fields (n := n) (x := x) (g := g) (e := e) (s := s)).1
  have hl := congrArg Tree.live (announced_tree (n := n) (x := x) (g := g) (e := e) (s := s))
  have hw := announced_writeBack (n := n) (x := x) (g := g) (e := e) (s := s)
  unfold burstAnnounce
  rw [hg]
  dsimp only
  rw [ha, if_neg (by decide), ← hx]
  have hu : (if e = true then event 0x020E 2 (128 * n + g.term) [] (eccEvent 5 (128 * n + g.term) (bump (cTree n 0x168) 1
        (dropTaps (128 * n + g.term) (tapsLive n (advance x s)))))
      else tapsLive n (advance x s)) = announced n x g e s := rfl
  rw [hu]
  generalize announced n x g e s = u at hd hp ht hn hl hw
  rw [hd, hp, ht, hn, hl, hw]
  refine if_congr (and_congr_right fun hc => ?_) rfl rfl
  rw [announceUse, if_pos hc, Bool.not_eq_true']
  rfl

section
variable {use : Bool} {held : Option Taps} {u : State}

theorem announcedGrant_grantAt (hg : grantAt u n k = some g) :
    grantAt (announcedGrant n k g use held u) n k = some { g with announced := true, fresh := use } :=
  grantAt_setGrant ((grantAt_of_grants (updTree_proj Tree.grants n n u)).trans hg)

theorem announcedGrant_shadow : (tree (announcedGrant n k g use held u) n).shadow = some (g.start, if use then held else none) := by
  rw [announcedGrant, setGrant, tree_updTree, tree_updTree]

theorem announceEnds_fields : (announceEnds n k g use held u).now = u.now ∧ (announceEnds n k g use held u).trees = (announcedGrant n k g use held u).trees
    ∧ (announceEnds n k g use held u).taps = u.taps ∧ (announceEnds n k g use held u).mill = u.mill ∧ (announceEnds n k g use held u).keys = u.keys
    ∧ (announceEnds n k g use held u).plates = u.plates ∧ (announceEnds n k g use held u).defects = u.defects := by
  unfold announceEnds
  dsimp only
  split
  · split
    · simp [announcedGrant, setGrant]
    · simp [announcedGrant, setGrant]
  · simp [announcedGrant, setGrant]

theorem announceEnds_counts : Counts (countAt (cTree n 0x128) (if g.pclass = 0 ∧ use = false then 1 else 0)) u (announceEnds n k g use held u) := by
  have h0 : Counts (fun _ => 0) u (announcedGrant n k g use held u) := by
    rw [announcedGrant, setGrant]
    exact ((counts_refl u).updTree ..).updTree ..
  have hb : Counts (countAt (cTree n 0x128) 1) u (bump (cTree n 0x128) 1 (announcedGrant n k g use held u)) :=
    (h0.trans (counts_bump ..)).congr (fun a => by simp)
  unfold announceEnds
  generalize announcedGrant n k g use held u = v at *
  dsimp only
  split
  · split
    · exact hb
    · exact (hb.updTerm ..).event ..
  · exact h0.congr (fun a => by simp [countAt])

end

/-- The announcement of a burst. -/
theorem burstAnnounce_does (hr : Running s) (hg : grantAt s n k = some g) (ha : g.announced = false) (hx : x = g.start - Config.ANNOUNCE) :
    ∃ t, burstAnnounce n k e s = t ∧ t.now = announceNow x s ∧ grantAt t n k = some { g with announced := true, fresh := announceUse n k x g e s }
      ∧ (tree t n).shadow = some (g.start, if announceUse n k x g e s then announceHeld n k x g e s else none) ∧ t.taps = announceStore n g e s
      ∧ (cntOf t (cTree n 0x128)).v = (cntOf s (cTree n 0x128)).v + (if g.pclass = 0 ∧ announceUse n k x g e s = false then 1 else 0)
      ∧ (cntOf t (cTree n 0x168)).v = (cntOf s (cTree n 0x168)).v + (if e then 1 else 0)
      ∧ t.mill = s.mill ∧ t.keys = s.keys ∧ t.plates = s.plates ∧ t.defects = s.defects := by
  refine ⟨_, burstAnnounce_eq hg ha hx, ?_⟩
  generalize announceUse n k x g e s = use, announceHeld n k x g e s = held
  obtain ⟨now, -, taps, mill, keys, plates, defects⟩ := announced_fields (n := n) (x := x) (g := g) (e := e) (s := s)
  have hgu := (grantAt_of_grants (k := k) (announced_grants (n := n) (x := x) (g := g) (e := e) (s := s))).trans hg
  obtain ⟨m, hc⟩ := announced_counts (n := n) (x := x) (g := g) (e := e) (s := s)
  generalize announced n x g e s = u at *
  obtain ⟨now', trees', taps', mill', keys', plates', defects'⟩ := announceEnds_fields (n := n) (k := k) (g := g) (use := use) (held := held) (u := u)
  have ht := tree_of_trees trees' n
  have hct := (hc.trans (announceEnds_counts (n := n) (k := k) (g := g) (use := use) (held := held))).count hr
  refine ⟨now'.trans now, ?_, (congrArg Tree.shadow ht).trans announcedGrant_shadow, taps'.trans taps, ?_, ?_, mill'.trans mill, keys'.trans keys,
    plates'.trans plates, defects'.trans defects⟩
  · exact (grantAt_of_grants (congrArg Tree.grants ht)).trans (announcedGrant_grantAt hgu)
  · rw [hct _ (cTree_low (by decide)) (cTree_low (by decide)), countAt_ne (cTree_ne (by decide)), countAt_ne (cTree_low (by decide)), countAt_same]
    simp
  · rw [hct _ (cTree_low (by decide)) (cTree_low (by decide)), countAt_ne (cTree_ne (p := 0x128) (by decide)),
      countAt_ne (cTree_low (a := cbDev 2) (by decide)), countAt_same]
    simp

end

end Sys2Proof.Machine
end

section
/-! PROOFS. Bursts (O39): what a received burst leaves, what its end writes back, and what the release of its decoder counts. -/

namespace Sys2Proof.Machine

/-! ### Reception (R117 to R120) -/

section
variable {n k x : Nat} {g : Grant} {o : BurstObs} {s t u : State}

/-- The taps of the burst live and adapting, from time x on. -/
def burstTaps (n x : Nat) (s : State) : State := adaptTaps n (tapsLive n (advance x s))

theorem tree_burstTaps (n x : Nat) (s : State) : ∃ l h, tree (burstTaps n x s) n = { tree s n with live := l, shadow := h } := by
  obtain ⟨l, h, ht⟩ := tree_tapsLive n (advance x s)
  obtain ⟨l', hl⟩ := tree_adaptTaps n (tapsLive n (advance x s))
  refine ⟨l', h, ?_⟩
  rw [burstTaps, hl, ht]
  rfl

theorem burstTaps_grants : (tree (burstTaps n x s) n).grants = (tree s n).grants := by
  obtain ⟨l, h, ht⟩ := tree_burstTaps n x s
  rw [ht]

theorem burstTaps_grantAt (hg : grantAt s n k = some g) : grantAt (burstTaps n x s) n k = some g := (grantAt_of_grants burstTaps_grants).trans hg

theorem burstTaps_threshold (r : Nat) : dlmThreshold (burstTaps n x s) n r = dlmThreshold s n r := rfl

theorem burstTaps_counts : Counts (fun _ => 0) s (burstTaps n x s) := (counts_refl s).keeps rfl rfl

/-- The BURST record goes by the pair's stream alone. -/
theorem tellBurst_only (g : Grant) (f : Option Int) (b : Bool) (l : List (Option Nat)) (s : State) :
    burstRx.tellBurst n g f b l s = { s with pair := (burstRx.tellBurst n g f b l s).pair, cnt := (burstRx.tellBurst n g f b l s).cnt } := by
  unfold burstRx.tellBurst
  split
  · exact sendRecs_only ..
  · rfl

theorem tellBurst_fields (g : Grant) (f : Option Int) (b : Bool) (l : List (Option Nat)) (s : State) : let t := burstRx.tellBurst n g f b l s
    t.now = s.now ∧ t.trees = s.trees ∧ t.terms = s.terms ∧ t.defects = s.defects ∧ t.plates = s.plates ∧ t.keys = s.keys ∧ t.taps = s.taps
      ∧ t.mill = s.mill := by
  dsimp only
  rw [tellBurst_only]
  exact ⟨rfl, rfl, rfl, rfl, rfl, rfl, rfl, rfl⟩

theorem Counts.tellBurst {f : Nat → BitVec 64} {d : Option Int} {b : Bool} {l : List (Option Nat)} (h : Counts f s t) :
    Counts f s (burstRx.tellBurst n g d b l t) := by
  refine KeepsCounts.after ?_ ?_ h
  · unfold burstRx.tellBurst
    split
    · exact keepsCounts_sendRecs ..
    · exact .refl
  · rw [tellBurst_only]

/-- What a burst whose delimiter is not found leaves. -/
def burstLost (n k : Nat) (g : Grant) (sd : Bool) (u : State) : State :=
  setGrant n k { g with received := true, sdAny := sd } (bump (cTerm (128 * n + g.term) 0x18) 1 (bump (cTree n 0x120) 1 u))

/-- A lost burst is counted at its terminal and at the tree. -/
def lostCounts (n : Nat) (g : Grant) (a : Nat) : BitVec 64 := countAt (cTree n 0x120) 1 a + countAt (cTerm (128 * n + g.term) 0x18) 1 a

theorem lostCounts_term : lostCounts n g (cTerm (128 * n + g.term) 0x18) = 1 := by
  rw [lostCounts, countAt_same, countAt_ne (cTerm_ne_cTree (by decide) (by decide))]
  rfl

theorem lostCounts_tree : lostCounts n g (cTree n 0x120) = 1 := by
  rw [lostCounts, countAt_same, countAt_ne (cTerm_ne_cTree (by decide) (by decide)).symm]
  rfl

theorem burstLost_counts (sd : Bool) (u : State) : Counts (lostCounts n g) u (burstLost n k g sd u) := by
  rw [burstLost, setGrant]
  exact ((counts_bump (cTree n 0x120) 1 u).trans (counts_bump (cTerm (128 * n + g.term) 0x18) 1 _)).updTree ..

theorem burstLost_grantAt {sd : Bool} (hg : grantAt u n k = some g) : grantAt (burstLost n k g sd u) n k = some { g with received := true, sdAny := sd } :=
  grantAt_setGrant ((grantAt_of_grants (congrArg Tree.grants (tree_of_trees (by simp) n))).trans hg)

theorem burstLost_fields {sd : Bool} : let t := burstLost n k g sd (burstTaps n x s)
    t.now = max s.now x ∧ t.terms = s.terms ∧ t.defects = s.defects ∧ t.plates = s.plates ∧ t.keys = s.keys ∧ t.taps = s.taps := by
  simp [burstLost, setGrant, burstTaps, adaptTaps, tapsLive, fresh, advance]

theorem burstRx_eq_lost (hg : grantAt s n k = some g) (hr : g.received = false) (hx : x = g.start + Config.PRE g.pclass + Config.DELIM)
    (hd : delimWin g.rate (dlmThreshold s n g.rate) o.delims = none) :
    burstRx n k o s = burstRx.tellBurst n g none o.bipOk [] (burstLost n k g o.sdAny (burstTaps n x s)) := by
  unfold burstRx
  rw [hg]
  dsimp only
  rw [hr, if_neg (by decide), ← hx]
  have hu : adaptTaps n (tapsLive n (advance x s)) = burstTaps n x s := rfl
  rw [hu, burstTaps_threshold, hd]
  rfl

theorem burstRx_loses (h : Running s) (hg : grantAt s n k = some g) (hr : g.received = false) (hx : x = g.start + Config.PRE g.pclass + Config.DELIM)
    (hd : delimWin g.rate (dlmThreshold s n g.rate) o.delims = none) :
    ∃ t, burstRx n k o s = t ∧ t.now = max s.now x ∧ grantAt t n k = some { g with received := true, sdAny := o.sdAny }
      ∧ (cntOf t (cTerm (128 * n + g.term) 0x18)).v = (cntOf s (cTerm (128 * n + g.term) 0x18)).v + 1
      ∧ (cntOf t (cTree n 0x120)).v = (cntOf s (cTree n 0x120)).v + 1
      ∧ t.terms = s.terms ∧ t.defects = s.defects ∧ t.plates = s.plates ∧ t.keys = s.keys ∧ t.taps = s.taps := by
  refine ⟨_, burstRx_eq_lost hg hr hx hd, ?_⟩
  have hu : Counts (lostCounts n g) s (burstLost n k g o.sdAny (burstTaps n x s)) :=
    (burstTaps_counts.trans (burstLost_counts ..)).congr (fun a => BitVec.zero_add _)
  have hgu := burstLost_grantAt (sd := o.sdAny) (burstTaps_grantAt (x := x) hg)
  obtain ⟨now, terms, defects, plates, keys, taps⟩ := burstLost_fields (n := n) (k := k) (x := x) (g := g) (sd := o.sdAny) (s := s)
  generalize burstLost n k g o.sdAny (burstTaps n x s) = v at *
  obtain ⟨now', trees', terms', defects', plates', keys', taps', -⟩ := tellBurst_fields (n := n) g none o.bipOk [] v
  have hc := (hu.tellBurst (n := n) (g := g) (d := none) (b := o.bipOk) (l := [])).count h
  refine ⟨now'.trans now, (grantAt_of_grants (congrArg Tree.grants (tree_of_trees trees' n))).trans hgu, ?_, ?_, terms'.trans terms, defects'.trans defects,
    plates'.trans plates, keys'.trans keys, taps'.trans taps⟩
  · rw [hc _ (cTerm_low (by decide)) (cTerm_low (by decide)), lostCounts_term]
  · rw [hc _ (cTree_low (by decide)) (cTree_low (by decide)), lostCounts_tree]

end

/-! ### A burst that is found (R118 to R122) -/

section
variable {n k x : Nat} {g : Grant} {o : BurstObs} {s t u : State}

/-- A remote defect indication is a matter of the terminal and its defects. -/
theorem rdiSeen_keeps (ix : Nat) (r : Bool) (s : State) : Declares s (rdiSeen ix r s) ∧ (rdiSeen ix r s).trees = s.trees := by
  unfold rdiSeen
  split
  · exact ⟨.refl, rfl⟩
  dsimp only
  generalize hu : updTerm ix _ s = u
  have hd : Declares s u := hu ▸ declares_updTerm ix _ s
  have ht : u.trees = s.trees := hu ▸ rfl
  split
  · exact ⟨hd.trans (declares_updTerm ..), ht⟩
  · split
    · exact ⟨hd.trans (declares_defSet ..), (keepsTerms_defSet ..).trees.trans ht⟩
    · split
      · exact ⟨hd.trans (declares_defClear ..), (keepsTerms_defClear (by decide) ..).trees.trans ht⟩
      · exact ⟨hd, ht⟩

theorem clearEmpty_allocs (ks : List Nat) (f : Nat → Bool) (s : State) : ∃ m, clearEmpty ks f s = { s with mill := m } ∧ m.allocs = s.mill.allocs := by
  unfold clearEmpty
  induction ks generalizing s with
  | nil => exact ⟨s.mill, rfl, rfl⟩
  | cons k ks ih =>
    rw [List.foldl_cons]
    split
    · exact ih s
    · obtain ⟨m, h, ha⟩ := ih (setNode k { nodeSt s k with deficit := 0, isOpen := false } s)
      exact ⟨m, h, ha⟩

theorem clearAlloc_allocs (a : Nat) (s : State) : ∃ m, clearAlloc a s = { s with mill := m } ∧ m.allocs = s.mill.allocs := clearEmpty_allocs ..

/-- An allocation of the mill changed. -/
def updAlloc (a : Nat) (f : ACfg → ACfg) (s : State) : State := { s with mill := { s.mill with allocs := mupd {} s.mill.allocs a f } }

/-- A status report moves the mill alone, and is the allocation's report from then on. -/
theorem report_mill (a v start : Nat) (s : State) : ∃ m, report a v start s = { s with mill := m } ∧ (mget {} m.allocs a).reported = v := by
  have h : ∃ f, ∃ c : ACfg → ACfg, (∀ x, (c x).reported = x.reported) ∧ (∀ x, (f x).reported = v) ∧
      report a v start s = updAlloc a c (clearAlloc a (updAlloc a f s)) := by
    refine ⟨_, _, ?_, ?_, rfl⟩
    · exact fun _ => rfl
    · exact fun _ => rfl
  obtain ⟨f, c, hc, hf, h⟩ := h
  obtain ⟨m, hm, ha⟩ := clearAlloc_allocs a (updAlloc a f s)
  refine ⟨{ m with allocs := mupd {} m.allocs a c }, by rw [h, hm]; rfl, ?_⟩
  have ha' : m.allocs = mupd {} s.mill.allocs a f := ha
  show (mget {} (mupd {} m.allocs a c) a).reported = v
  rw [ha', mget_mupd_same, hc, mget_mupd_same, hf]

/-- The status reports of a burst: those the allocation was granted and whose codeword came. -/
def burstReports (ix : Nat) (g : Grant) (o : BurstObs) (s : State) : State :=
  o.reports.foldl (fun s r =>
    if g.allocs.contains (r.1, true) && ((burstCws g o)[dbruCw g r.1]?).join.isSome then report (4 * ix + r.1) r.2 g.start s else s) s

theorem burstReports_mill (ix : Nat) (g : Grant) (o : BurstObs) (s : State) : ∃ m, burstReports ix g o s = { s with mill := m } := by
  unfold burstReports
  induction o.reports generalizing s with
  | nil => exact ⟨_, rfl⟩
  | cons r l ih =>
    rw [List.foldl_cons]
    split
    · obtain ⟨m, hm, -⟩ := report_mill (4 * ix + r.1) r.2 g.start s
      obtain ⟨m', hm'⟩ := ih (report (4 * ix + r.1) r.2 g.start s)
      exact ⟨m', by rw [hm', hm]⟩
    · exact ih s

theorem burstReports_none {ix : Nat} (h : o.reports = []) : burstReports ix g o s = s := by rw [burstReports, h, List.foldl_nil]

theorem burstReports_one {ix a v : Nat} (h : o.reports = [(a, v)]) (hg : g.allocs.contains (a, true) = true)
    (hc : ((burstCws g o)[dbruCw g a]?).join.isSome = true) : (mget {} (burstReports ix g o s).mill.allocs (4 * ix + a)).reported = v := by
  obtain ⟨m, hm, hv⟩ := report_mill (4 * ix + a) v g.start s
  rw [burstReports, h, List.foldl_cons, List.foldl_nil]
  dsimp only
  rw [hg, hc, Bool.and_self, if_pos rfl, hm]
  exact hv

/-- A burst framed by the delimiter at off. -/
def burstFound (n k : Nat) (g : Grant) (o : BurstObs) (off : Int) (u : State) : State :=
  setGrant n k { g with
    received := true, sdAny := o.sdAny, found := some off, decoded := (burstCws g o).length, corrected := ((burstCws g o).filterMap id).sum,
    uncorr := (burstCws g o).length - ((burstCws g o).filterMap id).length, bipOk := o.bipOk, erased := erasedCws (burstCws g o),
    dataAt := some (expected g + delimBits g.rate + off) }
    (updTree n (fun t => { t with ownDlm := (t.ownDlm.1 + off * (40 / Config.lineBits g.rate : Nat), t.ownDlm.2 + 1) })
      (bump (cTerm (128 * n + g.term) 0x30) 1 (bumpS (cTerm (128 * n + g.term) 0x28) off u)))

/-- The first codeword of a burst tells who sent it, and the terminal's remote defects. -/
def burstSender (n : Nat) (g : Grant) (o : BurstObs) (u : State) : State :=
  if (burstCws g o).head?.join.isSome then
    rdiSeen (128 * n + g.term) o.rdi
      (if o.onu ≠ g.term then updTree n (fun t => { t with idMisImpr := t.idMisImpr + 1 }) (bump (cbTree n 14) 1 u) else u)
  else u

theorem burstRx_eq_found {off : Int} (hg : grantAt s n k = some g) (hr : g.received = false) (hx : x = g.start + Config.PRE g.pclass + Config.DELIM)
    (hd : delimWin g.rate (dlmThreshold s n g.rate) o.delims = some off) :
    burstRx n k o s = burstRx.tellBurst n g (some off) o.bipOk (burstCws g o)
      (burstReports (128 * n + g.term) g o (burstSender n g o (burstFound n k g o off (burstTaps n x s)))) := by
  unfold burstRx
  rw [hg]
  dsimp only
  rw [hr, if_neg (by decide), ← hx]
  have hu : adaptTaps n (tapsLive n (advance x s)) = burstTaps n x s := rfl
  rw [hu, burstTaps_threshold, hd]
  rfl

/-- The grant of a burst framed by the delimiter at off. -/
def foundGrant (g : Grant) (o : BurstObs) (off : Int) : Grant := { g with
  received := true, sdAny := o.sdAny, found := some off, decoded := (burstCws g o).length, corrected := ((burstCws g o).filterMap id).sum,
  uncorr := (burstCws g o).length - ((burstCws g o).filterMap id).length, bipOk := o.bipOk, erased := erasedCws (burstCws g o),
  dataAt := some (expected g + delimBits g.rate + off) }

theorem burstFound_fields {off : Int} : let t := burstFound n k g o off (burstTaps n x s)
    t.plates = s.plates ∧ t.keys = s.keys ∧ t.taps = s.taps ∧ t.mill = s.mill := by
  simp [burstFound, setGrant, burstTaps, adaptTaps, tapsLive, fresh, advance]

theorem burstFound_grantAt {off : Int} (hg : grantAt u n k = some g) : grantAt (burstFound n k g o off u) n k = some (foundGrant g o off) :=
  grantAt_setGrant ((grantAt_of_grants ((updTree_proj Tree.grants n n _).trans (congrArg Tree.grants (tree_of_trees (by simp) n)))).trans hg)

theorem burstFound_counts (off : Int) (u : State) : Counts (fun a => countAt (cTerm (128 * n + g.term) 0x28) (BitVec.ofInt 64 off) a
    + countAt (cTerm (128 * n + g.term) 0x30) 1 a) u (burstFound n k g o off u) :=
  ((counts_bumpS (cTerm (128 * n + g.term) 0x28) off u).trans (counts_bump (cTerm (128 * n + g.term) 0x30) 1 _)).keeps
    (by rw [burstFound, setGrant, updTree_cnt, updTree_cnt]) (by rw [burstFound, setGrant, updTree_power, updTree_power])

/-- The codeword that tells who sent the burst came, and it was another. -/
abbrev Mistaken (g : Grant) (o : BurstObs) : Prop := (burstCws g o).head?.join.isSome ∧ o.onu ≠ g.term

/-- The sender is a matter of its terminal's defects and of the tree's rogue trigger. -/
theorem burstSender_keeps (u : State) : (tree (burstSender n g o u) n).grants = (tree u n).grants ∧ (burstSender n g o u).plates = u.plates
    ∧ (burstSender n g o u).keys = u.keys ∧ (burstSender n g o u).taps = u.taps ∧ (burstSender n g o u).mill = u.mill
    ∧ Counts (countAt (cbTree n 14) (if Mistaken g o then 1 else 0)) u (burstSender n g o u) := by
  have hz : Counts (countAt (cbTree n 14) 0) u u := (counts_refl u).congr (fun a => by simp [countAt])
  unfold burstSender Mistaken
  by_cases hc : (burstCws g o).head?.join.isSome = true
  · have hd (v : State) := rdiSeen_keeps (128 * n + g.term) o.rdi v
    rw [if_pos hc]
    by_cases ho : o.onu ≠ g.term
    · rw [if_pos ho, if_pos ⟨hc, ho⟩]
      have hb : Counts (countAt (cbTree n 14) 1) u (bump (cbTree n 14) 1 u) := counts_bump ..
      obtain ⟨hd, ht⟩ := hd (updTree n (fun t => { t with idMisImpr := t.idMisImpr + 1 }) (bump (cbTree n 14) 1 u))
      refine ⟨?_, hd.plates.trans (bump_plates ..), hd.keys.trans (bump_keys ..), hd.taps.trans (bump_taps ..), hd.mill.trans (bump_mill ..), ?_⟩
      · exact (congrArg Tree.grants (tree_of_trees ht n)).trans
          ((updTree_proj Tree.grants n n _).trans (congrArg Tree.grants (tree_of_trees (bump_trees ..) n)))
      · exact hd.counts.after hd.power (hb.keeps rfl rfl)
    · obtain ⟨hd, ht⟩ := hd u
      rw [if_neg ho, if_neg (fun h => ho h.2)]
      exact ⟨congrArg Tree.grants (tree_of_trees ht n), hd.plates, hd.keys, hd.taps, hd.mill, hd.counts.after hd.power hz⟩
  · rw [if_neg hc, if_neg (fun h => hc h.1)]
    exact ⟨rfl, rfl, rfl, rfl, rfl, hz⟩

theorem cbTree_ne_cHop {h : Nat} (_ : h ≤ 0x20) : cbTree n 14 ≠ cHop h 0x20 := by
  unfold cbTree cHop
  omega

theorem cbTree_low (n : Fin 64) : cbTree n.val 14 < 0x800000 := by
  unfold cbTree
  omega

/-- A burst framed by its delimiter. -/
theorem burstRx_finds {n : Fin 64} {off : Int} (h : Running s) (hg : grantAt s n.val k = some g) (hr : g.received = false)
    (hd : delimWin g.rate (dlmThreshold s n.val g.rate) o.delims = some off) :
    ∃ t, burstRx n.val k o s = t ∧ grantAt t n.val k = some (foundGrant g o off)
      ∧ (cntOf t (cTerm (128 * n.val + g.term) 0x30)).v = (cntOf s (cTerm (128 * n.val + g.term) 0x30)).v + 1
      ∧ (cntOf t (cTerm (128 * n.val + g.term) 0x28)).v = (cntOf s (cTerm (128 * n.val + g.term) 0x28)).v + BitVec.ofInt 64 off
      ∧ (cntOf t (cbTree n.val 14)).v = (cntOf s (cbTree n.val 14)).v + (if Mistaken g o then 1 else 0)
      ∧ (∀ a v, o.reports = [(a, v)] → g.allocs.contains (a, true) = true → ((burstCws g o)[dbruCw g a]?).join.isSome = true →
          (mget {} t.mill.allocs (4 * (128 * n.val + g.term) + a)).reported = v)
      ∧ (o.reports = [] → t.mill.allocs = s.mill.allocs)
      ∧ t.plates = s.plates ∧ t.keys = s.keys ∧ t.taps = s.taps := by
  refine ⟨_, burstRx_eq_found hg hr rfl hd, ?_⟩
  generalize g.start + Config.PRE g.pclass + Config.DELIM = x
  have hgu := burstFound_grantAt (o := o) (off := off) (burstTaps_grantAt (x := x) hg)
  have hcu := (burstTaps_counts (n := n.val) (x := x) (s := s)).trans (burstFound_counts (n := n.val) (k := k) (g := g) (o := o) off _)
  obtain ⟨plates, keys, taps, mill⟩ := burstFound_fields (n := n.val) (k := k) (x := x) (g := g) (o := o) (s := s) (off := off)
  generalize burstFound n.val k g o off (burstTaps n.val x s) = u at *
  obtain ⟨grants', plates', keys', taps', mill', hcv⟩ := burstSender_keeps (n := n.val) (g := g) (o := o) u
  replace hcv := hcu.trans hcv
  generalize burstSender n.val g o u = v at *
  have hm0 := burstReports_none (g := g) (o := o) (s := v) (ix := 128 * n.val + g.term)
  have hm1 (a b : Nat) := burstReports_one (g := g) (o := o) (s := v) (ix := 128 * n.val + g.term) (a := a) (v := b)
  obtain ⟨m, hm⟩ := burstReports_mill (128 * n.val + g.term) g o v
  rw [hm] at hm0 hm1 ⊢
  obtain ⟨-, trees'', -, -, plates'', keys'', taps'', mill''⟩ := tellBurst_fields (n := n.val) g (some off) o.bipOk (burstCws g o) { v with mill := m }
  have hc := ((hcv.keeps (u := { v with mill := m }) rfl rfl).tellBurst (n := n.val) (g := g) (d := some off) (b := o.bipOk) (l := burstCws g o)).count h
  generalize burstRx.tellBurst n.val g (some off) o.bipOk (burstCws g o) { v with mill := m } = t at *
  refine ⟨?_, ?_, ?_, ?_, fun a b hr ha hw => ?_, fun hr => ?_, plates''.trans (plates'.trans plates), keys''.trans (keys'.trans keys),
    taps''.trans (taps'.trans taps)⟩
  · exact (grantAt_of_grants ((congrArg Tree.grants (tree_of_trees trees'' n.val)).trans grants')).trans hgu
  · rw [hc _ (cTerm_low (by decide)) (cTerm_low (by decide)), countAt_same, countAt_ne (cTerm_ne (by decide)), countAt_ne (cTerm_low (cbTree_low n))]
    simp
  · rw [hc _ (cTerm_low (by decide)) (cTerm_low (by decide)), countAt_same, countAt_ne (cTerm_ne (p := 0x30) (by decide)),
      countAt_ne (cTerm_low (cbTree_low n))]
    simp
  · rw [hc _ (cbTree_ne_cHop (by decide)) (cbTree_ne_cHop (by decide)), countAt_same, countAt_ne (cTerm_low (cbTree_low n)).symm,
      countAt_ne (cTerm_low (cbTree_low n)).symm]
    simp
  · rw [mill'']
    exact hm1 a b hr ha hw
  · rw [mill'', hm0 hr, mill', mill]

end

end Sys2Proof.Machine
end

section
/-! PROOFS. Bursts (O39): what the end of a burst writes back, and what the release of its decoder counts. -/

namespace Sys2Proof.Machine

/-! ### The end of a burst (R113, R118, R120 to R122) -/

section
variable {n k : Nat} {g : Grant} {s t u : State}

/-- A burst of which nothing was received is lost when it ends. -/
def endLost (n k : Nat) (g : Grant) (u : State) : State :=
  if g.received then u else bump (cTerm (128 * n + g.term) 0x18) 1 (bump (cTree n 0x120) 1 (setGrant n k { g with received := true } u))

/-- The burst is clean: framed, without an uncorrectable codeword, and the tap memory is in use. -/
abbrev Clean (g : Grant) (s : State) : Prop := g.found.isSome ∧ g.uncorr = 0 ∧ featOn s 6

/-- The tap entry that a clean burst leaves in memory. -/
def writtenTap (g : Grant) (l : Option Taps) : Tap :=
  { taps := l.getD {}, rate := BitVec.ofNat 2 g.rate, valid := true, stamp := BitVec.ofNat 64 (grantEnd g) }

/-- The taps as adapted at the end of the burst are written back. -/
def writtenBack (n : Nat) (u : State) : State := updTree n (fun t => { t with writeBack := (tree u n).live }) u

/-- Those of a clean burst are written into memory too. -/
def endWritten (n : Nat) (g : Grant) (u : State) : State :=
  let v := writtenBack n u
  if Clean g v then
    { v with taps := mput {} v.taps (128 * n + g.term) (writtenTap g (tree u n).live) }
  else v

/-- A tree after a burst: bursts lost in a row where the one before was found, and what its frame has heard; p is whether the terminal's burst before
this one was found. -/
def endTree (g : Grant) (p : Bool) (t : Tree) : Tree := { t with
  losCount := if g.sdAny then 0 else if p then t.losCount + 1 else t.losCount,
  foundTerms := if g.found.isSome then g.term :: t.foundTerms else t.foundTerms, sdFrame := t.sdFrame || g.sdAny,
  partnerAtSd := if g.sdAny then t.partnerDefects else t.partnerAtSd }

/-- What the end of a burst leaves to the tree's TR_LOS and to its terminal. -/
def endRuns (n : Nat) (g : Grant) (u : State) : State :=
  updTerm (128 * n + g.term) (fun t => { t with prevFound := g.found.isSome, prevEnd := grantEnd g })
    (updTree n (endTree g (term u (128 * n + g.term)).prevFound) u)

/-- The state that the end of a burst leaves, but for what it declares. -/
def burstEnded (n k : Nat) (g : Grant) (s : State) : State :=
  endRuns n g (endWritten n g (adaptTaps n (endLost n k g (tapsLive n (advance (grantEnd g) s)))))

/-! #### Each part -/

theorem endLost_fields : (endLost n k g u).now = u.now ∧ (endLost n k g u).terms = u.terms ∧ (endLost n k g u).taps = u.taps
    ∧ (endLost n k g u).mill = u.mill ∧ (endLost n k g u).keys = u.keys ∧ (endLost n k g u).plates = u.plates ∧ (endLost n k g u).defects = u.defects
    ∧ (endLost n k g u).cmd = u.cmd := by
  unfold endLost
  split
  · exact ⟨rfl, rfl, rfl, rfl, rfl, rfl, rfl, rfl⟩
  · simp [setGrant]

theorem endLost_losCount : (tree (endLost n k g u) n).losCount = (tree u n).losCount := by
  unfold endLost
  split
  · rfl
  · rw [tree_of_trees (s := setGrant n k { g with received := true } u) (by simp), setGrant, tree_updTree]

theorem endLost_grantAt (hg : grantAt u n k = some g) : grantAt (endLost n k g u) n k = some { g with received := true } := by
  unfold endLost
  split
  case isTrue h =>
    rw [hg, ← h]
  case isFalse =>
    rw [grantAt, tree_of_trees (s := setGrant n k { g with received := true } u) (by simp)]
    exact grantAt_setGrant hg

theorem endLost_counts : Counts (fun a => if g.received then 0 else lostCounts n g a) u (endLost n k g u) := by
  unfold endLost
  split
  · exact counts_refl u
  · have h0 : Counts (fun _ => 0) u (setGrant n k { g with received := true } u) := (counts_refl u).keeps rfl rfl
    exact (h0.trans ((counts_bump (cTree n 0x120) 1 _).trans (counts_bump (cTerm (128 * n + g.term) 0x18) 1 _))).congr
      (fun a => BitVec.zero_add _)

theorem endWritten_tree : tree (endWritten n g u) n = { tree u n with writeBack := (tree u n).live } := by
  have h : tree (writtenBack n u) n = { tree u n with writeBack := (tree u n).live } := tree_updTree ..
  rw [← h]
  unfold endWritten
  dsimp only
  split
  · rfl
  · rfl

theorem endWritten_fields : (endWritten n g u).now = u.now ∧ (endWritten n g u).terms = u.terms ∧ (endWritten n g u).cnt = u.cnt
    ∧ (endWritten n g u).power = u.power ∧ (endWritten n g u).mill = u.mill ∧ (endWritten n g u).keys = u.keys ∧ (endWritten n g u).plates = u.plates
    ∧ (endWritten n g u).defects = u.defects := by
  unfold endWritten
  dsimp only
  split
  · exact ⟨rfl, rfl, rfl, rfl, rfl, rfl, rfl, rfl⟩
  · exact ⟨rfl, rfl, rfl, rfl, rfl, rfl, rfl, rfl⟩

theorem endWritten_clean (h : Clean g u) : mget {} (endWritten n g u).taps (128 * n + g.term) = writtenTap g (tree u n).live := by
  unfold endWritten
  dsimp only
  rw [if_pos (show Clean g (writtenBack n u) from h)]
  exact mget_mput_same ..

theorem endWritten_dirty (h : ¬Clean g u) : (endWritten n g u).taps = u.taps := by
  unfold endWritten
  dsimp only
  rw [if_neg (show ¬Clean g (writtenBack n u) from h)]
  rfl

theorem endRuns_tree : tree (endRuns n g u) n = endTree g (term u (128 * n + g.term)).prevFound (tree u n) := tree_updTree ..

theorem endRuns_term : (term (endRuns n g u) (128 * n + g.term)).prevEnd = grantEnd g
    ∧ (term (endRuns n g u) (128 * n + g.term)).prevFound = g.found.isSome := by
  unfold endRuns
  rw [term_updTerm]
  exact ⟨rfl, rfl⟩

theorem endRuns_fields : (endRuns n g u).now = u.now ∧ (endRuns n g u).taps = u.taps ∧ (endRuns n g u).cnt = u.cnt ∧ (endRuns n g u).power = u.power
    ∧ (endRuns n g u).mill = u.mill ∧ (endRuns n g u).keys = u.keys ∧ (endRuns n g u).plates = u.plates ∧ (endRuns n g u).defects = u.defects := by
  simp [endRuns]

/-- What the end of a burst finds of its terminal is what stood before it. -/
theorem endWritten_term (x : Nat) (j : Nat) : term (endWritten n g (adaptTaps n (endLost n k g (tapsLive n (advance x s))))) j = term s j := by
  have h1 := (endWritten_fields (n := n) (g := g) (u := adaptTaps n (endLost n k g (tapsLive n (advance x s))))).2.1
  have h2 := (endLost_fields (n := n) (k := k) (g := g) (u := tapsLive n (advance x s))).2.1
  exact term_of_terms (h1.trans h2) j

theorem burstEnd_eq (hg : grantAt s n k = some g) : burstEnd n k s = burstDefects (128 * n + g.term) g.found.isSome g.sdAny
    (if (!g.sdAny && (term s (128 * n + g.term)).prevFound) = true ∧ (tree (burstEnded n k g s) n).losBursts ≤ (tree (burstEnded n k g s) n).losCount
      then treeDefect n TR_LOS (advance (g.start + g.len + 24) (burstEnded n k g s)) else burstEnded n k g s) := by
  have hp := endWritten_term (n := n) (k := k) (g := g) (s := s) (grantEnd g) (128 * n + g.term)
  have h : burstEnd n k s = burstDefects (128 * n + g.term) g.found.isSome g.sdAny
      (if (!g.sdAny) = true ∧ (term (endWritten n g (adaptTaps n (endLost n k g (tapsLive n (advance (grantEnd g) s))))) (128 * n + g.term)).prevFound = true
          ∧ (tree (burstEnded n k g s) n).losBursts ≤ (tree (burstEnded n k g s) n).losCount
        then treeDefect n TR_LOS (advance (g.start + g.len + 24) (burstEnded n k g s)) else burstEnded n k g s) := by
    unfold burstEnd
    rw [hg]
    rfl
  rw [h, hp]
  refine congrArg _ (if_congr ?_ rfl rfl)
  rw [Bool.and_eq_true, and_assoc]

/-- Taps as the end of a burst finds them, adapted. -/
def endTaps (n k : Nat) (g : Grant) (s : State) : State := adaptTaps n (endLost n k g (tapsLive n (advance (grantEnd g) s)))

theorem endTaps_fields : (endTaps n k g s).now = max s.now (grantEnd g) ∧ (endTaps n k g s).terms = s.terms ∧ (endTaps n k g s).taps = s.taps
    ∧ (endTaps n k g s).mill = s.mill ∧ (endTaps n k g s).keys = s.keys ∧ (endTaps n k g s).plates = s.plates ∧ (endTaps n k g s).defects = s.defects
    ∧ (endTaps n k g s).cmd = s.cmd := endLost_fields (n := n) (k := k) (g := g) (u := tapsLive n (advance (grantEnd g) s))

theorem endTaps_grantAt (hg : grantAt s n k = some g) : grantAt (endTaps n k g s) n k = some { g with received := true } := by
  obtain ⟨l, h, ht⟩ := tree_tapsLive n (advance (grantEnd g) s)
  have ha : grantAt (tapsLive n (advance (grantEnd g) s)) n k = some g := by
    rw [grantAt, ht]
    exact hg
  exact (grantAt_of_grants (updTree_proj Tree.grants n n _)).trans (endLost_grantAt ha)

theorem endTaps_losCount : (tree (endTaps n k g s) n).losCount = (tree s n).losCount := by
  obtain ⟨l, h, ht⟩ := tree_tapsLive n (advance (grantEnd g) s)
  have ha : (tree (tapsLive n (advance (grantEnd g) s)) n).losCount = (tree s n).losCount := by
    rw [ht]
    rfl
  exact (updTree_proj Tree.losCount n n _).trans (endLost_losCount.trans ha)

theorem endTaps_counts : Counts (fun a => if g.received then 0 else lostCounts n g a) s (endTaps n k g s) := by
  have ha : Counts (fun _ => 0) s (tapsLive n (advance (grantEnd g) s)) := (counts_refl s).keeps rfl rfl
  exact ((ha.trans endLost_counts).keeps (u := endTaps n k g s) rfl rfl).congr (fun a => BitVec.zero_add _)

theorem burstEnd_ends (h : Running s) (hg : grantAt s n k = some g) :
    ∃ u, burstEnd n k s = burstDefects (128 * n + g.term) g.found.isSome g.sdAny
        (if (!g.sdAny && (term s (128 * n + g.term)).prevFound) = true ∧ (tree u n).losBursts ≤ (tree u n).losCount
          then treeDefect n TR_LOS (advance (g.start + g.len + 24) u) else u)
      ∧ u.now = max s.now (grantEnd g) ∧ grantAt u n k = some { g with received := true }
      ∧ (tree u n).writeBack = (tree u n).live
      ∧ (Clean g s → mget {} u.taps (128 * n + g.term) = writtenTap g (tree u n).live)
      ∧ (¬Clean g s → u.taps = s.taps)
      ∧ (tree u n).losCount
        = (if g.sdAny then 0 else if (term s (128 * n + g.term)).prevFound then (tree s n).losCount + 1 else (tree s n).losCount)
      ∧ (term u (128 * n + g.term)).prevEnd = grantEnd g ∧ (term u (128 * n + g.term)).prevFound = g.found.isSome
      ∧ (cntOf u (cTerm (128 * n + g.term) 0x18)).v = (cntOf s (cTerm (128 * n + g.term) 0x18)).v + (if g.received then 0 else 1)
      ∧ (cntOf u (cTree n 0x120)).v = (cntOf s (cTree n 0x120)).v + (if g.received then 0 else 1)
      ∧ u.mill = s.mill ∧ u.keys = s.keys ∧ u.plates = s.plates ∧ u.defects = s.defects := by
  refine ⟨_, burstEnd_eq hg, ?_⟩
  have hu : burstEnded n k g s = endRuns n g (endWritten n g (endTaps n k g s)) := rfl
  rw [hu]
  obtain ⟨now, terms, taps, mill, keys, plates, defects, cmd⟩ := endTaps_fields (n := n) (k := k) (g := g) (s := s)
  have hga := endTaps_grantAt hg
  have hlos := endTaps_losCount (n := n) (k := k) (g := g) (s := s)
  have hc := endTaps_counts (n := n) (k := k) (g := g) (s := s)
  generalize endTaps n k g s = c at *
  obtain ⟨now', terms', cnt', power', mill', keys', plates', defects'⟩ := endWritten_fields (n := n) (g := g) (u := c)
  have ht := endWritten_tree (n := n) (g := g) (u := c)
  have hclean : Clean g s → mget {} (endWritten n g c).taps (128 * n + g.term) = writtenTap g (tree c n).live := by
    rintro ⟨h1, h2, h3⟩
    exact endWritten_clean ⟨h1, h2, by rw [featOn, cmd]; exact h3⟩
  have hdirty : ¬Clean g s → (endWritten n g c).taps = c.taps := by
    intro hn
    exact endWritten_dirty fun ⟨h1, h2, h3⟩ => hn ⟨h1, h2, by rw [featOn, cmd] at h3; exact h3⟩
  generalize endWritten n g c = d at *
  obtain ⟨now'', taps'', cnt'', power'', mill'', keys'', plates'', defects''⟩ := endRuns_fields (n := n) (g := g) (u := d)
  have ht' := endRuns_tree (n := n) (g := g) (u := d)
  obtain ⟨hpe, hpf⟩ := endRuns_term (n := n) (g := g) (u := d)
  have hp : (term d (128 * n + g.term)).prevFound = (term s (128 * n + g.term)).prevFound := congrArg Term.prevFound (term_of_terms (terms'.trans terms) _)
  have hcu := ((hc.keeps cnt' power').keeps cnt'' power'').count h
  generalize endRuns n g d = u at *
  rw [ht, hp] at ht'
  refine ⟨now''.trans (now'.trans now), ?_, by rw [ht']; rfl, fun hx => ?_, fun hx => (taps''.trans (hdirty hx)).trans taps, ?_, hpe, hpf, ?_, ?_,
    mill''.trans (mill'.trans mill), keys''.trans (keys'.trans keys), plates''.trans (plates'.trans plates), defects''.trans (defects'.trans defects)⟩
  · rw [grantAt, ht']
    exact hga
  · rw [taps'', hclean hx, ht']
    rfl
  · rw [ht', ← hlos]
    rfl
  · rw [hcu _ (cTerm_low (by decide)) (cTerm_low (by decide)), lostCounts_term]
  · rw [hcu _ (cTree_low (by decide)) (cTree_low (by decide)), lostCounts_tree]

end

/-! ### The decoder's release (R122) -/

section
variable {n k a b : Nat} {g : Grant} {s t u : State}

theorem bankRelease_lost (hg : grantAt s n k = some g) (hf : g.found = none) : bankRelease n k s = advance (grantEnd g + Config.BANK_DRAIN) s := by
  unfold bankRelease
  rw [hg]
  dsimp only
  rw [hf]
  rfl

/-- The three counters of codewords from a on: decoded, corrected, uncorrectable. -/
def words (a : Nat) (g : Grant) (b : Nat) : BitVec 64 :=
  countAt a (BitVec.ofNat 64 g.decoded) b + countAt (a + 8) (BitVec.ofNat 64 g.corrected) b + countAt (a + 16) (BitVec.ofNat 64 g.uncorr) b

theorem words_far (h : b < a ∨ a + 16 < b) : words a g b = 0 := by
  rw [words, countAt_ne (by omega), countAt_ne (by omega), countAt_ne (by omega)]
  rfl

theorem words_decoded : words a g a = BitVec.ofNat 64 g.decoded := by
  rw [words, countAt_same, countAt_ne (by omega), countAt_ne (by omega)]
  simp

theorem words_corrected : words a g (a + 8) = BitVec.ofNat 64 g.corrected := by
  rw [words, countAt_same, countAt_ne (by omega), countAt_ne (by omega)]
  simp

theorem words_uncorr : words a g (a + 16) = BitVec.ofNat 64 g.uncorr := by
  rw [words, countAt_same, countAt_ne (by omega), countAt_ne (by omega)]
  simp

def addWords (a : Nat) (g : Grant) (s : State) : State := bump (a + 16) g.uncorr (bump (a + 8) g.corrected (bump a g.decoded s))

theorem addWords_counts (a : Nat) (g : Grant) (s : State) : Counts (words a g) s (addWords a g s) :=
  ((counts_bump a g.decoded s).trans (counts_bump (a + 8) g.corrected _)).trans (counts_bump (a + 16) g.uncorr _)

/-- Nothing but counters and the windows of error estimates lies between s and t. -/
def Tallies (s t : State) : Prop := t = { s with cnt := t.cnt, defects := { s.defects with est := t.defects.est } }

theorem Tallies.trans (h : Tallies s t) (k : Tallies t u) : Tallies s u := by
  unfold Tallies at *
  rw [k, h]

theorem tallies_refl (s : State) : Tallies s s := rfl

theorem tallies_bump (a n : Nat) (s : State) : Tallies s (bump a n s) := by
  unfold Tallies bump
  split
  · rfl
  · rfl

theorem tallies_estAdd (c i u n : Nat) (s : State) : Tallies s (estAdd c i u n s) := rfl

theorem tallies_addWords (a : Nat) (g : Grant) (s : State) : Tallies s (addWords a g s) :=
  ((tallies_bump a g.decoded s).trans (tallies_bump (a + 8) g.corrected _)).trans (tallies_bump (a + 16) g.uncorr _)

/-- What the decoder's release counts of a burst: at the tree and at the terminal, with the windows of their error estimates. -/
def bankCounted (n : Nat) (g : Grant) (s : State) : State :=
  estAdd 2 (128 * n + g.term) g.uncorr g.decoded (estAdd 1 n g.uncorr g.decoded (addWords (cTerm (128 * n + g.term) 0) g (addWords (cTree n 0x100) g s)))

/-- A burst whose codewords are right and whose BIP is not. -/
def bipCounted (n : Nat) (g : Grant) (s : State) : State := if g.uncorr = 0 ∧ g.bipOk = false then bump (cTerm (128 * n + g.term) 0x20) 1 s else s

theorem bankRelease_eq (hg : grantAt s n k = some g) (hf : g.found.isSome = true) :
    bankRelease n k s = bipCounted n g (bankCounted n g (advance (grantEnd g + Config.BANK_DRAIN) s)) := by
  have hn : g.found.isNone = false := by simpa using hf
  unfold bankRelease
  rw [hg]
  dsimp only
  rw [hn, if_neg (by decide)]
  refine if_congr (and_congr_right fun _ => ?_) rfl rfl
  rw [Bool.not_eq_true']

theorem tallies_bankCounted (s : State) : Tallies s (bankCounted n g s) :=
  (((tallies_addWords (cTree n 0x100) g s).trans (tallies_addWords (cTerm (128 * n + g.term) 0) g _)).trans (tallies_estAdd 1 n g.uncorr g.decoded _)).trans
    (tallies_estAdd 2 (128 * n + g.term) g.uncorr g.decoded _)

theorem tallies_bipCounted (s : State) : Tallies s (bipCounted n g s) := by
  unfold bipCounted
  split
  · exact tallies_bump ..
  · exact tallies_refl s

theorem bipCounted_counts : Counts (countAt (cTerm (128 * n + g.term) 0x20) (if g.uncorr = 0 ∧ g.bipOk = false then 1 else 0)) s (bipCounted n g s) := by
  unfold bipCounted
  split
  · exact counts_bump ..
  · exact (counts_refl s).congr (fun a => by simp [countAt])

theorem Counts.estAdd {f : Nat → BitVec 64} (h : Counts f s t) (c i u n : Nat) : Counts f s (estAdd c i u n t) := h.keeps rfl rfl

theorem bankCounted_counts : Counts (fun a => words (cTree n 0x100) g a + words (cTerm (128 * n + g.term) 0) g a) s (bankCounted n g s) :=
  (((addWords_counts (cTree n 0x100) g s).trans (addWords_counts (cTerm (128 * n + g.term) 0) g _)).estAdd 1 n g.uncorr g.decoded).estAdd 2
    (128 * n + g.term) g.uncorr g.decoded

/-- The tree's counters of codewords, and its terminal's. -/
abbrev WordsAt (n : Nat) (g : Grant) (a : Nat) : Prop := a = cTree n 0x100 ∨ a = cTerm (128 * n + g.term) 0

/-- A tree's counters of codewords stand below those of its terminals, and those of a terminal below its BIP's. -/
theorem words_apart (n : Nat) (g : Grant) : cTree n 0x100 + 16 < cTerm (128 * n + g.term) 0
    ∧ cTerm (128 * n + g.term) 0x20 = cTerm (128 * n + g.term) 0 + 0x20 := by
  unfold cTerm cTree
  omega

/-- What moves a counter of codewords: the tree's and the terminal's are apart. -/
theorem words_at (ha : WordsAt n g a) {i : Nat} (hi : i ≤ 16) (x : BitVec 64) :
    words (cTree n 0x100) g (a + i) + words (cTerm (128 * n + g.term) 0) g (a + i) + countAt (cTerm (128 * n + g.term) 0x20) x (a + i)
      = words a g (a + i) := by
  obtain ⟨hl, he⟩ := words_apart n g
  rw [countAt_ne (by rcases ha with rfl | rfl <;> omega)]
  rcases ha with rfl | rfl
  · rw [words_far (a := cTerm (128 * n + g.term) 0) (.inl (by omega))]
    simp
  · rw [words_far (a := cTree n 0x100) (.inr (by omega))]
    simp

theorem words_bip (n : Nat) (g : Grant) (x : BitVec 64) : words (cTree n 0x100) g (cTerm (128 * n + g.term) 0x20)
    + words (cTerm (128 * n + g.term) 0) g (cTerm (128 * n + g.term) 0x20) + countAt (cTerm (128 * n + g.term) 0x20) x (cTerm (128 * n + g.term) 0x20) = x := by
  obtain ⟨hl, he⟩ := words_apart n g
  rw [words_far (.inr (by omega)), words_far (.inr (by omega)), countAt_same]
  simp

/-- A burst that is released is counted. -/
theorem bankRelease_counts (h : Running s) (hg : grantAt s n k = some g) (hf : g.found.isSome = true) :
    ∃ t, bankRelease n k s = t ∧ Tallies (advance (grantEnd g + Config.BANK_DRAIN) s) t
      ∧ (∀ a, WordsAt n g a → (cntOf t a).v = (cntOf s a).v + BitVec.ofNat 64 g.decoded
        ∧ (cntOf t (a + 8)).v = (cntOf s (a + 8)).v + BitVec.ofNat 64 g.corrected ∧ (cntOf t (a + 16)).v = (cntOf s (a + 16)).v + BitVec.ofNat 64 g.uncorr)
      ∧ (cntOf t (cTerm (128 * n + g.term) 0x20)).v
        = (cntOf s (cTerm (128 * n + g.term) 0x20)).v + (if g.uncorr = 0 ∧ g.bipOk = false then 1 else 0) := by
  refine ⟨_, bankRelease_eq hg hf, (tallies_bankCounted _).trans (tallies_bipCounted _), ?_⟩
  have ha : Counts (fun _ => 0) s (advance (grantEnd g + Config.BANK_DRAIN) s) := (counts_refl s).keeps rfl rfl
  have hc := (((ha.trans (bankCounted_counts (n := n) (g := g))).trans (bipCounted_counts (n := n) (g := g))).congr
    (fun a => congrArg (· + _) (BitVec.zero_add _))).count h
  generalize bipCounted n g (bankCounted n g (advance (grantEnd g + Config.BANK_DRAIN) s)) = t at *
  refine ⟨fun a hw => ?_, ?_⟩
  · have hl : 0x800000 ≤ a := by
      rcases hw with rfl | rfl
      · unfold cTree; omega
      · unfold cTerm cTree; omega
    have hx (i : Nat) (hi : i ≤ 16) : (cntOf t (a + i)).v = (cntOf s (a + i)).v + words a g (a + i) :=
      (hc (a + i) (by unfold cHop; omega) (by unfold cHop; omega)).trans (congrArg _ (words_at hw hi _))
    refine ⟨(hx 0 (by decide)).trans ?_, (hx 8 (by decide)).trans ?_, (hx 16 (by decide)).trans ?_⟩
    · rw [Nat.add_zero, words_decoded]
    · rw [words_corrected]
    · rw [words_uncorr]
  · rw [hc _ (cTerm_low (by decide)) (cTerm_low (by decide)), words_bip]

end

/-! ### No such grant, or one that is done with -/

section
variable {n k : Nat} {g : Grant} {o : BurstObs} {e : Bool} {s : State}

theorem burst_nothing (h : grantAt s n k = none) :
    burstAnnounce n k e s = s ∧ burstRx n k o s = s ∧ burstEnd n k s = s ∧ bankRelease n k s = s := by
  refine ⟨?_, ?_, ?_, ?_⟩
  · rw [burstAnnounce, h]
  · rw [burstRx, h]
  · rw [burstEnd, h]
  · rw [bankRelease, h]

theorem burstAnnounce_again (h : grantAt s n k = some g) (ha : g.announced = true) : burstAnnounce n k e s = s := by
  rw [burstAnnounce, h]
  exact if_pos ha

theorem burstRx_again (h : grantAt s n k = some g) (hr : g.received = true) : burstRx n k o s = s := by
  rw [burstRx, h]
  exact if_pos hr

end

/-- Settles O39: a burst is announced, received, ended and released as its grant says, each once. -/
theorem burstsRun : Obligations.BurstsRun := by
  unfold Obligations.BurstsRun
  refine ⟨fun n k o e s h hg => ?none, fun n k g e s h hg ha => (live_running h).trans (congrArg _ (burstAnnounce_again hg ha)),
    fun n k g o s h hg hr => (live_running h).trans (congrArg _ (burstRx_again hg hr)), fun n k g e s h hg ha => ?announce,
    fun n k g o s h hg hr hd => ?lost, fun n k g o off s h hg hr hd => ?found, fun n k g s h hg => ?ended,
    fun n k g s h hg hf => (live_running h).trans (congrArg _ (bankRelease_lost hg hf)), fun n k g s h hg hf => ?released⟩
  case none =>
    obtain ⟨ha, hr, he, hb⟩ := burst_nothing (o := o) (e := e) hg
    exact ⟨(live_running h).trans (congrArg _ ha), (live_running h).trans (congrArg _ hr), (live_running h).trans (congrArg _ he),
      (live_running h).trans (congrArg _ hb)⟩
  case announce =>
    obtain ⟨t, ht, hx⟩ := burstAnnounce_does (e := e) h hg ha rfl
    exact ⟨t, (live_running h).trans (congrArg _ ht), hx⟩
  case lost =>
    obtain ⟨t, ht, hx⟩ := burstRx_loses h hg hr rfl hd
    exact ⟨t, (live_running h).trans (congrArg _ ht), hx⟩
  case found =>
    obtain ⟨t, ht, hgr, hn, hsum, hid, hrep, hx⟩ := burstRx_finds h hg hr hd
    exact ⟨t, (live_running h).trans (congrArg _ ht), hgr, hn, hsum, hid, fun a v ho _ hga hc => hrep a v ho hga hc, hx⟩
  case ended =>
    obtain ⟨u, hu, hx⟩ := burstEnd_ends h hg
    exact ⟨u, (live_running h).trans (congrArg _ hu), hx⟩
  case released =>
    obtain ⟨t, ht, hx⟩ := bankRelease_counts h hg hf
    exact ⟨t, (live_running h).trans (congrArg _ ht), hx⟩

end Sys2Proof.Machine
end

section
/-! PROOFS. Tributaries downstream (O44): what mapping an occurrence takes from the store, sends and counts. -/

namespace Sys2Proof.Machine

/-! ### The flow and the tributary -/

section
variable {f i : Nat} {s t : State}

theorem trib_of_tribs (h : t.tribs = s.tribs) (f : Nat) : trib t f = trib s f := by rw [trib, trib, h]

theorem trib_setTrib_ne (x : Trib) (s : State) (h : f ≠ i) : trib (setTrib i x s) f = trib s f := mget_mput_ne _ _ _ h

/-- A flow record is listed under its own FLOW_ID. -/
theorem id_of_flowIn {q : Option Plate} {r : Flow} (h : q.bind (flowIn · f) = some r) : r.id = f := by
  obtain ⟨p, _, hp⟩ := Option.bind_eq_some_iff.1 h
  simpa using List.find?_some hp

end

/-! ### One place of the store -/

section
variable {f : Nat} {s : State}

theorem takePlace_cons {y : Option (List Byte)} {l : List (Option (List Byte))} (h : (trib s f).store = y :: l) :
    takePlace f s = (y, setTrib f { trib s f with store := l } s) := by
  simp only [takePlace, h]

theorem takePlace_idle (h : (trib s f).store = []) (hk : (trib s f).cfg.kindPacket = true) : takePlace f s = (some [], s) := by
  simp only [takePlace, h, hk, if_true]

/-- The empty store of a stream tributary: its next packet is late if it comes (R177). -/
theorem takePlace_underrun (h : (trib s f).store = []) (hk : (trib s f).cfg.kindPacket = false) :
    takePlace f s = (none, bump (xFlow f 9) 1 (setTrib f { trib s f with expect := (trib s f).expect.map (· + 1) } s)) := by
  simp [takePlace, h, hk]

theorem takePlace_only (f : Nat) (s : State) :
    (takePlace f s).2 = { s with tribs := (takePlace f s).2.tribs, cnt := (takePlace f s).2.cnt } := by
  cases h : (trib s f).store with
  | cons y l => rw [takePlace_cons h]; rfl
  | nil =>
    cases hk : (trib s f).cfg.kindPacket with
    | true => rw [takePlace_idle h hk]
    | false =>
      rw [takePlace_underrun h hk]
      dsimp only
      rw [bump_only]
      rfl

/-- A place taken: the store is shorter by it. -/
theorem trib_takePlace (f : Nat) (s : State) : ∃ e, trib (takePlace f s).2 f = { trib s f with store := (trib s f).store.drop 1, expect := e } := by
  cases h : (trib s f).store with
  | cons y l => exact ⟨(trib s f).expect, by rw [takePlace_cons h]; exact trib_setTrib ..⟩
  | nil =>
    cases hk : (trib s f).cfg.kindPacket with
    | true =>
      refine ⟨(trib s f).expect, ?_⟩
      rw [takePlace_idle h hk, List.drop_nil, ← h]
    | false =>
      refine ⟨(trib s f).expect.map (· + 1), ?_⟩
      rw [takePlace_underrun h hk, List.drop_nil, ← h]
      exact (trib_of_tribs (bump_tribs ..) f).trans (trib_setTrib ..)

/-- An empty store of a stream tributary is an UNDERRUN. -/
theorem takePlace_counts (f : Nat) (s : State) :
    Counts (countAt (xFlow f 9) (if (trib s f).store = [] ∧ (trib s f).cfg.kindPacket = false then 1 else 0)) s (takePlace f s).2 := by
  have h0 : Counts (countAt (xFlow f 9) 0) s s := (counts_refl s).congr (fun a => by simp [countAt])
  cases h : (trib s f).store with
  | cons y l =>
    rw [takePlace_cons h, if_neg (fun hc => absurd hc.1 (List.cons_ne_nil y l))]
    exact h0.keeps rfl rfl
  | nil =>
    cases hk : (trib s f).cfg.kindPacket with
    | true => rwa [takePlace_idle h hk, if_neg (fun hc => absurd hc.2 (by decide))]
    | false =>
      rw [takePlace_underrun h hk, if_pos ⟨rfl, rfl⟩]
      refine .congr (.trans (.keeps (counts_refl s) ?_ ?_) (counts_bump ..)) (fun a => BitVec.zero_add _) <;> rfl

/-- A place that is missing, or a store of a stream tributary that is empty, gives no payload. -/
theorem takePlace_none (h : (trib s f).store.head? = some none ∨ ((trib s f).store = [] ∧ (trib s f).cfg.kindPacket = false)) :
    (takePlace f s).1 = none := by
  rcases h with h | ⟨h, hk⟩
  · obtain ⟨l, hl⟩ := List.head?_eq_some_iff.1 h
    rw [takePlace_cons hl]
  · rw [takePlace_underrun h hk]

end

/-! ### Frames of an occurrence -/

/-- The place taken, and the frame that it is for numbered. -/
def numbered (f : Nat) (s : State) : State :=
  setTrib f { trib (takePlace f s).2 f with fcnt := (trib (takePlace f s).2 f).fcnt + 1 } (takePlace f s).2

theorem trib_numbered (f : Nat) (s : State) :
    ∃ e, trib (numbered f s) f = { trib s f with store := (trib s f).store.drop 1, expect := e, fcnt := (trib s f).fcnt + 1 } := by
  obtain ⟨e, he⟩ := trib_takePlace f s
  refine ⟨e, ?_⟩
  rw [numbered, trib_setTrib, he]

section
variable {r : Flow} {rdi lost : Bool} {s : State}

/-- One frame with a payload (R174). -/
theorem mapFrames_payload {y : List Byte} (hl : lost = false) (h : (takePlace r.id s).1 = some y) : mapFrames r rdi lost 1 s =
    (tribFrame r.label false rdi (trib s r.id).fcnt (if (trib s r.id).cfg.kindPacket then itemPayload (trib s r.id).cfg.payLen y else y),
      numbered r.id s) := by
  obtain ⟨e, he⟩ := trib_takePlace r.id s
  simp [mapFrames, hl, h, he, numbered]

/-- One AIS frame, which is counted (R177). -/
theorem mapFrames_ais (h : lost = true ∨ (takePlace r.id s).1 = none) : mapFrames r rdi lost 1 s =
    (tribFrame 0xFF true rdi (trib s r.id).fcnt (List.replicate (trib s r.id).cfg.payLen 0xFF), bump (xFlow r.id 11) 1 (numbered r.id s)) := by
  have hx : (if lost then none else (takePlace r.id s).1) = none := by
    rcases h with h | h
    · exact if_pos h
    · rw [h, ite_self]
  obtain ⟨e, he⟩ := trib_takePlace r.id s
  simp [mapFrames, hx, he, numbered]

theorem mapFrames_ais_or_payload (r : Flow) (rdi lost : Bool) (s : State) :
    (mapFrames r rdi lost 1 s).2 = bump (xFlow r.id 11) 1 (numbered r.id s) ∨ (mapFrames r rdi lost 1 s).2 = numbered r.id s := by
  cases hx : (takePlace r.id s).1 with
  | none => exact .inl (by rw [mapFrames_ais (.inr hx)])
  | some y =>
    cases lost with
    | true => exact .inl (by rw [mapFrames_ais (.inl rfl)])
    | false => exact .inr (by rw [mapFrames_payload rfl hx])

/-- AIS frames and underruns are counted apart. -/
theorem mapFrames_underruns : ∃ c, Counts (fun a =>
    countAt (xFlow r.id 9) (if (trib s r.id).store = [] ∧ (trib s r.id).cfg.kindPacket = false then 1 else 0) a + countAt (xFlow r.id 11) c a)
      s (mapFrames r rdi lost 1 s).2 := by
  have hn := (takePlace_counts r.id s).keeps (u := numbered r.id s) rfl rfl
  rcases mapFrames_ais_or_payload r rdi lost s with h | h <;> rw [h]
  · exact ⟨1, hn.trans (counts_bump ..)⟩
  · exact ⟨0, hn.congr (fun a => by simp [countAt])⟩

end

section
variable (r : Flow) (rdi lost : Bool) (n : Nat) (s : State)

theorem mapFrames_succ : mapFrames r rdi lost (n + 1) s =
    ((mapFrames r rdi lost 1 s).1 ++ (mapFrames r rdi lost n (mapFrames r rdi lost 1 s).2).1,
      (mapFrames r rdi lost n (mapFrames r rdi lost 1 s).2).2) := by
  simp only [mapFrames, List.append_nil]

theorem mapFrames_only : (mapFrames r rdi lost n s).2
    = { s with tribs := (mapFrames r rdi lost n s).2.tribs, cnt := (mapFrames r rdi lost n s).2.cnt } := by
  induction n generalizing s with
  | zero => rfl
  | succ n ih =>
    have hn : numbered r.id s = { s with tribs := (numbered r.id s).tribs, cnt := (numbered r.id s).cnt } := by
      rw [numbered, setTrib, takePlace_only]
    rw [mapFrames_succ, ih]
    rcases mapFrames_ais_or_payload r rdi lost s with h | h <;> rw [h]
    · rw [bump_only, hn]
    · rw [hn]

/-- FCNT counts on by each frame, and each takes its place. -/
theorem trib_mapFrames : (trib (mapFrames r rdi lost n s).2 r.id).fcnt = (trib s r.id).fcnt + BitVec.ofNat 16 n
    ∧ (trib (mapFrames r rdi lost n s).2 r.id).store = (trib s r.id).store.drop n := by
  induction n generalizing s with
  | zero => exact ⟨(BitVec.add_zero _).symm, rfl⟩
  | succ n ih =>
    obtain ⟨e, he⟩ := trib_numbered r.id s
    have ht : trib (mapFrames r rdi lost 1 s).2 r.id = trib (numbered r.id s) r.id := by
      rcases mapFrames_ais_or_payload r rdi lost s with h | h <;> rw [h]
      exact trib_of_tribs (bump_tribs ..) _
    obtain ⟨hf, hs⟩ := ih (mapFrames r rdi lost 1 s).2
    rw [mapFrames_succ, hf, hs, ht, he]
    refine ⟨?_, by rw [List.drop_drop, Nat.add_comm]⟩
    rw [BitVec.add_assoc, BitVec.add_comm 1, Nat.add_comm, BitVec.ofNat_add, BitVec.add_comm (BitVec.ofNat 16 1)]
    rfl

end

/-! ### TRIB_MAP (R174) -/

section
variable {f ft tx : Nat} {r : Flow} {d : Down} {s : State}

theorem tribMap_other (h : (canonPlate s).bind (flowIn · f) = none) : tribMap f s = s := by rw [tribMap, h]

theorem tribMap_idle (hr : (canonPlate s).bind (flowIn · f) = some r)
    (h : r.trib = false ∨ r.up = true ∨ (trib s f).held = true ∨ (tree s r.tree).st ≠ .serving ∨ nextSlot s r.tree f = none) :
    tribMap f s = s := by
  rw [tribMap, hr]
  dsimp only
  by_cases hc : (!(r.trib && !r.up) || (trib s f).held || (tree s r.tree).st ≠ .serving) = true
  · exact if_pos (by simpa using hc)
  · have hn : nextSlot s r.tree f = none := by
      simp only [Bool.or_eq_true, Bool.not_eq_true', decide_eq_true_eq, not_or, Bool.not_eq_false, Bool.and_eq_true, Bool.not_eq_true, not_not] at hc
      obtain ⟨⟨⟨ht, hu⟩, hh⟩, hs⟩ := hc
      rcases h with h | h | h | h | h
      · exact absurd ht (by simp [h])
      · exact absurd hu (by simp [h])
      · exact absurd hh (by simp [h])
      · exact absurd hs h
      · exact h
    rw [hn]
    exact ite_self s

/-- The occurrence of flow r whose slot is at tx, mapped. -/
def mappedAt (r : Flow) (tx : Nat) (s : State) : State :=
  let u := advance (tx + millLag s - Config.DS_COMMIT) s
  let x := mapFrames r (rdiAt u r tx) (feedLost u (trib u r.id)) (trib s r.id).cfg.k u
  setTrib r.id { trib x.2 r.id with mapped := x.1, mapAt := tx } x.2

theorem mappedAt_only (r : Flow) (tx : Nat) (s : State) : mappedAt r tx s
    = { advance (tx + millLag s - Config.DS_COMMIT) s with tribs := (mappedAt r tx s).tribs, cnt := (mappedAt r tx s).cnt } := by
  unfold mappedAt
  dsimp only
  rw [setTrib, mapFrames_only]

theorem trib_mappedAt (r : Flow) (tx : Nat) (s : State) :
    (trib (mappedAt r tx s) r.id).fcnt = (trib s r.id).fcnt + BitVec.ofNat 16 (trib s r.id).cfg.k
      ∧ (trib (mappedAt r tx s) r.id).store = (trib s r.id).store.drop (trib s r.id).cfg.k := by
  unfold mappedAt
  dsimp only
  rw [trib_setTrib]
  exact trib_mapFrames ..

/-- The next occurrence mapped, and put into the frame where the stroke in progress has passed its slot. -/
theorem tribMap_maps (hr : (canonPlate s).bind (flowIn · r.id) = some r) (ht : r.trib = true) (hu : r.up = false) (hh : (trib s r.id).held = false)
    (hs : (tree s r.tree).st = .serving) (hn : nextSlot s r.tree r.id = some (ft, d, tx)) :
    tribMap r.id s = if (tree s r.tree).compAt = ft ∧ d.off + d.len ≤ (tree s r.tree).compPos then tribLate r.tree r d (mappedAt r tx s)
      else mappedAt r tx s := by
  have htree : tree (mappedAt r tx s) r.tree = tree s r.tree := by rw [mappedAt_only]; rfl
  rw [tribMap, hr]
  dsimp only
  rw [if_neg (by simp [ht, hu, hh, hs]), hn, ← htree]
  rfl

end

end Sys2Proof.Machine
end

section
/-! PROOFS. Tributaries upstream (O44): a decision of an occurrence gives K outputs and leaves the alignment that the deframer has come to. -/

namespace Sys2Proof.Machine

/-! ### The deframer keeps the entry and the numbering -/

/-- The entry of a tributary, what is delivered in its open occurrence, and its numbering of outputs. -/
def Trib.entry (x : Trib) : TCfg × Bool × List (List Byte) × BitVec 32 := (x.cfg, x.present, x.occ, x.order)

theorem entry_ambMark (was : List Nat) (d : DSt) : (ambMark was d).t.entry = d.t.entry := by
  unfold ambMark
  split
  · rfl
  · split <;> rfl

theorem entry_deframeStep (tol T b : Nat) (l : List Byte) (d : DSt) (e : Nat) : (deframeStep tol T b l d e).t.entry = d.t.entry := by
  unfold deframeStep
  extract_lets i ok amb fails fr d0 x0 d1 x1 d2
  have h1 : d1.t.entry = d.t.entry := by
    unfold d1
    split
    · split
      · split <;> rfl
      · rfl
    · rfl
  have h2 : d2.t.entry = d.t.entry := h1
  rw [← h2]
  clear_value d2
  repeat' split
  all_goals rfl

/-- Bytes deframed are no output yet. -/
theorem entry_deframe (tol : Nat) (x : Trib) (new : List Byte) : (deframe tol x new).t.entry = x.entry :=
  foldl_keeps (fun d : DSt => d.t.entry) (fun _ _ => (entry_ambMark ..).trans (entry_deframeStep ..)) _ _

/-! ### Outputs -/

/-- In s tributary f stands as x did, n outputs later: its entry, its open occurrence and its alignment are those of x, and where x is a stream the
numbering has counted on by n. -/
structure Sent (f : Nat) (x : Trib) (n : Nat) (s : State) : Prop where
  cfg : (trib s f).cfg = x.cfg
  present : (trib s f).present = true
  occ : (trib s f).occ = x.occ
  align : (trib s f).align = x.align
  order : x.cfg.kindPacket = false → (trib s f).order = x.order + BitVec.ofNat 32 n

section
variable {f n : Nat} {x : Trib} {s t : State}

theorem Sent.of_trib (h : Sent f x n s) (ht : trib t f = trib s f) : Sent f x n t :=
  ⟨ht ▸ h.cfg, ht ▸ h.present, ht ▸ h.occ, ht ▸ h.align, ht ▸ h.order⟩

theorem Sent.of_tribs (h : Sent f x n s) (ht : t.tribs = s.tribs) : Sent f x n t := h.of_trib (trib_of_tribs ht f)

theorem Sent.bump (h : Sent f x n s) (a k : Nat) : Sent f x n (bump a k s) := h.of_tribs (bump_tribs ..)

theorem Sent.event (h : Sent f x n s) (c k i : Nat) (d : List Byte) : Sent f x n (event c k i d s) := h.of_tribs (event_tribs ..)

theorem Sent.ite {c : Prop} [Decidable c] {u v : State} (hu : Sent f x n u) (hv : Sent f x n v) : Sent f x n (if c then u else v) := by
  split
  · exact hu
  · exact hv

/-- A packet tributary numbers no outputs. -/
theorem Sent.packet {m : Nat} (h : Sent f x n s) (hk : x.cfg.kindPacket = true) : Sent f x m s :=
  ⟨h.cfg, h.present, h.occ, h.align, fun hf => absurd (hk.symm.trans hf) (by decide)⟩

/-- An update of a tributary that leaves what a decision is about. -/
theorem Sent.put {i : Nat} {y : Trib} (h : Sent f x n s) (he : y.entry = (trib s i).entry) (ha : y.align = (trib s i).align) :
    Sent f x n (setTrib i y s) := by
  by_cases hi : f = i
  · subst hi
    simp only [Trib.entry, Prod.mk.injEq] at he
    obtain ⟨hc, hp, ho, hn⟩ := he
    constructor <;> rw [trib_setTrib]
    · exact hc.trans h.cfg
    · exact hp.trans h.present
    · exact ho.trans h.occ
    · exact ha.trans h.align
    · exact fun hk => hn.trans (h.order hk)
  · exact h.of_trib (trib_setTrib_ne _ _ hi)

end

/-! ### Defects -/

/-- A table mapped entry by entry, read where the entry does not become the default. -/
theorem mget_mmap {α : Type} [DecidableEq α] (d : α) (f : Nat → α → α) {k : Nat} (m : Map α) (h : mget d m k ≠ d)
    (hf : f k (mget d m k) ≠ d) : mget d (mmap d f m) k = f k (mget d m k) := by
  induction m with
  | nil => exact absurd rfl h
  | cons e m ih =>
    obtain ⟨j, v⟩ := e
    by_cases hj : j = k
    · subst hj
      simp only [mget, if_true] at h hf ⊢
      simp [mmap, hf, mget]
    · simp only [mget, if_neg hj] at h hf ⊢
      rw [← ih h hf, mmap]
      split
      · rfl
      · exact if_neg hj

section
variable {f n : Nat} {x : Trib} {s : State}

/-- What tribsAfresh makes of tributary i. -/
def afreshIf (p : Nat → Bool) (s : State) (i : Nat) (t : Trib) : Trib :=
  if (flowOf s i).any (fun x => x.up && p (128 * x.tree + x.term)) then tribAfresh true t else t

theorem afreshIf_present (p : Nat → Bool) (s : State) (i : Nat) (t : Trib) : (afreshIf p s i t).present = t.present := by
  unfold afreshIf
  split <;> rfl

theorem ne_default_of_present {t : Trib} (h : t.present = true) : t ≠ {} := by
  rintro rfl
  exact Bool.false_ne_true h

/-- A tributary with an entry stays one of the table's. -/
theorem trib_tribsAfresh (p : Nat → Bool) (h : (trib s f).present = true) : trib (tribsAfresh p s) f = afreshIf p s f (trib s f) :=
  mget_mmap ({} : Trib) (afreshIf p s) (k := f) s.tribs (ne_default_of_present h) (ne_default_of_present ((afreshIf_present ..).trans h))

theorem Sent.tribsAfresh (h : Sent f x n s) (p : Nat → Bool) : Sent f x n (tribsAfresh p s) := by
  have ht := trib_tribsAfresh p h.present
  rw [afreshIf] at ht
  split at ht
  · constructor <;> rw [ht]
    exacts [h.cfg, h.present, h.occ, h.align, h.order]
  · exact h.of_trib ht

theorem Sent.estLift (h : Sent f x n s) (cls idx code : Nat) : Sent f x n (estLift cls idx code s) := by
  unfold Machine.estLift
  dsimp only
  split
  · refine .tribsAfresh (.of_tribs h ?_) _
    rfl
  split
  · refine .tribsAfresh (.of_tribs h ?_) _
    rfl
  split
  · exact h.put rfl rfl
  split
  · exact h.put rfl rfl
  split
  · exact h.of_tribs rfl
  · exact h

theorem Sent.tellDefect (h : Sent f x n s) (cls i code : Nat) (on : Bool) : Sent f x n (tellDefect cls i code on s) := by
  unfold Machine.tellDefect
  exact (h.of_tribs (by rw [sendRecs_only])).ite h

theorem Sent.defClear (h : Sent f x n s) (cls idx code cause : Nat) : Sent f x n (defClear cls idx code cause s) := by
  unfold Machine.defClear
  split
  · dsimp only
    refine .tellDefect (.of_tribs (.estLift (.of_tribs h ?_) ..) (defEvent_tribs ..)) ..
    rfl
  · exact h

theorem Sent.foldl {α : Type} {g : State → α → State} (hg : ∀ s y, Sent f x n s → Sent f x n (g s y)) (l : List α) (h : Sent f x n s) :
    Sent f x n (l.foldl g s) := by
  induction l generalizing s with
  | nil => exact h
  | cons y l ih => exact ih (hg s y h)

theorem Sent.defSet (h : Sent f x n s) (cls idx code : Nat) : Sent f x n (defSet cls idx code s) := by
  unfold Machine.defSet
  split
  · exact h
  · refine .foldl (fun s e hs => ?_) _ (.tellDefect (.of_tribs (.of_tribs h ?_) (defEvent_tribs ..)) ..)
    · exact (hs.defClear ..).ite hs
    · rfl

/-! ### A completed frame -/

theorem Sent.runDefect (h : Sent f x n s) (i code set_ clr k : Nat) : Sent f x n (runDefect i code set_ clr k s) := by
  unfold Machine.runDefect
  exact h.ite ((h.defSet ..).ite ((h.defClear ..).ite h))

theorem Sent.tribConds (h : Sent f x n s) (i label : Nat) (b : List Byte) : Sent f x n (tribConds i label b s) := by
  unfold Machine.tribConds
  extract_lets t lb fl fc s1 ais rdi slm up s2 t2 s3 s4 s5 z s6 s7
  have h1 : Sent f x n s1 := (h.bump ..).ite h
  have ht : trib s1 i = t := by
    unfold s1
    split
    · exact trib_of_tribs (bump_tribs ..) i
    · rfl
  have h2 : Sent f x n s2 := h1.put (congrArg Trib.entry ht).symm (congrArg Trib.align ht).symm
  have h5 : Sent f x n s5 := ((h2.runDefect ..).runDefect ..).runDefect ..
  have hz (c : Nat) (u : State) (g : Trib → Trib) (he : ∀ t, (g t).entry = t.entry) (ha : ∀ t, (g t).align = t.align) (hu : Sent f x n u) :
      Sent f x n (z c u g) := (hu.put (he _) (ha _)).ite hu
  clear_value z
  refine hz _ _ _ ?_ ?_ (hz _ _ _ ?_ ?_ (hz _ _ _ ?_ ?_ h5))
  all_goals exact fun _ => rfl

variable {r : Flow}

theorem Sent.tribSend (h : Sent f x n s) (r : Flow) (b : List Byte) : Sent f x n (tribSend r b s) := by
  unfold Machine.tribSend
  refine .put (.of_tribs h ?_) rfl rfl
  rfl

theorem Sent.packetOut (h : Sent f x n s) (r : Flow) (b : List Byte) : Sent f x n (packetOut r b s) := by
  unfold Machine.packetOut
  exact h.ite ((h.bump ..).ite (h.tribSend ..))

/-- An output of a stream numbers one, also where nothing is sent for it (R183). -/
theorem Sent.streamOut (h : Sent r.id x n s) (p : Option (List Byte)) : Sent r.id x (n + 1) (streamOut r p s) := by
  have hs : Sent r.id x (n + 1) (Machine.setTrib r.id { trib s r.id with order := (trib s r.id).order + 1 } s) := by
    constructor <;> rw [trib_setTrib]
    · exact h.cfg
    · exact h.present
    · exact h.occ
    · exact h.align
    · intro hk
      rw [BitVec.ofNat_add, ← BitVec.add_assoc, ← h.order hk]
      rfl
  unfold Machine.streamOut
  exact hs.ite (hs.tribSend ..)

/-- How many outputs are out once frame i of an occurrence is done: at most K (R183). -/
theorem Sent.frameDone {i k : Nat} (h : Sent r.id x (min i k) s) (fr : TFrame) : Sent r.id x (min (i + 1) k) (frameDone r fr (k - i) s) := by
  unfold Machine.frameDone
  extract_lets s1 t alarm
  have h1 : Sent r.id x (min i k) s1 := (h.tribConds ..).ite h
  split
  next hk =>
    rw [show min (i + 1) k = min i k by omega]
    exact h1.bump ..
  next hk =>
    rw [show min (i + 1) k = min i k + 1 by omega]
    split
    next hp =>
      refine .packet (.ite (h1.packetOut r fr.bytes) h1) ?_
      rw [← h1.cfg]
      exact hp
    · exact h1.streamOut ..

theorem Sent.framesDone {k : Nat} (l : List TFrame) {i : Nat} (h : Sent r.id x (min i k) s) : Sent r.id x (min (i + l.length) k)
    (((List.range' i l.length).zip l).foldl (fun s y => Machine.frameDone r y.2 (k - y.1) s) s) := by
  induction l generalizing i s with
  | nil => exact h
  | cons fr l ih =>
    have hl := ih (h.frameDone fr)
    rwa [Nat.add_right_comm, Nat.add_assoc] at hl

theorem Sent.fills (m : Nat) (h : Sent r.id x n s) : Sent r.id x (n + m) ((List.range m).foldl (fun s _ => Machine.streamOut r none s) s) := by
  induction m with
  | zero => exact h
  | succ m ih =>
    rw [List.range_succ, List.foldl_append]
    exact ih.streamOut none

/-! ### The decision (R179 to R183) -/

theorem Sent.lofJudge (h : Sent f x n s) (i : Nat) : Sent f x n (lofJudge i s) := by
  unfold Machine.lofJudge
  refine .ite (h.put ?_ ?_) (.ite (h.defSet ..) (.ite (h.defClear ..) h)) <;> rfl

end

section
variable {f : Nat} {r : Flow} {s : State}

theorem occurrenceDecision_none (h : flowOf s f = none) : occurrenceDecision f s = s := by rw [occurrenceDecision, h]

theorem occurrenceDecision_idle (hf : flowOf s f = some r) (h : r.trib = false ∨ r.up = false ∨ (trib s f).held = true) :
    occurrenceDecision f s = s := by
  rw [occurrenceDecision, hf]
  refine if_pos ?_
  rcases h with h | h | h <;> simp [h]

/-- What the deframer has come to when the open occurrence of tributary f is decided. -/
def decided (f : Nat) (s : State) : DSt :=
  deframe (if featOn s 10 then 2 else 0) { trib s f with occ := [], out := [] } (occBytes (trib s f).cfg (trib s f).occ).1

theorem decided_entry (f : Nat) (s : State) : (decided f s).t.cfg = (trib s f).cfg ∧ (decided f s).t.present = (trib s f).present
    ∧ (decided f s).t.occ = [] ∧ (decided f s).t.order = (trib s f).order := by
  have he : (decided f s).t.entry = ({ trib s f with occ := [], out := [] } : Trib).entry := entry_deframe ..
  simpa only [Trib.entry, Prod.mk.injEq] using he

/-- A decision gives as many outputs as the entry has frames in an occurrence. -/
theorem occurrenceDecision_sent (hf : flowOf s r.id = some r) (ht : r.trib = true) (hu : r.up = true) (hh : (trib s r.id).held = false)
    (hp : (trib s r.id).present = true) : Sent r.id (decided r.id s).t (trib s r.id).cfg.k (occurrenceDecision r.id s) := by
  obtain ⟨hc, hpr, -, -⟩ := decided_entry r.id s
  unfold occurrenceDecision
  rw [hf]
  dsimp -zeta only
  extract_lets t s1 d sync y s2 s3 s4 k s5 s6
  rw [if_neg (by simp [t, ht, hu, hh])]
  have hd : decided r.id s = d := by
    unfold d s1 featOn
    rw [bump_cmd]
    rfl
  rw [hd] at hc hpr ⊢
  have h2 : Sent r.id d.t 0 s2 := by
    constructor <;> rw [trib_setTrib]
    · exact hpr.trans hp
    · exact fun _ => (BitVec.add_zero _).symm
  have h3 : Sent r.id d.t 0 s3 :=
    .foldl (fun u i hs => (hs.defSet ..).ite ((hs.defClear ..).ite (((hs.bump ..).event ..).ite (hs.bump ..)))) _ h2
  have h4 : Sent r.id d.t (min 0 k) s4 := by
    rw [Nat.zero_min]
    exact (h3.defSet ..).ite (h3.defClear ..)
  have h5 : Sent r.id d.t (min (0 + d.done.length) k) s5 := by
    unfold s5
    rw [List.range_eq_range']
    exact h4.framesDone _
  refine .lofJudge ?_ _
  cases hk : t.cfg.kindPacket with
  | true =>
    rw [show s6 = s5 from if_pos hk]
    exact h5.packet ((congrArg TCfg.kindPacket hc).trans hk)
  | false =>
    rw [show s6 = _ from if_neg (by simp [hk])]
    have h6 := h5.fills (k - d.done.length)
    rwa [show min (0 + d.done.length) k + (k - d.done.length) = k by omega] at h6

end

end Sys2Proof.Machine
end

section
/-! PROOFS. TB_LOF of an upstream tributary (Table 6.2), and the tributaries' events (O44). -/

namespace Sys2Proof.Machine

/-! ### What masks TB_LOF (R200) -/

/-- Of a tributary's own defects none masks TB_LOF. -/
theorem masked_tbLof (f : Nat) (s : State) : masked s 3 f TB_LOF = tribMasked s f := by
  rw [show masked s 3 f TB_LOF = (tribMasked s f || false || false) from rfl, Bool.or_false, Bool.or_false]

section
variable {f : Nat} {s t : State}

theorem flowOf_of_plates (h : t.plates = s.plates) (f : Nat) : flowOf t f = flowOf s f := by rw [flowOf, flowOf, engaged, engaged, h]

/-- Unmasked, TB_LOF stays so while neither TM_LOS nor TR_LOS is declared anew. -/
theorem unmasked_of (hp : t.plates = s.plates)
    (hd : ∀ cls idx code, code = TM_LOS ∨ code = TR_LOS → declared t cls idx code = true → declared s cls idx code = true)
    (h : masked s 3 f TB_LOF = false) : masked t 3 f TB_LOF = false := by
  rw [masked_tbLof, tribMasked, Bool.eq_false_iff] at h ⊢
  refine mt (fun ht => ?_) h
  rw [flowOf_of_plates hp] at ht
  cases hf : flowOf s f with
  | none =>
    rw [hf] at ht
    exact absurd ht Bool.false_ne_true
  | some x =>
    simp only [hf, Bool.and_eq_true, Bool.or_eq_true] at ht ⊢
    exact ht.imp_right (Or.imp (hd _ _ _ (.inl rfl)) (hd _ _ _ (.inr rfl)))

/-- A clear declares nothing. -/
theorem declared_of_defClear {cls idx code cause a b c : Nat} (h : declared (defClear cls idx code cause s) a b c = true) :
    declared s a b c = true := by
  by_cases hk : defKey a b c = defKey cls idx code
  · have hs := declared_defClear_same cls idx code cause s
    rw [declared, ← hk] at hs
    exact absurd (hs.symm.trans h) (by decide)
  · exact declared_defClear_ne cause s hk ▸ h

theorem unmasked_defClear (cls idx code cause : Nat) (h : masked s 3 f TB_LOF = false) : masked (defClear cls idx code cause s) 3 f TB_LOF = false :=
  unmasked_of (declares_defClear ..).plates (fun _ _ _ _ => declared_of_defClear) h

/-! ### Declaring TB_LOF -/

/-- Unmasked, TB_LOF outlives the sweep that a declaration ends in. -/
theorem tbLof_sweepMasked (hf : f < 0x10000) (hm : masked s 3 f TB_LOF = false) (hd : declared s 3 f TB_LOF = true) :
    declared (sweepMasked s) 3 f TB_LOF = true := by
  unfold sweepMasked
  generalize s.defects.on = l
  induction l generalizing s with
  | nil => exact hd
  | cons e l ih =>
    rw [List.foldl_cons]
    dsimp only
    split
    next he =>
      refine ih (unmasked_defClear _ _ _ _ hm) ?_
      rw [declared_defClear_ne _ _ ?_]
      · exact hd
      · rw [defKey_decode]
        rintro hk
        rw [← hk, show defKey 3 f TB_LOF / 0x1000000 = 3 by unfold defKey TB_LOF; omega,
          show defKey 3 f TB_LOF / 0x100 % 0x10000 = f by unfold defKey TB_LOF; omega,
          show defKey 3 f TB_LOF % 0x100 = TB_LOF by unfold defKey TB_LOF; omega, hm] at he
        exact Bool.false_ne_true he
    next => exact ih hm hd

/-- Neither TM_LOS nor TR_LOS shares a key with TB_LOF. -/
theorem maskKey_ne {cls idx code : Nat} (h : code = TM_LOS ∨ code = TR_LOS) (f : Nat) : defKey cls idx code ≠ defKey 3 f TB_LOF := by
  have hl : code % 0x100 ≠ 0x20 := by rcases h with rfl | rfl <;> decide
  unfold defKey TB_LOF
  omega

theorem tbLof_sweepDeclared (hf : f < 0x10000) (hm : masked s 3 f TB_LOF = false) (hp : t.plates = s.plates)
    (hon : t.defects.on = mput false s.defects.on (defKey 3 f TB_LOF) true) : declared (sweepMasked t) 3 f TB_LOF = true := by
  refine tbLof_sweepMasked hf (unmasked_of hp (fun a b c hc hk => ?_) hm) ?_
  · rwa [declared, hon, mget_mput_ne _ _ _ (maskKey_ne hc f)] at hk
  · rw [declared, hon, mget_mput_same]

/-- A tributary in service that nothing masks has its TB_LOF declared. -/
theorem tbLof_defSet (hf : f < 0x10000) (hm : masked s 3 f TB_LOF = false) (hs : inService s 3 f = true) :
    declared (defSet 3 f TB_LOF s) 3 f TB_LOF = true := by
  unfold defSet
  by_cases hd : declared s 3 f TB_LOF = true
  · rw [if_pos (by simp [declarable, hd])]
    exact hd
  · rw [if_neg (by simp [declarable, hd, hs, hm])]
    refine tbLof_sweepDeclared hf hm ((declares_tellDefect ..).plates.trans (defEvent_plates ..)) ?_
    rw [(tellDefect_keeps ..).2, defEvent_defects]

/-! ### TB_LOF judged -/

/-- 3 ms out of frame over two decisions. -/
def OutOfFrame (x : Trib) (s : State) : Prop := x.oofSince.any (fun a => decide (a + 3732480 ≤ s.now)) = true ∧ 2 ≤ x.oofDecisions

/-- 3 ms in frame. -/
def InFrame (x : Trib) (s : State) : Prop := x.syncSince.any (fun a => decide (a + 3732480 ≤ s.now)) = true

theorem lofJudge_masked (h : masked s 3 f TB_LOF = true) :
    lofJudge f s = setTrib f { trib s f with oofSince := none, oofDecisions := 0, syncSince := none } s := if_pos h

theorem lofJudge_out (h : masked s 3 f TB_LOF = false) (ho : OutOfFrame (trib s f) s) : lofJudge f s = defSet 3 f TB_LOF s :=
  (if_neg (by simp [h])).trans (if_pos (by simpa [OutOfFrame] using ho))

theorem lofJudge_in (h : masked s 3 f TB_LOF = false) (ho : ¬ OutOfFrame (trib s f) s) (hi : InFrame (trib s f) s) :
    lofJudge f s = defClear 3 f TB_LOF 0 s :=
  (if_neg (by simp [h])).trans ((if_neg (by simpa [OutOfFrame] using ho)).trans (if_pos hi))

theorem lofJudge_neither (h : masked s 3 f TB_LOF = false) (ho : ¬ OutOfFrame (trib s f) s) (hi : ¬ InFrame (trib s f) s) : lofJudge f s = s :=
  (if_neg (by simp [h])).trans ((if_neg (by simpa [OutOfFrame] using ho)).trans (if_neg hi))

end

/-! ### The events -/

section
variable {f : BitVec 16} {r : Flow} {s : State}

theorem exec_tribMap (h : Running s) : exec (.tribMap f) s = .next (tribMap f.toNat s) := live_running h

theorem exec_occurrenceDecision (h : Running s) : exec (.occurrenceDecision f) s = .next (occurrenceDecision f.toNat s) := live_running h

theorem exec_tbLof (h : Running s) (hf : flowOf s f.toNat = some r) :
    exec (.tbLof f) s = .next (if r.trib && r.up && !(trib s f.toNat).held then lofJudge f.toNat s else s) :=
  (live_running h).trans (by rw [hf])

theorem exec_tbLof_none (h : Running s) (hf : flowOf s f.toNat = none) : exec (.tbLof f) s = .next s :=
  (live_running h).trans (by rw [hf])

theorem exec_tbLof_judges (h : Running s) (hf : flowOf s f.toNat = some r) (ht : r.trib = true) (hu : r.up = true)
    (hh : (trib s f.toNat).held = false) : exec (.tbLof f) s = .next (lofJudge f.toNat s) := by
  rw [exec_tbLof h hf, if_pos (by simp [ht, hu, hh])]

theorem inService_trib {f : Nat} (hf : flowOf s f = some r) (ht : r.trib = true) (hh : (trib s f).held = false) : inService s 3 f = true := by
  rw [show inService s 3 f = ((flowOf s f).any (·.trib) && !(trib s f).held) from rfl, hf]
  simp [ht, hh]

/-- Where a flow is no upstream tributary in service, neither event does anything. -/
theorem occurrence_idle (h : Running s) (hf : flowOf s f.toNat = some r) (hi : r.trib = false ∨ r.up = false ∨ (trib s f.toNat).held = true) :
    exec (.occurrenceDecision f) s = .next s ∧ exec (.tbLof f) s = .next s := by
  refine ⟨(exec_occurrenceDecision h).trans (congrArg _ (occurrenceDecision_idle hf hi)), ?_⟩
  rw [exec_tbLof h hf, if_neg]
  rcases hi with hi | hi | hi <;> simp [hi]

/-- A flow's counters are apart. -/
theorem countAt_xFlow (i j : Nat) (h : i ≠ j) (v : BitVec 64) : countAt (xFlow r.id i) v (xFlow r.id j) = 0 :=
  countAt_ne (by unfold xFlow; omega)

/-- One frame and what it counts, by what the store holds for it. -/
theorem mapFrames_frame (r : Flow) (rdi lost : Bool) (h : Running s) :
    let t := trib s r.id
    let x := mapFrames r rdi lost 1 s
    (∀ y l, lost = false → t.store = some y :: l →
        x.1 = tribFrame r.label false rdi t.fcnt (if t.cfg.kindPacket then itemPayload t.cfg.payLen y else y))
      ∧ ((lost = true ∨ t.store.head? = some none ∨ (t.store = [] ∧ t.cfg.kindPacket = false)) →
        x.1 = tribFrame 0xFF true rdi t.fcnt (List.replicate t.cfg.payLen 0xFF)
          ∧ (cntOf x.2 (xFlow r.id 11)).v = (cntOf s (xFlow r.id 11)).v + 1)
      ∧ (cntOf x.2 (xFlow r.id 9)).v = (cntOf s (xFlow r.id 9)).v + (if t.store = [] ∧ t.cfg.kindPacket = false then 1 else 0) := by
  have hop (i : Nat) : xFlow r.id i ≠ cHop 0 0x20 ∧ xFlow r.id i ≠ cHop 0x20 0x20 := by
    unfold xFlow cHop
    omega
  refine ⟨fun y l hl hs => ?_, fun ha => ?_, ?_⟩
  · rw [mapFrames_payload hl (by rw [takePlace_cons hs])]
  · have hc := ((takePlace_counts r.id s).keeps (u := numbered r.id s) rfl rfl).trans (counts_bump (xFlow r.id 11) 1 _)
    rw [mapFrames_ais (ha.imp_right takePlace_none)]
    refine ⟨rfl, ?_⟩
    rw [hc.count h _ (hop 11).1 (hop 11).2, countAt_xFlow 9 11 (by decide), countAt_same]
    exact congrArg _ (BitVec.zero_add _)
  · obtain ⟨c, hc⟩ := mapFrames_underruns (r := r) (rdi := rdi) (lost := lost) (s := s)
    rw [hc.count h _ (hop 9).1 (hop 9).2, countAt_same, countAt_xFlow 11 9 (by decide)]
    exact congrArg _ (BitVec.add_zero _)

end

/-- Settles O44: mapping downstream, the outputs of a decision upstream, and TB_LOF. -/
theorem tributariesRun : Obligations.TributariesRun := by
  unfold Obligations.TributariesRun
  refine ⟨fun f r ft d tx s h hr ht hu hh hs hn => ?maps,
    fun f r s h hr hi => (exec_tribMap h).trans (congrArg _ (tribMap_idle hr hi)),
    fun f s h hr => (exec_tribMap h).trans (congrArg _ (tribMap_other hr)),
    fun r rdi lost s h => mapFrames_frame r rdi lost h,
    fun f r s h hf hi => occurrence_idle h hf hi,
    fun f s h hf => ⟨(exec_occurrenceDecision h).trans (congrArg _ (occurrenceDecision_none hf)), exec_tbLof_none h hf⟩,
    fun f r s h hf ht hu hh hp => ?decides, fun f r s h hf ht hu hh => ?lof⟩
  case maps =>
    have hid := id_of_flowIn hr
    rw [exec_tribMap h]
    rw [← hid] at hr hh hn ⊢
    exact ⟨congrArg _ (tribMap_maps hr ht hu hh hs hn), mappedAt_only r tx s, trib_mappedAt r tx s⟩
  case decides =>
    have hid := id_of_flowIn hf
    rw [← hid] at hf hh hp
    have hd := occurrenceDecision_sent hf ht hu hh hp
    rw [exec_occurrenceDecision h, ← hid]
    obtain ⟨hc, -, ho, hn⟩ := decided_entry r.id s
    refine ⟨_, rfl, hd.occ.trans ho, hd.align, fun hk => ?_⟩
    rw [hd.order ((congrArg TCfg.kindPacket hc).trans hk), hn]
  case lof =>
    rw [exec_tbLof_judges h hf ht hu hh]
    refine ⟨fun hm => congrArg _ (lofJudge_masked hm), fun hm ho => ⟨_, rfl, ?_⟩, fun hm ho hi => ⟨_, rfl, ?_⟩,
      fun hm ho hi => congrArg _ (lofJudge_neither hm ho hi)⟩
    · rw [lofJudge_out hm ho]
      exact tbLof_defSet f.isLt hm (inService_trib hf ht hh)
    · rw [lofJudge_in hm ho hi]
      exact declared_defClear_same ..

end Sys2Proof.Machine
end

section
/-! PROOFS. The pair through what a unit does with its lease and its sails: what replies, records, cut frames and defects leave of it, and what feathering,
a fence, a release and a LEAVE make of it. -/

namespace Sys2Proof.Machine

/-! ### The pair but for its stream -/

/-- The pair but for the hopper of its state stream. -/
def Pair.bare (p : Pair) : Pair := { p with sent := [], streamWr := 0, streamHwm := 0, streamDrop := [] }

/-- t has the time of s, and its pair but for what went into the state stream. -/
structure KeepsPair (s t : State) : Prop where
  now : t.now = s.now
  pair : t.pair.bare = s.pair.bare

section
variable {s t u : State}

theorem KeepsPair.refl : KeepsPair s s := ⟨rfl, rfl⟩

theorem KeepsPair.trans (h : KeepsPair s t) (k : KeepsPair t u) : KeepsPair s u := ⟨k.now.trans h.now, k.pair.trans h.pair⟩

theorem keepsPair_of (hn : t.now = s.now) (hp : t.pair = s.pair) : KeepsPair s t := ⟨hn, congrArg Pair.bare hp⟩

theorem KeepsPair.foldl {α : Type} {f : State → α → State} (h : ∀ s x, KeepsPair s (f s x)) (l : List α) (s : State) : KeepsPair s (l.foldl f s) := by
  induction l generalizing s with
  | nil => exact .refl
  | cons x l ih => exact (h s x).trans (ih _)

/-- What of the pair is not the stream's is as it was. -/
theorem KeepsPair.proj {α : Type} (h : KeepsPair s t) (p : Pair → α) (hp : ∀ x, p x.bare = p x) : p t.pair = p s.pair := by
  rw [← hp t.pair, h.pair, hp]

theorem KeepsPair.sails (h : KeepsPair s t) : t.pair.sails = s.pair.sails := h.proj Pair.sails (fun _ => rfl)
theorem KeepsPair.st (h : KeepsPair s t) : t.pair.st = s.pair.st := h.proj Pair.st (fun _ => rfl)
theorem KeepsPair.epoch (h : KeepsPair s t) : t.pair.epoch = s.pair.epoch := h.proj Pair.epoch (fun _ => rfl)

/-- The same change of the pair on both sides. -/
theorem KeepsPair.update (h : KeepsPair s t) (f : Pair → Pair) (hf : ∀ x, (f x).bare = (f x.bare).bare) :
    KeepsPair { s with pair := f s.pair } { t with pair := f t.pair } :=
  ⟨h.now, show (f t.pair).bare = (f s.pair).bare by rw [hf, h.pair, ← hf]⟩

theorem Reports.keepsPair (h : Reports s t) : KeepsPair s t := by
  refine keepsPair_of ?_ h.pair_eq
  unfold Reports at h
  rw [h]

theorem sails_of_isStandby (h : isStandby s = true) : s.pair.sails = false := by
  simp only [isStandby, Bool.and_eq_true, Bool.not_eq_true'] at h
  obtain ⟨⟨⟨-, hs⟩, -⟩, -⟩ := h
  exact hs

theorem fencedLease_of_isStandby (h : isStandby s = true) : s.pair.fencedLease = false := by
  simp only [isStandby, isFenced, Bool.and_eq_true, Bool.not_eq_true', Bool.or_eq_false_iff] at h
  obtain ⟨⟨-, ⟨⟨hl, -⟩, -⟩, -⟩, -⟩ := h
  exact hl

/-! ### Replies, records and cut frames -/

theorem keepsPair_postReply (r : Reply) (s : State) : KeepsPair s (postReply r s) := by
  refine keepsPair_of ?_ (postReply_keeps r s).2
  unfold postReply
  dsimp only
  split <;> simp

theorem keepsPair_finish (k : Pkt) (held : Bool) (st : Nat) (ps : List Byte) (s : State) : KeepsPair s (finish k held st ps s) := by
  unfold finish
  dsimp only
  split
  · split
    · exact keepsPair_of (setPortSt_now ..) (setPortSt_pair ..)
    · exact .refl
  · split
    · exact keepsPair_of rfl rfl
    · exact keepsPair_postReply ..

theorem keepsPair_freeReplies (s : State) : KeepsPair s (freeReplies s) := by
  unfold freeReplies
  refine .trans ?_ (.foldl (fun s r => keepsPair_postReply r s) _ _)
  exact keepsPair_of rfl rfl

theorem keepsPair_sendRec (r : StreamRec) (s : State) : KeepsPair s (sendRec s r) := by
  unfold sendRec
  dsimp only
  split
  · exact ⟨rfl, rfl⟩
  · exact ⟨by simp, by rw [bump_pair]; rfl⟩

theorem keepsPair_sendRecs (l : List StreamRec) (s : State) : KeepsPair s (sendRecs l s) := .foldl (fun s r => keepsPair_sendRec r s) l s

theorem keepsPair_pushDelivered (s : State) : KeepsPair s (pushDelivered s) := by
  unfold pushDelivered
  split
  · exact keepsPair_sendRecs ..
  · exact .refl

theorem unbump_now (a n : Nat) (s : State) : (unbump a n s).now = s.now := by
  unfold unbump
  split <;> rfl

theorem keepsPair_cutFrames (s : State) : KeepsPair s (cutFrames s) := by
  unfold cutFrames
  refine .foldl (fun s p => ?_) _ s
  dsimp only
  split
  · exact keepsPair_of (by simp [unbump_now]) (by simp [unbump_pair])
  · exact .refl

/-! ### Defects -/

theorem keepsPair_tellDefect (cls n code : Nat) (on : Bool) (s : State) : KeepsPair s (tellDefect cls n code on s) := by
  unfold tellDefect
  split
  · exact keepsPair_sendRecs ..
  · exact .refl

theorem estLift_pair (cls idx code : Nat) (s : State) : (estLift cls idx code s).pair = s.pair := by
  unfold estLift
  repeat' split
  all_goals rfl

theorem keepsPair_defClear (cls idx code cause : Nat) (s : State) : KeepsPair s (defClear cls idx code cause s) := by
  unfold defClear
  split
  · dsimp only
    refine .trans (.trans (keepsPair_of ?_ ?_) (defEvent_reports ..).keepsPair) (keepsPair_tellDefect ..)
    · exact (estLift_keeps ..).1.now
    · exact estLift_pair ..
  · exact .refl

theorem keepsPair_sweepLeft (s : State) : KeepsPair s (sweepLeft s) := by
  unfold sweepLeft
  refine .foldl (fun s e => ?_) _ s
  dsimp only
  split
  · exact .refl
  · exact keepsPair_defClear ..

/-! ### Handovers and lease messages -/

/-- Whatever waited for its X, the handover is gone. -/
theorem dropHandover_comes (s : State) : KeepsPair { s with pair := { s.pair with handover := none } } (dropHandover s) := by
  unfold dropHandover
  refine .trans ?_ (.foldl (fun s k => keepsPair_finish k true 10 [] s) _ _)
  exact keepsPair_of rfl rfl

/-- The pair once a lease message is sent (R337). -/
def leaseSent (k : LeaseKind) (num e : Nat) (s : State) : Pair :=
  { s.pair with leaseTx := some (k, s.pair.epoch), leaseWord := leaseWordOf k num e s,
                leaseOut := s.pair.leaseOut.drop (s.pair.leaseOut.length - 3) ++ [(leaseStart k s, leaseWordOf k num e s)] }

theorem leaseSend_comes (k : LeaseKind) (num e : Nat) (s : State) : KeepsPair { s with pair := leaseSent k num e s } (leaseSend k num e s) := by
  unfold leaseSend
  dsimp only
  split
  · exact keepsPair_sendRecs ..
  · exact .refl

theorem leaseSend_tx (k : LeaseKind) (num e : Nat) (s : State) : (leaseSend k num e s).pair.leaseTx = some (k, s.pair.epoch) :=
  (leaseSend_comes k num e s).proj Pair.leaseTx (fun _ => rfl)

/-! ### Feathering and fencing -/

/-- The pair of a unit that has feathered. -/
def Pair.feathered (p : Pair) : Pair := { p with sails := false, sailVerdict := false, renewing := false, degraded := false }

theorem feather_comes (s : State) : KeepsPair { s with pair := s.pair.feathered } (feather s) := by
  unfold feather
  exact ((keepsPair_cutFrames s).update Pair.feathered (fun _ => rfl)).trans (keepsPair_freeReplies _)

theorem keepsPair_loseFrames (s : State) : KeepsPair s (loseFrames s) := keepsPair_of rfl rfl

theorem keepsPair_switchEvent (form cause tr : Nat) (s : State) :
    KeepsPair { s with pair := { s.pair with causeForm := form, causeCode := cause, causeTree := tr } } (switchEvent form cause tr s) := by
  unfold switchEvent
  exact keepsPair_of (by simp) (by simp)

/-- A unit that gives up its sails with its frames: what R338 and R340 have in common. -/
theorem feathers_alone (s : State) :
    KeepsPair { s with pair := { s.pair with handover := none }.feathered } (loseFrames (feather (dropHandover s))) :=
  (((dropHandover_comes s).update Pair.feathered (fun _ => rfl)).trans (feather_comes _)).trans (keepsPair_loseFrames _)

end

end Sys2Proof.Machine
end

section
/-! PROOFS. PORST_N (O29): the last lease message of a unit that stops, the save area of a save cut short, and the registers left. -/

namespace Sys2Proof.Machine

/-! ### The last lease message (R217, R339) -/

section
variable {s : State}

theorem feather_leaseTx (s : State) : (feather s).pair.leaseTx = s.pair.leaseTx := (feather_comes s).proj Pair.leaseTx (fun _ => rfl)

/-- What a unit that releases its lease sent last is the release, under its epoch. -/
theorem releaseLease_tx (hs : s.pair.st ≠ .solo) (cause : Nat) : (releaseLease cause s).pair.leaseTx = some (.release, s.pair.epoch) := by
  have hd := dropHandover_comes s
  have hc := hd.trans ((keepsPair_cutFrames _).trans (keepsPair_pushDelivered _))
  have hx := (leaseSend_tx .release 0 0 (pushDelivered (cutFrames (dropHandover s)))).trans (congrArg (fun e => some (LeaseKind.release, e)) hc.epoch)
  have hf := feather_leaseTx (leaseSend .release 0 0 (pushDelivered (cutFrames (dropHandover s))))
  rw [releaseLease]
  dsimp only
  rw [if_neg (by rw [hd.st]; exact hs), (keepsPair_switchEvent 1 cause 0 _).proj Pair.leaseTx (fun _ => rfl)]
  refine Eq.trans ?_ (hf.trans hx)
  generalize feather _ = u
  rfl

theorem stopUnit_releases (h : s.pair.sails = true) (hs : s.pair.st ≠ .solo) (cause : Nat) :
    (stopUnit cause s).pair.leaseTx = some (.release, s.pair.epoch) := by
  rw [stopUnit, if_pos h]
  exact releaseLease_tx hs cause

theorem stopUnit_leaves (h : isStandby s = true) (cause : Nat) : (stopUnit cause s).pair.leaseTx = some (.leave, s.pair.epoch) := by
  rw [stopUnit, if_neg (by simp [sails_of_isStandby h]), if_pos h]
  exact leaseSend_tx ..

/-- A unit that has sent nothing yet on the way to its stop. -/
def unsent (s : State) : State := { s with pair := { s.pair with sent := [], leaseTx := none } }

theorem porstReset_tx (hr : Running s) : (porstReset s).pair.leaseTx = (stopUnit 6 (unsent s)).pair.leaseTx := by
  unfold porstReset
  dsimp only
  rw [if_pos (show s.power.phase = .running from hr)]
  rfl

/-! ### What MRAM keeps -/

/-- A save cut short leaves the save that the pointer names (R438). -/
theorem save_tearSave (p : Power) : (tearSave p).save = p.save := by
  have hp : (tearSave p).ptr = p.ptr := rfl
  unfold Power.save
  rw [hp]
  cases h : p.ptr with
  | none => rfl
  | some x => cases hx : x.area <;> simp [tearSave, Power.area, h, hx]

theorem save_mramKept (s : State) : (mramKept s).save = s.power.save := by
  unfold mramKept
  split
  · exact save_tearSave s.power
  · rfl

theorem consumed_mramKept (s : State) : (mramKept s).consumed = s.power.consumed := by
  unfold mramKept
  split <;> rfl

theorem slots_mramKept (s : State) : (mramKept s).fwA = s.power.fwA ∧ (mramKept s).fwB = s.power.fwB ∧ (mramKept s).kwk = s.power.kwk := by
  unfold mramKept
  split <;> exact ⟨rfl, rfl, rfl⟩

theorem mramKept_torn (h : s.power.pendingSave.isSome = true) : (mramKept s).lastTorn = true ∧ (mramKept s).owed = s.power.owed ++ [0x110] := by
  unfold mramKept
  rw [if_pos h, if_pos h]
  exact ⟨rfl, rfl⟩

theorem mramKept_idle (h : s.power.pendingSave = none) : (mramKept s).lastTorn = s.power.lastTorn ∧ (mramKept s).owed = s.power.owed := by
  unfold mramKept
  rw [h]
  exact ⟨rfl, List.append_nil _⟩

/-! ### Registers -/

theorem mget_filter_out {α : Type} [DecidableEq α] (d : α) (m : Map α) (p : Nat → Bool) {k : Nat} (h : p k = false) :
    mget d (m.filter (fun e => p e.1)) k = d := by
  induction m with
  | nil => rfl
  | cons e m ih =>
    obtain ⟨j, w⟩ := e
    cases hp : p j with
    | false => simpa [List.filter, hp] using ih
    | true =>
      have hj : j ≠ k := by
        rintro rfl
        rw [h] at hp
        exact Bool.false_ne_true hp
      simpa [List.filter, hp, mget, hj] using ih

theorem porstReset_sagCfg (s : State) : regRaw (porstReset s) aSAG_CFG = regRaw s aSAG_CFG :=
  congrArg (· ^^^ regRst aSAG_CFG) (mget_filter 0 s.regs (fun a => decide (a = aSAG_CFG)) (decide_eq_true rfl))

theorem porstReset_regRst (s : State) {a : Nat} (h : a ≠ aSAG_CFG) : regRaw (porstReset s) a = regRst a :=
  (congrArg (· ^^^ regRst a) (mget_filter_out 0 s.regs (fun a => decide (a = aSAG_CFG)) (decide_eq_false h))).trans (BitVec.zero_xor)

end

/-- Settles O29: the state after PORST_N written out, with the last lease message that a running unit sends. -/
theorem porstResets : Obligations.PorstResets := by
  unfold Obligations.PorstResets
  intro s
  obtain ⟨hA, hB, hk⟩ := slots_mramKept s
  exact ⟨porstReset s, rfl, rfl, rfl, rfl, rfl, rfl, rfl, rfl, rfl, rfl, rfl, rfl, rfl, rfl, rfl, rfl, rfl, rfl, rfl, rfl, save_mramKept s, consumed_mramKept s,
    hA, hB, hk, rfl, rfl, rfl, mramKept_torn, mramKept_idle, fun hr h hs => (porstReset_tx hr).trans (stopUnit_releases (s := unsent s) h hs 6),
    fun hr h => (porstReset_tx hr).trans (stopUnit_leaves (s := unsent s) h 6), rfl, porstReset_sagCfg s, fun a ha => porstReset_regRst s ha⟩

end Sys2Proof.Machine
end

section
/-! PROOFS. The lease (O47): renewals and grants, epochs received, the fence and raise points, releases, notices, LEAVE and the sideband. -/

namespace Sys2Proof.Machine

/-! ### The standby -/

section
variable {s t : State}

theorem isStandby_congr (hm : pairMode t = pairMode s) (hp : t.pair = s.pair) : isStandby t = isStandby s := by
  rw [isStandby, isStandby, hm, hp, isFenced_of_pair hp]

/-! ### Epochs received (R340) -/

theorem epochSeen_same {e : BitVec 32} (h : s.pair.sails = false ∨ seqLt s.pair.epoch e = false) : epochSeen e s = s := by
  unfold epochSeen
  rw [if_neg]
  rcases h with h | h <;> simp [h]

theorem epochSeen_standby (h : isStandby s = true) (e : BitVec 32) : epochSeen e s = s := epochSeen_same (.inl (sails_of_isStandby h))

/-- A later epoch posts a feathering; the pair is as it was, and so is its mode. -/
theorem epochSeen_keeps (e : BitVec 32) (s : State) : (epochSeen e s).pair = s.pair ∧ isStandby (epochSeen e s) = isStandby s := by
  unfold epochSeen
  split
  · have hp (d : List Byte) : (event 0x0804 5 0 d (post (.feather e) s)).pair = s.pair := by simp
    have hm (d : List Byte) : pairMode (event 0x0804 5 0 d (post (.feather e) s)) = pairMode s :=
      congrArg (fun w : Word => fld w.toNat 31 30)
        (regRaw_evtRaw_one (a := aPAIR_CFG) (b := aPAIR_EVT) 0x0804 5 0 0 0 d 0x40 (post (.feather e) s) (by decide) (by decide) (by decide))
    exact ⟨hp _, isStandby_congr (hm _) (hp _)⟩
  · exact ⟨rfl, rfl⟩

theorem epochSeen_posts {e : BitVec 32} (h : s.pair.sails = true) (he : seqLt s.pair.epoch e = true)
    (hl : ∀ x ∈ s.mill.landing, ∀ d, x.eff ≠ .feather d) : epochSeen e s = event 0x0804 5 0 (beBytes 4 e.toNat) (post (.feather e) s) := by
  unfold epochSeen
  refine if_pos ⟨h, he, ?_⟩
  rw [Bool.not_eq_true', List.any_eq_false]
  intro x hx
  split
  next d hd => exact absurd hd (hl x hx d)
  next => exact Bool.false_ne_true

end

/-! ### Contact's pair time -/

/-- A unit's part in its pair: its sails, its state, the epoch and the lease. -/
def Pair.role (p : Pair) : Bool × PairSt × BitVec 32 × Bool × Nat := (p.sails, p.st, p.epoch, p.granted, p.expiry)

section
variable {s : State}

theorem emptyBank_pair (b : Bool) (s : State) : (emptyBank b s).pair = s.pair := by
  unfold emptyBank
  dsimp only
  split <;> rfl

theorem cancelTurn_pair (code : Nat) (s : State) : (cancelTurn code s).pair = s.pair := by
  unfold cancelTurn
  split
  · rfl
  · simp

/-- Taking the partner's time leaves the unit's part in the pair. -/
theorem adoptTime_role (s : State) : (adoptTime s).pair.role = s.pair.role := by
  have hp (u : State) : (cancelTurn 0 (emptyBank true (emptyBank false u))).pair = u.pair := by
    rw [cancelTurn_pair, emptyBank_pair, emptyBank_pair]
  refine ((keepsPair_sweepLeft _).proj Pair.role (fun _ => rfl)).trans ?_
  dsimp only [fresh]
  rw [hp]
  rfl

/-- Under a later epoch a SAILS_ON unit gives up its sails and joins (R340). -/
theorem landFeather_role (h : s.pair.sails = true) (e : BitVec 32) : (landFeather e s).pair.role = (false, .joining, topEpoch s e, false, 0) := by
  have hu := feathers_alone s
  unfold landFeather
  rw [if_neg (by simp [h])]
  generalize loseFrames (feather (dropHandover s)) = u at hu
  have he : u.pair.epoch = s.pair.epoch := hu.epoch
  have hs : u.pair.sails = false := hu.sails
  have hr : ({ u.pair with st := .joining, epoch := topEpoch u e, granted := false, expiry := 0, tier := 0 } : Pair).role
      = (false, .joining, topEpoch s e, false, 0) := by
    rw [topEpoch, topEpoch, he]
    exact congrArg (fun x => (x, _)) hs
  dsimp only
  split
  · exact (adoptTime_role _).trans hr
  · exact hr

/-! ### Renewals (R338) -/

/-- The PON frame start of the next renewal: after the last one. -/
def renewStart (s : State) : Nat := frameStart s (if s.pair.renewing then max s.now (s.pair.expiry - 1244160 + 1) else s.now)

theorem renewal_idle (h : s.pair.sails = false ∨ pairMode s ≠ 2 ∨ s.pair.st = .solo ∨ (s.pair.contact = false ∧ s.pair.renewing = false)) :
    renewal s = s := by
  unfold renewal
  rw [if_pos]
  rcases h with h | h | h | ⟨h, k⟩
  · simp [h]
  · simp [h]
  · simp [h]
  · simp [h, k]

theorem leaseWordOf_congr {t : State} (ha : t.imprAt = s.imprAt) (hn : t.imprNum = s.imprNum) (he : t.pair.epoch = s.pair.epoch) (k : LeaseKind)
    (num e : Nat) : leaseWordOf k num e t = leaseWordOf k num e s := by
  simp only [leaseWordOf, imprOf, ha, hn, he]

/-- The unit at its renewal: the next number, for 1 ms from the frame start. -/
def renewed (s : State) : State :=
  bump (cPair 0x110) 1 { advance (renewStart s) s with pair := { s.pair with
    num := (s.pair.num + 1) % 16, expiry := renewStart s + 1244160, renewing := true, grantBack := false } }

section
variable (hs : s.pair.sails = true) (hm : pairMode s = 2) (hp : s.pair.st ≠ .solo) (hc : s.pair.contact = true ∨ s.pair.renewing = true)
include hs hm hp hc

theorem renewal_sends (hg : s.pair.renewing = false ∨ s.pair.grantBack = true) :
    renewal s = leaseSend .renew ((s.pair.num + 1) % 16) (renewStart s + 1244160) (renewed s) := by
  have hg' : (!s.pair.renewing || s.pair.grantBack) = true := by rcases hg with hg | hg <;> simp [hg]
  unfold renewal
  rw [if_neg (by rcases hc with hc | hc <;> simp [hs, hm, hp, hc])]
  exact if_pos hg'

theorem renewal_waits (hr : s.pair.renewing = true) (hg : s.pair.grantBack = false) :
    renewal s = leaseSilent (bump (cPair 0x118) 1 (advance (renewStart s) s)) := by
  have hg' : ¬(!s.pair.renewing || s.pair.grantBack) = true := by simp [hr, hg]
  unfold renewal
  rw [if_neg (by rcases hc with hc | hc <;> simp [hs, hm, hp, hc])]
  exact if_neg hg'

end

/-- t is s after a renewal is sent: its number, its expiry and its frame. -/
structure RenewalSent (s t : State) : Prop where
  now : t.now = max s.now (renewStart s)
  num : t.pair.num = (s.pair.num + 1) % 16
  renewing : t.pair.renewing = true
  expiry : t.pair.expiry = renewStart s + 1244160
  back : t.pair.grantBack = false
  tx : t.pair.leaseTx = some (.renew, s.pair.epoch)
  word : t.pair.leaseWord = leaseWordOf .renew ((s.pair.num + 1) % 16) (renewStart s + 1244160) s
  out : t.pair.leaseOut.getLast?.map Prod.snd = some (leaseWordOf .renew ((s.pair.num + 1) % 16) (renewStart s + 1244160) s)

theorem renewed_pair (s : State) : (renewed s).pair = { s.pair with
    num := (s.pair.num + 1) % 16, expiry := renewStart s + 1244160, renewing := true, grantBack := false } := bump_pair ..

theorem renewed_epoch (s : State) : (renewed s).pair.epoch = s.pair.epoch := by rw [renewed_pair]

theorem renewal_sent (s : State) : RenewalSent s (leaseSend .renew ((s.pair.num + 1) % 16) (renewStart s + 1244160) (renewed s)) := by
  generalize hn : (s.pair.num + 1) % 16 = n
  generalize he : renewStart s + 1244160 = e
  have hp := renewed_pair s
  rw [hn, he] at hp
  have hw : leaseWordOf .renew n e (renewed s) = leaseWordOf .renew n e s :=
    leaseWordOf_congr (bump_imprAt ..) (bump_imprNum ..) (renewed_epoch s) ..
  have ht := leaseSend_comes .renew n e (renewed s)
  have htx := leaseSend_tx .renew n e (renewed s)
  rw [renewed_epoch] at htx
  have hnow : (renewed s).now = max s.now (renewStart s) := bump_now ..
  generalize leaseSend .renew n e (renewed s) = t at ht htx
  have hf {α : Type} (p : Pair → α) (hb : ∀ x, p x.bare = p x) : p t.pair = p (leaseSent .renew n e (renewed s)) := ht.proj p hb
  rw [leaseSent, hw, hp] at hf
  refine ⟨ht.now.trans hnow, (hf Pair.num (fun _ => rfl)).trans hn.symm, hf Pair.renewing (fun _ => rfl), (hf Pair.expiry (fun _ => rfl)).trans he.symm,
    hf Pair.grantBack (fun _ => rfl), htx, ?_, ?_⟩
  · rw [hn, he]
    exact hf Pair.leaseWord (fun _ => rfl)
  · rw [hn, he, hf Pair.leaseOut (fun _ => rfl), List.getLast?_append]
    rfl

/-- A silence of the lease paths is told once, and reported. -/
theorem leaseSilent_comes (s : State) : (leaseSilent s).now = s.now ∧ (leaseSilent s).pair = { s.pair with lostTold := true }
    ∧ KeepsCounts s (leaseSilent s) := by
  have key {u : State} (code cls : Nat) (d : List Byte) (hn : u.now = s.now) (hp : u.pair = { s.pair with lostTold := true }) (hc : KeepsCounts s u) :
      (event code cls 0 d u).now = s.now ∧ (event code cls 0 d u).pair = { s.pair with lostTold := true } ∧ KeepsCounts s (event code cls 0 d u) :=
    ⟨(event_now ..).trans hn, (event_pair ..).trans hp, hc.trans (keepsCounts_event ..)⟩
  unfold leaseSilent
  split
  next h => exact ⟨rfl, by rw [← h], .refl⟩
  · dsimp only
    split
    · obtain ⟨hn, hp, hc⟩ := key 0x0803 5 (beBytes 4 s.pair.epoch.toNat) (u := { s with pair := { s.pair with lostTold := true } }) rfl rfl (keepsCounts_of_cnt rfl)
      exact key _ _ _ hn hp hc
    · exact key _ _ _ rfl rfl (keepsCounts_of_cnt rfl)

/-! ### Renewals and grants received (R338) -/

variable {num e : Nat} {epoch : Word}

theorem renewRx_grants (h : isStandby s = true) (hg : s.pair.granted = false ∨ s.pair.num ≠ num ∨ s.pair.epoch ≠ epoch) :
    renewRx num epoch e s = leaseSend .grant num e { s with pair := { s.pair with
      num := num, epoch := epoch, expiry := e, granted := true, renewAt := s.now, lostTold := false, partnerSails := true } } := by
  unfold renewRx
  rw [epochSeen_standby h]
  refine if_neg (fun c => ?_)
  rcases c with c | ⟨c1, c2, c3⟩
  · simp [h] at c
  · rcases hg with hg | hg | hg
    · exact Bool.false_ne_true (hg.symm.trans c1)
    · exact hg c2
    · exact hg c3

theorem renewRx_again (h : isStandby s = true) (hg : s.pair.granted = true) (hn : s.pair.num = num) (he : s.pair.epoch = epoch) :
    renewRx num epoch e s = s := by
  unfold renewRx
  rw [epochSeen_standby h]
  exact if_pos (.inr ⟨hg, hn, he⟩)

theorem renewRx_other (h : isStandby s = false) : renewRx num epoch e s = epochSeen epoch s := by
  unfold renewRx
  exact if_pos (.inl (by rw [(epochSeen_keeps epoch s).2, h]; rfl))

theorem grantRx_takes (h : s.pair.sails = true) (hn : num = s.pair.num) (he : epoch = s.pair.epoch) :
    grantRx num epoch s = { s with pair := { s.pair with grantBack := true, granted := true, lostTold := false } } := by
  have hl : seqLt s.pair.epoch epoch = false := by simp [seqLt, he]
  unfold grantRx
  rw [epochSeen_same (.inr hl)]
  exact if_pos ⟨h, hn, he⟩

theorem grantRx_other (h : s.pair.sails = false ∨ num ≠ s.pair.num ∨ epoch ≠ s.pair.epoch) : grantRx num epoch s = epochSeen epoch s := by
  unfold grantRx
  refine if_neg ?_
  rw [(epochSeen_keeps epoch s).1]
  rintro ⟨h1, h2, h3⟩
  rcases h with h | h | h
  · exact Bool.false_ne_true (h.symm.trans h1)
  · exact h h2
  · exact h h3

/-! ### The fence and raise points (R338, R339) -/

theorem switchEvent_pair (form cause tr : Nat) (s : State) :
    (switchEvent form cause tr s).pair = { s.pair with causeForm := form, causeCode := cause, causeTree := tr } := by simp [switchEvent]

theorem switchEvent_now (form cause tr : Nat) (s : State) : (switchEvent form cause tr s).now = s.now := by simp [switchEvent]

theorem fenceEvent_now (cause : Nat) (s : State) : (fenceEvent cause s).now = s.now := by simp [fenceEvent]

/-- A unit that fences by its lease has no sails and no lease, and says so under its epoch. -/
theorem leaseFence_fences (h : s.pair.sails = true) (cause form : Nat) : let t := leaseFence cause form s
    t.now = s.now ∧ t.pair.sails = false ∧ t.pair.fencedLease = true ∧ t.pair.st = .solo ∧ t.pair.granted = false
      ∧ t.pair.fenceEpoch = some s.pair.epoch ∧ t.pair.leaseTx = some (.fenced, s.pair.epoch) := by
  have hu := feathers_alone s
  unfold leaseFence
  rw [if_neg (by simp [h])]
  generalize loseFrames (feather (dropHandover s)) = u at hu
  have he : u.pair.epoch = s.pair.epoch := hu.epoch
  have hv := leaseSend_comes .fenced 0 0 u
  have htx := leaseSend_tx .fenced 0 0 u
  dsimp only
  rw [switchEvent_now, switchEvent_pair, fenceEvent_now, fenceEvent_pair]
  exact ⟨hv.now.trans hu.now, hv.sails.trans hu.sails, rfl, rfl, rfl, congrArg some (hv.epoch.trans he), htx.trans (by rw [he])⟩

theorem fencePoint_idle (h : s.pair.sails = false ∨ s.pair.expiry = 0) : fencePoint s = s := by
  refine if_neg (fun c => ?_)
  rcases h with h | h
  · exact Bool.false_ne_true (h.symm.trans c.1)
  · exact c.2 h

theorem raisePoint_raises (h : isStandby s = true) (hg : s.pair.granted = true) (he : s.pair.expiry ≠ 0) (hw : regBit s aPAIR_CFG 27 = false)
    (hh : s.pair.handover.any (fun y => decide (y.1 ≤ s.pair.expiry + 124400)) = false) :
    raisePoint s = raiseAt (s.pair.expiry + 124400) (expiryForm s) 0 0 (advance (s.pair.expiry + 124400) s) := by
  have hx : atX (s.pair.expiry + 124400) (expiryForm s) 0 0 s
      = raiseAt (s.pair.expiry + 124400) (expiryForm s) 0 0 (advance (s.pair.expiry + 124400) s) := by
    unfold atX
    refine (if_neg ?_).trans (if_pos h)
    rw [advance_pair, sails_of_isStandby h]
    exact Bool.false_ne_true
  refine (if_neg ?_).trans hx
  simp [raises, h, hg, he, hw, hh]

theorem raisePoint_idle (h : isStandby s = false ∨ s.pair.granted = false ∨ s.pair.expiry = 0 ∨ regBit s aPAIR_CFG 27 = true
    ∨ s.pair.handover.any (fun y => decide (y.1 ≤ s.pair.expiry + 124400)) = true) : raisePoint s = s := by
  refine if_pos ?_
  rcases h with h | h | h | h | h <;> simp [raises, h]

/-- The raise at X, over the sections of a copy where it is a cold takeover. -/
theorem raiseAt_expiry (s u : State) (x : Nat) : raiseAt x (expiryForm s) 0 0 u =
    (let w := if s.pair.st = .joining then coldSections u else u
     let v := runLag x w.pair.lag.length w
     takeSails (if s.pair.st = .joining then 7 else 2) 0 0 { v with pair := { v.pair with handover := none } }) := by
  unfold raiseAt expiryForm
  by_cases h : s.pair.st = .joining <;> simp [h]

/-! ### Waiting for X (R343) -/

variable {x form c n : Nat}

theorem awaitX_free (h : s.pair.handover = none) : awaitX x form c n s = { s with pair := { s.pair with handover := some (x, form, c, n) } } := by
  unfold awaitX
  rw [h]
  rfl

theorem awaitX_earlier {y : Nat × Nat × Nat × Nat} (h : s.pair.handover = some y) (hx : x < y.1) :
    awaitX x form c n s = { s with pair := { s.pair with handover := some (x, form, c, n) } } := by
  unfold awaitX
  rw [h]
  exact if_pos (by simp [hx])

theorem awaitX_later {y : Nat × Nat × Nat × Nat} (h : s.pair.handover = some y) (hx : y.1 < x) (hf : form ≠ 6 ∨ y.2.1 ≠ 5) : awaitX x form c n s = s := by
  unfold awaitX
  rw [h]
  refine if_neg ?_
  have h1 : ¬x < y.1 := by omega
  have h2 : x ≠ y.1 := by omega
  rcases hf with hf | hf <;> simp [h1, h2, hf]

theorem awaitX_governs {y : Nat × Nat × Nat × Nat} (h : s.pair.handover = some y) (hf : y.2.1 = 5) :
    awaitX x 6 c n s = { s with pair := { s.pair with handover := some (x, 6, c, n) } } := by
  unfold awaitX
  rw [h]
  exact if_pos (by simp [hf])

/-! ### RELEASE, FENCED and LEAVE (R329, R339, R343) -/

theorem releaseRx_other (h : isStandby s = false) (x : Option Nat) : releaseRx epoch x s = epochSeen epoch s := by
  unfold releaseRx
  exact if_pos (.inl (by rw [(epochSeen_keeps epoch s).2, h]; rfl))

theorem releaseRx_old (h : isStandby s = true) (he : seqLt epoch s.pair.epoch = true) (x : Option Nat) : releaseRx epoch x s = s := by
  unfold releaseRx
  rw [epochSeen_standby h]
  exact if_pos (.inr he)

/-- The unit under the epoch of the RELEASE, a free value used. -/
def releaseSeen (epoch : Word) (s : State) : State := { s with free := s.free + 1, pair := { s.pair with epoch := epoch } }

section
variable (h : isStandby s = true) (he : seqLt epoch s.pair.epoch = false)
include h he

theorem releaseRx_joining (hj : s.pair.st = .joining) (x : Option Nat) : releaseRx epoch x s =
    if s.pair.granted then awaitX (match x with | some x => x | none => strokeAt s s.now) 7 0 0 (releaseSeen epoch s) else releaseSeen epoch s := by
  unfold releaseRx
  rw [epochSeen_standby h]
  exact (if_neg (by simp [h, he])).trans (if_pos hj)

theorem releaseRx_at (hj : s.pair.st ≠ .joining) (y : Nat) : ∃ form c n, releaseRx epoch (some y) s = awaitX y form c n (releaseSeen epoch s) := by
  have hr : releaseRx epoch (some y) s = if Config.freshNat s.free % 2 = 0 then awaitX y 5 0 0 (releaseSeen epoch s)
      else awaitX y 6 (triggerCode (Config.freshNat s.free / 2)) (Config.freshNat s.free / 16 % 64) (releaseSeen epoch s) := by
    unfold releaseRx
    rw [epochSeen_standby h]
    exact (if_neg (by simp [h, he])).trans (if_neg hj)
  rw [hr]
  split
  · exact ⟨_, _, _, rfl⟩
  · exact ⟨_, _, _, rfl⟩

theorem releaseRx_now (hj : s.pair.st ≠ .joining) :
    releaseRx epoch none s = awaitX (strokeAt s s.now) 1 (Config.freshNat s.free % 9 + 1) 0 (releaseSeen epoch s) := by
  unfold releaseRx
  rw [epochSeen_standby h]
  exact (if_neg (by simp [h, he])).trans (if_neg hj)

end

theorem fencedRx_other (h : isStandby s = false) : fencedRx epoch s = epochSeen epoch s := by
  unfold fencedRx
  exact if_pos (by rw [(epochSeen_keeps epoch s).2, h]; rfl)

theorem fencedRx_standby (h : isStandby s = true) :
    fencedRx epoch s = awaitX (strokeAt s (s.now + 1)) (if s.pair.st = .joining then 7 else 4) 0 0 s := by
  unfold fencedRx
  rw [epochSeen_standby h]
  refine (if_neg (by simp [h])).trans ?_
  split <;> rfl

theorem freeReplies_ackWait (s : State) : (freeReplies s).cmd.ackWait = [] := (postReplies_keep _ _).2.1

/-- The end of LEAVE at the SAILS_ON unit: nothing waits for an X, no lease is held, and the pair is SOLO. -/
def leftAlone (s : State) : State :=
  let s := dropHandover s
  freeReplies { s with pair := { s.pair with st := .solo, granted := false, renewing := false, tier := 0, expiry := 0, partnerSails := false,
                                             cutAt := none, sending := [], streamMark := s.pair.streamRel } }

theorem leaveRx_leaves (h : s.pair.sails = true) (e : Word) : ∃ w, w.pair = s.pair ∧ leaveRx e s = leftAlone w := by
  have hp := (epochSeen_keeps e s).1
  unfold leaveRx
  dsimp only
  rw [if_pos (by rw [hp, h])]
  split
  · exact ⟨_, (event_pair ..).trans hp, rfl⟩
  · exact ⟨_, hp, rfl⟩

theorem leftAlone_comes (s : State) : let t := leftAlone s
    t.pair.st = .solo ∧ t.pair.granted = false ∧ t.pair.sails = s.pair.sails ∧ t.pair.epoch = s.pair.epoch ∧ t.pair.handover = none ∧ t.pair.expiry = 0
      ∧ t.cmd.ackWait = [] := by
  have hd := dropHandover_comes s
  unfold leftAlone
  generalize dropHandover s = u at hd
  dsimp only
  rw [(freeReplies_keeps _).2, freeReplies_ackWait]
  exact ⟨rfl, rfl, hd.sails, hd.epoch, hd.proj Pair.handover (fun _ => rfl), rfl, rfl⟩

/-- The partner's LEAVE makes the pair SOLO under the same sails. -/
theorem leaveRx_sails (h : s.pair.sails = true) (e : Word) : let t := leaveRx e s
    t.pair.st = .solo ∧ t.pair.granted = false ∧ t.pair.sails = true ∧ t.pair.epoch = s.pair.epoch ∧ t.pair.handover = none ∧ t.pair.expiry = 0
      ∧ t.cmd.ackWait = [] := by
  obtain ⟨w, hw, hl⟩ := leaveRx_leaves h e
  obtain ⟨hst, hg, hs, he, hh, hx, ha⟩ := leftAlone_comes w
  rw [hw] at hs he
  rw [hl]
  exact ⟨hst, hg, hs.trans h, he, hh, hx, ha⟩

theorem leaveRx_none (h : s.pair.sails = false) (e : Word) : leaveRx e s = s := by
  unfold leaveRx
  rw [epochSeen_same (.inl h)]
  exact if_neg (by simp [h])

/-! ### Silence (R341, R342) -/

theorem sbLost_good (h : s.pair.sbGood = true) :
    sbLost s = event 0x0802 5 0 [] { advance (s.pair.sbAt + 24576) s with pair := { s.pair with sbGood := false } } := if_pos h

theorem sbLost_bad (h : s.pair.sbGood = false) : sbLost s = s := if_neg (by simp [h])

end

/-! ### The events -/

section
variable {s : State} (hr : Running s)
include hr

theorem exec_renewal : exec .renewal s = .next (renewal s) := live_running hr

theorem exec_renew (num : Nat) (epoch : Word) (e : Nat) :
    exec (.renew num epoch e) s = .next (renewRx (num % 16) (nearEpoch s epoch) (nearTime s e) (sideband s)) := live_running hr

theorem exec_grant (num : Nat) (epoch : Word) : exec (.grant num epoch) s = .next (grantRx (num % 16) (nearEpoch s epoch) (sideband s)) := live_running hr

theorem exec_release (epoch : Word) (x : Option Nat) :
    exec (.release epoch x) s = .next (releaseRx (nearEpoch s epoch) (x.map (nearTime s)) (sideband s)) := live_running hr

theorem exec_fencedNotice (epoch : Word) : exec (.fencedNotice epoch) s = .next (fencedRx (nearEpoch s epoch) (sideband s)) := live_running hr

theorem exec_leave : ∃ e, exec .leave s = .next (leaveRx e { sideband s with free := s.free + 1 }) := ⟨_, live_running hr⟩

theorem exec_fencePoint : exec .fencePoint s = .next (fencePoint s) := live_running hr

theorem exec_raisePoint : exec .raisePoint s = .next (raisePoint s) := live_running hr

theorem exec_sbLost : exec .sbLost s = .next (sbLost s) := live_running hr

theorem exec_noRenew : exec .noRenew s = .next (noRenew s) := live_running hr

end

/-- Settles O47: each message and each point of the lease, on the unit that it concerns and on the other. -/
theorem leaseRuns : Obligations.LeaseRuns := by
  unfold Obligations.LeaseRuns
  refine ⟨fun s hr hs hm hp hc hn => ?first, fun s hr hs hm hp hn => ⟨fun hg => ?renews, fun hg => ?silent⟩,
    fun s hr h => (exec_renewal hr).trans (congrArg _ (renewal_idle h)), fun e s h => epochSeen_same h, fun e s hs he hl => ?later,
    fun e b hs => ?feathers, fun num epoch e s hr hb hg => ?grants,
    fun num epoch e s hr => ⟨fun hb hg hn he => ?again, fun hb => ?other, fun hs hn he => ?granted, fun h => ?stray⟩,
    fun s hr hs he => ?fence, fun s hr h => (exec_fencePoint hr).trans (congrArg _ (fencePoint_idle h)), fun s hr hb hg he hw hh => ?raise,
    fun s hr h => (exec_raisePoint hr).trans (congrArg _ (raisePoint_idle h)),
    fun epoch x s hr => ⟨fun hb => ⟨?release, ?notice⟩, fun hb he => ?old, fun hb he hh => ?released⟩, fun epoch s hr hb hh => ?fenced,
    fun x form c n s hf => ⟨fun h => awaitX_free h, fun y h hx => awaitX_earlier h hx, fun y h hx => awaitX_later h hx (hf.imp_right (fun k => k y h))⟩,
    fun x c n y s h hf => awaitX_governs h hf, fun s hr hs => ?leaves, fun s hr hs => ?left, fun s hr hg => ?lost,
    fun s hr hg => (exec_sbLost hr).trans (congrArg _ (sbLost_bad hg)), fun s hr hb => ?noRenew,
    fun s hr hb => (exec_noRenew hr).trans (congrArg _ (if_neg (by simp [hb])))⟩
  case first =>
    have hx : renewStart s = frameStart s s.now := congrArg (frameStart s) (if_neg (by simp [hn]))
    have ht := renewal_sent s
    refine ⟨_, (exec_renewal hr).trans (congrArg _ (renewal_sends hs hm hp (.inl hc) (.inl hn))), ?_⟩
    rw [← hx]
    exact ⟨ht.now, ht.num, ht.renewing, ht.expiry, ht.tx, ht.word, ht.out⟩
  case renews =>
    have hx : renewStart s = frameStart s (max s.now (s.pair.expiry - 1244160 + 1)) := congrArg (frameStart s) (if_pos hn)
    have ht := renewal_sent s
    refine ⟨_, (exec_renewal hr).trans (congrArg _ (renewal_sends hs hm hp (.inr hn) (.inr hg))), ?_⟩
    rw [← hx]
    exact ⟨ht.now, ht.num, ht.expiry, ht.back⟩
  case silent =>
    have hx : renewStart s = frameStart s (max s.now (s.pair.expiry - 1244160 + 1)) := congrArg (frameStart s) (if_pos hn)
    obtain ⟨hnow, hpair, hcnt⟩ := leaseSilent_comes (bump (cPair 0x118) 1 (advance (renewStart s) s))
    refine ⟨_, (exec_renewal hr).trans (congrArg _ (renewal_waits hs hm hp (.inr hn) hn hg)), ?_, ?_, ?_⟩
    · rw [hnow, hx, bump_now]
      rfl
    · rw [hpair, bump_pair]
      rfl
    · rw [hcnt.count _ (by decide) (by decide)]
      exact cntOf_bump_one (r := advance (renewStart s) s) hr
  case later =>
    refine ⟨_, epochSeen_posts hs he hl, ?_, ?_⟩
    · rw [event_mill]
      rfl
    · rw [event_pair]
      rfl
  case feathers =>
    have h : (landFeather e b).pair.role = _ := landFeather_role hs e
    simp only [Pair.role, Prod.mk.injEq] at h
    exact h
  case grants =>
    have hb' : isStandby (sideband s) = true := hb
    have ht := leaseSend_comes .grant (num % 16) (nearTime s e) { sideband s with pair := { (sideband s).pair with
      num := num % 16, epoch := nearEpoch s epoch, expiry := nearTime s e, granted := true, renewAt := s.now, lostTold := false, partnerSails := true } }
    exact ⟨_, (exec_renew hr ..).trans (congrArg _ (renewRx_grants hb' hg)), ht.proj Pair.granted (fun _ => rfl), ht.proj Pair.num (fun _ => rfl), ht.epoch,
      ht.proj Pair.expiry (fun _ => rfl), ht.proj Pair.renewAt (fun _ => rfl), ht.proj Pair.sbGood (fun _ => rfl), leaseSend_tx ..⟩
  case again => exact (exec_renew hr ..).trans (congrArg _ (renewRx_again (s := sideband s) hb hg hn he))
  case other => exact (exec_renew hr ..).trans (congrArg _ (renewRx_other (s := sideband s) hb))
  case granted => exact (exec_grant hr ..).trans (congrArg _ (grantRx_takes (s := sideband s) hs hn he))
  case stray => exact (exec_grant hr ..).trans (congrArg _ (grantRx_other (s := sideband s) h))
  case fence =>
    refine ⟨_, (exec_fencePoint hr).trans (congrArg _ (if_pos ⟨hs, he⟩)), ?_⟩
    exact leaseFence_fences (s := advance (s.pair.expiry - 124400) s) hs 0 2
  case raise =>
    rw [exec_raisePoint hr, raisePoint_raises hb hg he hw hh, raiseAt_expiry]
  case release => exact (exec_release hr ..).trans (congrArg _ (releaseRx_other (s := sideband s) hb _))
  case notice => exact (exec_fencedNotice hr _).trans (congrArg _ (fencedRx_other (s := sideband s) hb))
  case old => exact (exec_release hr ..).trans (congrArg _ (releaseRx_old (s := sideband s) hb he _))
  case released =>
    have hw {y form c n : Nat} := awaitX_free (x := y) (form := form) (c := c) (n := n) (s := releaseSeen (nearEpoch s epoch) (sideband s)) hh
    have hs := sails_of_isStandby hb
    rw [exec_release hr]
    by_cases hj : s.pair.st = .joining
    · rw [releaseRx_joining (s := sideband s) hb he hj]
      by_cases hg : s.pair.granted = true
      · rw [if_pos (show (sideband s).pair.granted = true from hg), hw]
        refine ⟨_, rfl, rfl, hs, fun k => absurd hj k, fun k => absurd hj k, fun _ _ => ?_, fun _ k => ?_⟩
        · cases x <;> rfl
        · exact absurd (hg.symm.trans k) (by decide)
      · rw [if_neg (show ¬(sideband s).pair.granted = true from hg)]
        exact ⟨_, rfl, rfl, hs, fun k => absurd hj k, fun k => absurd hj k, fun _ k => absurd k hg, fun _ _ => hh⟩
    · cases x with
      | none =>
        rw [Option.map_none, releaseRx_now (s := sideband s) hb he hj, hw]
        refine ⟨_, rfl, rfl, hs, fun _ y k => absurd k (by simp), fun _ _ => ⟨_, rfl, by omega, by omega⟩, fun k => absurd k hj, fun k => absurd k hj⟩
      | some y =>
        obtain ⟨form, c, n, hx⟩ := releaseRx_at (s := sideband s) hb he hj (nearTime s y)
        rw [Option.map_some, hx, hw]
        refine ⟨_, rfl, rfl, hs, fun _ z k => ?_, fun _ k => absurd k (by simp), fun k => absurd k hj, fun k => absurd k hj⟩
        rw [Option.some.inj k]
        rfl
  case fenced =>
    refine ⟨_, (exec_fencedNotice hr _).trans (congrArg _ (fencedRx_standby (s := sideband s) hb)), ?_⟩
    rw [awaitX_free (s := sideband s) hh]
    rfl
  case leaves =>
    obtain ⟨e, he⟩ := exec_leave hr
    exact ⟨_, he, leaveRx_sails (s := { sideband s with free := s.free + 1 }) hs e⟩
  case left =>
    obtain ⟨e, he⟩ := exec_leave hr
    refine ⟨_, he, ?_⟩
    rw [leaveRx_none (s := { sideband s with free := s.free + 1 }) hs e]
    rfl
  case lost =>
    refine ⟨_, (exec_sbLost hr).trans (congrArg _ (sbLost_good hg)), ?_, ?_⟩
    · rw [event_pair]
    · rw [event_now]
      rfl
  case noRenew =>
    obtain ⟨hnow, hpair, -⟩ := leaseSilent_comes (advance (s.pair.renewAt + 311040) s)
    exact ⟨_, (exec_noRenew hr).trans (congrArg _ (if_pos hb)), hnow, hpair⟩

end Sys2Proof.Machine
end

section
/-! PROOFS. DEFECT_GET and DEFECT_CFG (O15): the object named, the history cleared, and the settings taken at an impression boundary. -/

namespace Sys2Proof.Machine

section
variable {h : Hdr} {i : Instr} {s b : State}

theorem objOk_taken (c x : Nat) : objOk (taken i h s) c x = objOk s c x := by
  rw [taken_only]
  rfl

theorem defectGet_bad {c f : BitVec 8} {x : BitVec 16} (h1 : 1 ≤ c.toNat) (h6 : c.toNat ≤ 6) (hx : objOk s c.toNat x.toNat = true)
    (hf : f = 0 ∨ f = 0x80) : (opDefectGet c f x).bad s = 0 := by
  have hf' : f &&& 127#8 = 0#8 := by rcases hf with rfl | rfl <;> rfl
  simp [opDefectGet, firstBad, h1, h6, hx, hf']

theorem defectCfg_bad {k a x : BitVec 8} {c d : BitVec 16} (hk : k.toNat ≤ 2) (ha : 5 ≤ a.toNat) (ha' : a.toNat ≤ 9) (hx : 3 ≤ x.toNat) (hx' : x.toNat ≤ 5)
    (hxa : x.toNat < a.toNat) (hc : 1 ≤ c.toNat) (hc' : c.toNat ≤ 600) (hd : c.toNat ≤ d.toNat) (hd' : d.toNat ≤ 600) :
    (opDefectCfg k a x c d).bad s = 0 := by
  simp [opDefectCfg, firstBad, hk, ha, ha', hx, hx', hxa, hc, hc', hd, hd']

/-! ### Settings of the estimators (R197) -/

theorem portChange_defects {f : State → State} (hf : (f s).defects = s.defects) (p : Nat) : (portChange p f s).defects = s.defects := by
  unfold portChange trigMark
  dsimp only
  split
  · exact (setPort_defects ..).trans hf
  · split
    · exact (setPort_defects ..).trans hf
    · exact hf

/-- Port settings taken at a boundary leave the defects alone. -/
theorem portsTake_defects (l : List Nat) (s : State) : (l.foldl (fun s p => portChange p (updPort p portSettings) s) s).defects = s.defects := by
  induction l generalizing s with
  | nil => rfl
  | cons p l ih => exact (ih _).trans (portChange_defects rfl p)

/-- The one setting that waits is taken at the boundary. -/
theorem estSettings_takes {k : Nat} {c : EstCfg} (hn : s.defects.next = [(k, c)]) : let d := (estSettings s).defects
    d.next = [] ∧ d.cfgTree = (if k = 0 then c else s.defects.cfgTree) ∧ d.cfgTerm = (if k = 1 then c else s.defects.cfgTerm)
      ∧ d.cfgPort = (if 2 ≤ k then c else s.defects.cfgPort) := by
  have hd := portsTake_defects (List.range 32) s
  unfold estSettings
  generalize (List.range 32).foldl (fun s p => portChange p (updPort p portSettings) s) s = u at hd
  dsimp only
  rw [hd, hn]
  match k with
  | 0 => exact ⟨rfl, rfl, rfl, rfl⟩
  | 1 => exact ⟨rfl, rfl, rfl, rfl⟩
  | k + 2 => simp

end

/-- Settles O15: the reply with the history cleared where asked, the settings posted behind their record, and the boundary that takes them. -/
theorem defectCommandsComplete : Obligations.DefectCommandsComplete := by
  unfold Obligations.DefectCommandsComplete
  refine ⟨fun h c f x s hs h1 h6 hx hf => ?_, fun h k a x c d s b hs hk ha ha' hx hx' hxa hc hc' hd hd' => ?_, fun k c s hn => estSettings_takes hn⟩
  · refine exec_runs (o := opDefectGet c f x) hs rfl rfl rfl (defectGet_bad h1 h6 (by rwa [objOk_taken]) hf) ?_
    rcases hf with rfl | rfl <;> simp [opDefectGet]
  · have hb (u : State) : (opDefectCfg k a x c d).bad u = 0 := defectCfg_bad hk ha ha' hx hx' hxa hc hc' hd hd'
    refine comes_mirrored (o := opDefectCfg k a x c d) hs rfl rfl rfl (hb _) (hb _) (Nat.zero_le 1) ?_ (by decide)
    have hm : (mirrored (.defectCfg h k a x c d) h s b).defects = b.defects := by rw [mirrored_only]
    simp [opDefectCfg, hm, resOk]

end Sys2Proof.Machine
end

section
/-! PROOFS. Pair and protection commands (O12): what each comes to, the verdicts at their boundary, and the settings of PROT_CFG. -/

namespace Sys2Proof.Machine

/-! ### What a command finds -/

section
variable {h : Hdr} {i : Instr} {o : Op} {s b t : State} {st : Nat} {ps : List Byte}

theorem strokeAt_taken (x : Nat) : strokeAt (taken i h s) x = strokeAt s x := by
  rw [taken_only]
  rfl

theorem firstLane_taken (p : Nat) : firstLane (taken i h s) p = firstLane s p := by
  rw [taken_only]
  rfl

theorem quadMode_taken (g : Nat) : quadMode (taken i h s) g = quadMode s g := by
  rw [taken_only]
  rfl

theorem treeOk_taken (n : Nat) : treeOk (taken i h s) n = treeOk s n := by
  rw [taken_only]
  rfl

/-- A command whose reply waits starts all the same. -/
theorem exec_awaits (hs : Starts i h s) (he : exec i s = command i o s) (hop : awaitsStroke (opcodeOf i) s = false)
    (hm : opMirrored (opcodeOf i) (some i) = false) (hb : o.bad (taken i h s) = 0) (hr : o.run (taken i h s) = resWait t) :
    exec i s = .next { t with cmd := { t.cmd with waiting := t.cmd.waiting ++ [{ pkt := takenPkt i h s }] } } := by
  have hm' : opMirrored (takenPkt i h s).opcode.toNat (takenPkt i h s).cmd = false := by
    rw [show (takenPkt i h s).opcode.toNat = opcodeOf i from opcode_small i]
    exact hm
  rw [he, command, submit_starts o hs.1 hs.2.1, start_immediate o hs.2.2 hb, hop, does_plain hm', hr]
  rfl

theorem exec_busy (hs : Starts i h s) (he : exec i s = command i o s) (hop : awaitsStroke (opcodeOf i) s = false)
    (hm : opMirrored (opcodeOf i) (some i) = false) (hb : o.bad (taken i h s) = 0) (hr : o.run (taken i h s) = resBusy (taken i h s)) :
    exec i s = answersNot i h s 0x0A [] :=
  he.trans (exec_answers o hs hb hop hm hr (by decide))

/-- A command that is not of column M comes at its boundary to its own effect. -/
theorem comes_plain (hs : Starts i h s) (he : exec i s = command i o s) (hi : strokeOf i = some o) (hop : opStroke (opcodeOf i) = true)
    (hm : opMirrored (opcodeOf i) (some i) = false) (hb : o.bad (taken i h s) = 0) (hc : o.bad b = 0) (hr : o.run b = ⟨st, ps, t⟩) (hst : st ≠ stWait) :
    Comes i h s b st ps t :=
  ⟨he.trans (exec_posts o hs hb (by simp [awaitsStroke, hop])), landCmd_plain hi hc hm hr hst⟩

end

/-! ### PAIR_JOIN, PAIR_LEAVE and PAIR_SWITCH -/

section
variable {s : State}

theorem pairJoin_joins (hc : s.pair.contact = true) (hj : (s.pair.st = .solo ∧ s.pair.sails = true ∧ s.pair.partnerSails = false) ∨ s.pair.resyncLimit = true) :
    opPairJoin.run s = resOk [] (startQuick { s with pair := { s.pair with resyncLimit := false, resyncs := [] } }) := by
  refine if_pos ?_
  rcases hj with ⟨h1, h2, h3⟩ | h
  · simp [hc, h1, h2, h3]
  · simp [hc, h]

theorem pairJoin_refuses (h : ¬(s.pair.contact = true ∧ ((s.pair.st = .solo ∧ s.pair.sails = true ∧ s.pair.partnerSails = false) ∨ s.pair.resyncLimit = true))) :
    opPairJoin.run s = resBusy s := by
  refine if_neg (fun c => h ?_)
  simpa [and_assoc] using c

theorem leavePair_leaves (s : State) : let t := leavePair s
    t.pair.st = .solo ∧ t.pair.detached = true ∧ t.pair.tier = 0 ∧ t.pair.granted = false ∧ t.pair.lag = []
      ∧ t.pair.leaseTx = some (.leave, s.pair.epoch) := ⟨rfl, rfl, rfl, rfl, rfl, leaseSend_tx ..⟩

/-- A release names its X and goes out under the unit's epoch. -/
theorem releaseAt_comes (form c n x : Nat) (s : State) : let t := releaseAt form c n x s
    t.pair.handover = some (handoverX s x, form, c, n) ∧ t.pair.leaseTx = some (.release, s.pair.epoch) := by
  have hd := keepsPair_pushDelivered
    { s with pair := { s.pair with handover := some (handoverX s x, form, c, n), orderedAt := strokeAt s x } }
  have hl := leaseSend_comes .release 0 (handoverX s x)
    (pushDelivered { s with pair := { s.pair with handover := some (handoverX s x, form, c, n), orderedAt := strokeAt s x } })
  exact ⟨(hl.proj Pair.handover (fun _ => rfl)).trans (hd.proj Pair.handover (fun _ => rfl)),
    (leaseSend_tx ..).trans (congrArg (fun e => some (LeaseKind.release, e)) hd.epoch)⟩

theorem pairSwitch_waits (h1 : s.pair.sails = true) (h2 : s.pair.st = .inStep) (h3 : s.pair.handover.any (fun y => y.2.1 = 6) = false) :
    opPairSwitch.run s = resWait (if s.pair.handover.isSome then s else releaseAt 5 0 0 s.now s) :=
  if_pos ⟨h1, h2, by rw [h3]; rfl⟩

theorem pairSwitch_refuses (h : s.pair.sails = false ∨ s.pair.st ≠ .inStep ∨ s.pair.handover.any (fun y => y.2.1 = 6) = true) :
    opPairSwitch.run s = resBusy s := by
  refine if_neg ?_
  rintro ⟨h1, h2, h3⟩
  rcases h with h | h | h
  · exact Bool.false_ne_true (h.symm.trans h1)
  · exact h h2
  · simp [h] at h3

/-! ### PAIR_VERDICT (R342) -/

section
variable {v : BitVec 8} {e : Word} {h : Hdr} {i : Instr}

theorem pairVerdict_bad (hv : v = 1 ∨ v = 2) (he : e = s.pair.epoch) : (opPairVerdict v e).bad (taken i h s) = 0 := by
  have hv' : (v = 1 || v = 2) = true := by simpa using hv
  simp only [opPairVerdict, firstBad, taken_pair, he, hv']
  simp

theorem pairVerdict_refuses (h : s.pair.contact = true ∨ regBit s aPAIR_CFG 27 = false) : (opPairVerdict v e).run s = resBusy s :=
  if_pos (h.imp_right (fun h => by simp [h]))

/-- What a verdict comes to where the unit has no contact and a witness. -/
theorem pairVerdict_admitted (hc : s.pair.contact = false) (hw : regBit s aPAIR_CFG 27 = true) : (opPairVerdict v e).run s =
    if v = 2 then resOk [] (if s.pair.sails then post .linkFence s else s)
    else if s.pair.sails then
      resOk [] (freeReplies { s with pair := { s.pair with st := .solo, renewing := false, granted := false, expiry := 0, tier := 0 } })
    else if s.pair.fencedLease then resOk [] (post .raise_ s)
    else if isStandby s then
      resOk [] (awaitX (strokeAt s (max (s.now + 1) (s.pair.expiry + 124400))) 3 0 0 { s with pair := { s.pair with sailVerdict := true } })
    else resOk [] s := if_neg (by simp [hc, hw])

theorem pairVerdict_sails (hc : s.pair.contact = false) (hw : regBit s aPAIR_CFG 27 = true) (hs : s.pair.sails = true) : (opPairVerdict 1 e).run s =
    resOk [] (freeReplies { s with pair := { s.pair with st := .solo, renewing := false, granted := false, expiry := 0, tier := 0 } }) := by
  rw [pairVerdict_admitted hc hw, if_neg (by decide), if_pos hs]

/-- A SAIL verdict schedules the raise of a standby. -/
theorem pairVerdict_waits (hs : Starts (.pairVerdict h 1 e) h s) (he : e = s.pair.epoch) (hc : s.pair.contact = false) (hw : regBit s aPAIR_CFG 27 = true)
    (hb : isStandby s = true) : let u := taken (.pairVerdict h 1 e) h s
    exec (.pairVerdict h 1 e) s = answersOk (.pairVerdict h 1 e) h s []
      (awaitX (strokeAt s (max (s.now + 1) (s.pair.expiry + 124400))) 3 0 0 { u with pair := { u.pair with sailVerdict := true } }) := by
  refine exec_runs (o := opPairVerdict 1 e) hs rfl rfl rfl (pairVerdict_bad (.inl rfl) he) ?_
  rw [pairVerdict_admitted (by rwa [taken_pair]) (by rwa [regBit_taken]), isStandby_taken, strokeAt_taken, taken_pair, taken_now,
    sails_of_isStandby hb, fencedLease_of_isStandby hb, hb]
  rfl

end

/-! ### A SAIL verdict lands (R340, R346) -/

theorem lead_tsGap (s : State) : lead (tsGap s) = lead s := by
  refine lead_foldl (fun s g => lead_of_pair ?_) _ s
  unfold setHop
  repeat' split
  all_goals rfl

theorem lead_takeCounters (s : State) : lead (takeCounters s) = lead s := by
  unfold takeCounters
  exact lead_foldl (f := fun s (e : Nat × Cnt) => { s with cnt := mupd {} s.cnt e.1 (fun x => { cntAdd e.2.v.toNat x with wrap := x.wrap || e.2.wrap }) })
    (fun _ _ => rfl) _ s

theorem lead_slowTierLost (s : State) : lead (slowTierLost s) = lead s := by
  unfold slowTierLost
  dsimp only
  split
  · rfl
  · split
    · exact lead_takeCounters s
    · exact lead_takeCounters s

theorem lead_flushMill (s : State) : lead (flushMill s) = lead s :=
  lead_of_pair (s := bump (cPair 0x150) (millFrames s + recvFrames s) s) rfl |>.trans (lead_of_pair (bump_pair ..))

theorem lead_switchCmd (s : State) : lead (switchCmd s) = lead s := by
  unfold switchCmd
  split
  · rfl
  · exact lead_of_pair (event_pair ..)

/-- By a SAIL verdict the unit has the sails, alone and under the next epoch. -/
theorem takeSails_verdict (s : State) : let t := takeSails 3 0 0 s
    t.pair.sails = true ∧ t.pair.epoch = s.pair.epoch + 1 ∧ t.pair.fencedLease = false ∧ t.pair.st = .solo := by
  have he := epoch_of_lead ((lead_tsGap _).trans ((lead_slowTierLost _).trans ((lead_flushMill _).trans (lead_switchCmd s))))
  have hx : (if 3 = 1 ∨ 3 = 5 ∨ 3 = 6 then dropDelivered (switchCmd s) else flushMill (switchCmd s)) = flushMill (switchCmd s) := if_neg (by decide)
  unfold takeSails
  dsimp only
  rw [hx, switchEvent_pair]
  generalize tsGap _ = u at he
  exact ⟨rfl, congrArg (· + 1) he, rfl, rfl⟩

theorem landRaise_raises (h1 : s.pair.sails = false) (h2 : s.pair.fencedLease = true) (h3 : s.pair.fencedCmd = false) (h4 : s.pair.fencedPin = false)
    (h5 : s.pair.fencedScan = false) : landRaise s = takeSails 3 0 0 { s with pair := { s.pair with fencedLease := false } } :=
  if_pos ⟨h2, by simp [h1, h3, h4, h5]⟩

/-! ### PROT_CFG and PROT_SWITCH (R197, R208, R215) -/

variable {n m e l x : BitVec 8} {k : BitVec 16}

theorem protCfg_tree_bad (ht : treeOk s n.toNat = true) (hm : m.toNat ≤ 1) (he : e.toNat ≤ 1) (hl : 2 ≤ l.toNat) (hl' : l.toNat ≤ 16) (hx : x.toNat ≤ 15)
    (hk : -248 ≤ k.toInt) (hk' : k.toInt ≤ 248) : (opProtCfg (.tree n m e l x k)).bad s = 0 := by
  simp [opProtCfg, firstBad, ht, hm, he, hl, hl', hx, hk, hk']

theorem protCfg_port_bad {p q u : BitVec 8} (hp : p.toNat < 32) (hu : u.toNat ≤ 1) (h : firstLane s p.toNat = true
    ∧ (q = 0xFF ∨ (q.toNat < 32 ∧ firstLane s q.toNat = true ∧ q ≠ p ∧ quadMode s (q.toNat / 4) = quadMode s (p.toNat / 4)))) :
    (opProtCfg (.port p q u)).bad s = 0 := by
  obtain ⟨hf, hq⟩ := h
  have hq' : (q = 0xFF || (decide (q.toNat < 32) && firstLane s q.toNat && decide (q.toNat ≠ p.toNat)
      && quadMode s (q.toNat / 4) = quadMode s (p.toNat / 4))) = true := by
    rcases hq with rfl | ⟨h1, h2, h3, h4⟩
    · rfl
    · have hn : q.toNat ≠ p.toNat := fun hn => h3 (BitVec.eq_of_toNat_eq hn)
      simp [h1, h2, h4, hn]
  simp only [opProtCfg, firstBad, hq']
  simp [hp, hu, hf]

/-- The settings that TREE_CFG left waiting are the tree's own. -/
def treeSet (t : Tree) : Tree := match t.setNext with
  | some x => { t with set := x, setNext := none }
  | none => t

theorem treeSet_protNext (t : Tree) : (treeSet t).protNext = t.protNext := by
  unfold treeSet
  split <;> rfl

/-- The settings that wait of a tree are its own from the boundary on. -/
theorem setApply_takes {n : Nat} {b : Bool} {h : Nat} {k : Int} {l : Nat} {x : BitVec 4} (hp : (tree s n).protNext = some (b, h, k, l, x)) :
    let t := tree (setApply n s) n
    t.protTypeB = b ∧ t.home = h ∧ t.skew = k ∧ t.losBursts = l ∧ t.xtrig = x ∧ t.protNext = none := by
  have hf : (tree (updTree n treeSet s) n).protNext = some (b, h, k, l, x) := by rw [tree_updTree, treeSet_protNext, hp]
  unfold setApply
  dsimp only
  split
  next hn => exact absurd (hn.symm.trans hf) (by simp)
  next hn =>
    have hx := hn.symm.trans hf
    simp only [Option.some.injEq, Prod.mk.injEq] at hx
    obtain ⟨rfl, rfl, rfl, rfl, rfl⟩ := hx
    rw [tree_updTree]
    exact ⟨rfl, rfl, rfl, rfl, rfl, rfl⟩

theorem portSettings_takes {q : Option Nat} {v : Bool} {u : UPort} (h : u.protNext = some (q, v)) : let t := portSettings u
    t.spare = q ∧ t.utrig = v ∧ t.protNext = none ∧ (q = u.spare → t.rehashed = u.rehashed) := by
  unfold portSettings
  rw [h]
  exact ⟨rfl, rfl, rfl, fun hq => by simp [hq]⟩

theorem protSwitch_bad {p : BitVec 8} (hp : p.toNat < 32) (hf : firstLane s p.toNat = true) : (opProtSwitch p).bad s = 0 := by
  simp [opProtSwitch, firstBad, hp, hf]

end

/-- Settles O12: each command by what it comes to, the two verdicts at their boundary, and the settings that a boundary takes. -/
theorem pairCommandsComplete : Obligations.PairCommandsComplete := by
  unfold Obligations.PairCommandsComplete
  refine ⟨fun h s hs => ⟨fun ⟨hc, hj⟩ => ?joins, fun hn => ?noJoin⟩, fun h s hs hb => ?leaves, fun h s hs hb => ?noLeave, fun h s hs h1 h2 h3 => ?switches,
    fun h y s hs h1 h2 h3 h6 => ?behind, fun h s hs hn => ?noSwitch, fun h e s hs he hc hw => ⟨fun h1 => ?feathers, fun h1 => ?stays⟩,
    fun h e s hs he hc hw => ⟨fun h1 => ?sails, fun h1 h2 => ?raises, fun hb hh => ?scheduled, fun hb => ?waits, fun h1 h2 hb => ?bare⟩,
    fun b h1 => ?fences, fun b h1 h2 h3 h4 h5 => ?lands, fun h v e s hs hv he hn => ?noVerdict, fun h s hs => ?info,
    fun h n m e l x k s b hs ht hm he hl hl' hx hk hk' => ?tree, fun n s b h k l x hp => setApply_takes hp, fun q v u hp => portSettings_takes hp,
    fun h p q u s b hs hp hu hl => ?port, fun h p s b hs hp hl => ?reverts⟩
  case joins =>
    refine ⟨_, exec_runs (o := opPairJoin) hs rfl rfl rfl rfl (pairJoin_joins (by rwa [taken_pair]) (by rwa [taken_pair])), ?_, ?_, ?_⟩
    · simp [startQuick, postCut]
    · exact ⟨_, List.mem_append_right _ (List.mem_singleton_self _), rfl, rfl⟩
    · exact ⟨taken_trees (.pairJoin h) h s, taken_terms (.pairJoin h) h s, taken_plates (.pairJoin h) h s⟩
  case noJoin => exact exec_busy (o := opPairJoin) hs rfl rfl rfl rfl (pairJoin_refuses (by rwa [taken_pair]))
  case leaves =>
    have ht := leavePair_leaves (taken (.pairLeave h) h s)
    rw [taken_pair] at ht
    exact ⟨_, exec_runs (o := opPairLeave) hs rfl rfl rfl rfl (if_pos (by rw [isStandby_taken, hb])), ht⟩
  case noLeave => exact exec_busy (o := opPairLeave) hs rfl rfl rfl rfl (if_neg (by simp [isStandby_taken, hb]))
  case switches =>
    have ht := releaseAt_comes 5 0 0 s.now (taken (.pairSwitch h) h s)
    have hx : handoverX (taken (.pairSwitch h) h s) s.now = handoverX s s.now := by
      rw [taken_only]
      rfl
    rw [taken_pair, hx] at ht
    refine ⟨exec_awaits (o := opPairSwitch) hs rfl rfl rfl rfl ?_, ht⟩
    rw [pairSwitch_waits (by rwa [taken_pair]) (by rwa [taken_pair]) (by rw [taken_pair, h3]; rfl), taken_pair, h3, taken_now]
    rfl
  case behind =>
    refine exec_awaits (o := opPairSwitch) hs rfl rfl rfl rfl ?_
    rw [pairSwitch_waits (by rwa [taken_pair]) (by rwa [taken_pair]) (by rw [taken_pair, h3]; simpa using h6), taken_pair, h3]
    rfl
  case noSwitch => exact exec_busy (o := opPairSwitch) hs rfl rfl rfl rfl (pairSwitch_refuses (by rwa [taken_pair]))
  case feathers =>
    refine exec_runs (o := opPairVerdict 2 e) hs rfl rfl rfl (pairVerdict_bad (.inr rfl) he) ?_
    rw [pairVerdict_admitted (by rwa [taken_pair]) (by rwa [regBit_taken]), taken_pair, h1]
    rfl
  case stays =>
    refine exec_runs (o := opPairVerdict 2 e) hs rfl rfl rfl (pairVerdict_bad (.inr rfl) he) ?_
    rw [pairVerdict_admitted (by rwa [taken_pair]) (by rwa [regBit_taken]), taken_pair, h1]
    rfl
  case sails =>
    have hu : (taken (.pairVerdict h 1 e) h s).pair.sails = true := by rwa [taken_pair]
    refine ⟨_, exec_runs (o := opPairVerdict 1 e) hs rfl rfl rfl (pairVerdict_bad (.inl rfl) he)
      (pairVerdict_sails (by rwa [taken_pair]) (by rwa [regBit_taken]) hu), ?_⟩
    rw [(freeReplies_keeps _).2]
    exact ⟨rfl, rfl, hu⟩
  case raises =>
    refine exec_runs (o := opPairVerdict 1 e) hs rfl rfl rfl (pairVerdict_bad (.inl rfl) he) ?_
    rw [pairVerdict_admitted (by rwa [taken_pair]) (by rwa [regBit_taken]), taken_pair, h1, h2]
    rfl
  case waits => exact pairVerdict_waits hs he hc hw hb
  case scheduled =>
    rw [pairVerdict_waits hs he hc hw hb, awaitX_free (by rwa [taken_pair])]
  case bare =>
    refine exec_runs (o := opPairVerdict 1 e) hs rfl rfl rfl (pairVerdict_bad (.inl rfl) he) ?_
    rw [pairVerdict_admitted (by rwa [taken_pair]) (by rwa [regBit_taken]), isStandby_taken, taken_pair, h1, h2, hb]
    rfl
  case fences =>
    obtain ⟨-, h2, h3, h4, h5, -⟩ := leaseFence_fences h1 3 3
    exact ⟨h2, h3, h4, h5⟩
  case lands =>
    have ht := takeSails_verdict { b with pair := { b.pair with fencedLease := false } }
    rw [← landRaise_raises h1 h2 h3 h4 h5] at ht
    exact ht
  case noVerdict =>
    refine exec_busy (o := opPairVerdict v e) hs rfl rfl rfl (pairVerdict_bad hv he) (pairVerdict_refuses ?_)
    rwa [taken_pair, regBit_taken]
  case info =>
    refine exec_answersOk (o := opPairInfo) hs rfl rfl rfl rfl ?_
    have h1 : pairStatus (taken (.pairInfo h) h s) = pairStatus s := by
      rw [taken_only]
      rfl
    have h2 : leaseExp (taken (.pairInfo h) h s) = leaseExp s := by
      rw [taken_only]
      rfl
    simp only [opPairInfo, lastCause, h1, h2, taken_pair, List.append_assoc]
  case tree =>
    have hb : (opProtCfg (.tree n m e l x k)).bad (taken (.protCfg h (.tree n m e l x k)) h s) = 0 :=
      protCfg_tree_bad (by rw [treeOk_taken]; exact ht s (by simp)) hm he hl hl' hx hk hk'
    have hc : (opProtCfg (.tree n m e l x k)).bad b = 0 := protCfg_tree_bad (ht b (by simp)) hm he hl hl' hx hk hk'
    exact ⟨fun hy => comes_plain hs rfl rfl rfl rfl hb hc (if_pos hy) (by decide),
      fun hy => comes_plain hs rfl rfl rfl rfl hb hc (if_neg (by simp [hy])) (by decide)⟩
  case port =>
    have hb : (opProtCfg (.port p q u)).bad (taken (.protCfg h (.port p q u)) h s) = 0 :=
      protCfg_port_bad hp hu (by simpa only [firstLane_taken, quadMode_taken] using hl s (by simp))
    have hc : (opProtCfg (.port p q u)).bad b = 0 := protCfg_port_bad hp hu (hl b (by simp))
    exact ⟨fun hy => comes_plain hs rfl rfl rfl rfl hb hc (if_neg (by rcases hy with hy | hy <;> simp [hy])) (by decide),
      fun h1 h2 => comes_plain hs rfl rfl rfl rfl hb hc (if_pos ⟨h1, h2⟩) (by decide)⟩
  case reverts =>
    have hb : (opProtSwitch p).bad (taken (.protSwitch h p) h s) = 0 := protSwitch_bad hp (by rw [firstLane_taken]; exact hl s (by simp))
    have hc : (opProtSwitch p).bad b = 0 := protSwitch_bad hp (hl b (by simp))
    refine ⟨fun hr => comes_plain hs rfl rfl rfl rfl hb hc (if_pos (by simp [hr])) (by decide),
      fun hr hy => comes_plain hs rfl rfl rfl rfl hb hc ((if_neg (by simp [hr])).trans (if_pos hy)) (by decide),
      fun hr h1 h2 => comes_plain hs rfl rfl rfl rfl hb hc ((if_neg (by simp [hr])).trans (if_neg ?_)) (by decide)⟩
    rintro (hy | hy)
    · exact Bool.false_ne_true (h1.symm.trans hy)
    · omega

end Sys2Proof.Machine
end

section
/-! PROOFS. Switchovers (O48): a feeder handover that is ordered leaves its tree without the mark that the statement gives it. -/

namespace Sys2Proof.Machine

/-- A SAILS_ON unit IN_STEP whose tree 0 is protected and has not triggered; its partner has no defect of a tree, and no handover is under way. -/
def orderable : State := Tests.withTree { protTypeB := true } (Tests.sailing { st := .inStep })

/-- A TR_LOS of tree 0 declared at 0 arises as a trigger (R207). -/
theorem orderable_arises : (tree orderable 0).protTypeB = true ∧ orderable.pair.sails = true ∧ orderable.pair.st = .inStep
    ∧ declared orderable 5 0 PL_LOS = false ∧ (tree orderable 0).triggered = false
    ∧ orderable.pair.handover.any (fun y => !(y.2.1 = 5 && orderable.pair.orderedAt = strokeAt orderable 0)) = false
    ∧ partnerGood (tree orderable 0) (strokeAt orderable 0) TR_LOS = true := by decide +kernel

/-- No tree of the partner alone has a trigger. -/
theorem orderable_not_only :
    (List.range 64).any (fun m => (tree orderable m).protTypeB && partnerTrig (tree orderable m) && !treeTrig orderable m) = false := by decide +kernel

/-- The order is the release alone: what has triggered is marked on the unit that raises, at X. -/
theorem orderable_unmarked : (tree (feederTrigger 0 TR_LOS 0 orderable) 0).triggered = false := by decide +kernel

/-- Refutes O48: the handover ordered for TR_LOS of a tree does not mark that tree as triggered on the unit that orders it. -/
theorem not_switchoversRun : ¬ Obligations.SwitchoversRun := by
  unfold Obligations.SwitchoversRun
  rintro ⟨h, -⟩
  obtain ⟨-, -, -, -, ordered⟩ := h 0 TR_LOS 0 orderable
  obtain ⟨u, hu, -, marked, -⟩ := ordered orderable_arises orderable_not_only rfl
  rw [← hu, orderable_unmarked] at marked
  exact absurd marked (by decide)

end Sys2Proof.Machine
end

section
/-! PROOFS. Uplink ports (O46): the checks of a frame and the receive order, the screens' recovery, the defects and faults of a port, its rehash, the
timers, and the PDUs it sends. -/

namespace Sys2Proof.Machine

/-! ### The MAC and the receive order (R257, R258, R260, R261) -/

section
variable {p : Nat} {b : List Byte} {s : State}

theorem macFails_short {len : Nat} (h : len < 64) (fcs : Bool) : macFails s p len fcs = some 0x18 := if_pos h

theorem macFails_long {len : Nat} (h : 64 ≤ len) (hl : maxLen s p < len) (fcs : Bool) : macFails s p len fcs = some 0x20 :=
  (if_neg (by omega)).trans (if_pos hl)

theorem macFails_fcs {len : Nat} (h : 64 ≤ len) (hl : len ≤ maxLen s p) (fcs : Bool) :
    macFails s p len fcs = if !fcs then some 0x10 else none := (if_neg (by omega)).trans (if_neg (by omega))

theorem macControl_other {e : Nat} (h1 : natAt b (e + 2) 2 ≠ 1) (h2 : natAt b (e + 2) 2 ≠ 0x101) : macControl p e b s = bump (cPort p 0x38) 1 s :=
  if_pos ⟨h1, h2⟩

/-- A PAUSE or PFC is counted, and pauses a port that heeds it. -/
theorem macControl_pauses {e : Nat} (h : natAt b (e + 2) 2 = 1 ∨ natAt b (e + 2) 2 = 0x101) :
    let u := bump (cPort p (if natAt b (e + 2) 2 = 1 then 0x28 else 0x30)) 1 s
    macControl p e b s = if regBit s (aPORT p) 27 && !hasThroughEgress u p then
      updPort p (fun x => { x with pausedTo := if pauseTime b e = 0 then 0 else s.now + pauseMc (quadMode s (p / 4)) (pauseTime b e) }) u else u := by
  intro u
  have hr : u.regs = s.regs := bump_regs ..
  have hq : quadMode u (p / 4) = quadMode s (p / 4) := regFld_of_regs hr ..
  have hb : regBit u (aPORT p) 27 = regBit s (aPORT p) 27 := by rw [regBit, regBit, regRaw_of_regs s hr]
  have hn : u.now = s.now := bump_now ..
  have hm : macControl p e b s = if regBit u (aPORT p) 27 && !hasThroughEgress u p then
      updPort p (fun x => { x with pausedTo := if pauseTime b e = 0 then 0 else u.now + pauseMc (quadMode u (p / 4)) (pauseTime b e) }) u else u :=
    if_neg (by omega)
  rw [hm, hq, hb, hn]

theorem frameRx_control (h : etherType b = 0x8808) : frameRx p b s = macControl p (etherAt b) b s := by
  rw [frameRx]
  dsimp only
  rw [if_pos h]

theorem frameRx_slow (h : etherType b = 0x8809) : frameRx p b s =
    if regBit s (aPORT p) 29 = true ∧ natAt b (etherAt b + 2) 1 = 0x0A ∧ natAt b (etherAt b + 3) 3 = 0x0019A7 then esmcRx p (etherAt b) b s
    else bump (cPort p 0x40) 1 s := by
  rw [frameRx]
  dsimp only
  rw [if_neg (by rw [h]; decide), if_pos h]

/-- The frame is a PTP message that the port takes. -/
def PtpFrame (p : Nat) (b : List Byte) (s : State) : Prop :=
  etherType b = 0x88F7 ∧ regBit s (aPORT p) 30 = true ∧ (natAt b 0 6 = 0x011B19000000 ∨ natAt b 0 6 = 0x0180C200000E)

theorem frameRx_ptp (h : PtpFrame p b s) : frameRx p b s =
    if 24 ≤ natAt b (etherAt b + 6) 1 ∧ natAt b (etherAt b + 6) 1 ≤ 43 then ptpRx p (etherAt b + 2) (natAt b (etherAt b + 6) 1) b s
    else bump (cPort p 0x48) 1 s := by
  unfold PtpFrame at h
  rw [frameRx]
  dsimp only
  rw [if_neg (by rw [h.1]; decide), if_neg (by rw [h.1]; decide), if_pos h]

theorem frameRx_rest (h1 : etherType b ≠ 0x8808) (h2 : etherType b ≠ 0x8809) (h3 : ¬PtpFrame p b s) : frameRx p b s =
    if etherType b = regFld s aINBAND_CFG 15 0 ∧ natAt b 0 6 = portMac s p ∧ regBit s (aPORT p) 28 = true then inbandRx p (etherAt b) b s
    else sortFrame p b s := by
  unfold PtpFrame at h3
  rw [frameRx]
  dsimp only
  rw [if_neg h1, if_neg h2, if_neg h3]

theorem uplinkRx_off {l : Nat} (h : portOn s (portOf s l) = false) (fcs : Bool) (r : FecRun) : uplinkRx l b fcs r s = s := if_pos (by simp [h])

/-- A port with a frame: the codewords before it counted. -/
def fecSeen (p : Nat) (r : FecRun) (s : State) : State :=
  fecCount p r.cws (updPort p (fun u => { u with lastBad := (r.cws.getLast?.map Option.isNone).getD u.lastBad }) s)

theorem uplinkRx_on {l : Nat} (h : portOn s (portOf s l) = true) (fcs : Bool) (r : FecRun) : let p := portOf s l
    let v := fecSeen p r s
    uplinkRx l b fcs r s = match macFails v p b.length (fcs && !fecHits (uport s p).lastBad r) with
      | some o => bump (cPort p o) 1 v
      | none => frameRx p b (bump (cPort p 8) b.length (bump (cPort p 0) 1 v)) := if_neg (by simp [h])

theorem uplinkRx_fails {l o : Nat} {fcs : Bool} {r : FecRun} (h : portOn s (portOf s l) = true)
    (hm : macFails (fecSeen (portOf s l) r s) (portOf s l) b.length (fcs && !fecHits (uport s (portOf s l)).lastBad r) = some o) :
    uplinkRx l b fcs r s = bump (cPort (portOf s l) o) 1 (fecSeen (portOf s l) r s) := by
  rw [uplinkRx_on h, hm]

theorem uplinkRx_passes {l : Nat} {fcs : Bool} {r : FecRun} (h : portOn s (portOf s l) = true)
    (hm : macFails (fecSeen (portOf s l) r s) (portOf s l) b.length (fcs && !fecHits (uport s (portOf s l)).lastBad r) = none) : let p := portOf s l
    uplinkRx l b fcs r s = frameRx p b (bump (cPort p 8) b.length (bump (cPort p 0) 1 (fecSeen p r s))) := by
  rw [uplinkRx_on h, hm]

/-! ### Screens (R262, R265 to R267) -/

theorem sortFrame_none (h : keyKind b = none) : sortFrame p b s = bump (cPort p 0xB0) 1 s := if_pos (by simp [h])

theorem screenOf_some {k : Nat × Nat} (h : keyKind b = some k) :
    screenOf s b = s.screens.find? (fun x => keyOfScreen x = (k.1, vidO b, vidI b, k.2)) := by
  rw [screenOf, h]
  rfl

theorem sortFrame_lost (h : keyKind b ≠ none) (hx : screenOf s b = none) : sortFrame p b s = bump (cPort p 0xA8) 1 s := by
  unfold sortFrame
  rw [if_neg (by simpa using h), hx]

theorem sortFrame_screen {x : Screen} (h : keyKind b ≠ none) (hx : screenOf s b = some x) : sortFrame p b s = screenRx p x b s := by
  unfold sortFrame
  rw [if_neg (by simpa using h), hx]

variable {x : Screen} {q r : BitVec 16}

theorem screenRx_plain (h : x.recEn = false) : screenRx p x b s = screenAdmit p x.flow b s := by
  simp [screenRx, h]

/-- The screens after x passes q on port p, having given `lost` counts. -/
def screenPassed (p : Nat) (x : Screen) (q : BitVec 16) (lost : Nat) (s : State) : State :=
  { s with screens := s.screens.map (fun y =>
      if keyOfScreen y = keyOfScreen x then { recovPass y q s.now with lastRx := some (s.now, p, q, lost) } else y) }

section
variable (he : x.recEn = true) (hb : isStandby s = false) (hq : rtagOf b = some q)
  (hl : s.now < x.lastPass + x.resetMs * 1244160) (hc : sameCycle x p q s.now = none)
include he hb hq hl hc

theorem screenRx_rejects {o n : Nat} (hj : recovJudge x q = (false, some (o, n))) : screenRx p x b s = bump (cPort p o) n s := by
  have hl' : ¬x.lastPass + x.resetMs * 1244160 ≤ s.now := by omega
  simp [screenRx, he, hb, hq, hl', hc, hj]

theorem screenRx_skips {n : Nat} (hj : recovJudge x q = (true, some (0x60, n))) :
    screenRx p x b s = screenAdmit p x.flow b (screenPassed p x q n (bump (cPort p 0x60) n s)) := by
  have hl' : ¬x.lastPass + x.resetMs * 1244160 ≤ s.now := by omega
  simp [screenRx, screenPassed, he, hb, hq, hl', hc, hj]

theorem screenRx_passes (hj : recovJudge x q = (true, none)) : screenRx p x b s = screenAdmit p x.flow b (screenPassed p x q 0 s) := by
  have hl' : ¬x.lastPass + x.resetMs * 1244160 ≤ s.now := by omega
  simp [screenRx, screenPassed, he, hb, hq, hl', hc, hj]

end

theorem recovJudge_far (hr : x.recov = some r) (h : (x.histLen : Int) ≤ (q - r).toInt ∨ (q - r).toInt ≤ -(x.histLen : Int)) :
    recovJudge x q = (false, some (0x58, 1)) := by
  rw [recovJudge, hr]
  exact if_pos h

theorem recovJudge_ahead (hr : x.recov = some r) (h0 : 0 < (q - r).toInt) (h : (q - r).toInt < x.histLen) :
    recovJudge x q = (true, some (0x60, (q - r).toInt.toNat - 1)) := by
  rw [recovJudge, hr]
  exact (if_neg (by omega)).trans (if_pos h0)

theorem recovJudge_behind (hr : x.recov = some r) (h0 : (q - r).toInt ≤ 0) (h : -(x.histLen : Int) < (q - r).toInt) :
    recovJudge x q = if x.marked.contains (q - r).toInt.natAbs then (false, some (0x50, 1)) else (true, none) := by
  rw [recovJudge, hr]
  exact (if_neg (by omega)).trans (if_neg (by omega))

/-! ### Resets of a screen (R267) -/

theorem frerTimeout_resets {e : List Byte} (hx : s.screens.find? (fun x => keyOfScreen x = scKey e) = some x) (h1 : x.recEn = true)
    (h2 : x.recov.isSome = true) : let t := frerTimeout e s
    t.now = max s.now (x.lastPass + x.resetMs * 1244160)
      ∧ t.screens = s.screens.map (fun y => if keyOfScreen y = scKey e then { y with recov := none, marked := [], told := true } else y) := by
  have ht : frerTimeout e s = frerReset (scKey e) 0 (advance (x.lastPass + x.resetMs * 1244160) s) := by
    unfold frerTimeout
    rw [hx]
    exact if_pos ⟨h1, h2⟩
  have hx' : (advance (x.lastPass + x.resetMs * 1244160) s).screens.find? (fun x => keyOfScreen x = scKey e) = some x := hx
  rw [ht]
  unfold frerReset
  rw [hx']
  dsimp only
  split
  · exact ⟨rfl, rfl⟩
  · exact ⟨event_now .., event_screens ..⟩

theorem frerTimeout_none {e : List Byte}
    (h : ∀ x, s.screens.find? (fun x => keyOfScreen x = scKey e) = some x → x.recEn = false ∨ x.recov = none) : frerTimeout e s = s := by
  unfold frerTimeout
  cases hx : s.screens.find? (fun x => keyOfScreen x = scKey e) with
  | none => rfl
  | some x => exact if_neg (by rcases h x hx with k | k <;> simp [k])

end

/-! ### Defects of a port (R195, R214, R218) -/

section
variable {p c : Nat} {s t : State}

/-- A lane is of a port among the 32. -/
theorem portOf_lt (s : State) {l : Nat} (h : l < 32) : portOf s l < 32 := by
  unfold portOf
  split
  · exact h
  · omega
  · omega
  · split <;> omega

/-- What masks a defect of a port. -/
theorem masked_port (s : State) (p c : Nat) : masked s 4 p c =
    ((c ≠ UL_LOS && declared s 4 p UL_LOS) || ((c = UL_RDI || c = UL_SD) && declared s 4 p UL_LOF)) := rfl

theorem unmasked_ulLos (s : State) (p : Nat) : masked s 4 p UL_LOS = false := rfl

theorem unmasked_ulLof (h : declared s 4 p UL_LOS = false) : masked s 4 p UL_LOF = false := by
  rw [masked_port, h]
  rfl

theorem unmasked_ulRdi (h : declared s 4 p UL_LOS = false) (hf : declared s 4 p UL_LOF = false) : masked s 4 p UL_RDI = false := by
  rw [masked_port, h, hf]
  rfl

/-- A defect of a port stays unmasked while no other one of the port is declared anew. -/
theorem unmasked_port_of (hd : ∀ a, a ≠ c → declared t 4 p a = true → declared s 4 p a = true) (h : masked s 4 p c = false) :
    masked t 4 p c = false := by
  rw [masked_port, Bool.eq_false_iff] at h ⊢
  refine mt (fun ht => ?_) h
  simp only [Bool.or_eq_true, Bool.and_eq_true, decide_eq_true_eq] at ht ⊢
  refine ht.imp (fun h => ⟨h.1, hd _ h.1.symm h.2⟩) (fun h => ⟨h.1, hd _ ?_ h.2⟩)
  rintro rfl
  exact absurd h.1 (by decide)

/-- Unmasked, a defect of a port outlives the sweep that a declaration ends in. -/
theorem port_sweepMasked (hp : p < 0x10000) (hc : c < 0x100) (hm : masked s 4 p c = false) (hd : declared s 4 p c = true) :
    declared (sweepMasked s) 4 p c = true := by
  unfold sweepMasked
  generalize s.defects.on = l
  induction l generalizing s with
  | nil => exact hd
  | cons e l ih =>
    rw [List.foldl_cons]
    dsimp only
    split
    next he =>
      refine ih (unmasked_port_of (fun _ _ => declared_of_defClear) hm) ?_
      rw [declared_defClear_ne _ _ ?_]
      · exact hd
      · rw [defKey_decode]
        rintro hk
        rw [← hk, show defKey 4 p c / 0x1000000 = 4 by unfold defKey; omega, show defKey 4 p c / 0x100 % 0x10000 = p by unfold defKey; omega,
          show defKey 4 p c % 0x100 = c by unfold defKey; omega, hm] at he
        exact Bool.false_ne_true he
    next => exact ih hm hd

/-- A configured port has what nothing masks declared. -/
theorem port_defSet (hp : p < 0x10000) (hc : c < 0x100) (hm : masked s 4 p c = false) (hs : portOn s p = true) :
    declared (defSet 4 p c s) 4 p c = true := by
  unfold defSet
  by_cases hd : declared s 4 p c = true
  · rw [if_pos (by simp [declarable, hd])]
    exact hd
  · have hs' : inService s 4 p = true := hs
    rw [if_neg (by simp [declarable, hd, hs', hm])]
    dsimp only
    have hon : ∀ u : State, (tellDefect 4 p c true (defEvent true 4 p c 0 u)).defects = u.defects := fun u =>
      (tellDefect_keeps ..).2.trans (defEvent_defects ..)
    refine port_sweepMasked hp hc (unmasked_port_of (fun a ha hk => ?_) hm) ?_
    · have hne : defKey 4 p a ≠ defKey 4 p c := fun h => ha (by unfold defKey at h; omega)
      rwa [declared, hon, mget_mput_ne _ _ _ hne] at hk
    · rw [declared, hon, mget_mput_same]

/-- After clears of a port's defects, none of them is declared. -/
theorem port_defClears (l : List Nat) (s : State) : ∀ c ∈ l, declared (l.foldl (fun s c => defClear 4 p c 0 s) s) 4 p c = false := by
  have keep (l : List Nat) (s : State) (c : Nat) (h : declared s 4 p c = false) : declared (l.foldl (fun s c => defClear 4 p c 0 s) s) 4 p c = false := by
    induction l generalizing s with
    | nil => exact h
    | cons a l ih => exact ih _ (Bool.eq_false_iff.2 (mt declared_of_defClear (Bool.eq_false_iff.1 h)))
  induction l generalizing s with
  | nil => nofun
  | cons a l ih =>
    intro c hc
    rcases List.mem_cons.1 hc with rfl | hc
    · exact keep l _ _ (declared_defClear_same ..)
    · exact ih _ c hc

theorem Declares.ports (h : Declares s t) : t.ports = s.ports := by rw [h.only]

theorem uport_of_ports (h : t.ports = s.ports) (p : Nat) : uport t p = uport s p := by rw [uport, uport, h]

/-- t is s but for the trigger marks of port p. -/
structure Marks (p : Nat) (s t : State) : Prop where
  only : t = { s with ports := t.ports }
  port : ∃ a d, uport t p = { uport s p with trigAt := a, clearAt := d }

theorem trigMark_marks (p : Nat) (was : Bool) (s : State) : Marks p s (trigMark p was s) := by
  unfold trigMark
  dsimp only
  split
  · exact ⟨rfl, _, _, uport_updPort ..⟩
  · split
    · exact ⟨rfl, _, _, uport_updPort ..⟩
    · exact ⟨rfl, _, _, rfl⟩

/-- A change of port p: t has what f makes of s, but for the trigger marks. -/
theorem portChange_marks (p : Nat) (f : State → State) (s : State) : Marks p (f s) (portChange p f s) := trigMark_marks ..

theorem Marks.now (h : Marks p s t) : t.now = s.now := by rw [h.only]
theorem Marks.mill (h : Marks p s t) : t.mill = s.mill := by rw [h.only]

theorem Marks.declared (h : Marks p s t) (a b c : Nat) : declared t a b c = Machine.declared s a b c := by
  rw [h.only]
  rfl

theorem Marks.proj {α : Type} (h : Marks p s t) (f : UPort → α) (hf : ∀ u a d, f { u with trigAt := a, clearAt := d } = f u) :
    f (uport t p) = f (uport s p) := by
  obtain ⟨a, d, hp⟩ := h.port
  rw [hp, hf]

/-- A defect of a port declared, with a change of the port: what the port then is, and what stays. -/
theorem defSet_port (p c : Nat) (f : State → UPort → UPort) (s : State) :
    let t := portChange p (fun s => updPort p (f s) (defSet 4 p c s)) s
    (∀ d, declared t 4 p d = declared (defSet 4 p c s) 4 p d) ∧ t.mill = s.mill
      ∧ ∀ {α : Type} (g : UPort → α), (∀ u a d, g { u with trigAt := a, clearAt := d } = g u) → g (uport t p) = g (f s (uport s p)) := by
  have hd := declares_defSet 4 p c s
  have hm := portChange_marks p (fun s => updPort p (f s) (defSet 4 p c s)) s
  refine ⟨fun d => hm.declared 4 p d, hm.mill.trans hd.mill, fun g hg => ?_⟩
  rw [hm.proj g hg, uport_updPort, uport_of_ports hd.ports]

theorem portClears_comes (p : Nat) (s : State) : let t := portChange p (fun s =>
      [UL_LOS, UL_LOF, UL_RDI].foldl (fun s c => defClear 4 p c 0 s) (updPort p (fun u => { u with aligned := true, rfTx := false }) s)) s
    t.now = s.now ∧ (∀ c ∈ [UL_LOS, UL_LOF, UL_RDI], declared t 4 p c = false) ∧ (uport t p).aligned = true ∧ (uport t p).rfTx = false
      ∧ t.mill = s.mill := by
  have hm := portChange_marks p (fun s =>
    [UL_LOS, UL_LOF, UL_RDI].foldl (fun s c => defClear 4 p c 0 s) (updPort p (fun u => { u with aligned := true, rfTx := false }) s)) s
  have hd : Declares (updPort p (fun u => { u with aligned := true, rfTx := false }) s)
      ([UL_LOS, UL_LOF, UL_RDI].foldl (fun s c => defClear 4 p c 0 s) (updPort p (fun u => { u with aligned := true, rfTx := false }) s)) :=
    .foldl (fun s c => declares_defClear 4 p c 0 s) _ _
  have hu := (uport_of_ports hd.ports p).trans (uport_updPort s p (fun u => { u with aligned := true, rfTx := false }))
  refine ⟨hm.now.trans hd.now, fun c hc => (hm.declared 4 p c).trans (port_defClears _ _ c hc), (hm.proj UPort.aligned (fun _ _ _ => rfl)).trans ?_,
    (hm.proj UPort.rfTx (fun _ _ _ => rfl)).trans ?_, hm.mill.trans hd.mill⟩
  · exact congrArg UPort.aligned hu
  · exact congrArg UPort.rfTx hu

/-- A good port that receives no fault: its defects clear, and it is aligned. -/
theorem ulClear_clears {l : Nat} (ho : portOn s (portOf s l) = true) (h1 : (uport s (portOf s l)).rfRx = false) (h2 : (uport s (portOf s l)).lfRx = false) :
    let p := portOf s l
    let t := ulClear l s
    t.now = max s.now ((uport s p).faultAt + ulClr s p) ∧ (∀ c ∈ [UL_LOS, UL_LOF, UL_RDI], declared t 4 p c = false) ∧ (uport t p).aligned = true
      ∧ (uport t p).rfTx = false ∧ t.mill = s.mill := by
  intro p
  have ht : ulClear l s = portChange p (fun s =>
      [UL_LOS, UL_LOF, UL_RDI].foldl (fun s c => defClear 4 p c 0 s) (updPort p (fun u => { u with aligned := true, rfTx := false }) s))
      (advance ((uport s p).faultAt + ulClr s p) s) := if_neg (by simp [ho, h1, h2])
  rw [ht]
  exact portClears_comes p (advance ((uport s p).faultAt + ulClr s p) s)

/-! ### Rehash (R214, R215) -/

theorem rehash_idle (h : (uport s p).trigAt = 0 ∨ (uport s p).rehashed = true ∨ portOn s p = false ∨ (uport s p).spare = none ∨ regBit s (aPORT p) 26 = true) :
    rehash p s = s := by
  unfold rehash
  dsimp only
  split
  · rfl
  next hn =>
    have hs : (uport s p).spare = none := by
      rcases h with h | h | h | h | h
      · exact absurd (.inl h) hn
      · exact absurd (.inr (.inl h)) hn
      · exact absurd (.inr (.inr (.inl (by simp [h])))) hn
      · exact h
      · exact absurd (.inr (.inr (.inr h))) hn
    rw [hs]

theorem rehash_moves {q : Nat} (ho : portOn s p = true) (h1 : (uport s p).trigAt ≠ 0) (h2 : (uport s p).rehashed = false)
    (h3 : regBit s (aPORT p) 26 = false) (hq : (uport s p).spare = some q) : let t := rehash p s
    t.now = max s.now (strokeAt s ((uport s p).trigAt + 1244))
      ∧ uport t p = { uport s p with trigAt := 0, rehashed := !spareUsed s q, txLeft := 0, txOf := none } := by
  have hs : spareUsed (advance (strokeAt s ((uport s p).trigAt + 1244)) s) q = spareUsed s q := rfl
  unfold rehash
  dsimp only
  rw [if_neg (by simp [h1, h2, ho, h3]), hq]
  dsimp only
  rw [hs]
  split
  · refine ⟨event_now .., ?_⟩
    rw [uport_of_ports (event_ports ..), uport_updPort, ← hq]
    rfl
  · refine ⟨rfl, ?_⟩
    rw [uport_updPort, ← hq]
    rfl

/-! ### ESMC and PTP (R271 to R275, R327) -/

theorem sendEsmc_mute (h : mute s = true) (ev : Bool) : sendEsmc p ev s = s := if_pos h

theorem sendEsmc_sends (h : mute s = false) (ev : Bool) : let t := sendEsmc p ev s
    (uport t p).devEsmc.isSome = true ∧ (uport t p).esmcSent = outQl s p ∧ t = { s with free := t.free, ports := t.ports } := by
  unfold sendEsmc
  rw [if_neg (by simp [h])]
  dsimp only
  rw [uport_updPort]
  exact ⟨rfl, rfl, rfl⟩

variable {b two : Bool} {m q : Nat}

theorem ptpTime_now (hm : m ≠ followUp) : ptpTime s p b m q = some (outTime s s.now) := if_neg hm

theorem ptpTime_followUp (s : State) (p : Nat) (b : Bool) (q : Nat) : ptpTime s p b 8 q =
    (s.time.stamped.find? (fun x => x.1 = (p, b, q))).map (fun x => outTime s x.2) := if_pos rfl

theorem ptpSend_idle (h : ¬(portOn s p = true ∧ regBit s (aPORT p) 30 = true ∧ (b = true → twoDom s = true) ∧ mute s = false)) :
    ptpSend p b m q two s = s := by
  refine if_pos ?_
  by_contra hn
  simp only [not_or, Bool.not_eq_true, Bool.not_eq_false', Bool.and_eq_true, not_and] at hn
  obtain ⟨⟨h1, h2⟩, h3, h4⟩ := hn
  refine h ⟨h1, h2, fun hb => ?_, h4⟩
  simpa using h3 hb

/-- A port that may send its PDU waits with it, unless it is a Follow_Up without the time of its Sync. -/
theorem ptpSend_on (h : portOn s p = true ∧ regBit s (aPORT p) 30 = true ∧ (b = true → twoDom s = true) ∧ mute s = false) :
    (ptpTime s p b m q = none → ptpSend p b m q two s = s)
    ∧ ((ptpTime s p b m q).isSome = true → let t := ptpSend p b m q two s
        (uport t p).devPtp.isSome = true ∧ t.time = { s.time with
          stamped := s.time.stamped.filter (fun x => !(decide (m = followUp) && x.1 = (p, b, q))),
          awaiting := s.time.awaiting ++ (if two then [(p, b, m, q)] else []) }) := by
  obtain ⟨h1, h2, h3, h4⟩ := h
  have hc : ¬((!(portOn s p && regBit s (aPORT p) 30)) = true ∨ (b = true ∧ (!twoDom s) = true) ∨ mute s = true) := by
    simp only [h1, h2, h4, Bool.and_self, Bool.not_true, Bool.false_eq_true, false_or, or_false]
    rintro ⟨hb, ht⟩
    simp [h3 hb] at ht
  refine ⟨fun ht => ?_, fun ht => ?_⟩
  · unfold ptpSend
    rw [if_neg hc, ht]
  · obtain ⟨x, hx⟩ := Option.isSome_iff_exists.1 ht
    unfold ptpSend
    rw [if_neg hc, hx]
    dsimp only
    rw [uport_updPort]
    exact ⟨rfl, rfl⟩

end

/-! ### The events -/

section
variable {s : State} (hr : Running s) (l : Fin 32)
include hr

theorem exec_uplinkFrameRx (b : List Byte) (fcs : Bool) (r : FecRun) : exec (.uplinkFrameRx l b fcs r) s = .next (uplinkRx l.val b fcs r s) := live_running hr
theorem exec_ulLos : exec (.ulLos l) s = .next (ulLos l.val s) := live_running hr
theorem exec_ulLof : exec (.ulLof l) s = .next (ulLof l.val s) := live_running hr
theorem exec_ulRdi : exec (.ulRdi l) s = .next (ulRdi l.val s) := live_running hr
theorem exec_ulClear : exec (.ulClear l) s = .next (ulClear l.val s) := live_running hr
theorem exec_remoteFault (on : Bool) : exec (.remoteFault l on) s = .next (remoteFault l.val on s) := live_running hr
theorem exec_localFault (on : Bool) : exec (.localFault l on) s = .next (localFault l.val on s) := live_running hr
theorem exec_rehash : exec (.rehash l) s = .next (rehash l.val s) := live_running hr
theorem exec_pauseExpiry : exec (.pauseExpiry l) s = .next (pauseExpiry l.val s) := live_running hr
theorem exec_frerReset (e : List Byte) : exec (.frerReset e) s = .next (frerTimeout e s) := live_running hr
theorem exec_esmcTimeout : exec (.esmcTimeout l) s = .next (esmcTimeout l.val s) := live_running hr
theorem exec_esmcInfo : exec (.esmcInfo l) s = .next (if portOn s l.val && regBit s (aPORT l.val) 29 then sendEsmc l.val false s else s) := live_running hr
theorem exec_ptpSend (b : Bool) (m : BitVec 4) (q : BitVec 16) (two : Bool) :
    exec (.ptpSend l b m q two) s = .next (ptpSend l.val b m.toNat q.toNat two s) := live_running hr

end

/-- Settles O46: the receive order stage by stage, the defects by what masks them, and each timer and PDU by its own rule. -/
theorem uplinksRun : Obligations.UplinksRun := by
  unfold Obligations.UplinksRun
  refine ⟨fun l b fcs r s hr => ⟨fun ho => ?off, fun o ho hb => ?bad, fun ho hb => ?good⟩,
    fun s p len => ⟨fun h => ⟨macFails_short h _, macFails_short h _⟩, fun h hl => ⟨macFails_long h hl _, macFails_long h hl _⟩,
      fun h hl => ⟨macFails_fcs h hl _, macFails_fcs h hl _⟩⟩,
    fun p b s => ⟨fun h h1 h2 => (frameRx_control h).trans (macControl_other h1 h2),
      fun h h1 => ⟨fun hn => (frameRx_control h).trans ((macControl_pauses h1).trans (if_neg (by rcases hn with hn | hn <;> simp [hn]))),
        fun hn hp => (frameRx_control h).trans ((macControl_pauses h1).trans (if_pos (by rw [hn, hp]; rfl)))⟩,
      frameRx_slow, fun h hn => (frameRx_ptp h).trans (if_neg (by omega)), fun h h1 h2 => (frameRx_ptp h).trans (if_pos ⟨h1, h2⟩),
      fun h1 h2 h3 h4 => (frameRx_rest h1 h2 h3).trans (if_pos h4), fun h1 h2 h3 h4 => (frameRx_rest h1 h2 h3).trans (if_neg h4)⟩,
    fun p b s => ⟨sortFrame_none, fun k hk hx => ?lost, fun k x hk hx => ?screen⟩, fun p x b s => screenRx_plain,
    fun p x b q r s he hb hq hr hl hc => ?recovery, fun l on s hr ho => ?notOn, fun l on s hr ho => ?defects, fun l q s hr ho h1 h2 h3 hq => ?rehashes,
    fun l s hr h => (exec_rehash hr l).trans (congrArg _ (rehash_idle (by tauto))), fun l s hr => ⟨fun h => ?unpaused, fun h => ?paused⟩,
    fun e x s hr hx h1 h2 => ?resets, fun e s hr h => (exec_frerReset hr e).trans (congrArg _ (frerTimeout_none h)),
    fun l s hr => ⟨fun h => ?failed, fun h => ?heard⟩, fun l s hr => ⟨fun h => ?silent, fun ⟨h1, h2, h3⟩ => ?informs⟩,
    fun l b m q two s hr => ⟨fun h => ?ptpOff, fun h hm => ?ptpNow, fun h hx => ?noStamp, fun x h hx => ?followUp⟩⟩
  case off => rw [exec_uplinkFrameRx hr, uplinkRx_off ho]
  case bad =>
    rw [exec_uplinkFrameRx hr]
    exact congrArg _ (uplinkRx_fails ho hb)
  case good =>
    rw [exec_uplinkFrameRx hr]
    exact congrArg _ (uplinkRx_passes ho hb)
  case lost =>
    refine sortFrame_lost (by simp [hk]) ((screenOf_some hk).trans (List.find?_eq_none.2 fun x hx' => ?_))
    simpa using hx x hx'
  case screen => exact sortFrame_screen (by simp [hk]) ((screenOf_some hk).trans hx)
  case recovery =>
    refine ⟨fun h => screenRx_rejects he hb hq hl hc (recovJudge_far hr h),
      fun h0 h => screenRx_skips he hb hq hl hc (recovJudge_ahead hr h0 h),
      fun h0 h hm => screenRx_rejects he hb hq hl hc ((recovJudge_behind hr h0 h).trans (if_pos hm)),
      fun h0 h hm => screenRx_passes he hb hq hl hc ((recovJudge_behind hr h0 h).trans (if_neg (Bool.eq_false_iff.1 hm)))⟩
  case notOn =>
    have hn : (!portOn s (portOf s l.val)) = true := by rw [ho]; rfl
    rw [exec_ulLos hr, exec_ulLof hr, exec_ulRdi hr, exec_ulClear hr, exec_remoteFault hr, exec_localFault hr]
    exact ⟨congrArg _ (if_pos hn), congrArg _ (if_pos hn), congrArg _ (if_pos hn), congrArg _ (if_pos (.inl hn)),
      congrArg _ (if_neg (by simp [ho])), congrArg _ (if_neg (by simp [ho]))⟩
  case defects =>
    intro p los lof
    have hn : ¬(!portOn s (portOf s l.val)) = true := by rw [ho]; decide
    have hp : p < 0x10000 := lt_trans (portOf_lt s l.isLt) (by decide)
    refine ⟨⟨_, (exec_ulLos hr l).trans (congrArg _ (if_neg hn)), ?_⟩, ⟨_, (exec_ulLof hr l).trans (congrArg _ (if_neg hn)), ?_⟩,
      ⟨_, (exec_ulRdi hr l).trans (congrArg _ (if_neg hn)), ?_⟩, fun h => (exec_ulClear hr l).trans (congrArg _ (if_pos (.inr h))),
      fun h1 h2 => ⟨_, exec_ulClear hr l, ulClear_clears ho h1 h2⟩, (exec_remoteFault hr l on).trans (congrArg _ (if_pos ho)),
      (exec_localFault hr l on).trans (congrArg _ (if_pos ho))⟩
    · obtain ⟨hd, hm, hu⟩ := defSet_port p UL_LOS (fun s u => { u with aligned := false, rfTx := true, faultAt := s.now }) s
      exact ⟨(hd _).trans (port_defSet hp (by decide) (unmasked_ulLos s p) ho), hu UPort.aligned (fun _ _ _ => rfl), hu UPort.rfTx (fun _ _ _ => rfl),
        hu UPort.faultAt (fun _ _ _ => rfl), hm⟩
    · obtain ⟨hd, hm, hu⟩ := defSet_port p UL_LOF (fun s u => { u with aligned := false, rfTx := true, faultAt := s.now }) s
      exact ⟨fun h => (hd _).trans (port_defSet hp (by decide) (unmasked_ulLof h) ho), hu UPort.aligned (fun _ _ _ => rfl),
        hu UPort.rfTx (fun _ _ _ => rfl), hu UPort.faultAt (fun _ _ _ => rfl), hm⟩
    · obtain ⟨hd, hm, hu⟩ := defSet_port p UL_RDI (fun s u => { u with rfRx := true, faultAt := s.now }) s
      exact ⟨fun h1 h2 => (hd _).trans (port_defSet hp (by decide) (unmasked_ulRdi h1 h2) ho), hu UPort.rfRx (fun _ _ _ => rfl),
        hu UPort.faultAt (fun _ _ _ => rfl), hm⟩
  case rehashes => exact ⟨_, exec_rehash hr l, rehash_moves ho h1 h2 h3 hq⟩
  case unpaused => exact (exec_pauseExpiry hr l).trans (congrArg _ (if_pos h))
  case paused => exact (exec_pauseExpiry hr l).trans (congrArg _ (if_neg h))
  case resets => exact ⟨_, exec_frerReset hr e, frerTimeout_resets hx h1 h2⟩
  case failed => exact (exec_esmcTimeout hr l).trans (congrArg _ (if_pos (by simp [h.1, h.2])))
  case heard => exact (exec_esmcTimeout hr l).trans (congrArg _ (if_neg (by simpa using h)))
  case silent =>
    refine (exec_esmcInfo hr l).trans (congrArg _ ?_)
    split
    next ho =>
      rw [Bool.and_eq_true] at ho
      exact sendEsmc_mute (by simpa [ho.1, ho.2] using h) false
    next => rfl
  case informs => exact ⟨_, (exec_esmcInfo hr l).trans (congrArg _ (if_pos (by simp [h1, h2]))), sendEsmc_sends h3 false⟩
  case ptpOff => exact (exec_ptpSend hr ..).trans (congrArg _ (ptpSend_idle h))
  case ptpNow =>
    have hm' : m.toNat ≠ followUp := fun hn => hm (BitVec.eq_of_toNat_eq hn)
    obtain ⟨hp, ht⟩ := (ptpSend_on h (m := m.toNat) (q := q.toNat) (two := two)).2 (by rw [ptpTime_now hm']; rfl)
    refine ⟨_, exec_ptpSend hr .., hp, ht.trans ?_⟩
    simp [hm']
  case noStamp =>
    exact (exec_ptpSend hr ..).trans (congrArg _ ((ptpSend_on h).1 ((ptpTime_followUp ..).trans (congrArg _ hx))))
  case followUp =>
    obtain ⟨hp, ht⟩ := (ptpSend_on h (m := 8) (q := q.toNat) (two := two)).2 (by rw [ptpTime_followUp, hx]; rfl)
    exact ⟨_, exec_ptpSend hr .., hp, congrArg TimeSt.stamped ht⟩

end Sys2Proof.Machine
end

section
/-! PROOFS. The uplink registers (O25): the port that leaves service or comes into it, and the writes of QUAD_CFG and PORT_CFG at their boundary. -/

namespace Sys2Proof.Machine

/-! ### A port leaves service, or comes into it (R194) -/

section
variable {p : Nat} {s t : State}

theorem regs_estLift (cls idx code : Nat) (s : State) : (estLift cls idx code s).regs = s.regs := by
  unfold estLift
  repeat' split
  all_goals rfl

theorem regs_tellDefect (cls n code : Nat) (on : Bool) (s : State) : (tellDefect cls n code on s).regs = s.regs := by
  unfold tellDefect
  split
  · rw [sendRecs_only]
  · rfl

theorem keepsRegs_defClear (cls idx code cause : Nat) (s : State) : KeepsRegs s (defClear cls idx code cause s) := by
  unfold defClear
  split
  · dsimp only
    refine .trans (.trans (keepsRegs_of_regs ?_) (keepsRegs_evtRaw ..)) (keepsRegs_of_regs (regs_tellDefect ..))
    exact regs_estLift ..
  · exact .refl

theorem keepsRegs_defLeave (cls idx : Nat) (s : State) : KeepsRegs s (defLeave cls idx s) := .foldl (fun s c => keepsRegs_defClear cls idx c 2 s) _ s

/-- Clears declare nothing. -/
theorem declared_of_defClears {cls idx cause a b c : Nat} (l : List Nat) (h : declared s a b c = false) :
    declared (l.foldl (fun s c => defClear cls idx c cause s) s) a b c = false := by
  induction l generalizing s with
  | nil => exact h
  | cons x l ih => exact ih (Bool.eq_false_iff.2 (mt declared_of_defClear (Bool.eq_false_iff.1 h)))

/-- An object that has left service has no defect. -/
theorem declared_defLeave {c : Nat} (cls idx : Nat) (s : State) (hc : c ∈ classCodes cls) : declared (defLeave cls idx s) cls idx c = false := by
  unfold defLeave
  generalize classCodes cls = l at hc
  induction l generalizing s with
  | nil => nomatch hc
  | cons x l ih =>
    rcases List.mem_cons.1 hc with rfl | hc
    · exact declared_of_defClears l (declared_defClear_same ..)
    · exact ih _ hc

/-- Only the reply's credit goes back. -/
theorem dropReply_keeps (p : Nat) (s : State) : (dropReply p s).regs = s.regs ∧ (dropReply p s).ports = s.ports ∧ (dropReply p s).now = s.now := by
  unfold dropReply
  split <;> exact ⟨rfl, rfl, rfl⟩

theorem keepsRegs_updPort (p : Nat) (f : UPort → UPort) (s : State) : KeepsRegs s (updPort p f s) := keepsRegs_of_regs rfl

theorem keepsRegs_estDrop (cls idx : Nat) (s : State) : KeepsRegs s (estDrop cls idx s) := keepsRegs_of_regs rfl

theorem keepsRegs_portLeaves (p : Nat) (s : State) : KeepsRegs s (portLeaves p s) := by
  unfold portLeaves
  exact .trans (.trans (.trans (keepsRegs_of_regs (dropReply_keeps p s).1) (keepsRegs_defLeave ..)) (keepsRegs_estDrop ..)) (keepsRegs_updPort ..)

theorem keepsRegs_portStarts (p : Nat) (s : State) : KeepsRegs s (portStarts p s) := by
  unfold portStarts
  exact .trans (keepsRegs_of_regs (dropReply_keeps p s).1) (keepsRegs_updPort ..)

theorem ports_updPort (f : UPort → UPort) (h : t.ports = s.ports) : (updPort p f t).ports = mput {} s.ports p (f (uport s p)) := by
  rw [updPort, setPort, uport, uport, h]

theorem ports_estDrop (cls idx : Nat) (s : State) : (estDrop cls idx s).ports = s.ports := rfl

/-- The port that leaves keeps its protection settings only. -/
theorem ports_portLeaves (p : Nat) (s : State) : (portLeaves p s).ports = mput {} s.ports p (portFresh (uport s p)) := by
  obtain ⟨-, hp, -⟩ := dropReply_keeps p s
  unfold portLeaves
  exact ports_updPort _ ((ports_estDrop ..).trans ((declares_defLeave ..).ports.trans hp))

theorem ports_portStarts (p : Nat) (s : State) : (portStarts p s).ports = mput {} s.ports p { portFresh (uport s p) with clearAt := s.now } := by
  obtain ⟨-, hp, hn⟩ := dropReply_keeps p s
  unfold portStarts
  rw [← hn]
  exact ports_updPort _ hp

theorem uport_of_mput {u : UPort} (h : t.ports = mput {} s.ports p u) : uport t p = u ∧ ∀ q, q ≠ p → uport t q = uport s q := by
  simp only [uport, h]
  exact ⟨mget_mput_same .., fun q hq => mget_mput_ne _ _ _ hq⟩

theorem declared_updPort (f : UPort → UPort) (s : State) (cls idx c : Nat) : declared (updPort p f s) cls idx c = declared s cls idx c := rfl

theorem declared_estDrop (k n : Nat) (s : State) (cls idx c : Nat) : declared (estDrop k n s) cls idx c = declared s cls idx c := rfl

theorem declared_portLeaves {c : Nat} (p : Nat) (s : State) (hc : c ∈ classCodes 4) : declared (portLeaves p s) 4 p c = false := by
  rw [portLeaves, declared_updPort, declared_estDrop, declared_defLeave _ _ _ hc]

theorem keepsRegs_portsFollow (was : List Nat) (s : State) : KeepsRegs s (portsFollow was s) := by
  unfold portsFollow
  refine .foldl (fun s p => ?_) _ s
  split
  · exact keepsRegs_portLeaves p s
  · split
    · exact keepsRegs_portStarts p s
    · exact .refl

theorem keepsRegs_ulRefused (p a : Nat) (s : State) : KeepsRegs s (ulRefused p a s) := keepsRegs_event rfl s

theorem ulRefused_reports (p a : Nat) (s : State) : Reports s (ulRefused p a s) := event_reports ..

end

/-! ### Where the uplink registers stand -/

section
variable {p g a : Nat} {s t : State}

theorem aPORT_ne_evt : aPORT p ≠ aGLB_EVT ∧ aPORT p ≠ aHEVT 0 := by
  simp only [aPORT, aGLB_EVT, aHEVT]
  omega

theorem aQUAD_ne_evt : aQUAD g ≠ aGLB_EVT ∧ aQUAD g ≠ aHEVT 0 := by
  simp only [aQUAD, aGLB_EVT, aHEVT]
  omega

theorem aQUAD_ne_aPORT : aQUAD g ≠ aPORT p := by
  simp only [aQUAD, aPORT]
  omega

theorem keepsGpio_setPort (w : Word) : KeepsGpio s (setRaw (aPORT p) w s) := keepsGpio_setRaw w (.inr (by simp only [aPORT]; omega))

theorem keepsGpio_setQuad (w : Word) : KeepsGpio s (setRaw (aQUAD g) w s) := keepsGpio_setRaw w (.inr (by simp only [aQUAD]; omega))

theorem KeepsRegs.quadMode (h : KeepsRegs s t) (g : Nat) : quadMode t g = Machine.quadMode s g := h.fld aQUAD_ne_evt.1 aQUAD_ne_evt.2 1 0

theorem quadMode_setPort (w : Word) (g : Nat) : quadMode (setRaw (aPORT p) w s) g = quadMode s g := by
  rw [quadMode, quadMode, regFld, regFld, regRaw_setRaw_ne s w aQUAD_ne_aPORT]

theorem firstLane_of_quadMode (h : ∀ g, quadMode t g = quadMode s g) (p : Nat) : firstLane t p = firstLane s p := by simp only [firstLane, h]

end

/-! ### PORT_CFG (R255, R270, R429, R430) -/

/-- PORT_CFG of port p stores w, and the port follows its ENABLE. -/
def portStored (p : Nat) (w : Word) (s : State) : State :=
  let u := setRaw (aPORT p) w s
  if portOn s p && !w.getLsbD 31 then portLeaves p u else if !portOn s p && w.getLsbD 31 then portStarts p u else u

/-- A value of PORT_CFG asks for a twin that R270 does not admit. -/
def twinRefused (p : Nat) (v : Word) (s : State) : Bool := v.getLsbD 26 && !twinOk s p (fld v.toNat 25 21)

/-- What PORT_CFG stores of a value: TWIN_EN at 0 where its twin is refused. -/
def portWord (p : Nat) (v : Word) (s : State) : Word := if twinRefused p v s then v &&& 0xFBE03FFF else v &&& 0xFFE03FFF

section
variable {p q : Nat} {v w : Word} {s t : State}

theorem portStored_leaves (ho : portOn s p = true) (hw : w.getLsbD 31 = false) : portStored p w s = portLeaves p (setRaw (aPORT p) w s) :=
  if_pos (by rw [ho, hw]; rfl)

/-- The port's state goes with its service. -/
theorem ports_portStored (p : Nat) (w : Word) (s : State) : (portStored p w s).ports =
    if portOn s p && !w.getLsbD 31 then mput {} s.ports p (portFresh (uport s p))
    else if !portOn s p && w.getLsbD 31 then mput {} s.ports p { portFresh (uport s p) with clearAt := s.now }
    else s.ports := by
  unfold portStored
  dsimp only
  split
  · exact ports_portLeaves p (setRaw (aPORT p) w s)
  · split
    · exact ports_portStarts p (setRaw (aPORT p) w s)
    · rfl

theorem keepsRegs_portStored (p : Nat) (w : Word) (s : State) : KeepsRegs (setRaw (aPORT p) w s) (portStored p w s) := by
  unfold portStored
  dsimp only
  split
  · exact keepsRegs_portLeaves ..
  · split
    · exact keepsRegs_portStarts ..
    · exact .refl

/-- t is what a PORT_CFG of a first lane under power leaves that stores w in s. -/
structure PortTakes (p : Nat) (w : Word) (s t : State) : Prop where
  regs : KeepsRegs (setRaw (aPORT p) w s) t
  on : portOn t p = w.getLsbD 31
  leaves : portOn s p = true → w.getLsbD 31 = false → uport t p = portFresh (uport s p) ∧ ∀ c ∈ classCodes 4, declared t 4 p c = false
  starts : portOn s p = false → w.getLsbD 31 = true → uport t p = { portFresh (uport s p) with clearAt := s.now }
  stays : portOn s p = w.getLsbD 31 → t.ports = s.ports
  others : ∀ q, q ≠ p → uport t q = uport s q

theorem regRaw_of_setPort (h : KeepsRegs (setRaw (aPORT p) w s) t) : regRaw t (aPORT p) = w :=
  (h.raw _ aPORT_ne_evt.1 aPORT_ne_evt.2).trans (regRaw_setRaw_same s _ w)

theorem portOn_of_setPort (h : KeepsRegs (setRaw (aPORT p) w s) t) (hf : firstLane s p = true) : portOn t p = w.getLsbD 31 := by
  have hq : firstLane t p = firstLane s p := firstLane_of_quadMode (fun g => (h.quadMode g).trans (quadMode_setPort w g)) p
  rw [portOn, hq, hf, regBit, regRaw_of_setPort h, Bool.true_and]

theorem portTakes_portStored (hf : firstLane s p = true) : PortTakes p w s (portStored p w s) := by
  have hk := keepsRegs_portStored p w s
  have hp := ports_portStored p w s
  refine ⟨hk, portOn_of_setPort hk hf, fun ho hw => ⟨?_, fun c hc => ?_⟩, fun ho hw => ?_, fun h => ?_, ?_⟩
  · rw [ho, hw] at hp
    exact (uport_of_mput hp).1
  · rw [portStored_leaves ho hw]
    exact declared_portLeaves p _ hc
  · rw [ho, hw] at hp
    exact (uport_of_mput hp).1
  · rw [h, if_neg (by simp), if_neg (by simp)] at hp
    exact hp
  · split at hp
    · exact (uport_of_mput hp).2
    · split at hp
      · exact (uport_of_mput hp).2
      · exact fun q _ => uport_of_ports hp q

/-- A report changes nothing of the port. -/
theorem PortTakes.refused (h : PortTakes p w s t) (hf : firstLane s p = true) (q a : Nat) : PortTakes p w s (ulRefused q a t) := by
  have hr := ulRefused_reports q a t
  have hk := h.regs.trans (keepsRegs_ulRefused q a t)
  have hp : (ulRefused q a t).ports = t.ports := event_ports ..
  have hd (c : Nat) : declared (ulRefused q a t) 4 p c = declared t 4 p c := by rw [declared, declared, hr.defects_eq]
  exact ⟨hk, portOn_of_setPort hk hf,
    fun ho hw => ⟨(uport_of_ports hp p).trans (h.leaves ho hw).1, fun c hc => (hd c).trans ((h.leaves ho hw).2 c hc)⟩,
    fun ho hw => (uport_of_ports hp p).trans (h.starts ho hw), fun ho => hp.trans (h.stays ho), fun q hq => (uport_of_ports hp q).trans (h.others q hq)⟩

theorem portCfgWrite_off (hf : firstLane s p = false) : portCfgWrite p v s = s := by simp [portCfgWrite, hf]

theorem portCfgWrite_unpowered (hf : firstLane s p = true) (hp : portPowered s p = false) :
    portCfgWrite p v s = if v.getLsbD 31 then ulRefused p (aPORT p) s else s := by simp [portCfgWrite, hf, hp]

/-- The bits of PORT_CFG other than TWIN_EN. -/
theorem portFields_twinless (v : Word) : v &&& 0xFBFFFFFF &&& 0xFFE03FFF = v &&& 0xFBE03FFF := BitVec.and_assoc ..

theorem portCfgWrite_eq (hf : firstLane s p = true) (hp : portPowered s p = true) : portCfgWrite p v s =
    if twinRefused p v s then ulRefused p (aPORT p) (portStored p (portWord p v s) s) else portStored p (portWord p v s) s := by
  have hw : (if twinRefused p v s then v &&& 0xFBFFFFFF else v) &&& 0xFFE03FFF = portWord p v s := by
    unfold portWord
    split
    · exact portFields_twinless v
    · rfl
  rw [← hw]
  simp only [portCfgWrite, hf, hp, Bool.not_true, Bool.false_eq_true, if_false]
  rfl

theorem portWord_enable (p : Nat) (v : Word) (s : State) : (portWord p v s).getLsbD 31 = v.getLsbD 31 := by
  unfold portWord
  split <;> simp

theorem portCfgWrite_takes (hf : firstLane s p = true) (hp : portPowered s p = true) : PortTakes p (portWord p v s) s (portCfgWrite p v s) := by
  have h := portTakes_portStored (w := portWord p v s) hf
  rw [portCfgWrite_eq hf hp]
  split
  · exact h.refused hf ..
  · exact h

/-- A write whose twin is refused is that write with TWIN_EN 0, and the refusal reported. -/
theorem portCfgWrite_refused (hf : firstLane s p = true) (hp : portPowered s p = true) (h : twinRefused p v s = true) :
    portCfgWrite p v s = ulRefused p (aPORT p) (portCfgWrite p (v &&& 0xFBFFFFFF) s) := by
  have hn : twinRefused p (v &&& 0xFBFFFFFF) s = false := by simp [twinRefused]
  have hw : portWord p (v &&& 0xFBFFFFFF) s = portWord p v s := by
    rw [portWord, portWord, if_neg (by rw [hn]; decide), if_pos h, portFields_twinless]
  rw [portCfgWrite_eq hf hp, if_pos h, portCfgWrite_eq hf hp, if_neg (by rw [hn]; decide), hw]

theorem keepsGpio_portCfgWrite (p : Nat) (v : Word) (s : State) : KeepsGpio s (portCfgWrite p v s) := by
  cases hf : firstLane s p
  · rw [portCfgWrite_off hf]
    exact keepsGpio_of_regs rfl
  cases hp : portPowered s p
  · rw [portCfgWrite_unpowered hf hp]
    split
    · exact (keepsRegs_ulRefused ..).gpio
    · exact keepsGpio_of_regs rfl
  · exact (keepsGpio_setPort _).trans (portCfgWrite_takes hf hp).regs.gpio

/-- A powered port has the domain of its first lane's quad on. -/
theorem portPowered_quad (h : portPowered s p = true) (hp : p < 32) : pwrOn s (64 + p / 4) = true := by
  have hl : 1 ≤ portLanes s p := by
    unfold portLanes
    split <;> decide
  have hg := List.all_eq_true.1 h (p / 4) (List.mem_range.2 (by omega))
  simpa [show 4 * (p / 4) < p + portLanes s p by omega] using hg

end

/-! ### QUAD_CFG (R254, R255, R270) -/

/-- QUAD_CFG of quad g stores w: half a pair is reported, the ports formed anew or no longer follow, and broken twins end. -/
def quadStored (g : Nat) (w : Word) (s : State) : State :=
  let x := setRaw (aQUAD g) w s
  twinJudge (portsFollow ((List.range 32).filter (portOn s)) (if pairSplit x g then ulRefused (4 * g) (aQUAD g) x else x))

section
variable {g m a : Nat} {w : Word} {s : State}

theorem quadWrite_same (h : quadMode s g = m) : quadWrite g m s = s := if_pos h

theorem quadWrite_busy (h : quadMode s g ≠ m) (hb : quadBusy s g = true) : quadWrite g m s = ulRefused (4 * g) (aQUAD g) s :=
  (if_neg h).trans (if_pos hb)

theorem quadWrite_stores (h : quadMode s g ≠ m) (hb : quadBusy s g = false) : quadWrite g m s = quadStored g (BitVec.ofNat 32 m) s :=
  (if_neg h).trans (if_neg (by rw [hb]; decide))

/-- The twins judged leave every register but PORT_CFG and those of reports. -/
theorem regRaw_twinJudge (hg : a ≠ aGLB_EVT) (hh : a ≠ aHEVT 0) (hp : ∀ p, a ≠ aPORT p) (s : State) : regRaw (twinJudge s) a = regRaw s a := by
  unfold twinJudge
  generalize List.range 32 = l
  induction l generalizing s with
  | nil => rfl
  | cons p l ih =>
    refine (ih _).trans ?_
    dsimp only
    split
    · rw [(keepsRegs_ulRefused ..).raw a hg hh, regRaw_setRaw_ne _ _ (hp p)]
    · rfl

theorem regRaw_quadStored (hg : a ≠ aGLB_EVT) (hh : a ≠ aHEVT 0) (hp : ∀ p, a ≠ aPORT p) :
    regRaw (quadStored g w s) a = regRaw (setRaw (aQUAD g) w s) a := by
  unfold quadStored
  dsimp only
  rw [regRaw_twinJudge hg hh hp, (keepsRegs_portsFollow ..).raw a hg hh]
  split
  · exact (keepsRegs_ulRefused ..).raw a hg hh
  · rfl

theorem quadMode_quadStored (g e : Nat) (w : Word) (s : State) : quadMode (quadStored g w s) e = if e = g then fld w.toNat 1 0 else quadMode s e := by
  rw [quadMode, regFld, regRaw_quadStored aQUAD_ne_evt.1 aQUAD_ne_evt.2 (fun _ => aQUAD_ne_aPORT)]
  split
  next h => rw [h, regRaw_setRaw_same]
  next h =>
    rw [regRaw_setRaw_ne s w (by simp only [aQUAD]; omega)]
    rfl

theorem keepsGpio_quadStored : KeepsGpio s (quadStored g w s) :=
  (keepsGpio_setQuad w).trans fun k hk => by
    have hk := List.mem_range.1 hk
    exact regRaw_quadStored (by simp only [aGPIO, aGLB_EVT]; omega) (by simp only [aGPIO, aHEVT]; omega) (fun p => by simp only [aGPIO, aPORT]; omega)

end

/-! ### A write to an uplink quad's block by BAR0 -/

/-- The register at a is one of RW fields at the head of an uplink quad's block, that no privilege covers. -/
structure UplinkReg (a : Nat) (i : RegInfo) : Prop where
  low : 0x400000 ≤ a
  high : a < 0x480000
  head : a % 0x10000 < 0x90
  aligned : a % 4 = 0
  info : regInfo a = some i
  noSc : i.sc = 0
  noLk : i.lk = 0
  stores : i.rw ≠ 0 ∨ i.ws ≠ 0
  classes : classBits a = 0

section
variable {a : Nat} {i : RegInfo} {v w ws m : Word} {s b t : State} {j : Instr}

/-- A whole write to a register that no lock covers, where it lands and leaves the GPIO registers. -/
theorem landBar_whole (hn : isAlias a = false) (hl : lockedBits s a = 0) (ht : regWrite a v 0xFFFFFFFF s = t) (hg : KeepsGpio s t) :
    landBar a 4 (v.setWidth 64) 0 s = mirrorBar a v t := by
  have hw : write32 a v 0 s = t := by
    rw [write32, regBase_plain hn, accMask_plain hn, accVal_plain hn]
    exact ht
  have hz : v &&& ~~~0 ||| regRaw s a &&& 0 = v := by
    rw [show v &&& ~~~0 = v from BitVec.and_allOnes]
    exact (congrArg (v ||| ·) BitVec.and_zero).trans BitVec.or_zero
  rw [landBar, if_neg (by decide), regBase_plain hn, hl, setWidth_64_32]
  dsimp only
  rw [if_neg (by simp), show (0 : Word) ||| 0 &&& ~~~0 = 0 from rfl, hw, gpioClash_none hg]
  dsimp only
  rw [hn, hz]
  rfl

namespace UplinkReg
variable (h : UplinkReg a i)
include h

theorem isAlias_eq : isAlias a = false := by
  obtain ⟨-, hh, -⟩ := h
  simp only [isAlias, Bool.and_eq_false_iff, decide_eq_false_iff_not]
  omega

theorem outside {x y : Nat} (hy : y ≤ 0x400000 ∨ 0x480000 ≤ x) : ¬(x ≤ a ∧ a < y) := by
  obtain ⟨hl, hh, -⟩ := h
  omega

theorem ne {x : Nat} (hx : x < 0x400000) : a ≠ x := by
  obtain ⟨hl, -⟩ := h
  omega

theorem lockedBits_eq : lockedBits s a = 0 := by
  rw [lockedBits, if_neg (not_or.2 ⟨h.ne (by decide), h.ne (by decide)⟩), if_neg (h.ne (by decide)), if_neg (h.ne (by decide))]

theorem inRegs_eq : inRegs a = true := decide_eq_true (by have := h.high; omega)

theorem regThere_eq : regThere s a = true := by
  have ha : a / 4 * 4 = a := by have := h.aligned; omega
  simp [regThere, h.inRegs_eq, ha, h.info]

/-- No counter stands at the head of the block, nor does the block hold halves of 64-bit registers there. -/
theorem badWidth_eq : badWidth s a 4 = false := by
  have hl := h.low
  have hh := h.high
  have ho := h.head
  have hx {x y : Nat} (hy : y ≤ 0x400000) : ¬(x ≤ a / 8 * 8 ∧ a / 8 * 8 < y) := by omega
  have hne {x : Nat} (hx : x < 0x400000) : a / 8 * 8 ≠ x := by omega
  have hc : isCounter s (a / 8 * 8) = false := by
    have h1 : ¬(0x1000 ≤ a / 8 * 8 % 0x10000) := by omega
    simp only [isCounter]
    rw [if_neg (by omega), if_neg (hx (by decide)), if_neg (hx (by decide)), if_neg (hx (by decide)), if_neg (hx (by decide)), if_neg (hx (by decide)),
      if_pos (by omega), decide_eq_false h1]
    rfl
  have hw : inWide s a = false := by
    rw [inWide, wide, is64, hc, holdSlot_below (by omega), decide_eq_false (hne (by decide)), decide_eq_false (hne (by decide)),
      decide_eq_false (hne (by decide)), decide_eq_false (hne (by decide))]
    exact Bool.and_false _
  rw [badWidth, h.isAlias_eq, if_neg (by decide), if_neg (by decide), hw]

theorem treeHere_eq : treeHere s a = true := by
  have hl : decide (0x800000 ≤ a) = false := decide_eq_false (by have := h.high; omega)
  simp [treeHere, hl]

/-- What a write stores there: QUAD_CFG and PORT_CFG by their own rules. -/
theorem regStore_eq : regStore a w ws m s = if a % 0x10000 = 0 then quadWrite ((a - 0x400000) / 0x10000) (fld w.toNat 1 0) s
    else if 0x10 ≤ a % 0x10000 ∧ a % 0x10000 < 0x90 ∧ (a % 0x10000 - 0x10) % 0x20 = 0 then
      portCfgWrite (4 * ((a - 0x400000) / 0x10000) + (a % 0x10000 - 0x10) / 0x20) w s
    else setRaw a w s := by
  have hr : ringFixed a = false := by
    have := h.low
    simp only [ringFixed, List.contains_eq_mem, decide_eq_false_iff_not, List.mem_cons, List.not_mem_nil, or_false]
    omega
  rw [regStore, if_neg (h.outside (.inl (by decide))), if_neg (h.ne (by decide)), if_neg (h.ne (by decide)), if_neg (h.ne (by decide)),
    if_neg (h.ne (by decide)), if_neg (h.ne (by decide)), hr, if_neg (by decide), if_neg (h.ne (by decide)), if_neg (h.outside (.inl (by decide))),
    if_neg (h.ne (by decide)), if_neg (h.ne (by decide)), if_neg (h.ne (by decide)), if_neg (h.outside (.inl (by decide))), if_pos ⟨h.low, h.high⟩]

/-- A BAR0 write to such a register waits for its boundary and is mirrored with what it leaves there. -/
theorem bars (ho : BarOpen s) (he : exec j s = bar32 a v s) (ht : regWrite a v 0xFFFFFFFF b = t) (hg : KeepsGpio b t) :
    Bars j a v s b (mirrorBar a v t) :=
  ⟨(he.trans (barStep_open ho)).trans
      (congrArg _ (barWrite_posts h.regThere_eq h.aligned h.badWidth_eq h.isAlias_eq h.classes h.lockedBits_eq)),
    landBar_whole h.isAlias_eq h.lockedBits_eq ht hg⟩

end UplinkReg

end

section
variable {v : Word} {s b t : State} {j : Instr}

theorem aQUAD_at (g : Fin 8) : aQUAD g.val % 0x10000 = 0 ∧ (aQUAD g.val - 0x400000) / 0x10000 = g.val := by
  have hg := g.isLt
  simp only [aQUAD]
  omega

theorem aPORT_at (l : Fin 32) : aPORT l.val % 0x10000 = 0x10 + l.val % 4 * 0x20 ∧ (aPORT l.val - 0x400000) / 0x10000 = l.val / 4 := by
  have hl := l.isLt
  simp only [aPORT]
  omega

theorem uplinkReg_quad (g : Fin 8) : UplinkReg (aQUAD g.val) { rw := 3 } := by
  have hg := g.isLt
  have hi : regInfo (aQUAD g.val) = some { rw := 3 } ∧ classBits (aQUAD g.val) = 0 := by
    revert g
    decide
  refine ⟨?_, ?_, ?_, ?_, hi.1, rfl, rfl, .inl (by decide), hi.2⟩
  all_goals
    simp only [aQUAD]
    omega

theorem uplinkReg_port (l : Fin 32) : UplinkReg (aPORT l.val) { rw := 0xFFE03FFF, rst := 0x2580 } := by
  have hl := l.isLt
  have hi : regInfo (aPORT l.val) = some { rw := 0xFFE03FFF, rst := 0x2580 } ∧ classBits (aPORT l.val) = 0 := by
    revert l
    decide
  refine ⟨?_, ?_, ?_, ?_, hi.1, rfl, rfl, .inl (by decide), hi.2⟩
  all_goals
    simp only [aPORT]
    omega

theorem writable_quad (g : Fin 8) : writable s (aQUAD g.val) = true := by
  have h := uplinkReg_quad g
  have hr : regHere s (aQUAD g.val) = true := by
    rw [regHere, if_neg (h.outside (.inr (by decide))), if_pos ⟨h.low, h.high⟩, (aQUAD_at g).1]
    rfl
  have hq : quadHere s (aQUAD g.val) = true := by simp [quadHere, (aQUAD_at g).1]
  rw [writable, h.inRegs_eq, hr, hq, h.treeHere_eq]
  rfl

theorem fld_quadModeWord (m : BitVec 2) : fld (m.setWidth 32 &&& 3 : Word).toNat 1 0 = m.toNat := by
  revert m
  decide

theorem regWrite_quad (g : Fin 8) (m : BitVec 2) : regWrite (aQUAD g.val) (m.setWidth 32) 0xFFFFFFFF s = quadWrite g.val m.toNat s := by
  have h := uplinkReg_quad g
  rw [regWrite_store (writable_quad g) h.info h.noSc h.noLk h.stores, h.regStore_eq, if_pos (aQUAD_at g).1, (aQUAD_at g).2, fld_quadModeWord]

theorem quad_bars (g : Fin 8) (m : BitVec 2) (ho : BarOpen s) (ht : quadWrite g.val m.toNat b = t) (hg : KeepsGpio b t) :
    Bars (.quadCfg g m) (aQUAD g.val) (m.setWidth 32) s b (mirrorBar (aQUAD g.val) (m.setWidth 32) t) :=
  (uplinkReg_quad g).bars ho rfl ((regWrite_quad g m).trans ht) hg

theorem regHere_port (l : Fin 32) : regHere s (aPORT l.val) = firstLane s l.val := by
  have h := uplinkReg_port l
  obtain ⟨ho, hg⟩ := aPORT_at l
  have hl : 4 * (l.val / 4) + (0x10 + l.val % 4 * 0x20 - 0x10) / 0x20 = l.val := by omega
  rw [regHere, if_neg (h.outside (.inr (by decide))), if_pos ⟨h.low, h.high⟩]
  dsimp only
  rw [ho, hg, if_pos (by omega), hl]

theorem quadHere_port (l : Fin 32) : quadHere s (aPORT l.val) = pwrOn s (64 + l.val / 4) := by
  have h := uplinkReg_port l
  obtain ⟨ho, hg⟩ := aPORT_at l
  have hn : ¬(64 + l.val / 4 = 78 ∨ 64 + l.val / 4 = 79) := by omega
  rw [quadHere, decide_eq_true h.low, decide_eq_true h.high, ho, hg, decide_eq_false (by omega), pwrOn, pwrOf, if_neg hn]
  simp

theorem writable_port (l : Fin 32) : writable s (aPORT l.val) = (firstLane s l.val && pwrOn s (64 + l.val / 4)) := by
  have h := uplinkReg_port l
  rw [writable, h.inRegs_eq, regHere_port, quadHere_port, h.treeHere_eq, Bool.true_and, Bool.and_true]

theorem portCfgOff_port (l : Fin 32) : portCfgOff s (aPORT l.val) = (firstLane s l.val && !pwrOn s (64 + l.val / 4)) := by
  have h := uplinkReg_port l
  obtain ⟨ho, -⟩ := aPORT_at l
  rw [portCfgOff, decide_eq_true h.low, decide_eq_true h.high, decide_eq_true h.head, ho, decide_eq_true (by omega), decide_eq_true (by omega),
    regHere_port, quadHere_port]
  simp

/-- ENABLE among the fields of PORT_CFG. -/
theorem portFields_enable (v : Word) : (v &&& 0xFFE03FFF).getLsbD 31 = v.getLsbD 31 := by simp

theorem regWrite_port (l : Fin 32) (v : Word) : regWrite (aPORT l.val) v 0xFFFFFFFF s = portCfgWrite l.val (v &&& 0xFFE03FFF) s := by
  have h := uplinkReg_port l
  obtain ⟨ho, hg⟩ := aPORT_at l
  have hl : 4 * (l.val / 4) + (0x10 + l.val % 4 * 0x20 - 0x10) / 0x20 = l.val := by omega
  have hoff (hw : writable s (aPORT l.val) = false) : regWrite (aPORT l.val) v 0xFFFFFFFF s =
      if portCfgOff s (aPORT l.val) && v.getLsbD 31 then ulRefused l.val (aPORT l.val) s else s := by
    rw [regWrite, h.info]
    dsimp only
    rw [if_pos (by rw [hw]; rfl), ho, hg, hl, show v &&& 0xFFFFFFFF = v from BitVec.and_allOnes]
  cases hf : firstLane s l.val
  · rw [hoff (by rw [writable_port, hf]; rfl), portCfgOff_port, hf, portCfgWrite_off hf]
    rfl
  cases hq : pwrOn s (64 + l.val / 4)
  · have hp : portPowered s l.val = false := Bool.eq_false_iff.2 fun hp => by
      rw [portPowered_quad hp l.isLt] at hq
      exact absurd hq (by decide)
    rw [hoff (by rw [writable_port, hf, hq]; rfl), portCfgOff_port, hf, hq, portCfgWrite_unpowered hf hp, portFields_enable]
    rfl
  · rw [regWrite_store (by rw [writable_port, hf, hq]; rfl) h.info h.noSc h.noLk h.stores, h.regStore_eq, ho, hg, if_neg (by omega), if_pos (by omega), hl]

theorem port_bars (l : Fin 32) (ho : BarOpen s) (he : exec j s = bar32 (aPORT l.val) v s) :
    Bars j (aPORT l.val) v s b (mirrorBar (aPORT l.val) v (portCfgWrite l.val (v &&& 0xFFE03FFF) b)) :=
  (uplinkReg_port l).bars ho he (regWrite_port l v) (keepsGpio_portCfgWrite l.val _ b)

/-! ### Fields of the values written -/

theorem withBits_getLsbD {a k : Nat} {m : Word} (hm : m.getLsbD k = true) (v : Word) : (withBits s a m v).getLsbD k = v.getLsbD k := by
  simp [withBits, hm]

theorem twinValue_on (on : Bool) (q : BitVec 5) : (((if on then 0x04000000 else 0) ||| (q.setWidth 32 <<< 21) : Word)).getLsbD 26 = on := by
  revert on q
  decide

theorem twinValue_of (on : Bool) (q : BitVec 5) :
    ((((if on then 0x04000000 else 0) ||| (q.setWidth 32 <<< 21) : Word)) >>> 21).setWidth 5 = q := by
  revert on q
  decide

/-- TWIN_OF as a slice of the word. -/
theorem fld_twinOf (v : Word) : fld v.toNat 25 21 = ((v >>> 21).setWidth 5).toNat := by
  rw [fld, BitVec.toNat_setWidth, BitVec.toNat_ushiftRight, Nat.shiftRight_eq_div_pow]

theorem withBits_twinOf {a : Nat} (v : Word) : fld (withBits s a 0x07E00000 v).toNat 25 21 = fld v.toNat 25 21 := by
  rw [fld_twinOf, fld_twinOf]
  refine congrArg BitVec.toNat (BitVec.eq_of_getLsbD_eq fun k hk => ?_)
  have hm : (0x07E00000 : Word).getLsbD (21 + k) = true := by
    interval_cases k <;> rfl
  simp only [BitVec.getLsbD_setWidth, BitVec.getLsbD_ushiftRight, withBits_getLsbD hm]

end

/-- Settles O25: QUAD_CFG's write in its three cases, PORT_CFG's as BAR0 brings it and as the register takes it. -/
theorem uplinkRegistersComplete : Obligations.UplinkRegistersComplete := by
  unfold Obligations.UplinkRegistersComplete
  refine ⟨fun g m s b ho => ⟨fun h => quad_bars g m ho (quadWrite_same h) (keepsGpio_of_regs rfl),
      fun h hb => quad_bars g m ho (quadWrite_busy h hb) (keepsRegs_ulRefused ..).gpio, fun h hb => ?quad⟩,
    fun l on s b ho => ⟨port_bars l ho rfl, ?enable⟩, fun l on q s b ho => ⟨port_bars l ho rfl, ?twinEn, ?twinOf⟩,
    fun l v b => ⟨portCfgWrite_off, portCfgWrite_unpowered, fun hf hp => ?port⟩⟩
  case quad =>
    have hw : BitVec.ofNat 32 m.toNat = m.setWidth 32 := BitVec.ofNat_toNat ..
    refine ⟨quad_bars g m ho ((quadWrite_stores h hb).trans (by rw [hw]; rfl)) (keepsGpio_quadStored (w := m.setWidth 32)),
      (quadMode_quadStored g g (m.setWidth 32) b).trans ?_, fun e he => (quadMode_quadStored g e (m.setWidth 32) b).trans ?_⟩
    · have hm := m.isLt
      rw [if_pos rfl, fld, Nat.pow_zero, Nat.div_one, BitVec.toNat_setWidth]
      omega
    · rw [if_neg (fun k => he (Fin.ext k))]
  case enable =>
    rw [withBits_getLsbD rfl]
    cases on <;> rfl
  case twinEn => rw [withBits_getLsbD rfl, twinValue_on]
  case twinOf => rw [withBits_twinOf, fld_twinOf, twinValue_of]
  case port =>
    obtain ⟨hregs, hon, hleaves, hstarts, hstays, hothers⟩ := portCfgWrite_takes (v := v) hf hp
    have hraw := regRaw_of_setPort hregs
    rw [portWord_enable] at hon hleaves hstarts hstays
    refine ⟨hon, fun h1 h2 => ?_, fun h => ?_, hleaves, hstarts, hstays, fun q hq => hothers q (fun h => hq (Fin.ext h))⟩
    · have hr : twinRefused l.val v b = true := by rw [twinRefused, h1, h2]; rfl
      exact ⟨by rw [hraw, portWord, if_pos hr], portCfgWrite_refused hf hp hr⟩
    · have hr : twinRefused l.val v b = false := by
        rcases h with h | h
        · rw [twinRefused, h, Bool.false_and]
        · rw [twinRefused, h, Bool.not_true, Bool.and_false]
      rw [hraw, portWord, if_neg (by rw [hr]; decide)]

end Sys2Proof.Machine
end
